-- ==== Sys2Proof/Word.lean ====
section
/-! DEFINITION. The word types of the ZL9128: a register is one 32-bit word (R490, R491), memory and frames are
bytes, and a count of bytes is a natural number. -/
namespace Sys2Proof

/-- One register word (R491: every register access is one aligned 32-bit word). -/
abbrev Word := BitVec 32

/-- One byte of a frame, of a record or of memory. -/
abbrev Byte := BitVec 8

/-- A string of bytes, first byte first. -/
abbrev Bytes := List Byte

end Sys2Proof
end

