-- ==== Sys2Proof/Syntax.lean ====
section
/-! DEFINITION. The commands of the block: one constructor of `Instr` for each row of spec/opcode_table.json, with
the row's operands. What the surroundings or a unit outside the model decide (the bytes of a frame, whether a check
passes) is an operand. -/
namespace Sys2Proof

/-- The five access paths to the register fabric (R490). -/
inductive Path where
  | bar0 | ring | mgmt | launch | cfg
deriving DecidableEq, Repr

/-- The PLLs: those of GLB_PLL_STATUS (Table 18.5), the SerDes PLL of a line lane and the fabric transmit PLL of a framer
(R34, R266). -/
inductive Pll where
  | fclk | tclk | dclkF | dclkT | mclk (k : Fin 8) | line | fabric | host | pciePhy | mgmt | time
  | lineLane (lane : Fin 128) | framer (f : Fin 32)
deriving DecidableEq, Repr

/-- Faults that meet a packet while it is resolved: the fault of no unit in ordinary operation. -/
structure ResolveFault where
  /-- the two resolver copies differ in this record byte, or only in learning request or copy decision (R155) -/
  miscompare : Option (Fin 64 × Bool) := none
  /-- stages whose associative hit fails verification (R146) -/
  verify : List (Fin 16) := []
  /-- stages whose stage-memory read meets a double-bit error (R141) -/
  smem : List (Fin 16) := []
deriving DecidableEq, Repr

/-- A Clause 73 base page, as far as R91 names its fields. -/
structure BasePage where
  kr1 : Bool
  cr1 : Bool
  rsFec : Bool
  nextPage : Bool
deriving DecidableEq, Repr

/-- Why the Dukider link is lost (R22, Table 16.9). -/
inductive DukCause where
  | replays | clock | untrained
deriving DecidableEq, Repr

/-- What a controller finds when it reads a line (R354): how many of its 72 symbols are in error, or a word that its check bytes
show to come from another row. -/
inductive DramEcc where
  | symbols (n : Fin 73)
  | otherRow
deriving DecidableEq, Repr

/-- What the codec of a fabric lane makes of a received codeword: it corrects up to 15 symbols (R269). -/
inductive Codeword where
  | corrected (symbols : Fin 16)
  | uncorrectable
deriving DecidableEq, Repr

/-- A configuration write that the host makes to the function: the dword of configuration space, its bytes and those enabled. -/
structure CfgWrite where
  dword : Fin 1024
  value : Word
  enables : BitVec 4
deriving DecidableEq, Repr

/-- Where a mailbox request came from (R436). -/
inductive MbxSrc where
  | ring (q : Fin 16384) | regs | console | smbus
deriving DecidableEq, Repr

/-- Where a table command comes from: the front entry of a ring, or a mailbox request with its payload (R185). -/
inductive TblSrc where
  | ring (sq : Fin 16384)
  | mailbox (src : MbxSrc) (payload : Bytes)
deriving DecidableEq, Repr

/-- What the SD card gives when the firmware looks for ZL9128FW.BIN (R457, R463): the volume and file found, with the
blocks of the image whose CRC fails on both readings. -/
inductive CardFile where
  | noCard | noFile | fsError
  | file (bytes : Bytes)
deriving DecidableEq, Repr

/-- Whether erase, program and read-back of the NVM succeed (R460, R482). -/
inductive NvmCheck where
  | good | error | blockCrc | signature
deriving DecidableEq, Repr

/-- The outcome of a tasting round (R418): pass, BIST error of a memory, or the golden packet and record byte that
differ or whose resolvers miscompare. -/
inductive Taste where
  | pass
  | bist (memory : BitVec 16)
  | mismatch (packet : Fin 64) (byte : Fin 64)
  | miscompare (packet : Fin 64)
deriving DecidableEq, Repr


/-- The commands of the ZL9128: one constructor for each row of the opcode table. The rows with
operands stand first, then those without, each part in the table's order. -/
inductive Instr where
  /-- SYS_RST_RELEASE (R466): SYS_RST_N is released, the straps are latched, device time starts at zero and start-up begins. -/
  | sysRstRelease (straps : Word)
  /-- PLL_LOCK_LOSS (R34): A PLL loses lock; the loss is logged and the outcome depends on the PLL's domain. -/
  | pllLockLoss (pll : Pll)
  /-- PLL_RELOCK (R34): A PLL locks again and its stopped domain resumes. -/
  | pllRelock (pll : Pll)
  /-- BOOT_ROM_VERIFY_COMPLETE (R472): The boot ROM finishes choosing and verifying a firmware slot and boots it. -/
  | bootRomVerifyComplete (sigA : Bool) (sigB : Bool)
  /-- BOOT_RECOVERY (R473): The boot ROM installs firmware from the SD card, or halts when no good image exists. -/
  | bootRecovery (file : CardFile) (sigOk : Bool) (uhs : Bool)
  /-- STACK_TRAINING_COMPLETE (R362): A stack finishes start-up training and becomes READY, or becomes LOST with cause 1. -/
  | stackTrainingComplete (k : Fin 8) (failed : Option (Fin 16))
  /-- DUKIDER_TRAINING_COMPLETE (R470): The Dukider link trains and the F-die windows start to answer. -/
  | dukiderTrainingComplete (ok : Bool)
  /-- BOOT_START_CMD (R471): A write of 1 to GLB_BOOT_CMD.start leaves host_wait and begins the SerDes step. -/
  | bootStartCmd (v : Word)
  /-- DRAM_POOL_READY (R215): The free list of a DRAM pool is complete and its ready bit is set. -/
  | dramPoolReady (cls : Fin 4)
  /-- TIME_FREQ_ADJ_WRITE (R41): A write to TIME_FREQ_ADJ sets the rate, is clamped if out of range, and re-rounds the increment. -/
  | timeFreqAdjWrite (v : Word)
  /-- TIME_SLEW_WRITE (R42): A write to TIME_SLEW replaces the remaining offset and starts a slew of up to 100 ppm. -/
  | timeSlewWrite (v : Word)
  /-- TIME_NOW_READ (R44): A read of TIME_NOW_NS latches the seconds and sub-nanosecond words of the same instant. -/
  | timeNowRead (path : Path)
  /-- TIME_CTRL_WRITE (R46): A write to TIME_CTRL that changes src_sel selects a source or free-run and moves the time state. -/
  | timeCtrlWrite (v : Word)
  /-- TIME_SAMPLE (R46): The selected source delivers a sample to the servo, and 16 good samples lead to LOCKED. -/
  | timeSample (offset : Int) (mgrValid : Bool)
  /-- PPS_IN_EDGE (R49): An edge on PPS_IN is timestamped and either accepted or counted and discarded. -/
  | ppsInEdge (rising : Bool) (widthNs : Nat)
  /-- PPS_CAPT_READ (R49): A read of TIME_PPS_CAPT_NS latches the seconds of the captured edge. -/
  | ppsCaptRead (path : Path)
  /-- TOD_LINE_RECEIVE (R50): A time-of-day line on TOD_RX is accepted for the next edge or rejected. -/
  | todLineReceive (line : Bytes)
  /-- ANNOUNCE_UTC_UPDATE (R52): Firmware copies the UTC offset and leap flags from a PTP Announce into TIME_UTC. -/
  | announceUtcUpdate (utcOffset : BitVec 16) (leap61 : Bool) (leap59 : Bool)
  /-- TXTS_DATA0_READ (R56): A read of TIME_TXTS_DATA0 latches DATA1–DATA3 and pops a transmit timestamp record. -/
  | txtsData0Read (path : Path)
  /-- SYNCE_SQUELCH (R58): A SyncE output squelches within 1 µs when its lane loses signal or lock. -/
  | synceSquelch (o : Fin 2)
  /-- SYNCE_RESUME (R58): A squelched SyncE output resumes 10 ms after its lane recovers. -/
  | synceResume (o : Fin 2)
  /-- ESMC_FRAME (R58): Firmware handles an ESMC frame and selects the SyncE lane by quality level. -/
  | esmcFrame (port : Fin 128) (sel : Option (Fin 2 × Fin 128))
  /-- LAUNCH_ARM (R62): LNCH_CMD op ARM writes the staged entry at an index, which for a distributed index on the manager also sends ARM to the workers. -/
  | launchArm (path : Path) (idx : BitVec 12)
  /-- LAUNCH_CANCEL (R64): LNCH_CMD op CANCEL cancels an entry that is HELD or ARMED. -/
  | launchCancel (path : Path) (idx : BitVec 12)
  /-- LAUNCH_READ (R62): LNCH_CMD op READ copies an entry into the staging registers. -/
  | launchRead (path : Path) (idx : BitVec 12)
  /-- LNCH_ENABLE_WRITE (R67): A write to LNCH_CTRL.enable pauses dispatch, or resumes it so that overdue entries act late. -/
  | lnchEnableWrite (v : Word)
  /-- VINTAGE_COMMIT (R166): A VINTAGE_COMMIT action makes vintage n current in all slices, or is refused by Table 6.1. -/
  | vintageCommit (idx : BitVec 12)
  /-- CALENDAR_SWITCH (R316): A CALENDAR_SWITCH action arms the transmit and/or receive page switch of the named links. -/
  | calendarSwitch (idx : BitVec 12)
  /-- GATE_SWAP (R250): A GATE_SWAP action makes the named gate bank of a port active. -/
  | gateSwap (idx : BitVec 12)
  /-- HARVEST (R513): A HARVEST action freezes the named counter sets into shadows and starts streaming, or is skipped. -/
  | harvest (idx : BitVec 12)
  /-- METER_PROFILE (R262): A METER_PROFILE action binds a new profile to a meter between two of its packets. -/
  | meterProfile (idx : BitVec 12)
  /-- SHAPER_PROFILE (R256): A SHAPER_PROFILE action binds a new profile to a shaper between two nominations. -/
  | shaperProfile (idx : BitVec 12)
  /-- DRAM_RETRAIN (R364): A DRAM_RETRAIN action pauses one channel to re-centre its timing, possibly after waiting. -/
  | dramRetrain (idx : BitVec 12)
  /-- MIRROR_START (R236): A MIRROR_START action sets a sampling session active. -/
  | mirrorStart (idx : BitVec 12)
  /-- MIRROR_STOP (R236): A MIRROR_STOP action clears a sampling session's active bit. -/
  | mirrorStop (idx : BitVec 12)
  /-- REG_WRITE (R71): A REG_WRITE action hands a read-modify-write to the register fabric at its instant. -/
  | regWrite (idx : BitVec 12)
  /-- MARK (R65): A MARK action sets LNCH_STATUS.mark at its instant. -/
  | mark (idx : BitVec 12)
  /-- CONFIRM_RECEIVE (R79): A worker receives CONFIRM for a distributed entry and moves it to ARMED. -/
  | confirmReceive (n : Fin 256)
  /-- DIST_CONFIRM_DEADLINE (R79): The instant minus 20 µs passes: CONFIRM ceases, an unconfirmed entry is CANCELLED on the manager and DISCARDED on the workers. -/
  | distConfirmDeadline (idx : BitVec 12)
  /-- LINE_FRAME_RECEIVE (R93): The MAC receives a frame, timestamps it and drops it or passes it to the slice steering, charging flow-control occupancy. -/
  | lineFrameReceive (p : Fin 128) (frame : Bytes) (fcsOk : Bool) (headOnly : Bool) (corrected : Nat) (bad : Nat) (blockErr : Nat)
  /-- PAUSE_FRAME_RECEIVE (R96): A PAUSE or PFC frame is consumed and stops or resumes the affected classes, unless it is ignored. -/
  | pauseFrameReceive (p : Fin 128) (frame : Bytes)
  /-- PAUSE_QUANTA_EXPIRE (R96): The received pause time of a class runs out and the class may send again. -/
  | pauseQuantaExpire (p : Fin 128) (prio : Fin 8)
  /-- PAUSE_WDOG_TRIP (R98): A priority stays paused for wdog_ms and the pause watchdog trips. -/
  | pauseWdogTrip (p : Fin 128) (prio : Fin 8)
  /-- PAUSE_WDOG_RECOVER (R98): recover_ms passes without a non-zero pause and the priority honours pause again. -/
  | pauseWdogRecover (p : Fin 128) (prio : Fin 8)
  /-- FC_FRAME_SEND (R97): An XOFF or zero-quanta flow-control frame is sent at the next frame boundary. -/
  | fcFrameSend (p : Fin 128)
  /-- FC_XOFF_REPEAT (R97): Half of tx_quanta elapses while the occupancy is above xon and XOFF is repeated. -/
  | fcXoffRepeat (p : Fin 128) (prio : Fin 8)
  /-- LINE_FRAME_TRANSMIT (R94): The MAC serialises a frame, timestamps it and applies one-step or two-step PTP handling. -/
  | lineFrameTransmit (p : Fin 128)
  /-- PORT_ENABLE (R88): enable is written to 1 and the port enters SIGNAL_WAIT or REFUSED. -/
  | portEnable (p : Fin 128)
  /-- PORT_DISABLE (R90): enable is written to 0 and the port enters DISABLED, being declared down and flushed if it was UP, HOLDOFF or DOWN. -/
  | portDisable (p : Fin 128)
  /-- PORT_SIGNAL_DETECT (R90): Signal is present on every lane and any flush is complete, so the port enters AN or LOCK_WAIT. -/
  | portSignalDetect (p : Fin 128)
  /-- AN_RESOLVED (R91): The Clause 73 base pages resolve and the port enters LOCK_WAIT. -/
  | anResolved (p : Fin 128) (page : BasePage) (ack : Bool)
  /-- AN_FAIL (R91): Auto-negotiation fails, an_fail is set and the port returns to SIGNAL_WAIT after 500 ms. -/
  | anFail (p : Fin 128)
  /-- PORT_LOCK_ACQUIRED (R90): CDR, block or alignment and FEC lock hold on every lane and the port enters DEBOUNCE. -/
  | portLockAcquired (p : Fin 128) (swapped : BitVec 4)
  /-- PORT_LOCK_TIMEOUT (R90): Lock is not reached within 100 ms and the port returns to SIGNAL_WAIT. -/
  | portLockTimeout (p : Fin 128)
  /-- PORT_DEBOUNCE_EXPIRE (R90): Lock holds for up_debounce_ms and the port enters UP. -/
  | portDebounceExpire (p : Fin 128)
  /-- PORT_LOCK_LOSS (R90): Signal or lock is lost, or fault ordered sets arrive, moving the port to HOLDOFF or LOCK_WAIT and cutting off a frame in serialisation. -/
  | portLockLoss (p : Fin 128) (fault : Bool)
  /-- PORT_HOLDOFF_EXPIRE (R90): holdoff_ms ends without recovery and the port enters DOWN. -/
  | portHoldoffExpire (p : Fin 128)
  /-- PORT_FLUSH_COMPLETE (R100): The flush of a port completes and a waiting port may leave SIGNAL_WAIT. -/
  | portFlushComplete (p : Fin 128)
  /-- INGRESS_ACCEPT (R16): A slice's ingress port takes a packet into an issue slot, and the press stamps its vintage and parses it. -/
  | ingressAccept (n : Fin 9) (parityBad : List (Fin 512))
  /-- PRESS_ENTRY_RELOAD (R114): After a parity error the slice reloads the transition entry from the golden copy in one ingress slot. -/
  | pressEntryReload (n : Fin 9) (e : Fin 512)
  /-- DRAM_LOOKUP_RESPONSE (R140): A DRAM table read returns to a stage, and is repeated on the other copy or made a miss when it is uncorrectable. -/
  | dramLookupResponse (n : Fin 9) (ecc : DramEcc)
  /-- STAGE_MEMORY_REFETCH (R141): After a double-bit error, the slice refetches the stage-memory line from its DRAM master. -/
  | stageMemoryRefetch (n : Fin 9) (line : Nat)
  /-- ASSOC_ENTRY_RELOAD (R146): After a failed hit verification, the slice reloads the associative entry from the golden copy in one ingress slot. -/
  | assocEntryReload (n : Fin 9) (e : Fin 32768)
  /-- ACTION_RESOLVE (R150): Both resolver copies compute the verdict, record, learning request and copy decision, and the results are compared. -/
  | actionResolve (n : Fin 9) (fault : ResolveFault)
  /-- DUKIDER_HANDOFF (R19): A slice sends a packet and its metadata record over the packet channel once it has flit credit. -/
  | dukiderHandoff (n : Fin 9)
  /-- DUKIDER_CYCLE_RECEIVE (R21): The receiver checks the eight CRCs of a cycle and delivers it, or asks for a replay. -/
  | dukiderCycleReceive (toT : Bool) (crc : BitVec 8)
  /-- DUKIDER_REPLAY (R21): The sender replays a failed cycle from its replay buffer. -/
  | dukiderReplay (toT : Bool)
  /-- DUKIDER_LINK_LOST (R22): 16 replays fail or the forwarded DCLK is absent for 100 ns, and the link is declared lost. -/
  | dukiderLinkLost (cause : DukCause)
  /-- CROSSING_PARITY_ERROR (R32): A Gray pointer parity error empties a crossing FIFO instance, counts the lost entries and logs. -/
  | crossingParityError (xing : Fin 26) (inst : Nat) (back : Bool) (lost : Nat)
  /-- EGRESS_EDIT (R158): A packet dispatched to a slice runs its edit program and is sent to the MAC, or is dropped, stale-dropped or discarded by a slice that is not active. -/
  | egressEdit (n : Fin 9)
  /-- PRS_WRITE (R123): SL_PRS_CMD op WRITE installs a transition entry in every serving slice and the golden copy, or is refused. -/
  | prsWrite (n : Fin 9) (idx : BitVec 10)
  /-- PRS_READ (R123): SL_PRS_CMD op READ copies a golden transition entry into staging. -/
  | prsRead (n : Fin 9) (idx : BitVec 10)
  /-- MS_WRITE (R161): SL_MS_CMD op WRITE writes a stage record, descriptor, edit program or edit data entry, or is refused. -/
  | msWrite (n : Fin 9) (target : BitVec 2) (idx : BitVec 12)
  /-- MS_READ (R161): SL_MS_CMD op READ copies an item into staging. -/
  | msRead (n : Fin 9) (target : BitVec 2) (idx : BitVec 12)
  /-- AS_WRITE (R147): SL_AS_CMD op WRITE writes an associative entry to the golden copy and every serving slice. -/
  | asWrite (n : Fin 9) (idx : BitVec 15)
  /-- AS_READ (R161): SL_AS_CMD op READ copies an associative entry into staging. -/
  | asRead (n : Fin 9) (idx : BitVec 15)
  /-- AS_INVALIDATE (R147): SL_AS_CMD op INVALIDATE invalidates an associative entry everywhere. -/
  | asInvalidate (n : Fin 9) (idx : BitVec 15)
  /-- AS_SEARCH (R148): SL_AS_CMD op SEARCH loads the slice's search context and returns the first match. -/
  | asSearch (n : Fin 9)
  /-- AS_NEXT_MATCH (R148): SL_AS_CMD op NEXT_MATCH returns the next match after the context's position. -/
  | asNextMatch (n : Fin 9)
  /-- RECLAIM_RECEIVE (R172): A worker receives RECLAIM naming its old vintage and reclaims it. -/
  | reclaimReceive (n : Fin 256)
  /-- TABLE_WRITE (R186): Table op WRITE writes or inserts an entry. -/
  | tableWrite (src : TblSrc)
  /-- TABLE_DELETE (R186): Table op DELETE invalidates an entry. -/
  | tableDelete (src : TblSrc)
  /-- TABLE_READ (R186): Table op READ writes an entry to host memory. -/
  | tableRead (src : TblSrc)
  /-- ROUTE_ADD (R188): Table op ROUTE_ADD adds a prefix or replaces its result. -/
  | routeAdd (src : TblSrc)
  /-- ROUTE_DEL (R186): Table op ROUTE_DEL removes a prefix. -/
  | routeDel (src : TblSrc)
  /-- TABLE_DUMP (R186): Table op DUMP writes the valid entries of the named buckets to host memory. -/
  | tableDump (src : TblSrc)
  /-- TABLE_FLUSH (R186): Table op FLUSH removes unlocked valid entries, optionally matched, from a hash-exact table. -/
  | tableFlush (src : TblSrc)
  /-- BUFFER_ALLOCATE (R200): An allocator cycle serves up to four requests and grants or fails each buffer. -/
  | bufferAllocate (pool : Fin 12) (bad : List Word)
  /-- BUFFER_HAND_OVER (R197): HAND_OVER changes a buffer's owner tag, or is refused. -/
  | bufferHandOver (party : Fin 14) (handle : Word) (newTag : Fin 14) (eccBad : Bool)
  /-- BUFFER_SET_REFS (R197): SET_REFS sets a buffer's reference count, or is refused. -/
  | bufferSetRefs (party : Fin 14) (handle : Word) (count : Nat) (eccBad : Bool)
  /-- BUFFER_FREE (R197): FREE lowers a buffer's count and returns it to its pool at 0, or is refused as a double or foreign free. -/
  | bufferFree (party : Fin 14) (handle : Word) (eccBad : Bool)
  /-- BPM_RSV_WRITE (R198): A write to BPM_RSV is accepted or refused by the minimum-sum limit. -/
  | bpmRsvWrite (o : Fin 14) (tier : Fin 2) (cls : Fin 4) (v : Word)
  /-- REVOKE_DRAIN_EXPIRE (R206): drain_ms ends after a slice failure, its operations are refused and the revocation scan starts. -/
  | revokeDrainExpire (n : Fin 9)
  /-- REVOCATION_SCAN_COMPLETE (R206): The revocation scan ends having revoked every buffer of the failed tag, and the recovery window closes. -/
  | revocationScanComplete (tag : Fin 14) (bad : List Word)
  /-- AUDIT_PASS_COMPLETE (R210): The sweep ends, reclaiming repeated suspects and repairing lists. -/
  | auditPassComplete (bad : List Word)
  /-- ADMISSION (R221): A packet with a granted buffer is metered, checked by Table 8.2 and enqueued or dropped. -/
  | admission (start : Fin 10)
  /-- EVACUATION_WRITE_COMPLETE (R223): The DRAM buffer holds the evacuated packet and its on-die buffer is freed. -/
  | evacuationWriteComplete (q : Nat)
  /-- NOMINATE (R227): An output's scheduler nominates a packet and charges its shapers. -/
  | nominate (o : Fin 10) (credit : BitVec 128)
  /-- EVAC_READ_COMPLETE (R225): A nominated DRAM-resident packet has been read back into staging, or is dropped. -/
  | evacReadComplete (o : Fin 10) (good : Bool)
  /-- DISPATCH (R230): An output dispatches a staged packet, holding it for a closed gate, guard band or HOLDOFF, or dropping it. -/
  | dispatch (target : Fin 17)
  /-- CUT_THROUGH_TAIL (R231): The tail of a cut-through packet arrives, its length is corrected, or it is found bad and dropped, stomped or aborted. -/
  | cutThroughTail (p : Fin 128) (frame : Bytes) (good : Bool)
  /-- GATE_EDGE (R246): The evaluation time reaches an edge of the gate list and the open mask changes. -/
  | gateEdge (p : Fin 128)
  /-- UNREACH_HEAD_DROP (R323): A VOQ's device stays unreachable for unreach_ms and its packets are dropped at the head. -/
  | unreachHeadDrop (dev : Fin 32)
  /-- TMQ_WRITE (R240): TMQ_CMD op WRITE writes an endpoint queue, group, class node or ingress share, or is refused. -/
  | tmqWrite (target : BitVec 2) (idx : BitVec 18)
  /-- TMQ_READ (R240): TMQ_CMD op READ copies a queue-manager entry into staging. -/
  | tmqRead (target : BitVec 2) (idx : BitVec 18)
  /-- REPL_WRITE (R240): REPL_CMD op WRITE writes a group or copy entry. -/
  | replWrite (target : Fin 2) (idx : BitVec 18)
  /-- REPL_READ (R240): REPL_CMD op READ copies a group or copy entry into staging. -/
  | replRead (target : Fin 2) (idx : BitVec 18)
  /-- QSTAT_READ (R240): A read of TMQ_QSTAT_BYTES latches TMQ_QSTAT_PKTS. -/
  | qstatRead (path : Path)
  /-- SHP_WRITE (R264): SHP_CMD op WRITE writes a shaper profile, binding, gate entry or bank header. -/
  | shpWrite (target : BitVec 2) (idx : BitVec 20)
  /-- SHP_READ (R264): SHP_CMD op READ copies a shaper or gate item into staging. -/
  | shpRead (target : BitVec 2) (idx : BitVec 20)
  /-- SHP_CRED_READ (R264): A read of SHP_CRED brings the selected shaper's credit up to date. -/
  | shpCredRead (path : Path)
  /-- MTR_WRITE (R264): MTR_CMD op WRITE writes a meter profile or binding. -/
  | mtrWrite (target : Fin 2) (idx : BitVec 17)
  /-- MTR_READ (R264): MTR_CMD op READ copies a meter item into staging. -/
  | mtrRead (target : Fin 2) (idx : BitVec 17)
  /-- MTR_BKT_READ (R264): A read of MTR_BKT_C refills the selected meter and latches MTR_BKT_P. -/
  | mtrBktRead (path : Path)
  /-- TRL_LINK_ENABLE (R283): enable is written to 1 and the link leaves OFF for ACQUIRE and starts sending frames. -/
  | trlLinkEnable (n : Fin 256)
  /-- TRL_LINK_DISABLE (R283): enable is written to 0 and the link returns to OFF. -/
  | trlLinkDisable (n : Fin 256)
  /-- PM_CLEAR (R297): pm_clear empties bins 0–18 of a link. -/
  | pmClear (n : Fin 256)
  /-- FABRIC_TX_RESUME (R271): 100 µs after a framer's transmit PLL relocks, its transmitters resume. -/
  | fabricTxResume (f : Fin 32)
  /-- CODEWORD_LOCK (R283): Signal, CDR lock and codeword lock are held and the link enters HUNT. -/
  | codewordLock (n : Fin 256) (swapped : Bool)
  /-- CELL_SLOT_TRANSMIT (R309): At the start of a cell slot the framer sends a relay, data, gleaned or idle cell. -/
  | cellSlotTransmit (n : Fin 256) (slot : Fin 64)
  /-- OVERHEAD_TRANSMIT (R281): The framer builds and sends the overhead slot of a frame. -/
  | overheadTransmit (n : Fin 256)
  /-- CELL_RECEIVE (R310): A received cell is checked and goes to reassembly, the interchange or a drop. -/
  | cellReceive (n : Fin 256) (slot : Fin 64) (bytes : Bytes) (cws : List Codeword) (bad : Bool)
  /-- OVERHEAD_RECEIVE (R282): An overhead slot arrives and drives alignment, flags, calendar requests, time samples, beacons and message fragments. -/
  | overheadReceive (n : Fin 256) (pos : Nat) (bytes : Bytes) (cws : List Codeword) (bad : Bool)
  /-- DEFECT_DECLARE (R286): A link defect meets its declaration condition and is reported, logged and suppresses lower defects. -/
  | defectDeclare (n : Fin 256) (b : Fin 10)
  /-- DEFECT_CLEAR (R286): A reported link defect meets its clearing condition. -/
  | defectClear (n : Fin 256) (b : Fin 10)
  /-- TT_OFFSET_READ (R300): A read of TRL_LINK_OFFSET latches TRL_LINK_DELAY and TRL_LINK_TT_INFO. -/
  | ttOffsetRead (path : Path) (n : Fin 256)
  /-- PM_SECOND_FINAL (R297): 10 s after a second ends its classification is final and it enters the bins. -/
  | pmSecondFinal (n : Fin 256)
  /-- PM_BIN_READ (R301): A read of the start word of bin 0 or 17 latches the whole bin. -/
  | pmBinRead (path : Path) (n : Fin 256) (day : Bool)
  /-- CAL_WRITE (R306): TRL_CAL_CMD op WRITE writes a standby page entry or header, or is refused. -/
  | calWrite (target : BitVec 2) (link : BitVec 8) (page : Bool) (idx : BitVec 10)
  /-- CAL_READ (R325): TRL_CAL_CMD op READ copies a calendar entry or header into TRL_CAL_DATA. -/
  | calRead (target : BitVec 2) (link : BitVec 8) (page : Bool) (idx : BitVec 10)
  /-- CAL_TX_PAGE_SWITCH (R316): At the armed transmit calendar-cycle boundary the standby page becomes active, or the switch fails. -/
  | calTxPageSwitch (n : Fin 256)
  /-- CAL_RX_PAGE_SWITCH (R318): An armed receive side switches page at the received boundary of its persistent request. -/
  | calRxPageSwitch (n : Fin 256)
  /-- CAL_RX_SWITCH_TIMEOUT (R318): No valid boundary arrives within 23.6304 µs of the instant and the receive switch fails. -/
  | calRxSwitchTimeout (n : Fin 256)
  /-- REORDER_GAP_TIMEOUT (R313): A context's gap timer reaches reorder_ns, and the context syncs or drops the packet in assembly. -/
  | reorderGapTimeout (src : Fin 32) (tc : Fin 8)
  /-- CONTEXT_IDLE_TIMEOUT (R313): ctx_idle_us passes with no cell and the reassembly context returns to UNSYNC. -/
  | contextIdleTimeout (src : Fin 32) (tc : Fin 8)
  /-- REPORT_RECEIVE (R320): The manager assembles a worker's REPORT and records its demand, vintage and serial number. -/
  | reportReceive (src : Fin 32)
  /-- DRAM_READ (R350): A controller serves a line read by class, correcting, writing back or reporting it uncorrectable. -/
  | dramRead (r : Fin 4) (m : Nat) (ecc : DramEcc)
  /-- DRAM_WRITE (R353): A controller serves a line write, to both copies of a mirrored line. -/
  | dramWrite (r : Fin 4) (m : Nat) (line : Bytes)
  /-- SCRUB_READ (R357): The scrub reads the next line of its stack. -/
  | scrubRead (k : Fin 8) (ecc : DramEcc)
  /-- DRAM_ALERT (R358): A command parity or write CRC alert stops the channel and replays the retry buffer. -/
  | dramAlert (k : Fin 8) (c : Fin 16) (wr : Bool) (failed : Bool) (after : Fin 32)
  /-- CHANNEL_RECOVERY_COMPLETE (R359): Full retraining of a channel in recovery ends and the channel returns to service, or the stack is lost. -/
  | channelRecoveryComplete (k : Fin 8) (c : Fin 16) (ok : Bool)
  /-- REFRESH (R360): A bank's refresh interval ends and a refresh command is issued. -/
  | refresh (k : Fin 8) (c : Fin 16) (bank : Fin 128)
  /-- RANK_POWER_DOWN (R361): A rank receives no command for pd_idle_ns and enters power-down. -/
  | rankPowerDown (k : Fin 8) (c : Fin 16) (rank : Fin 2)
  /-- RETRAIN_PAUSE_END (R363): A retraining pause ends and the channel returns to service. -/
  | retrainPauseEnd (k : Fin 8) (c : Fin 16)
  /-- STACK_LOST (R366): A stack enters LOST, completes its reads as uncorrectable and discards its writes. -/
  | stackLost (k : Fin 8) (cause : Fin 16)
  /-- PCIE_LINK_UP (R375): The PCIe endpoint trains its link. -/
  | pcieLinkUp (speed : Fin 6) (width : Fin 17) (cfg : List CfgWrite)
  /-- SQ_DOORBELL (R384): An SQ doorbell write sets tail_seen, or is ignored. -/
  | sqDoorbell (q : Fin 16384) (v : Word) (partial_ : Bool)
  /-- CQ_DOORBELL (R392): A CQ doorbell publishes a head, held completions are written and fetching resumes. -/
  | cqDoorbell (c : Fin 4096) (v : Word) (partial_ : Bool)
  /-- SQ_UNIT0_READ (R381): The read of unit 0 at an SQ head completes and is owned or not. -/
  | sqUnit0Read (q : Fin 16384) (unit : Option Bytes)
  /-- SQ_POLL (R382): poll_us passes and a non-owned unit 0 is read again. -/
  | sqPoll (q : Fin 16384)
  /-- SQ_ENTRY_READ (R381): Units 1 onward of an entry arrive and the entry is dispatched by op. -/
  | sqEntryRead (q : Fin 16384) (rest : Option Bytes)
  /-- SKIP_ENTRY (R380): A SKIP entry is consumed with no completion and no reservation. -/
  | skipEntry (q : Fin 16384)
  /-- SUBMISSION_BAD_OP (R380): An unlisted op, or one not of the ring's kind, completes BAD_OP. -/
  | submissionBadOp (q : Fin 16384)
  /-- INJECT_RAW (R386): An INJECT_RAW entry reads its frame and enters at step 8 on the named egress queue. -/
  | injectRaw (q : Fin 16384)
  /-- INJECT_PIPE (R386): An INJECT_PIPE entry reads its frame and enqueues it on IQn for parsing in slice n. -/
  | injectPipe (q : Fin 16384)
  /-- INJECT_FRAME_READ_COMPLETE (R386): An injection's frame read returns and the packet is allocated and enqueued, or the entry ends in error. -/
  | injectFrameReadComplete (q : Fin 16384) (frame : Option Bytes)
  /-- POST_BUFFER (R387): A POST_BUFFER entry lends a host buffer to a punt ring. -/
  | postBuffer (q : Fin 16384)
  /-- REG_BATCH (R388): A REG_BATCH entry performs its register items in order. -/
  | regBatch (q : Fin 16384)
  /-- COMPLETION_WRITE (R392): Work ends and its completion is written to the CQ, or is held in its reserved place. -/
  | completionWrite (q : Fin 16384)
  /-- VECTOR_TIMER_EXPIRE (R393): timer_us passes since a vector's first unsignalled completion and it matures. -/
  | vectorTimerExpire (v : Fin 2048)
  /-- MSIX_UNMASK (R393): A vector is unmasked and its pending message is sent. -/
  | msixUnmask (v : Fin 2048) (dw : Fin 4) (w : Word)
  /-- SQ_ENABLE (R397): HOST_SQ_CTRL.enable is written 1 and the ring becomes ACTIVE, or the enable is refused. -/
  | sqEnable (q : Fin 16384)
  /-- SQ_DISABLE (R398): HOST_SQ_CTRL.enable is written 0, fetching stops and the ring drains. -/
  | sqDisable (q : Fin 16384)
  /-- SQ_DRAIN_COMPLETE (R396): Every in-flight entry has its completion written or held and the ring becomes DISABLED. -/
  | sqDrainComplete (q : Fin 16384)
  /-- CQ_ENABLE (R400): HOST_CQ_CTRL.enable is written 1 with valid BASE and SIZE. -/
  | cqEnable (c : Fin 4096)
  /-- CQ_DISABLE (R400): HOST_CQ_CTRL.enable is written 0, or is refused. -/
  | cqDisable (c : Fin 4096)
  /-- SLICE_HANG_TIMEOUT (R407): An active slice hands off or drops nothing for hang_us after accepting a packet. -/
  | sliceHangTimeout (n : Fin 9)
  /-- RACKING_COMPLETE (R414): The spare has applied all racking data and writes its claim, becoming ACTIVE. -/
  | rackingComplete (ok : Bool)
  /-- CLAIM_WRITE_REFUSED (R403): A claim write not enabled by the sequencer is ignored and counted. -/
  | claimWriteRefused (n : Fin 9) (g : Fin 8)
  /-- SLICE_DRAIN_COMPLETE (R415): A DRAINING slice holds no buffer and no transfer, and it becomes the spare. -/
  | sliceDrainComplete (n : Fin 9)
  /-- TASTING_ROUND_END (R418): A tasting round ends in pass or failure and SPR_HEALTH is updated. -/
  | tastingRoundEnd (res : Taste)
  /-- SPR_FORCE_FAIL (R430): SPR_FORCE op FAIL declares the named slice failed, by its state. -/
  | sprForceFail (n : BitVec 4)
  /-- SPR_FORCE_MOVE (R416): SPR_FORCE op MOVE moves a port group to the spare without a failure. -/
  | sprForceMove (g : Fin 8)
  /-- CELLAR_FRAME_RECEIVE (R423): In cellar mode a received frame is classified and forwarded on its fixed path or dropped. -/
  | cellarFrameReceive (p : Fin 128) (frame : Bytes)
  /-- MBX_INFO (R439): Mailbox request INFO returns the 48-byte identity and firmware state. -/
  | mbxInfo (src : MbxSrc)
  /-- MBX_SENSORS (R445): Mailbox request SENSORS returns the temperatures, rail voltages and power. -/
  | mbxSensors (src : MbxSrc)
  /-- EVT_READ (R451): Mailbox request EVT_READ returns event records. -/
  | evtRead (src : MbxSrc) (payload : Bytes)
  /-- EVT_NONCE (R452): Mailbox request EVT_NONCE returns a fresh 32-byte nonce. -/
  | evtNonce (src : MbxSrc)
  /-- EVT_CLEAR (R453): Mailbox request EVT_CLEAR authenticates and starts erasing the event log. -/
  | evtClear (src : MbxSrc)
  /-- FW_UPDATE (R459): Mailbox request FW_UPDATE stages, verifies and activates a firmware image from the SD card. -/
  | fwUpdate (src : MbxSrc) (file : CardFile) (sigOk : Bool) (nvm : NvmCheck) (uhs : Bool)
  /-- MBX_RESTART (R434): Mailbox request RESTART restarts the management cores after completing. -/
  | mbxRestart (src : MbxSrc)
  /-- OWNER_FUSE (R456): Mailbox request OWNER_FUSE fuses the owner key hash once. -/
  | ownerFuse (src : MbxSrc)
  /-- NVM_READ (R436): Mailbox request NVM_READ returns bytes of the NVM. -/
  | nvmRead (src : MbxSrc)
  /-- NVM_CFG_SELECT (R482): NVM_WRITE region 0 appends a boot header record selecting a configuration half. -/
  | nvmCfgSelect (src : MbxSrc) (nvm : NvmCheck)
  /-- NVM_WRITE_CONFIG_HALF (R482): NVM_WRITE region 1 or 2 erases or programs the unselected configuration half. -/
  | nvmWriteConfigHalf (src : MbxSrc) (nvm : NvmCheck)
  /-- NVM_WRITE_CALIBRATION (R482): NVM_WRITE region 3 erases or programs the calibration set. -/
  | nvmWriteCalibration (src : MbxSrc) (nvm : NvmCheck)
  /-- MBX_BAD_REQ (R445): A request not in Table 16.1, or not allowed from its source, ends BAD_REQ. -/
  | mbxBadReq (src : MbxSrc) (req : BitVec 16)
  /-- MBX_WAIT_TIMEOUT (R436): A request waits more than 10 s for service and ends BUSY. -/
  | mbxWaitTimeout (src : MbxSrc)
  /-- SENSOR_SAMPLE (R440): Every millisecond the sensors are sampled, driving warnings, refresh doubling and stack shutdown. -/
  | sensorSample (temps : List (BitVec 12))
  /-- VMON_SAMPLE (R444): Every millisecond each rail is sampled and excursions are flagged and logged. -/
  | vmonSample (mv : List (BitVec 16)) (power : BitVec 16)
  /-- REGISTER_WRITE (R494): A write to a register with no row of its own takes effect, alias, unmapped, partial and locked cases included. -/
  | registerWrite (path : Path) (off : BitVec 26) (v : Word) (partial_ : Bool)
  /-- SQC_WRITE (R497): A write to an SQC register clears bits when its count matches, or counts a mismatch. -/
  | sqcWrite (path : Path) (off : BitVec 26) (v : Word)
  /-- GLB_LOCK_WRITE (R499): A write to GLB_LOCK sets lock bits, which stay set until SYS_RST_N. -/
  | glbLockWrite (v : Word)
  /-- LOW_WORD_READ (R501): A read of the low word of a 64-bit value loads the path's high-word latch. -/
  | lowWordRead (path : Path) (off : BitVec 26)
  /-- RC_COUNTER_READ (R510): A read of a counter in clear-on-read mode returns and clears it, a chained pair together. -/
  | rcCounterRead (path : Path) (off : BitVec 26)
  /-- CNT_CLEAR_BANK (R511): CNT_CMD op CLEAR_BANK clears every counter of one bank. -/
  | cntClearBank (bank : BitVec 9)
  /-- CNT_MTR_SELECT (R516): A write to CNT_MTR_SEL loads a meter's six count words at one moment. -/
  | cntMtrSelect (v : Word)
  /-- PCIE_COMPLETION_TIMEOUT (R390): A device read over PCIe receives no completion within the completion timeout and its entry ends DMA_ERROR, or its ring enters FAULT. -/
  | pcieCompletionTimeout (q : Fin 16384)
  /-- POWER_ON (R467): Rails rise and every part of the device, the always-on domain included, is reset. -/
  | powerOn
  /-- POWER_LOSS (R525): Power is lost without sequence, and the only state the device may lose is torn NVM records or incomplete NVM writes. -/
  | powerLoss
  /-- SYS_RST_ASSERT (R467): SYS_RST_N is asserted and every domain except AONCLK is held in reset. -/
  | sysRstAssert
  /-- AON_CLOCK_LOSS (R529): AON_XIN stops, which stops the sensors, the thermal trip and the operating-time counter. -/
  | aonClockLoss
  /-- CALIBRATION_LOAD (R469): Huafin starts and reads the calibration set and the operating-time store, then loads trims, TIME_FREQ_ADJ and equaliser defaults. -/
  | calibrationLoad
  /-- CONFIG_IMAGE_START (R479): Step 5 reads the header of the selected configuration half and either applies records or halts for the host. -/
  | configImageStart
  /-- CFG_REG_WRITE (R478): A REG_WRITE record writes its values as BAR0 writes. -/
  | cfgRegWrite
  /-- CFG_FIELD_MODIFY (R478): A FIELD_MODIFY record read-modify-writes the masked bits of a register. -/
  | cfgFieldModify
  /-- CFG_TABLE_LOAD_RAW (R478): A raw TABLE_LOAD record writes 64-byte lines to both mirror copies of the table region. -/
  | cfgTableLoadRaw
  /-- CFG_TABLE_LOAD_COMMANDS (R478): A TABLE_LOAD record of command bodies runs table commands through the table-access engine. -/
  | cfgTableLoadCommands
  /-- CFG_PARSER_PROGRAM (R478): A PARSER_PROGRAM record writes transition entries through SL_PRS_CMD. -/
  | cfgParserProgram
  /-- CFG_STAGE_CONFIG (R478): A STAGE_CONFIG record writes stage records, descriptors, edit programs, edit data or associative entries. -/
  | cfgStageConfig
  /-- CFG_CALENDAR_PAGE (R478): A CALENDAR_PAGE record writes a calendar page's entries and then its header. -/
  | cfgCalendarPage
  /-- CFG_GATE_LIST (R478): A GATE_LIST record writes a gate bank's entries and then its header. -/
  | cfgGateList
  /-- CFG_LAUNCH_ENTRY (R478): A LAUNCH_ENTRY record arms a launch entry in 0–3071. -/
  | cfgLaunchEntry
  /-- CFG_CELLAR_TABLE (R478): A CELLAR_TABLE record writes SPR_CELLAR_TBL values. -/
  | cfgCellarTable
  /-- CFG_PARTITION (R478): A PARTITION record stages the region bases and sizes and commits them. -/
  | cfgPartition
  /-- CFG_END (R479): An END record, or the end of the half, ends loading and GLB_CFG_END records the cause. -/
  | cfgEnd
  /-- CFG_UNKNOWN_RECORD (R478): A record of an unlisted type is skipped by its length and counted. -/
  | cfgUnknownRecord
  /-- STAGE_MEMORY_FILL (R130): The slices fill their stage-memory replicas from the DRAM masters at the end of step 5. -/
  | stageMemoryFill
  /-- BOOT_SERDES_STEP_END (R469): Step 6 ends when every enabled lane has adapted or shows no signal, or after 2.5 s. -/
  | bootSerdesStepEnd
  /-- BOOT_ALIGN_STEP_END (R469): Step 7 ends when every enabled link with signal is in SYNC, or after 500 ms. -/
  | bootAlignStepEnd
  /-- FORWARDING_START (R165): started becomes 1: the initial vintage becomes current, the pools are checked, page 0 calendars activate and forwarding begins. -/
  | forwardingStart
  /-- OPTIME_RECORD_WRITE (R488): Firmware writes an operating-time record at power-on and every 60 s. -/
  | optimeRecordWrite
  /-- TIME_BASE_TICK (R41): Each TSCLK cycle adds the rounded increment, including any slew rate, to device time. -/
  | timeBaseTick
  /-- SLEW_CONSUMED (R42): The whole TIME_SLEW offset has been applied and the slew rate ends. -/
  | slewConsumed
  /-- TIME_STEP_SET (R43): TIME_STEP_CMD op 1 sets device time to the staged value, or is refused. -/
  | timeStepSet
  /-- TIME_STEP_ADD (R43): TIME_STEP_CMD op 2 adds the staged signed value to device time, or is refused. -/
  | timeStepAdd
  /-- TIME_SOURCE_LOSS (R46): The source delivers no usable sample for 4 periods, or 3 multiframes, and the state enters HOLDOVER. -/
  | timeSourceLoss
  /-- HOLDOVER_EXPIRE (R46): Holdover lasts holdover_s and the state becomes ACQUIRING. -/
  | holdoverExpire
  /-- PPS_MISSING_TIMEOUT (R49): No 1PPS input edge arrives for 1.1 s and pps_missing is set. -/
  | ppsMissingTimeout
  /-- PPS_OUT_EDGE (R51): Device time passes a whole second and PPS_OUT gives its leading edge. -/
  | ppsOutEdge
  /-- TOD_TX_SEND (R51): 500 ms after an output edge, TOD_TX sends the time-of-day line for the next edge. -/
  | todTxSend
  /-- LEAP_SECOND_APPLY (R52): At the UTC midnight second, the pending leap changes TAI − UTC, is cleared and is logged. -/
  | leapSecondApply
  /-- LAUNCH_RELATIVE_RELEASE (R63): Device time first becomes valid and HELD relative entries receive their instants. -/
  | launchRelativeRelease
  /-- LAUNCH_DISPATCH (R65): An eligible entry is dispatched to its target FIFO once it is next in order and the target has room. -/
  | launchDispatch
  /-- ARM_MESSAGE_RECEIVE (R78): A worker receives ARM from its manager and writes the entry HELD and answers ACK, or answers NACK. -/
  | armMessageReceive
  /-- ARM_REPEAT (R338): The manager repeats ARM every 16 frames to a worker that has not answered. -/
  | armRepeat
  /-- ANSWER_RECEIVE (R79): The manager receives an ANSWER to a launch or plan, and once all workers ACK it arms the entry or the switch. -/
  | answerReceive
  /-- VINTAGE_RECLAIM (R171): A standalone device's old vintage count reaches 0 and the vintage is reclaimed. -/
  | vintageReclaim
  /-- RECLAIM_SEND (R172): The manager, having two multiframes of zero reports, reclaims the old vintage and starts flashing RECLAIM. -/
  | reclaimSend
  /-- DRAIN_LIMIT_EXPIRE (R173): The old vintage has been old for drain_limit_ms and is retired by force. -/
  | drainLimitExpire
  /-- LEARN_ITEM_PROCESS (R178): The table-access engine performs one learning item: insert, move, refresh, locked or full. -/
  | learnItemProcess
  /-- EPOCH_ADVANCE (R181): The epoch period ends, SL_LRN_EPOCH advances and an ageing sweep begins. -/
  | epochAdvance
  /-- AGER_SWEEP_OPERATION (R181): The ager reads a bucket and removes entries older than max_age. -/
  | agerSweepOperation
  /-- AUDIT_PASS_START (R210): audit_ms has passed and the auditor begins a mark phase. -/
  | auditPassStart
  /-- CROSSBAR_CELL_TIME (R228): In each cell time the matcher runs two iterations and accepted cells move. -/
  | crossbarCellTime
  /-- REPLICATE (R233): The replication engine walks a group's copy list and makes copies. -/
  | replicate
  /-- REPORT_SEND (R320): Each multiframe a worker sends its demand and vintage REPORT to the manager. -/
  | reportSend
  /-- CALENDAR_RECOMPUTE (R321): Every recompute_mf multiframes the manager computes calendars and broadcasts a PLAN. -/
  | calendarRecompute
  /-- PLAN_RECEIVE (R338): A worker expands a PLAN into its standby pages and answers ACK or NACK. -/
  | planReceive
  /-- ELECT_TIMEOUT (R335): elect_mf multiframes pass in ELECTING and the candidate becomes ACTIVE manager. -/
  | electTimeout
  /-- MANAGER_LOSS (R333): No beacon with the obeyed claim is heard for 3 multiframes and the manager is declared lost. -/
  | managerLoss
  /-- SNAPSHOT_BROADCAST (R336): Every snap_mf multiframes the manager broadcasts a SNAPSHOT. -/
  | snapshotBroadcast
  /-- SNAPSHOT_RECEIVE (R336): A STANDBY candidate stores a complete snapshot. -/
  | snapshotReceive
  /-- PARTITION_COMMIT (R349): MC_PART_CMD commit checks and commits the staged partition, or refuses it. -/
  | partitionCommit
  /-- PERST (R376): PERST_N resets the endpoint and ring engine and revokes HOST buffers. -/
  | perst
  /-- FLR (R376): A Function Level Reset resets the endpoint and ring engine. -/
  | flr
  /-- PUNT_ITEM_WRITE (R387): Output 9 takes an item from a host queue and DMAs it into the bound punt ring's buffers. -/
  | puntItemWrite
  /-- PUNT_DMA_COMPLETE (R387): The last write of a punt item has been issued and its buffer is freed. -/
  | puntDmaComplete
  /-- D3HOT_ENTRY (R395): PowerState is set to D3hot: fetching stops and unstarted entries end FLUSHED. -/
  | d3hotEntry
  /-- D0_RETURN (R395): PowerState returns to D0: held completions are written and fetching resumes. -/
  | d0Return
  /-- RACKING_START (R410): The spare's tasting round has stopped and it enters RACKING for the port group. -/
  | rackingStart
  /-- RACKING_TIMEOUT (R414): The claim write has not happened 2 ms after the declaration and racking fails. -/
  | rackingTimeout
  /-- TASTING_ROUND_START (R417): Every 10 ms the spare starts a tasting round. -/
  | tastingRoundStart
  /-- TASTING_ROUND_TIMEOUT (R418): A tasting round is not complete after 4 ms and fails. -/
  | tastingRoundTimeout
  /-- SPR_FORCE_CELLAR (R421): SPR_FORCE op CELLAR puts the device in cellar mode. -/
  | sprForceCellar
  /-- MGMT_WDOG_EXPIRE (R434): The management watchdog is not rearmed for 2 s and the cores restart, or a trial falls back. -/
  | mgmtWdogExpire
  /-- MGMT_FW_READY (R434): Firmware serves again after a management restart and resumes paused work. -/
  | mgmtFwReady
  /-- TRIAL_COMMIT (R461): A new image runs 600 s, its slot is committed and anti-rollback fuses advance. -/
  | trialCommit
  /-- NONCE_EXPIRE (R452): A nonce becomes void 300 s after issue. -/
  | nonceExpire
  /-- EVT_CLEAR_ERASE_COMPLETE (R454): The event log erase ends, the clear record is written and EVT_CLEAR completes. -/
  | evtClearEraseComplete
  /-- EVENT_RECORD_WRITE (R447): Firmware writes the oldest FIFO event as one record in the NVM event log. -/
  | eventRecordWrite
  /-- CNT_CLEAR_SET (R511): CNT_CMD op CLEAR_SET clears every bank of the named sets. -/
  | cntClearSet
  /-- HARVEST_BLOCK_WRITE (R515): The harvest engine streams one block to the DRAM ring and/or the host queue, or discards it. -/
  | harvestBlockWrite
  /-- CARD_REMOVED (R463): The SD card is removed while a firmware update reads it, and the update ends at that point with NO_CARD or FS_ERROR. -/
  | cardRemoved
  /-- AON_XIN_RESTART (R529): AON_XIN runs again after a loss, and the sensors, the thermal trip and the operating-time counter resume. -/
  | aonXinRestart
deriving DecidableEq, Repr

end Sys2Proof
end

