-- ==== Sys2Proof/Decode.lean ====
section
/-! DEFINITION. Commands that a word spells. The opcode table gives no row any bits, because commands reach this block as
register accesses, protocol events and events on pins; no word spells one. -/
namespace Sys2Proof

/-- The command that the lowest `nbits` bits of `w` spell by the opcode table: none, since the table gives no row any bits. -/
def decodeTableWord (_nbits _w : Nat) : Option Instr := none

end Sys2Proof
end

