-- ==== Sys2Proof/Config.lean ====
section
/-! DEFINITION. What the spec leaves open: opaque constants without a body. Nothing can evaluate them, so that no
proof rests on a value. -/
namespace Sys2Proof.Config

/-- A stream of free values, read at the cursor `Dev.free` (log entry 2, DESIGN CHOICE). -/
opaque freeNat : Nat → Nat

/-- The factory serial number, MGMT_SERIAL0–3 (Table 16.6, reset 'Factory'; log entry 3, DESIGN CHOICE). -/
opaque factorySerial : Nat → Word

/-- Subsystem Vendor ID and Subsystem ID of the configuration header, which the spec does not state (R372; log entry 125, DESIGN
CHOICE). -/
opaque subsystemId : Word

end Sys2Proof.Config
end

