-- ==== Sys2Proof/Machine/Bits.lean ====
section
/-! DEFINITION. Bit fields, byte order and checks: the helpers every unit uses. R6 (bit ranges), R7 (byte order). -/
namespace Sys2Proof.Machine

/-- Bits [hi:lo] of a word as a number (R6). -/
def fld {n : Nat} (w : BitVec n) (hi lo : Nat) : Nat := (w.toNat >>> lo) % 2 ^ (hi - lo + 1)

/-- Bit `i` of a word. -/
def bit {n : Nat} (w : BitVec n) (i : Nat) : Bool := w.getLsbD i

/-- Place a number in a field that starts at bit `lo`. -/
def put (x lo : Nat) : Word := BitVec.ofNat 32 (x <<< lo)

/-- A word whose field [hi:lo] is replaced by `x`. -/
def setFld (w : Word) (hi lo x : Nat) : Word :=
  let m : Word := BitVec.ofNat 32 ((2 ^ (hi - lo + 1) - 1) <<< lo)
  (w &&& ~~~m) ||| (BitVec.ofNat 32 (x <<< lo) &&& m)

/-- One bit as a number. -/
def b2n (b : Bool) : Nat := if b then 1 else 0

/-- A number as a word. -/
def wd (x : Nat) : Word := BitVec.ofNat 32 x

/-- The signed reading of the low `n` bits of a number. -/
def signed (n x : Nat) : Int := (BitVec.ofNat n x).toInt

/-- The low `n` bits of an integer, as a number (two's complement). -/
def unsignedOf (n : Nat) (x : Int) : Nat := (BitVec.ofInt n x).toNat

/-- `n` bytes of a number, little-endian (R7: structures in memory). -/
def le : Nat → Nat → Bytes
  | 0, _ => []
  | n + 1, x => BitVec.ofNat 8 x :: le n (x / 256)

/-- `n` bytes of a number, most significant first (R7: structures on a Trellis link, Ethernet fields). -/
def be (n x : Nat) : Bytes := (le n x).reverse

/-- The number that bytes spell, little-endian. -/
def unle : Bytes → Nat
  | [] => 0
  | b :: bs => b.toNat + 256 * unle bs

/-- The number that bytes spell, most significant first. -/
def unbe (bs : Bytes) : Nat := unle bs.reverse

/-- The four bytes of a word, little-endian. -/
def wordBytes (w : Word) : Bytes := le 4 w.toNat

/-- The words of a byte string, little-endian; a short tail is filled with 0. -/
def toWords : Nat → Bytes → List Word
  | 0, _ => []
  | n + 1, bs => wd (unle (bs.take 4)) :: toWords n (bs.drop 4)

/-- Bytes `a` to `a + n - 1` of a string; bytes past the end read 0. -/
def slice (bs : Bytes) (a n : Nat) : Bytes :=
  (List.range n).map (fun i => bs.getD (a + i) 0)

/-- Replace the bytes from offset `a` on by `new`; a string is not made longer. -/
def overwrite (bs : Bytes) (a : Nat) (new : Bytes) : Bytes :=
  bs.take a ++ (new.take (bs.length - a)) ++ bs.drop (a + new.length)

/-- Pad with `0` up to a length. -/
def padTo (n : Nat) (bs : Bytes) : Bytes := bs ++ List.replicate (n - bs.length) 0

/-- Division rounded up. -/
def ceilDiv (a b : Nat) : Nat := (a + b - 1) / b

/-- Saturate a number at the largest value of `n` bits. -/
def satN (n x : Nat) : Nat := min x (2 ^ n - 1)

/-- Modulo-`2^n` distance from `a` forward to `b`. -/
def fwd (n a b : Nat) : Nat := (b + 2 ^ n - a % 2 ^ n) % 2 ^ n

/-- One bit step of a reflected CRC of width 32 with polynomial `p`. -/
def crcBit (p : Word) (c : Word) : Word :=
  if c.getLsbD 0 then (c >>> 1) ^^^ p else c >>> 1

/-- A reflected CRC register after one more byte. -/
def crcByte (p : Word) (c : Word) (b : Byte) : Word :=
  (List.range 8).foldl (fun c _ => crcBit p c) (c ^^^ b.zeroExtend 32)

/-- CRC-32C of RFC 3720 (R276) from a given initial register value, with the final inversion. -/
def crc32cFrom (init : Word) (bs : Bytes) : Word :=
  ~~~ (bs.foldl (crcByte 0x82F63B78#32) init)

/-- CRC-32C of RFC 3720 (R276): initial value all ones. -/
def crc32c (bs : Bytes) : Word := crc32cFrom 0xFFFFFFFF#32 bs

/-- One bit step of a CRC-16 taken most significant bit first, polynomial x^16 + x^12 + x^5 + 1. -/
def crc16Bit (c : BitVec 16) : BitVec 16 :=
  if c.getLsbD 15 then (c <<< 1) ^^^ 0x1021#16 else c <<< 1

/-- A CRC-16 register after one more byte. -/
def crc16Byte (c : BitVec 16) (b : Byte) : BitVec 16 :=
  (List.range 8).foldl (fun c _ => crc16Bit c) (c ^^^ (b.zeroExtend 16 <<< 8))

/-- The CRC-16 of R276: initial value all ones, most significant bit first, not inverted. -/
def crc16 (bs : Bytes) : BitVec 16 := bs.foldl crc16Byte 0xFFFF#16

end Sys2Proof.Machine
end

