-- ==== Sys2Proof/Machine/RegTable.lean ====
section
/-! DEFINITION. The register map of BAR0 (R490, R493, Table 18.1 and the register table of every chapter): the offset
of every register under its own name, and one row for each register with its access masks, its reset value and its
lock domain. -/
namespace Sys2Proof.Machine

/-- The blocks of Table 18.1. -/
inductive Block where
  | glb | time | lnch | pg | slice | bpm | tmq | schd | shp | mtr | repl | mc | trl | link | host | mgmt | cnt | spr
deriving DecidableEq, Repr

/-- One register row. `off`: offset in the window; `dims`: (count, stride) for each index; `rw`: the bits a write sets;
`sqc`: the sequence-clear status bits; `rst`: the reset value; `lock`: its lock domain (Table 18.3); `shared`: one
register over all windows of the block (R122, R160, R189, R369); `bank`: the counter bank when the row is a counter. -/
structure RegRow where
  off : Nat
  dims : List (Nat × Nat) := []
  rw : Word := 0#32
  sqc : Word := 0#32
  rst : List Nat → Word := fun _ => 0#32
  lock : Option Nat := none
  shared : Bool := false
  bank : Option (Nat → List Nat → Nat) := none

/-- The reset value of BPM_POOL_COUNT (Table 7.1). -/
def poolCountReset (t s : Nat) : Nat :=
  if t = 0 then [262144, 65536, 32768, 6553].getD s 0 else [100663296, 25165824, 12582912, 2516576].getD s 0

/-- The reset value of BPM_RSV (Table 7.4): owner `o`, tier `t`, size class `s`. -/
def rsvReset (o t s : Nat) : Nat :=
  if t ≠ 0 then 0
  else if o ≤ 8 then [8192, 2048, 1024, 128].getD s 0
  else if o = 9 then [16384, 4096, 2048, 512].getD s 0
  else if o = 10 then [1024, 256, 128, 32].getD s 0
  else if o = 11 then [256, 64, 32, 8].getD s 0
  else if o = 12 then [4096, 1024, 512, 128].getD s 0
  else 0

/-- The reset value of SPR_SLICE (Table 15.6): slice n ACTIVE and holding PGn, S8 the spare (R17). -/
def sliceReset (n : Nat) : Nat := if n < 8 then 0x08000000 + 0x01000000 * n else 0x10000000

/-- The chain field of CNT_BANK_CFG at reset (R509). -/
def chainReset (b : Nat) : Nat :=
  if 1 ≤ b ∧ b ≤ 128 then 0x0303 else if 173 ≤ b ∧ b ≤ 428 then 0x0113 else if 164 ≤ b ∧ b ≤ 171 then 0x0003 else 0

/-- GLB_CHIP_ID of block GLB (R2, 00_scope.md). -/
def Reg.GLB_CHIP_ID : Nat := 0x0
/-- TIME_CTRL of block TIME (R44, 02_device_time_and_launches.md). -/
def Reg.TIME_CTRL : Nat := 0x10000
/-- TIME_STATUS of block TIME (R44, 02_device_time_and_launches.md). -/
def Reg.TIME_STATUS : Nat := 0x10004
/-- TIME_FREQ_ADJ of block TIME (R44, 02_device_time_and_launches.md). -/
def Reg.TIME_FREQ_ADJ : Nat := 0x10008
/-- TIME_SLEW of block TIME (R44, 02_device_time_and_launches.md). -/
def Reg.TIME_SLEW : Nat := 0x1000c
/-- TIME_NOW_NS of block TIME (R44, 02_device_time_and_launches.md). -/
def Reg.TIME_NOW_NS : Nat := 0x10010
/-- TIME_NOW_SEC_LO of block TIME (R44, 02_device_time_and_launches.md). -/
def Reg.TIME_NOW_SEC_LO : Nat := 0x10014
/-- TIME_NOW_HI of block TIME (R44, 02_device_time_and_launches.md). -/
def Reg.TIME_NOW_HI : Nat := 0x10018
/-- TIME_STEP_NS of block TIME (R44, 02_device_time_and_launches.md). -/
def Reg.TIME_STEP_NS : Nat := 0x10020
/-- TIME_STEP_SEC_LO of block TIME (R44, 02_device_time_and_launches.md). -/
def Reg.TIME_STEP_SEC_LO : Nat := 0x10024
/-- TIME_STEP_SEC_HI of block TIME (R44, 02_device_time_and_launches.md). -/
def Reg.TIME_STEP_SEC_HI : Nat := 0x10028
/-- TIME_STEP_CMD of block TIME (R44, 02_device_time_and_launches.md). -/
def Reg.TIME_STEP_CMD : Nat := 0x1002c
/-- TIME_PPS_CTRL of block TIME (R44, 02_device_time_and_launches.md). -/
def Reg.TIME_PPS_CTRL : Nat := 0x10040
/-- TIME_PPS_CORR of block TIME (R44, 02_device_time_and_launches.md). -/
def Reg.TIME_PPS_CORR : Nat := 0x10044
/-- TIME_PPS_CAPT_NS of block TIME (R44, 02_device_time_and_launches.md). -/
def Reg.TIME_PPS_CAPT_NS : Nat := 0x10048
/-- TIME_PPS_CAPT_SEC of block TIME (R44, 02_device_time_and_launches.md). -/
def Reg.TIME_PPS_CAPT_SEC : Nat := 0x1004c
/-- TIME_UTC of block TIME (R44, 02_device_time_and_launches.md). -/
def Reg.TIME_UTC : Nat := 0x10050
/-- TIME_SYNCE_CTRL of block TIME (R44, 02_device_time_and_launches.md). -/
def Reg.TIME_SYNCE_CTRL (i : Nat) : Nat := 0x10060 + 0x4 * i
/-- TIME_TXTS_SEL of block TIME (R44, 02_device_time_and_launches.md). -/
def Reg.TIME_TXTS_SEL : Nat := 0x10100
/-- TIME_TXTS_DATA of block TIME (R44, 02_device_time_and_launches.md). -/
def Reg.TIME_TXTS_DATA (i : Nat) : Nat := 0x10104 + 0x4 * i
/-- TIME_PORT_CORR of block TIME (R44, 02_device_time_and_launches.md). -/
def Reg.TIME_PORT_CORR (i : Nat) : Nat := 0x11000 + 0x4 * i
/-- LNCH_CTRL of block LNCH (R63, 02_device_time_and_launches.md). -/
def Reg.LNCH_CTRL : Nat := 0x20000
/-- LNCH_STATUS of block LNCH (R63, 02_device_time_and_launches.md). -/
def Reg.LNCH_STATUS : Nat := 0x20004
/-- LNCH_CMD of block LNCH (R63, 02_device_time_and_launches.md). -/
def Reg.LNCH_CMD : Nat := 0x20008
/-- LNCH_FREE of block LNCH (R63, 02_device_time_and_launches.md). -/
def Reg.LNCH_FREE : Nat := 0x2000c
/-- LNCH_LATE_CNT of block LNCH (R63, 02_device_time_and_launches.md). -/
def Reg.LNCH_LATE_CNT : Nat := 0x20010
/-- LNCH_DISCARD_CNT of block LNCH (R63, 02_device_time_and_launches.md). -/
def Reg.LNCH_DISCARD_CNT : Nat := 0x20014
/-- LNCH_STAGE of block LNCH (R63, 02_device_time_and_launches.md). -/
def Reg.LNCH_STAGE (i : Nat) : Nat := 0x20020 + 0x4 * i
/-- PG_PORT_CFG of block PG (R86, 03_line_ports.md). -/
def Reg.PG_PORT_CFG (p : Nat) : Nat := 0x101000 + 0x10000 * (p / 16) + 0x40 * (p % 16)
/-- PG_PORT_CTRL of block PG (R86, 03_line_ports.md). -/
def Reg.PG_PORT_CTRL (p : Nat) : Nat := 0x101004 + 0x10000 * (p / 16) + 0x40 * (p % 16)
/-- PG_PORT_STATE of block PG (R86, 03_line_ports.md). -/
def Reg.PG_PORT_STATE (p : Nat) : Nat := 0x101008 + 0x10000 * (p / 16) + 0x40 * (p % 16)
/-- PG_FC_CFG of block PG (R86, 03_line_ports.md). -/
def Reg.PG_FC_CFG (p : Nat) : Nat := 0x10100c + 0x10000 * (p / 16) + 0x40 * (p % 16)
/-- PG_FC_WDOG of block PG (R86, 03_line_ports.md). -/
def Reg.PG_FC_WDOG (p : Nat) : Nat := 0x101010 + 0x10000 * (p / 16) + 0x40 * (p % 16)
/-- PG_FC_STATUS of block PG (R86, 03_line_ports.md). -/
def Reg.PG_FC_STATUS (p : Nat) : Nat := 0x101014 + 0x10000 * (p / 16) + 0x40 * (p % 16)
/-- PG_FC_THR of block PG (R86, 03_line_ports.md). -/
def Reg.PG_FC_THR (p i : Nat) : Nat := 0x101020 + 0x10000 * (p / 16) + 0x40 * (p % 16) + 0x4 * i
/-- PG_LANE_CFG of block PG (R86, 03_line_ports.md). -/
def Reg.PG_LANE_CFG (p : Nat) : Nat := 0x102000 + 0x10000 * (p / 16) + 0x4 * (p % 16)
/-- SL_PRS_STATUS of block SLICE (R122, 04_press_parser.md). -/
def Reg.SL_PRS_STATUS (n : Nat) : Nat := 0x204004 + 0x40000 * n
/-- SL_PRS_CMD of block SLICE (R122, 04_press_parser.md). -/
def Reg.SL_PRS_CMD : Nat := 0x204008
/-- SL_PRS_LAST_FAIL of block SLICE (R122, 04_press_parser.md). -/
def Reg.SL_PRS_LAST_FAIL (n : Nat) : Nat := 0x20400c + 0x40000 * n
/-- SL_PRS_STAGE of block SLICE (R122, 04_press_parser.md). -/
def Reg.SL_PRS_STAGE (i : Nat) : Nat := 0x204020 + 0x4 * i
/-- SL_PRS_RECIRC_EP of block SLICE (R122, 04_press_parser.md). -/
def Reg.SL_PRS_RECIRC_EP (i : Nat) : Nat := 0x204100 + 0x4 * i
/-- SL_PRS_PORT_CFG of block SLICE (R122, 04_press_parser.md). -/
def Reg.SL_PRS_PORT_CFG (i : Nat) : Nat := 0x204800 + 0x8 * i
/-- SL_PRS_PORT_PUNT of block SLICE (R122, 04_press_parser.md). -/
def Reg.SL_PRS_PORT_PUNT (i : Nat) : Nat := 0x204804 + 0x8 * i
/-- SL_MS_STATUS of block SLICE (R160, 05_match_stages.md). -/
def Reg.SL_MS_STATUS (n : Nat) : Nat := 0x205000 + 0x40000 * n
/-- SL_MS_CMD of block SLICE (R160, 05_match_stages.md). -/
def Reg.SL_MS_CMD : Nat := 0x205004
/-- SL_MS_LAST_MISCMP of block SLICE (R160, 05_match_stages.md). -/
def Reg.SL_MS_LAST_MISCMP (n : Nat) : Nat := 0x205008 + 0x40000 * n
/-- SL_MS_STAGE of block SLICE (R160, 05_match_stages.md). -/
def Reg.SL_MS_STAGE (i : Nat) : Nat := 0x205020 + 0x4 * i
/-- SL_RES_PORT_CFG of block SLICE (R160, 05_match_stages.md). -/
def Reg.SL_RES_PORT_CFG (i : Nat) : Nat := 0x205800 + 0x4 * i
/-- SL_AS_CMD of block SLICE (R160, 05_match_stages.md). -/
def Reg.SL_AS_CMD : Nat := 0x206004
/-- SL_AS_RESULT of block SLICE (R160, 05_match_stages.md). -/
def Reg.SL_AS_RESULT (n : Nat) : Nat := 0x206008 + 0x40000 * n
/-- SL_AS_SRCH of block SLICE (R160, 05_match_stages.md). -/
def Reg.SL_AS_SRCH : Nat := 0x20600c
/-- SL_AS_ENT_CTRL of block SLICE (R160, 05_match_stages.md). -/
def Reg.SL_AS_ENT_CTRL : Nat := 0x206010
/-- SL_AS_ACT of block SLICE (R160, 05_match_stages.md). -/
def Reg.SL_AS_ACT (i : Nat) : Nat := 0x206020 + 0x4 * i
/-- SL_AS_KEY of block SLICE (R160, 05_match_stages.md). -/
def Reg.SL_AS_KEY (i : Nat) : Nat := 0x206040 + 0x4 * i
/-- SL_AS_MASK of block SLICE (R160, 05_match_stages.md). -/
def Reg.SL_AS_MASK (i : Nat) : Nat := 0x206080 + 0x4 * i
/-- SL_VNT_STATUS of block SLICE (R189, 06_vintages_and_learning.md). -/
def Reg.SL_VNT_STATUS : Nat := 0x203000
/-- SL_VNT_STATE of block SLICE (R189, 06_vintages_and_learning.md). -/
def Reg.SL_VNT_STATE : Nat := 0x203004
/-- SL_VNT_CTRL of block SLICE (R189, 06_vintages_and_learning.md). -/
def Reg.SL_VNT_CTRL : Nat := 0x203008
/-- SL_VNT_INFLIGHT of block SLICE (R189, 06_vintages_and_learning.md). -/
def Reg.SL_VNT_INFLIGHT (i : Nat) : Nat := 0x203040 + 0x4 * i
/-- SL_LRN_PROF_CTRL of block SLICE (R189, 06_vintages_and_learning.md). -/
def Reg.SL_LRN_PROF_CTRL (i : Nat) : Nat := 0x203100 + 0x20 * i
/-- SL_LRN_PROF_SEG of block SLICE (R189, 06_vintages_and_learning.md). -/
def Reg.SL_LRN_PROF_SEG (i j : Nat) : Nat := 0x203104 + 0x20 * i + 0x4 * j
/-- SL_LRN_PROF_DATA of block SLICE (R189, 06_vintages_and_learning.md). -/
def Reg.SL_LRN_PROF_DATA (i : Nat) : Nat := 0x203114 + 0x20 * i
/-- SL_LRN_AGE_CFG of block SLICE (R189, 06_vintages_and_learning.md). -/
def Reg.SL_LRN_AGE_CFG : Nat := 0x203180
/-- SL_LRN_EPOCH of block SLICE (R189, 06_vintages_and_learning.md). -/
def Reg.SL_LRN_EPOCH : Nat := 0x203184
/-- BPM_CTRL of block BPM (R217, 07_buffer_pools.md). -/
def Reg.BPM_CTRL : Nat := 0x500000
/-- BPM_STATUS of block BPM (R217, 07_buffer_pools.md). -/
def Reg.BPM_STATUS : Nat := 0x500004
/-- BPM_LAST_FAULT of block BPM (R217, 07_buffer_pools.md). -/
def Reg.BPM_LAST_FAULT : Nat := 0x500008
/-- BPM_LAST_FAULT_BUF of block BPM (R217, 07_buffer_pools.md). -/
def Reg.BPM_LAST_FAULT_BUF : Nat := 0x50000c
/-- BPM_AUDIT_STATUS of block BPM (R217, 07_buffer_pools.md). -/
def Reg.BPM_AUDIT_STATUS : Nat := 0x500010
/-- BPM_POOL_BASE of block BPM (R217, 07_buffer_pools.md). -/
def Reg.BPM_POOL_BASE (i j : Nat) : Nat := 0x500100 + 0x40 * i + 0x10 * j
/-- BPM_POOL_COUNT of block BPM (R217, 07_buffer_pools.md). -/
def Reg.BPM_POOL_COUNT (i j : Nat) : Nat := 0x500104 + 0x40 * i + 0x10 * j
/-- BPM_POOL_FREE of block BPM (R217, 07_buffer_pools.md). -/
def Reg.BPM_POOL_FREE (i j : Nat) : Nat := 0x500108 + 0x40 * i + 0x10 * j
/-- BPM_POOL_RETIRED of block BPM (R217, 07_buffer_pools.md). -/
def Reg.BPM_POOL_RETIRED (i j : Nat) : Nat := 0x50010c + 0x40 * i + 0x10 * j
/-- BPM_RECIRC_CFG of block BPM (R217, 07_buffer_pools.md). -/
def Reg.BPM_RECIRC_CFG (i : Nat) : Nat := 0x500200 + 0x4 * i
/-- BPM_RECIRC_FREE of block BPM (R217, 07_buffer_pools.md). -/
def Reg.BPM_RECIRC_FREE (i : Nat) : Nat := 0x500210 + 0x4 * i
/-- BPM_RSV of block BPM (R217, 07_buffer_pools.md). -/
def Reg.BPM_RSV (i j k : Nat) : Nat := 0x501000 + 0x20 * i + 0x10 * j + 0x4 * k
/-- BPM_HELD of block BPM (R217, 07_buffer_pools.md). -/
def Reg.BPM_HELD (i j k : Nat) : Nat := 0x501400 + 0x20 * i + 0x10 * j + 0x4 * k
/-- TMQ_CTRL of block TMQ (R240, 08_queueing_and_scheduling.md). -/
def Reg.TMQ_CTRL : Nat := 0x510000
/-- TMQ_STATUS of block TMQ (R240, 08_queueing_and_scheduling.md). -/
def Reg.TMQ_STATUS : Nat := 0x510004
/-- TMQ_CMD of block TMQ (R240, 08_queueing_and_scheduling.md). -/
def Reg.TMQ_CMD : Nat := 0x510008
/-- TMQ_DATA of block TMQ (R240, 08_queueing_and_scheduling.md). -/
def Reg.TMQ_DATA (i : Nat) : Nat := 0x510010 + 0x4 * i
/-- TMQ_QSTAT_SEL of block TMQ (R240, 08_queueing_and_scheduling.md). -/
def Reg.TMQ_QSTAT_SEL : Nat := 0x510030
/-- TMQ_QSTAT_BYTES of block TMQ (R240, 08_queueing_and_scheduling.md). -/
def Reg.TMQ_QSTAT_BYTES : Nat := 0x510034
/-- TMQ_QSTAT_PKTS of block TMQ (R240, 08_queueing_and_scheduling.md). -/
def Reg.TMQ_QSTAT_PKTS : Nat := 0x510038
/-- TMQ_VOQ_LIMIT of block TMQ (R240, 08_queueing_and_scheduling.md). -/
def Reg.TMQ_VOQ_LIMIT (i : Nat) : Nat := 0x510100 + 0x8 * i
/-- TMQ_VOQ_EVAC of block TMQ (R240, 08_queueing_and_scheduling.md). -/
def Reg.TMQ_VOQ_EVAC (i : Nat) : Nat := 0x510104 + 0x8 * i
/-- TMQ_HQ_LIMIT of block TMQ (R240, 08_queueing_and_scheduling.md). -/
def Reg.TMQ_HQ_LIMIT : Nat := 0x510140
/-- SCHD_PTR of block SCHD (R240, 08_queueing_and_scheduling.md). -/
def Reg.SCHD_PTR (i : Nat) : Nat := 0x520010 + 0x4 * i
/-- SCHD_PORT_CFG of block SCHD (R240, 08_queueing_and_scheduling.md). -/
def Reg.SCHD_PORT_CFG (i : Nat) : Nat := 0x520100 + 0x4 * i
/-- REPL_STATUS of block REPL (R240, 08_queueing_and_scheduling.md). -/
def Reg.REPL_STATUS : Nat := 0x550004
/-- REPL_CMD of block REPL (R240, 08_queueing_and_scheduling.md). -/
def Reg.REPL_CMD : Nat := 0x550008
/-- REPL_DATA of block REPL (R240, 08_queueing_and_scheduling.md). -/
def Reg.REPL_DATA (i : Nat) : Nat := 0x550010 + 0x4 * i
/-- REPL_SESS_CTRL of block REPL (R240, 08_queueing_and_scheduling.md). -/
def Reg.REPL_SESS_CTRL (i : Nat) : Nat := 0x551000 + 0x20 * i
/-- REPL_SESS_RING of block REPL (R240, 08_queueing_and_scheduling.md). -/
def Reg.REPL_SESS_RING (i : Nat) : Nat := 0x551004 + 0x20 * i
/-- REPL_SESS_BASE of block REPL (R240, 08_queueing_and_scheduling.md). -/
def Reg.REPL_SESS_BASE (i : Nat) : Nat := 0x551008 + 0x20 * i
/-- REPL_SESS_SIZE of block REPL (R240, 08_queueing_and_scheduling.md). -/
def Reg.REPL_SESS_SIZE (i : Nat) : Nat := 0x55100c + 0x20 * i
/-- REPL_SESS_PROD of block REPL (R240, 08_queueing_and_scheduling.md). -/
def Reg.REPL_SESS_PROD (i : Nat) : Nat := 0x551010 + 0x20 * i
/-- REPL_SESS_CONS of block REPL (R240, 08_queueing_and_scheduling.md). -/
def Reg.REPL_SESS_CONS (i : Nat) : Nat := 0x551014 + 0x20 * i
/-- REPL_SESS_DROP of block REPL (R240, 08_queueing_and_scheduling.md). -/
def Reg.REPL_SESS_DROP (i : Nat) : Nat := 0x551018 + 0x20 * i
/-- REPL_COPY_FAIL of block REPL (R240, 08_queueing_and_scheduling.md). -/
def Reg.REPL_COPY_FAIL (i : Nat) : Nat := 0x554000 + 0x4 * i
/-- SHP_STATUS of block SHP (R264, 09_gates_shapers_meters.md). -/
def Reg.SHP_STATUS : Nat := 0x530004
/-- SHP_CMD of block SHP (R264, 09_gates_shapers_meters.md). -/
def Reg.SHP_CMD : Nat := 0x530008
/-- SHP_DATA of block SHP (R264, 09_gates_shapers_meters.md). -/
def Reg.SHP_DATA (i : Nat) : Nat := 0x530010 + 0x4 * i
/-- SHP_CRED_SEL of block SHP (R264, 09_gates_shapers_meters.md). -/
def Reg.SHP_CRED_SEL : Nat := 0x530030
/-- SHP_CRED of block SHP (R264, 09_gates_shapers_meters.md). -/
def Reg.SHP_CRED : Nat := 0x530034
/-- SHP_GATE_CFG of block SHP (R264, 09_gates_shapers_meters.md). -/
def Reg.SHP_GATE_CFG (i : Nat) : Nat := 0x530100 + 0x4 * i
/-- SHP_GATE_STATE of block SHP (R264, 09_gates_shapers_meters.md). -/
def Reg.SHP_GATE_STATE (i : Nat) : Nat := 0x530400 + 0x4 * i
/-- MTR_STATUS of block MTR (R264, 09_gates_shapers_meters.md). -/
def Reg.MTR_STATUS : Nat := 0x540004
/-- MTR_CMD of block MTR (R264, 09_gates_shapers_meters.md). -/
def Reg.MTR_CMD : Nat := 0x540008
/-- MTR_DATA of block MTR (R264, 09_gates_shapers_meters.md). -/
def Reg.MTR_DATA (i : Nat) : Nat := 0x540010 + 0x4 * i
/-- MTR_BKT_SEL of block MTR (R264, 09_gates_shapers_meters.md). -/
def Reg.MTR_BKT_SEL : Nat := 0x540030
/-- MTR_BKT_C of block MTR (R264, 09_gates_shapers_meters.md). -/
def Reg.MTR_BKT_C : Nat := 0x540034
/-- MTR_BKT_P of block MTR (R264, 09_gates_shapers_meters.md). -/
def Reg.MTR_BKT_P : Nat := 0x540038
/-- TRL_CTRL of block TRL (R299, 10_trellis_link.md). -/
def Reg.TRL_CTRL : Nat := 0x700000
/-- TRL_STATUS of block TRL (R299, 10_trellis_link.md). -/
def Reg.TRL_STATUS : Nat := 0x700004
/-- TRL_DEFECT_SUM of block TRL (R299, 10_trellis_link.md). -/
def Reg.TRL_DEFECT_SUM (i : Nat) : Nat := 0x700010 + 0x4 * i
/-- TRL_LINK_CTRL of block LINK (R300, 10_trellis_link.md). -/
def Reg.TRL_LINK_CTRL (n : Nat) : Nat := 0x800000 + 0x1000 * n
/-- TRL_LINK_STATUS of block LINK (R300, 10_trellis_link.md). -/
def Reg.TRL_LINK_STATUS (n : Nat) : Nat := 0x800004 + 0x1000 * n
/-- TRL_LINK_DEFECT of block LINK (R300, 10_trellis_link.md). -/
def Reg.TRL_LINK_DEFECT (n : Nat) : Nat := 0x800008 + 0x1000 * n
/-- TRL_LINK_NBR of block LINK (R300, 10_trellis_link.md). -/
def Reg.TRL_LINK_NBR (n : Nat) : Nat := 0x80000c + 0x1000 * n
/-- TRL_LINK_SDSF of block LINK (R300, 10_trellis_link.md). -/
def Reg.TRL_LINK_SDSF (n : Nat) : Nat := 0x800010 + 0x1000 * n
/-- TRL_LINK_ASYM of block LINK (R300, 10_trellis_link.md). -/
def Reg.TRL_LINK_ASYM (n : Nat) : Nat := 0x800014 + 0x1000 * n
/-- TRL_LINK_OFFSET of block LINK (R300, 10_trellis_link.md). -/
def Reg.TRL_LINK_OFFSET (n : Nat) : Nat := 0x800020 + 0x1000 * n
/-- TRL_LINK_DELAY of block LINK (R300, 10_trellis_link.md). -/
def Reg.TRL_LINK_DELAY (n : Nat) : Nat := 0x800024 + 0x1000 * n
/-- TRL_LINK_TT_INFO of block LINK (R300, 10_trellis_link.md). -/
def Reg.TRL_LINK_TT_INFO (n : Nat) : Nat := 0x800028 + 0x1000 * n
/-- TRL_LINK_BIN of block LINK (R300, 10_trellis_link.md). -/
def Reg.TRL_LINK_BIN (n i j : Nat) : Nat := 0x800800 + 0x1000 * n + 0x40 * i + 0x4 * j
/-- TRL_CAL_CTRL of block TRL (R325, 11_trellis_calendars.md). -/
def Reg.TRL_CAL_CTRL : Nat := 0x700100
/-- TRL_CAL_STATUS of block TRL (R325, 11_trellis_calendars.md). -/
def Reg.TRL_CAL_STATUS : Nat := 0x700104
/-- TRL_CAL_CMD of block TRL (R325, 11_trellis_calendars.md). -/
def Reg.TRL_CAL_CMD : Nat := 0x700108
/-- TRL_CAL_DATA of block TRL (R325, 11_trellis_calendars.md). -/
def Reg.TRL_CAL_DATA : Nat := 0x70010c
/-- TRL_CG_MAP of block TRL (R325, 11_trellis_calendars.md). -/
def Reg.TRL_CG_MAP : Nat := 0x700110
/-- TRL_RSM_CFG of block TRL (R325, 11_trellis_calendars.md). -/
def Reg.TRL_RSM_CFG : Nat := 0x700114
/-- TRL_RELAY_CFG of block TRL (R325, 11_trellis_calendars.md). -/
def Reg.TRL_RELAY_CFG : Nat := 0x700118
/-- TRL_REACH of block TRL (R325, 11_trellis_calendars.md). -/
def Reg.TRL_REACH : Nat := 0x70011c
/-- TRL_LINK_CAL_TX of block LINK (R326, 11_trellis_calendars.md). -/
def Reg.TRL_LINK_CAL_TX (n : Nat) : Nat := 0x800030 + 0x1000 * n
/-- TRL_LINK_CAL_RX of block LINK (R326, 11_trellis_calendars.md). -/
def Reg.TRL_LINK_CAL_RX (n : Nat) : Nat := 0x800034 + 0x1000 * n
/-- TRL_LINK_CAL_REQ of block LINK (R326, 11_trellis_calendars.md). -/
def Reg.TRL_LINK_CAL_REQ (n : Nat) : Nat := 0x800038 + 0x1000 * n
/-- TRL_LINK_PHASE of block LINK (R326, 11_trellis_calendars.md). -/
def Reg.TRL_LINK_PHASE (n : Nat) : Nat := 0x80003c + 0x1000 * n
/-- TRL_MGR_CFG of block TRL (R342, 12_manager_and_workers.md). -/
def Reg.TRL_MGR_CFG : Nat := 0x700200
/-- TRL_MGR_STATUS of block TRL (R342, 12_manager_and_workers.md). -/
def Reg.TRL_MGR_STATUS : Nat := 0x700204
/-- TRL_MGR_STATE of block TRL (R342, 12_manager_and_workers.md). -/
def Reg.TRL_MGR_STATE : Nat := 0x700208
/-- TRL_MGR_SNAP of block TRL (R342, 12_manager_and_workers.md). -/
def Reg.TRL_MGR_SNAP : Nat := 0x70020c
/-- TRL_MGR_TIME_LINK of block TRL (R342, 12_manager_and_workers.md). -/
def Reg.TRL_MGR_TIME_LINK : Nat := 0x700210
/-- MC_CTRL of block MC (R369, 13_rl_stacks.md). -/
def Reg.MC_CTRL (n : Nat) : Nat := 0x600000 + 0x10000 * n
/-- MC_STATUS of block MC (R369, 13_rl_stacks.md). -/
def Reg.MC_STATUS (n : Nat) : Nat := 0x600004 + 0x10000 * n
/-- MC_STATE of block MC (R369, 13_rl_stacks.md). -/
def Reg.MC_STATE (n : Nat) : Nat := 0x600008 + 0x10000 * n
/-- MC_PWR of block MC (R369, 13_rl_stacks.md). -/
def Reg.MC_PWR (n : Nat) : Nat := 0x60000c + 0x10000 * n
/-- MC_REFRESH of block MC (R369, 13_rl_stacks.md). -/
def Reg.MC_REFRESH (n : Nat) : Nat := 0x600010 + 0x10000 * n
/-- MC_SCRUB of block MC (R369, 13_rl_stacks.md). -/
def Reg.MC_SCRUB (n : Nat) : Nat := 0x600014 + 0x10000 * n
/-- MC_LAST_UE of block MC (R369, 13_rl_stacks.md). -/
def Reg.MC_LAST_UE (n : Nat) : Nat := 0x600018 + 0x10000 * n
/-- MC_CHAN of block MC (R369, 13_rl_stacks.md). -/
def Reg.MC_CHAN (n i : Nat) : Nat := 0x600040 + 0x10000 * n + 0x4 * i
/-- MC_PART_BASE of block MC (R369, 13_rl_stacks.md). -/
def Reg.MC_PART_BASE (i : Nat) : Nat := 0x600100 + 0x8 * i
/-- MC_PART_SIZE of block MC (R369, 13_rl_stacks.md). -/
def Reg.MC_PART_SIZE (i : Nat) : Nat := 0x600104 + 0x8 * i
/-- MC_PART_CMD of block MC (R369, 13_rl_stacks.md). -/
def Reg.MC_PART_CMD : Nat := 0x600120
/-- HOST_CTRL of block HOST (R401, 14_host_rings.md). -/
def Reg.HOST_CTRL : Nat := 0x900000
/-- HOST_STATUS of block HOST (R401, 14_host_rings.md). -/
def Reg.HOST_STATUS : Nat := 0x900004
/-- HOST_PCIE_STATE of block HOST (R401, 14_host_rings.md). -/
def Reg.HOST_PCIE_STATE : Nat := 0x900008
/-- HOST_PLACES of block HOST (R401, 14_host_rings.md). -/
def Reg.HOST_PLACES : Nat := 0x90000c
/-- HOST_CQ_BASE_LO of block HOST (R401, 14_host_rings.md). -/
def Reg.HOST_CQ_BASE_LO (i : Nat) : Nat := 0x910000 + 0x20 * i
/-- HOST_CQ_BASE_HI of block HOST (R401, 14_host_rings.md). -/
def Reg.HOST_CQ_BASE_HI (i : Nat) : Nat := 0x910004 + 0x20 * i
/-- HOST_CQ_SIZE of block HOST (R401, 14_host_rings.md). -/
def Reg.HOST_CQ_SIZE (i : Nat) : Nat := 0x910008 + 0x20 * i
/-- HOST_CQ_CTRL of block HOST (R401, 14_host_rings.md). -/
def Reg.HOST_CQ_CTRL (i : Nat) : Nat := 0x91000c + 0x20 * i
/-- HOST_CQ_STATE of block HOST (R401, 14_host_rings.md). -/
def Reg.HOST_CQ_STATE (i : Nat) : Nat := 0x910010 + 0x20 * i
/-- HOST_CQ_HEAD of block HOST (R401, 14_host_rings.md). -/
def Reg.HOST_CQ_HEAD (i : Nat) : Nat := 0x910014 + 0x20 * i
/-- HOST_HQ_BIND of block HOST (R401, 14_host_rings.md). -/
def Reg.HOST_HQ_BIND (i : Nat) : Nat := 0x930000 + 0x4 * i
/-- HOST_VEC_MOD of block HOST (R401, 14_host_rings.md). -/
def Reg.HOST_VEC_MOD (i : Nat) : Nat := 0x940000 + 0x8 * i
/-- HOST_VEC_STATE of block HOST (R401, 14_host_rings.md). -/
def Reg.HOST_VEC_STATE (i : Nat) : Nat := 0x940004 + 0x8 * i
/-- HOST_SQ_BASE_LO of block HOST (R401, 14_host_rings.md). -/
def Reg.HOST_SQ_BASE_LO (i : Nat) : Nat := 0x980000 + 0x20 * i
/-- HOST_SQ_BASE_HI of block HOST (R401, 14_host_rings.md). -/
def Reg.HOST_SQ_BASE_HI (i : Nat) : Nat := 0x980004 + 0x20 * i
/-- HOST_SQ_SIZE of block HOST (R401, 14_host_rings.md). -/
def Reg.HOST_SQ_SIZE (i : Nat) : Nat := 0x980008 + 0x20 * i
/-- HOST_SQ_CTRL of block HOST (R401, 14_host_rings.md). -/
def Reg.HOST_SQ_CTRL (i : Nat) : Nat := 0x98000c + 0x20 * i
/-- HOST_SQ_STATE of block HOST (R401, 14_host_rings.md). -/
def Reg.HOST_SQ_STATE (i : Nat) : Nat := 0x980010 + 0x20 * i
/-- HOST_SQ_INFO of block HOST (R401, 14_host_rings.md). -/
def Reg.HOST_SQ_INFO (i : Nat) : Nat := 0x980014 + 0x20 * i
/-- HOST_SQ_WB_LO of block HOST (R401, 14_host_rings.md). -/
def Reg.HOST_SQ_WB_LO (i : Nat) : Nat := 0x980018 + 0x20 * i
/-- HOST_SQ_WB_HI of block HOST (R401, 14_host_rings.md). -/
def Reg.HOST_SQ_WB_HI (i : Nat) : Nat := 0x98001c + 0x20 * i
/-- SPR_CTRL of block SPR (R431, 15_sparing_and_cellar_mode.md). -/
def Reg.SPR_CTRL : Nat := 0xc00000
/-- SPR_STATUS of block SPR (R431, 15_sparing_and_cellar_mode.md). -/
def Reg.SPR_STATUS : Nat := 0xc00004
/-- SPR_STATE of block SPR (R431, 15_sparing_and_cellar_mode.md). -/
def Reg.SPR_STATE : Nat := 0xc00008
/-- SPR_HANG of block SPR (R431, 15_sparing_and_cellar_mode.md). -/
def Reg.SPR_HANG : Nat := 0xc0000c
/-- SPR_HEALTH of block SPR (R431, 15_sparing_and_cellar_mode.md). -/
def Reg.SPR_HEALTH : Nat := 0xc00010
/-- SPR_TASTE_FAIL of block SPR (R431, 15_sparing_and_cellar_mode.md). -/
def Reg.SPR_TASTE_FAIL : Nat := 0xc00014
/-- SPR_FORCE of block SPR (R431, 15_sparing_and_cellar_mode.md). -/
def Reg.SPR_FORCE : Nat := 0xc00018
/-- SPR_CELLAR_CFG of block SPR (R431, 15_sparing_and_cellar_mode.md). -/
def Reg.SPR_CELLAR_CFG : Nat := 0xc00020
/-- SPR_SLICE of block SPR (R431, 15_sparing_and_cellar_mode.md). -/
def Reg.SPR_SLICE (i : Nat) : Nat := 0xc00100 + 0x4 * i
/-- SPR_PG of block SPR (R431, 15_sparing_and_cellar_mode.md). -/
def Reg.SPR_PG (i : Nat) : Nat := 0xc00200 + 0x4 * i
/-- SPR_CELLAR_TBL of block SPR (R431, 15_sparing_and_cellar_mode.md). -/
def Reg.SPR_CELLAR_TBL (i : Nat) : Nat := 0xc01000 + 0x4 * i
/-- MGMT_CTRL of block MGMT (R464, 16_management.md). -/
def Reg.MGMT_CTRL : Nat := 0xa00000
/-- MGMT_STATUS of block MGMT (R464, 16_management.md). -/
def Reg.MGMT_STATUS : Nat := 0xa00004
/-- MGMT_FW_STATE of block MGMT (R464, 16_management.md). -/
def Reg.MGMT_FW_STATE : Nat := 0xa00008
/-- MGMT_FUSE of block MGMT (R464, 16_management.md). -/
def Reg.MGMT_FUSE : Nat := 0xa0000c
/-- MGMT_SERIAL of block MGMT (R464, 16_management.md). -/
def Reg.MGMT_SERIAL (i : Nat) : Nat := 0xa00010 + 0x4 * i
/-- MGMT_EVT_INFO of block MGMT (R464, 16_management.md). -/
def Reg.MGMT_EVT_INFO : Nat := 0xa00020
/-- MGMT_EVT_LOST of block MGMT (R464, 16_management.md). -/
def Reg.MGMT_EVT_LOST : Nat := 0xa00024
/-- MGMT_POWER of block MGMT (R464, 16_management.md). -/
def Reg.MGMT_POWER : Nat := 0xa00028
/-- MGMT_TRIP of block MGMT (R464, 16_management.md). -/
def Reg.MGMT_TRIP : Nat := 0xa0002c
/-- MGMT_MBX_CMD of block MGMT (R464, 16_management.md). -/
def Reg.MGMT_MBX_CMD : Nat := 0xa00040
/-- MGMT_MBX_LEN of block MGMT (R464, 16_management.md). -/
def Reg.MGMT_MBX_LEN : Nat := 0xa00044
/-- MGMT_TEMP of block MGMT (R464, 16_management.md). -/
def Reg.MGMT_TEMP (i : Nat) : Nat := 0xa00100 + 0x4 * i
/-- MGMT_VMON of block MGMT (R464, 16_management.md). -/
def Reg.MGMT_VMON (i : Nat) : Nat := 0xa00200 + 0x4 * i
/-- MGMT_MBX_DATA of block MGMT (R464, 16_management.md). -/
def Reg.MGMT_MBX_DATA (i : Nat) : Nat := 0xa01000 + 0x4 * i
/-- GLB_STRAP of block GLB (R489, 17_startup_and_nvm.md). -/
def Reg.GLB_STRAP : Nat := 0x10
/-- GLB_BOOT of block GLB (R489, 17_startup_and_nvm.md). -/
def Reg.GLB_BOOT : Nat := 0x14
/-- GLB_BOOT_CMD of block GLB (R489, 17_startup_and_nvm.md). -/
def Reg.GLB_BOOT_CMD : Nat := 0x18
/-- GLB_CFG_END of block GLB (R489, 17_startup_and_nvm.md). -/
def Reg.GLB_CFG_END : Nat := 0x1c
/-- GLB_CFG_APPLIED of block GLB (R489, 17_startup_and_nvm.md). -/
def Reg.GLB_CFG_APPLIED : Nat := 0x20
/-- GLB_CFG_FAULTS of block GLB (R489, 17_startup_and_nvm.md). -/
def Reg.GLB_CFG_FAULTS : Nat := 0x24
/-- GLB_CFG_BUILD of block GLB (R489, 17_startup_and_nvm.md). -/
def Reg.GLB_CFG_BUILD : Nat := 0x28
/-- GLB_OPTIME of block GLB (R489, 17_startup_and_nvm.md). -/
def Reg.GLB_OPTIME : Nat := 0x2c
/-- GLB_PCC of block GLB (R489, 17_startup_and_nvm.md). -/
def Reg.GLB_PCC : Nat := 0x30
/-- GLB_STATUS of block GLB (R504, 18_register_interface.md). -/
def Reg.GLB_STATUS : Nat := 0x4
/-- GLB_LOCK of block GLB (R504, 18_register_interface.md). -/
def Reg.GLB_LOCK : Nat := 0x8
/-- GLB_SCRATCH of block GLB (R504, 18_register_interface.md). -/
def Reg.GLB_SCRATCH : Nat := 0xc
/-- GLB_LAST_FAULT of block GLB (R504, 18_register_interface.md). -/
def Reg.GLB_LAST_FAULT : Nat := 0x40
/-- GLB_CLK_CTRL of block GLB (R504, 18_register_interface.md). -/
def Reg.GLB_CLK_CTRL : Nat := 0x44
/-- GLB_PLL_STATUS of block GLB (R504, 18_register_interface.md). -/
def Reg.GLB_PLL_STATUS : Nat := 0x48
/-- CNT_CTRL of block CNT (R519, 19_counters_and_harvest.md). -/
def Reg.CNT_CTRL : Nat := 0xb00000
/-- CNT_STATUS of block CNT (R519, 19_counters_and_harvest.md). -/
def Reg.CNT_STATUS : Nat := 0xb00004
/-- CNT_CMD of block CNT (R519, 19_counters_and_harvest.md). -/
def Reg.CNT_CMD : Nat := 0xb00008
/-- CNT_CMD_MASK of block CNT (R519, 19_counters_and_harvest.md). -/
def Reg.CNT_CMD_MASK : Nat := 0xb0000c
/-- CNT_HV_STATE of block CNT (R519, 19_counters_and_harvest.md). -/
def Reg.CNT_HV_STATE : Nat := 0xb00010
/-- CNT_HV_SEQ of block CNT (R519, 19_counters_and_harvest.md). -/
def Reg.CNT_HV_SEQ : Nat := 0xb00014
/-- CNT_HV_BASE of block CNT (R519, 19_counters_and_harvest.md). -/
def Reg.CNT_HV_BASE : Nat := 0xb00020
/-- CNT_HV_SIZE of block CNT (R519, 19_counters_and_harvest.md). -/
def Reg.CNT_HV_SIZE : Nat := 0xb00024
/-- CNT_HV_PROD of block CNT (R519, 19_counters_and_harvest.md). -/
def Reg.CNT_HV_PROD : Nat := 0xb00028
/-- CNT_HV_CONS of block CNT (R519, 19_counters_and_harvest.md). -/
def Reg.CNT_HV_CONS : Nat := 0xb0002c
/-- CNT_HV_QCFG of block CNT (R519, 19_counters_and_harvest.md). -/
def Reg.CNT_HV_QCFG : Nat := 0xb00030
/-- CNT_MTR_SEL of block CNT (R519, 19_counters_and_harvest.md). -/
def Reg.CNT_MTR_SEL : Nat := 0xb00040
/-- CNT_MTR_DATA of block CNT (R519, 19_counters_and_harvest.md). -/
def Reg.CNT_MTR_DATA (i : Nat) : Nat := 0xb00044 + 0x4 * i
/-- CNT_BANK_CFG of block CNT (R519, 19_counters_and_harvest.md). -/
def Reg.CNT_BANK_CFG (i : Nat) : Nat := 0xb01000 + 0x4 * i
/-- The registers of block GLB. -/
def rowsGlb : List RegRow := [
  { off := 0x0, dims := [], rst := fun _ => 0x91280B00#32 },
  { off := 0x10, dims := [], rst := fun _ => 0#32 },
  { off := 0x14, dims := [] },
  { off := 0x18, dims := [] },
  { off := 0x1c, dims := [] },
  { off := 0x20, dims := [] },
  { off := 0x24, dims := [] },
  { off := 0x28, dims := [] },
  { off := 0x2c, dims := [] },
  { off := 0x30, dims := [] },
  { off := 0x4, dims := [], sqc := 0x3F00#32 },
  { off := 0x8, dims := [], rw := 0x1F#32 },
  { off := 0xc, dims := [], rw := 0xFFFFFFFF#32 },
  { off := 0x40, dims := [] },
  { off := 0x44, dims := [], lock := some 0, rw := 0x1F0F01#32 },
  { off := 0x48, dims := [] },
  { off := 0x8000, dims := [(32, 0x4)], shared := false, bank := some (fun _ _ => 0) }]
/-- The registers of block TIME. -/
def rowsTime : List RegRow := [
  { off := 0x0, dims := [], rw := 0xFFFF7F17#32, rst := fun _ => 0xE100000#32 },
  { off := 0x4, dims := [], sqc := 0xFF00#32 },
  { off := 0x8, dims := [], rw := 0xFFFFFFFF#32 },
  { off := 0xc, dims := [], rw := 0xFFFFFFFF#32 },
  { off := 0x10, dims := [] },
  { off := 0x14, dims := [] },
  { off := 0x18, dims := [] },
  { off := 0x20, dims := [], rw := 0xFFFFFFFF#32 },
  { off := 0x24, dims := [], rw := 0xFFFFFFFF#32 },
  { off := 0x28, dims := [], rw := 0xFFFF#32 },
  { off := 0x2c, dims := [] },
  { off := 0x40, dims := [], rw := 0xFFFFFF3F#32, rst := fun _ => 0x186A000#32 },
  { off := 0x44, dims := [], rw := 0xFFFFFFFF#32 },
  { off := 0x48, dims := [] },
  { off := 0x4c, dims := [] },
  { off := 0x50, dims := [], rw := 0x3FFFF#32, rst := fun _ => 0x25#32 },
  { off := 0x60, dims := [(2, 0x4)], rw := 0x3FF7F#32, rst := fun _ => 0x700#32 },
  { off := 0x100, dims := [], rw := 0x7F#32 },
  { off := 0x104, dims := [(4, 0x4)] },
  { off := 0x1000, dims := [(128, 0x4)], rw := 0xFFFFFFFF#32 }]
/-- The registers of block LNCH. -/
def rowsLnch : List RegRow := [
  { off := 0x0, dims := [], rw := 0x1#32, rst := fun _ => 0x1#32 },
  { off := 0x4, dims := [], sqc := 0xFE#32 },
  { off := 0x8, dims := [] },
  { off := 0xc, dims := [], rst := fun _ => 0xC00#32 },
  { off := 0x10, dims := [] },
  { off := 0x14, dims := [] },
  { off := 0x20, dims := [(8, 0x4)], rw := 0xFFFFFFFF#32 }]
/-- The registers of block PG. -/
def rowsPg : List RegRow := [
  { off := 0x1000, dims := [(16, 0x40)], rw := 0xFFFC0E0F#32, rst := fun _ => 0x96000000#32 },
  { off := 0x1004, dims := [(16, 0x40)], rw := 0xFFFFFF01#32, rst := fun _ => 0xA00#32 },
  { off := 0x1008, dims := [(16, 0x40)], sqc := 0x3F00#32 },
  { off := 0x100c, dims := [(16, 0x40)], rw := 0xFFE3FFFF#32, rst := fun _ => 0xFFFF#32 },
  { off := 0x1010, dims := [(16, 0x40)], rw := 0xFFFFFFFF#32, rst := fun _ => 0x640064#32 },
  { off := 0x1014, dims := [(16, 0x40)] },
  { off := 0x1020, dims := [(16, 0x40), (8, 0x4)], rw := 0xFFFFFFFF#32 },
  { off := 0x2000, dims := [(16, 0x4)], rw := 0x3#32 },
  { off := 0x8000, dims := [(16, 0x100), (32, 0x4)], shared := false, bank := some (fun g i => 1 + 16 * g + i.getD 0 0) }]
/-- The registers of block SLICE, first part. -/
def rowsSliceA : List RegRow := [
  { off := 0x4004, dims := [], sqc := 0xF00#32 },
  { off := 0x4008, dims := [], shared := true },
  { off := 0x400c, dims := [] },
  { off := 0x4020, dims := [(8, 0x4)], shared := true, rw := 0xFFFFFFFF#32 },
  { off := 0x4100, dims := [(16, 0x4)], shared := true, rw := 0xFFFFF000#32 },
  { off := 0x4800, dims := [(128, 0x8)], shared := true, rw := 0xFFFFF0FF#32, rst := fun _ => 0x55#32 },
  { off := 0x4804, dims := [(128, 0x8)], shared := true, rw := 0x3FF#32 },
  { off := 0x4c00, dims := [(16, 0x4)], shared := false, bank := some (fun n _ => 129 + n) },
  { off := 0x5000, dims := [], sqc := 0xF00#32 },
  { off := 0x5004, dims := [], shared := true },
  { off := 0x5008, dims := [] },
  { off := 0x5020, dims := [(16, 0x4)], shared := true, rw := 0xFFFFFFFF#32 },
  { off := 0x5800, dims := [(128, 0x4)], shared := true, rw := 0xFFFFFFF3#32 },
  { off := 0x6004, dims := [], shared := true },
  { off := 0x6008, dims := [] },
  { off := 0x600c, dims := [], shared := true, rw := 0xFFFE000F#32 },
  { off := 0x6010, dims := [], shared := true, rw := 0x800000FF#32 },
  { off := 0x6020, dims := [(2, 0x4)], shared := true, rw := 0xFFFFFFFF#32 },
  { off := 0x6040, dims := [(10, 0x4)], shared := true, rw := 0xFFFFFFFF#32 },
  { off := 0x6080, dims := [(10, 0x4)], shared := true, rw := 0xFFFFFFFF#32 }]
/-- The registers of block SLICE, second part. -/
def rowsSliceB : List RegRow := [
  { off := 0x7000, dims := [(32, 0x4)], shared := false, bank := some (fun n _ => 138 + n) },
  { off := 0x3000, dims := [], shared := true, sqc := 0x1F00#32 },
  { off := 0x3004, dims := [], shared := true },
  { off := 0x3008, dims := [], shared := true, rw := 0xFFFF000F#32, rst := fun _ => 0x3E80000#32 },
  { off := 0x3040, dims := [(16, 0x4)], shared := true },
  { off := 0x3100, dims := [(4, 0x20)], shared := true, rw := 0xFFFFF3FF#32 },
  { off := 0x3104, dims := [(4, 0x20), (4, 0x4)], shared := true, rw := 0x7FFFF#32 },
  { off := 0x3114, dims := [(4, 0x20)], shared := true, rw := 0x3F3F#32 },
  { off := 0x3180, dims := [], shared := true, rw := 0xFFFF00FF#32, rst := fun _ => 0x64001E#32 },
  { off := 0x3184, dims := [], shared := true },
  { off := 0x3800, dims := [(16, 0x4)], shared := true, bank := some (fun _ _ => 156) },
  { off := 0x2000, dims := [(14, 0x4)], shared := false, bank := some (fun n _ => 147 + n) }]
/-- The registers of block SLICE. -/
def rowsSlice : List RegRow := rowsSliceA ++ rowsSliceB
/-- The registers of block BPM. -/
def rowsBpm : List RegRow := [
  { off := 0x0, dims := [], rw := 0xFFFFFF02#32, rst := fun _ => 0x3E80A02#32 },
  { off := 0x4, dims := [], sqc := 0xFF00#32 },
  { off := 0x8, dims := [] },
  { off := 0xc, dims := [] },
  { off := 0x10, dims := [] },
  { off := 0x100, dims := [(2, 0x40), (4, 0x10)], rw := 0xFFFFF#32, rst := fun i => wd (if i.getD 0 0 = 0 then i.getD 1 0 * 0x40000 else i.getD 1 0 * 0xC00) },
  { off := 0x104, dims := [(2, 0x40), (4, 0x10)], rw := 0x1FFFFFFF#32, rst := fun i => wd (poolCountReset (i.getD 0 0) (i.getD 1 0)) },
  { off := 0x108, dims := [(2, 0x40), (4, 0x10)] },
  { off := 0x10c, dims := [(2, 0x40), (4, 0x10)] },
  { off := 0x200, dims := [(4, 0x4)], rw := 0xFFFF#32, rst := fun i => wd ([0x800, 0x200, 0x100, 0x40].getD (i.getD 0 0) 0) },
  { off := 0x210, dims := [(4, 0x4)] },
  { off := 0x1000, dims := [(14, 0x20), (2, 0x10), (4, 0x4)], rw := 0x1FFFFFFF#32, rst := fun i => wd (rsvReset (i.getD 0 0) (i.getD 1 0) (i.getD 2 0)) },
  { off := 0x1400, dims := [(16, 0x20), (2, 0x10), (4, 0x4)] },
  { off := 0x8000, dims := [(32, 0x4)], shared := false, bank := some (fun _ _ => 157) }]
/-- The registers of block TMQ. -/
def rowsTmq : List RegRow := [
  { off := 0x0, dims := [], rw := 0x3#32, rst := fun _ => 0x3#32 },
  { off := 0x4, dims := [], sqc := 0xF00#32 },
  { off := 0x8, dims := [] },
  { off := 0x10, dims := [(2, 0x4)], rw := 0xFFFFFFFF#32 },
  { off := 0x30, dims := [], rw := 0x1FFFFF#32 },
  { off := 0x34, dims := [] },
  { off := 0x38, dims := [] },
  { off := 0x100, dims := [(8, 0x8)], rw := 0xFFFFF#32, rst := fun _ => 0x10000#32 },
  { off := 0x104, dims := [(8, 0x8)], rw := 0xFFFFF#32, rst := fun _ => 0x400#32 },
  { off := 0x140, dims := [], rw := 0xFFFFF#32, rst := fun _ => 0x1000#32 },
  { off := 0x8000, dims := [(32, 0x4)], shared := false, bank := some (fun _ _ => 158) }]
/-- The registers of block SCHD. -/
def rowsSchd : List RegRow := [
  { off := 0x10, dims := [(10, 0x4)] },
  { off := 0x100, dims := [(128, 0x4)], rw := 0xFF#32 },
  { off := 0x8000, dims := [(114, 0x4)], shared := false, bank := some (fun _ _ => 159) }]
/-- The registers of block SHP. -/
def rowsShp : List RegRow := [
  { off := 0x4, dims := [], sqc := 0x700#32 },
  { off := 0x8, dims := [] },
  { off := 0x10, dims := [(4, 0x4)], rw := 0xFFFFFFFF#32 },
  { off := 0x30, dims := [], rw := 0xFFFFF#32 },
  { off := 0x34, dims := [] },
  { off := 0x100, dims := [(128, 0x4)], rw := 0xFFFFFFFF#32, rst := fun _ => 0xFF00C8#32 },
  { off := 0x400, dims := [(128, 0x4)], rst := fun _ => 0xFF0000#32 },
  { off := 0x8000, dims := [(16, 0x4)], shared := false, bank := some (fun _ _ => 160) }]
/-- The registers of block MTR. -/
def rowsMtr : List RegRow := [
  { off := 0x4, dims := [], sqc := 0x100#32 },
  { off := 0x8, dims := [] },
  { off := 0x10, dims := [(4, 0x4)], rw := 0xFFFFFFFF#32 },
  { off := 0x30, dims := [], rw := 0x1FFFF#32 },
  { off := 0x34, dims := [] },
  { off := 0x38, dims := [] },
  { off := 0x8000, dims := [(16, 0x4)], shared := false, bank := some (fun _ _ => 161) }]
/-- The registers of block REPL. -/
def rowsRepl : List RegRow := [
  { off := 0x4, dims := [], sqc := 0x700#32 },
  { off := 0x8, dims := [] },
  { off := 0x10, dims := [(2, 0x4)], rw := 0xFFFFFFFF#32 },
  { off := 0x1000, dims := [(64, 0x20)], rw := 0xF000FFFF#32 },
  { off := 0x1004, dims := [(64, 0x20)], rw := 0x3FF#32 },
  { off := 0x1008, dims := [(64, 0x20)], rw := 0xFFFFFFFF#32 },
  { off := 0x100c, dims := [(64, 0x20)], rw := 0xFFFFFF#32 },
  { off := 0x1010, dims := [(64, 0x20)] },
  { off := 0x1014, dims := [(64, 0x20)], rw := 0xFFFFFF#32 },
  { off := 0x1018, dims := [(64, 0x20)] },
  { off := 0x4000, dims := [(128, 0x4)] },
  { off := 0x8000, dims := [(16, 0x4)], shared := false, bank := some (fun _ _ => 162) }]
/-- The registers of block MC. -/
def rowsMc : List RegRow := [
  { off := 0x0, dims := [], rw := 0xFF000110#32, rst := fun _ => 0x40000110#32 },
  { off := 0x4, dims := [], sqc := 0x7F00#32 },
  { off := 0x8, dims := [] },
  { off := 0xc, dims := [], lock := some 1, rw := 0xFFFF#32, rst := fun _ => 0x7D0#32 },
  { off := 0x10, dims := [], lock := some 1, rw := 0xFF#32, rst := fun _ => 0x55#32 },
  { off := 0x14, dims := [], rw := 0xFF#32, rst := fun _ => 0x18#32 },
  { off := 0x18, dims := [] },
  { off := 0x40, dims := [(16, 0x4)] },
  { off := 0x100, dims := [(4, 0x8)], lock := some 1, shared := true, rw := 0x3FFF#32, rst := fun i => wd ([0x0000, 0x3000, 0x3C00, 0x3E00].getD (i.getD 0 0) 0) },
  { off := 0x104, dims := [(4, 0x8)], lock := some 1, shared := true, rw := 0x7FFF#32, rst := fun i => wd ([0x3000, 0x0C00, 0x0200, 0x0200].getD (i.getD 0 0) 0) },
  { off := 0x120, dims := [], shared := true },
  { off := 0x8000, dims := [(32, 0x4)], shared := false, bank := some (fun k _ => 164 + k) }]
/-- The registers of block TRL. -/
def rowsTrl : List RegRow := [
  { off := 0x0, dims := [], rw := 0x3#32, rst := fun _ => 0x1#32 },
  { off := 0x4, dims := [], sqc := 0x700#32 },
  { off := 0x10, dims := [(8, 0x4)] },
  { off := 0x100, dims := [], rw := 0x1FFFFFF#32, rst := fun _ => 0x108000A#32 },
  { off := 0x104, dims := [], sqc := 0x1F00#32 },
  { off := 0x108, dims := [] },
  { off := 0x10c, dims := [], rw := 0xFFFFFFFF#32 },
  { off := 0x110, dims := [], rw := 0xFFFF#32, rst := fun _ => 0xFA50#32 },
  { off := 0x114, dims := [], rw := 0xFFFFFFFF#32, rst := fun _ => 0x3E80FA0#32 },
  { off := 0x118, dims := [], rw := 0xFFFF#32, rst := fun _ => 0x7D0#32 },
  { off := 0x11c, dims := [] },
  { off := 0x8000, dims := [(32, 0x4)], shared := false, bank := some (fun _ _ => 172) },
  { off := 0x200, dims := [], rw := 0xFFF7FFFF#32, rst := fun _ => 0x230240#32 },
  { off := 0x204, dims := [], sqc := 0xF00#32 },
  { off := 0x208, dims := [] },
  { off := 0x20c, dims := [] },
  { off := 0x210, dims := [] }]
/-- The registers of block LINK. -/
def rowsLink : List RegRow := [
  { off := 0x0, dims := [], rw := 0x307#32 },
  { off := 0x4, dims := [], sqc := 0x1FFF00#32 },
  { off := 0x8, dims := [] },
  { off := 0xc, dims := [] },
  { off := 0x10, dims := [], rw := 0xFFFFFFFF#32, rst := fun _ => 0x2981006A#32 },
  { off := 0x14, dims := [], rw := 0xFFFF#32 },
  { off := 0x20, dims := [] },
  { off := 0x24, dims := [] },
  { off := 0x28, dims := [] },
  { off := 0x100, dims := [(32, 0x4)], shared := false, bank := some (fun n _ => 173 + n) },
  { off := 0x800, dims := [(19, 0x40), (16, 0x4)] },
  { off := 0x30, dims := [] },
  { off := 0x34, dims := [] },
  { off := 0x38, dims := [] },
  { off := 0x3c, dims := [] }]
/-- The registers of block HOST, first part. -/
def rowsHostA : List RegRow := [
  { off := 0x0, dims := [], rw := 0xFFFF8000#32, rst := fun _ => 0x10048000#32 },
  { off := 0x4, dims := [], sqc := 0x1F00#32 },
  { off := 0x8, dims := [], rst := fun _ => 0x700000#32 },
  { off := 0xc, dims := [] },
  { off := 0x8000, dims := [(32, 0x4)], shared := false, bank := some (fun _ _ => 429) },
  { off := 0x10000, dims := [(4096, 0x20)], rw := 0xFFFFF000#32 },
  { off := 0x10004, dims := [(4096, 0x20)], rw := 0xFFFFFFFF#32 },
  { off := 0x10008, dims := [(4096, 0x20)], rw := 0x1FFFF#32 },
  { off := 0x1000c, dims := [(4096, 0x20)], rw := 0xDFFF07FF#32, rst := fun _ => 0x400000#32 },
  { off := 0x10010, dims := [(4096, 0x20)] },
  { off := 0x10014, dims := [(4096, 0x20)] },
  { off := 0x30000, dims := [(1024, 0x4)], rw := 0x80003FFF#32 },
  { off := 0x40000, dims := [(2048, 0x8)], rw := 0xFFFF03FF#32 },
  { off := 0x40004, dims := [(2048, 0x8)] },
  { off := 0x80000, dims := [(16384, 0x20)], rw := 0xFFFFF000#32 },
  { off := 0x80004, dims := [(16384, 0x20)], rw := 0xFFFFFFFF#32 },
  { off := 0x80008, dims := [(16384, 0x20)], rw := 0x1FFFFF#32 },
  { off := 0x8000c, dims := [(16384, 0x20)], rw := 0xBFFF00FF#32 },
  { off := 0x80010, dims := [(16384, 0x20)], rst := fun _ => 0x80000000#32 },
  { off := 0x80014, dims := [(16384, 0x20)] }]
/-- The registers of block HOST, second part. -/
def rowsHostB : List RegRow := [
  { off := 0x80018, dims := [(16384, 0x20)], rw := 0xFFFFFFFC#32 },
  { off := 0x8001c, dims := [(16384, 0x20)], rw := 0xFFFFFFFF#32 }]
/-- The registers of block HOST. -/
def rowsHost : List RegRow := rowsHostA ++ rowsHostB
/-- The registers of block MGMT. -/
def rowsMgmt : List RegRow := [
  { off := 0x0, dims := [], rw := 0xFFFF#32, rst := fun _ => 0x6469#32 },
  { off := 0x4, dims := [], sqc := 0xFFE00#32 },
  { off := 0x8, dims := [] },
  { off := 0xc, dims := [] },
  { off := 0x10, dims := [(4, 0x4)], rst := fun _ => 0#32 },
  { off := 0x20, dims := [] },
  { off := 0x24, dims := [] },
  { off := 0x28, dims := [] },
  { off := 0x2c, dims := [] },
  { off := 0x40, dims := [] },
  { off := 0x44, dims := [], rw := 0x1FFF#32 },
  { off := 0x100, dims := [(40, 0x4)] },
  { off := 0x200, dims := [(12, 0x4)] },
  { off := 0x1000, dims := [(1024, 0x4)], rw := 0xFFFFFFFF#32 },
  { off := 0x8000, dims := [(32, 0x4)], shared := false, bank := some (fun _ _ => 430) }]
/-- The registers of block CNT. -/
def rowsCnt : List RegRow := [
  { off := 0x0, dims := [], rw := 0x1#32, rst := fun _ => 0x1#32 },
  { off := 0x4, dims := [], sqc := 0x1F00#32 },
  { off := 0x8, dims := [] },
  { off := 0xc, dims := [], rw := 0x1FFFFF#32 },
  { off := 0x10, dims := [] },
  { off := 0x14, dims := [] },
  { off := 0x20, dims := [], rw := 0xFFFFFFFF#32 },
  { off := 0x24, dims := [], rw := 0xFFFFFF#32 },
  { off := 0x28, dims := [] },
  { off := 0x2c, dims := [], rw := 0xFFFFFF#32 },
  { off := 0x30, dims := [], rw := 0x800003FF#32 },
  { off := 0x40, dims := [], rw := 0x1FFFF#32 },
  { off := 0x44, dims := [(6, 0x4)] },
  { off := 0x1000, dims := [(433, 0x4)], rw := 0x8000FFFF#32, rst := fun i => wd (chainReset (i.getD 0 0)) },
  { off := 0x8000, dims := [(32, 0x4)], shared := false, bank := some (fun _ _ => 432) }]
/-- The registers of block SPR. -/
def rowsSpr : List RegRow := [
  { off := 0x0, dims := [], rw := 0xFFFF0F01#32, rst := fun _ => 0x3E80201#32 },
  { off := 0x4, dims := [], sqc := 0x3F00#32 },
  { off := 0x8, dims := [], rst := fun _ => 0x8#32 },
  { off := 0xc, dims := [], rw := 0xFFFF#32, rst := fun _ => 0x3E8#32 },
  { off := 0x10, dims := [], rst := fun _ => 0x88000000#32 },
  { off := 0x14, dims := [] },
  { off := 0x18, dims := [], lock := some 2, rw := 0xF0000F07#32 },
  { off := 0x20, dims := [], rw := 0x80FF0000#32, rst := fun _ => 0x80C00000#32 },
  { off := 0x100, dims := [(9, 0x4)], rst := fun i => wd (sliceReset (i.getD 0 0)) },
  { off := 0x200, dims := [(8, 0x4)], rst := fun i => wd (0x80000001 + 0x10000 * i.getD 0 0) },
  { off := 0x1000, dims := [(128, 0x4)], rw := 0xFF7F7F00#32 },
  { off := 0x8000, dims := [(32, 0x4)], shared := false, bank := some (fun _ _ => 431) }]

/-- The rows of a block. -/
def Block.rows : Block → List RegRow
  | .glb => rowsGlb
  | .time => rowsTime
  | .lnch => rowsLnch
  | .pg => rowsPg
  | .slice => rowsSlice
  | .bpm => rowsBpm
  | .tmq => rowsTmq
  | .schd => rowsSchd
  | .shp => rowsShp
  | .mtr => rowsMtr
  | .repl => rowsRepl
  | .mc => rowsMc
  | .trl => rowsTrl
  | .link => rowsLink
  | .host => rowsHost
  | .mgmt => rowsMgmt
  | .cnt => rowsCnt
  | .spr => rowsSpr

/-- Base of the block's first window (Table 18.1). -/
def Block.base : Block → Nat
  | .glb => 0x0
  | .time => 0x10000
  | .lnch => 0x20000
  | .pg => 0x100000
  | .slice => 0x200000
  | .bpm => 0x500000
  | .tmq => 0x510000
  | .schd => 0x520000
  | .shp => 0x530000
  | .mtr => 0x540000
  | .repl => 0x550000
  | .mc => 0x600000
  | .trl => 0x700000
  | .link => 0x800000
  | .host => 0x900000
  | .mgmt => 0xa00000
  | .cnt => 0xb00000
  | .spr => 0xc00000

/-- Distance from one window of a block to the next (Table 18.1). -/
def Block.stride : Block → Nat
  | .pg => 0x10000 | .slice => 0x40000 | .mc => 0x10000 | .link => 0x1000 | _ => 0

/-- Number of windows of a block (Table 18.1). -/
def Block.count : Block → Nat
  | .pg => 8 | .slice => 9 | .mc => 8 | .link => 256 | _ => 1

/-- Size of one window of a block (Table 18.1). -/
def Block.size : Block → Nat
  | .slice => 0x40000 | .link => 0x1000 | .host => 0x100000 | _ => 0x10000

/-- Decode mask of a block (R493, Table 18.1). -/
def Block.mask : Block → Nat
  | .glb => 0x807C | .time => 0x11FC | .lnch => 0x003C | .pg => 0xBFFC | .slice => 0x7FFC | .bpm => 0x97FC
  | .tmq => 0x817C | .schd => 0x83FC | .shp => 0x87FC | .mtr => 0x803C | .repl => 0xD7FC | .mc => 0x81FC
  | .trl => 0x837C | .link => 0x0FFC | .host => 0xFFFFC | .mgmt => 0x9FFC | .cnt => 0xFFFC | .spr => 0x93FC

/-- Every block of Table 18.1. -/
def Block.all : List Block :=
  [.glb, .time, .lnch, .pg, .slice, .bpm, .tmq, .schd, .shp, .mtr, .repl, .mc, .trl, .link, .host, .mgmt, .cnt, .spr]

end Sys2Proof.Machine
end

