-- ==== Sys2Proof/Machine/Decoder.lean ====
section
/-! DEFINITION. The BAR0 decoder (R493, R494, R495): which window, which register, which alias. -/
namespace Sys2Proof.Machine

/-- What an offset reaches: block, window of the block that holds the register, window the access went through, row,
indices, own offset, and whether ignored bits were set. -/
structure RegHit where
  block : Block
  inst : Nat
  win : Nat
  row : RegRow
  idx : List Nat
  key : Nat
  alias_ : Bool

/-- The window an offset lies in: block, window number, offset in the window (Table 18.1). -/
def windowOf (off : Nat) : Option (Block × Nat × Nat) :=
  Block.all.findSome? fun b =>
    if off < b.base then none
    else
      let r := off - b.base
      let st := if b.stride = 0 then b.size else b.stride
      let n := r / st
      if n < b.count ∧ r - n * st < b.size then some (b, n, r - n * st) else none

/-- The indices that make an offset out of strides, when it lies exactly on one. -/
def dimIdx : List (Nat × Nat) → Nat → Option (List Nat)
  | [], r => if r = 0 then some [] else none
  | (n, st) :: ds, r =>
    let i := r / st
    if i < n then (dimIdx ds (r - i * st)).map (i :: ·) else none

/-- The row of a block that a masked window offset names. -/
def rowAt (b : Block) (o : Nat) : Option (RegRow × List Nat) :=
  b.rows.findSome? fun row => if o < row.off then none else (dimIdx row.dims (o - row.off)).map fun i => (row, i)

/-- The decoder of R493 to R495: none when the offset reaches no register. -/
def decodeReg (off : Nat) : Option RegHit :=
  match windowOf off with
  | none => none
  | some (b, n, inner) =>
    let o := inner &&& b.mask
    match rowAt b o with
    | none => none
    | some (row, idx) =>
      let inst := if row.shared then 0 else n
      some { block := b, inst := inst, win := n, row := row, idx := idx,
             key := b.base + inst * b.stride + o, alias_ := o != inner }

/-- The reset value of the register at its own offset (R11). -/
def regReset (key : Nat) : Word :=
  match decodeReg key with
  | some h => h.row.rst h.idx
  | none => 0#32

/-- An F-die window, PG0–PG7 or S0–S8 (R495). -/
def fdieOffset (off : Nat) : Bool :=
  match windowOf off with
  | some (.pg, _, _) => true
  | some (.slice, _, _) => true
  | _ => false

end Sys2Proof.Machine
end

