-- ==== Sys2Proof/Machine/Sparse.lean ====
section
/-! DEFINITION. A sparse table: the pairs (key, value) of the keys that do not read as the default, keys strictly
rising. Memory (`List Host.Cell`), counters, registers and every indexed table of the device use this one form, so
that equal contents are equal data. -/
namespace Sys2Proof.Machine

/-- What key `k` of a table reads as: the listed value, else the default. -/
def Tbl.get {α : Type} (dflt : α) (t : List (Nat × α)) (k : Nat) : α :=
  match t with
  | [] => dflt
  | (j, v) :: rest => if j = k then v else Tbl.get dflt rest k

/-- Insert a pair before the first key that is greater. -/
def Tbl.insert {α : Type} (t : List (Nat × α)) (k : Nat) (v : α) : List (Nat × α) :=
  match t with
  | [] => [(k, v)]
  | (j, w) :: rest => if k < j then (k, v) :: (j, w) :: rest else (j, w) :: Tbl.insert rest k v

/-- Remove every pair of key `k`. -/
def Tbl.erase {α : Type} (t : List (Nat × α)) (k : Nat) : List (Nat × α) :=
  t.filter (fun p => p.1 != k)

/-- Write `v` at key `k`; writing the default removes the entry. -/
def Tbl.set {α : Type} [DecidableEq α] (dflt : α) (t : List (Nat × α)) (k : Nat) (v : α) : List (Nat × α) :=
  if v = dflt then Tbl.erase t k else Tbl.insert (Tbl.erase t k) k v

/-- Change the value at a key by a function. -/
def Tbl.modify {α : Type} [DecidableEq α] (dflt : α) (t : List (Nat × α)) (k : Nat) (f : α → α) : List (Nat × α) :=
  Tbl.set dflt t k (f (Tbl.get dflt t k))

/-- The canonical form: keys strictly rising, and no entry equal to the default. -/
abbrev Tbl.Wf {α : Type} [DecidableEq α] (dflt : α) (t : List (Nat × α)) : Prop :=
  t.Pairwise (fun a b => a.1 < b.1) ∧ ∀ p ∈ t, p.2 ≠ dflt

/-- Write a run of bytes from address `a` upward. -/
def Tbl.setRun (dflt : Byte) (t : List Host.Cell) (a : Nat) : Bytes → List Host.Cell
  | [] => t
  | b :: bs => Tbl.setRun dflt (Tbl.set dflt t a b) (a + 1) bs

/-- Read `n` bytes from address `a` upward. -/
def Tbl.getRun (dflt : Byte) (t : List Host.Cell) (a n : Nat) : Bytes :=
  (List.range n).map (fun i => Tbl.get dflt t (a + i))

end Sys2Proof.Machine
end

