-- ==== Sys2Proof/Machine/StBase.lean ====
section
/-! DEFINITION. State types shared by all units: access paths, events, device time, the launch list and the time
base (chapters Register Interface, Management Subsystem, Device Time and Launches). -/
namespace Sys2Proof.Machine

/-- One event in the event FIFO (R446, R448): source, code, device time of the happening and its data bytes. -/
structure Event where
  src : Nat
  code : Nat
  sec : Nat
  ns : Nat
  data : Bytes
deriving DecidableEq, Repr

/-- Device time (R39): seconds, nanoseconds below 10^9, and 48 fraction bits (16 sub-nanosecond bits and the 32 hidden
bits of R41) in units of 2^-48 ns. -/
structure DevTime where
  sec : Nat := 0
  ns : Nat := 0
  frac : Nat := 0
deriving DecidableEq, Repr

/-- The time states of R46, in the order of TIME_STATUS.state. -/
inductive TimeState where
  | freeRun | acquiring | locked | holdover
deriving DecidableEq, Repr

/-- One transmit timestamp record (R56). -/
structure TxTs where
  msgType : Nat
  domain : Nat
  seqId : Nat
  time : DevTime
deriving DecidableEq, Repr

/-- A time-of-day line that was accepted (R50). -/
structure TodInfo where
  sec : Nat
  taiUtc : Int
  flags : Nat
deriving DecidableEq, Repr

/-- The time base (R39 to R58). -/
structure TimeBase where
  /-- device time -/
  now : DevTime := {}
  /-- counting has begun: the TSCLK PLL has locked (R40) -/
  running : Bool := false
  /-- TSCLK cycles since reset release, for spans measured in elapsed time -/
  tsc : Nat := 0
  /-- slew still to apply, in units of 2^-48 ns (R42) -/
  slewRem : Int := 0
  state : TimeState := .freeRun
  indirect : Bool := false
  /-- consecutive good samples (R46) -/
  goodSamples : Nat := 0
  /-- (cycle, rate) pairs of the LOCKED span, newest first, for the mean of R46 -/
  rateHist : List (Nat × Int) := []
  /-- the rate HOLDOVER runs at: numerator and denominator of the mean (R46) -/
  holdRate : Option (Int × Nat) := none
  /-- words latched by a read of TIME_NOW_NS (R44) -/
  nowSecLo : Word := 0#32
  nowHi : Word := 0#32
  /-- last accepted 1PPS edge and the seconds word latched by its read (R49) -/
  ppsCapt : DevTime := {}
  ppsCaptSec : Word := 0#32
  ppsEdgeTsc : Option Nat := none
  ppsDiscarded : Nat := 0
  /-- line accepted for the next edge, and the line applied to the last edge (R50) -/
  todPending : Option TodInfo := none
  todApplied : Option TodInfo := none
  /-- the last whole second passed by the time that the output edge follows (R51) -/
  ppsOutSec : Nat := 0
  /-- the moment TIME_STATUS.valid first became 1 (R63) -/
  firstValid : Option DevTime := none
  /-- transmit timestamp FIFOs by port (R56) -/
  txts : List (Nat × List TxTs) := []
  txtsLatch : List Word := [0#32, 0#32, 0#32]
  txtsDiscarded : List (Nat × Nat) := []
  /-- SyncE outputs squelched (R58) -/
  squelch : List (Nat × Bool) := []
  /-- the clock on each SyncE output: (lane, N), LRX of the lane divided by N; none: the output is held low (R57, R58) -/
  syncE : List (Nat × Option (Nat × Nat)) := []
deriving DecidableEq, Repr

/-- Launch entry states (Table 2.9). -/
inductive LState where
  | free | held | armed | dispatched | done | doneLate | discarded | cancelled
deriving DecidableEq, Repr

/-- Code of Table 2.9. -/
def LState.code : LState → Nat
  | .free => 0 | .held => 1 | .armed => 2 | .dispatched => 3 | .done => 4 | .doneLate => 5 | .discarded => 6
  | .cancelled => 7

/-- One launch entry (Table 2.8) with what the engine keeps beside it. -/
structure LEntry where
  sec : Nat := 0
  ns : Nat := 0
  kind : Nat := 0
  st : LState := .free
  origin : Nat := 0
  late : Bool := false
  target : Nat := 0
  arg : Nat := 0
  period : Nat := 0
  tag : Nat := 0
  skipped : Nat := 0
  /-- HELD for a relative instant (R63) -/
  relative : Bool := false
  /-- passed over by a step of device time and due to act at once (R72) -/
  due : Bool := false
  /-- its target takes it after its instant without a step: it waited in a FIFO whose clock stood still (R34, R67) -/
  tardy : Bool := false
  /-- distributed: workers that have still to answer, and those that answered NACK (R79) -/
  waiting : List Nat := []
  nacked : Bool := false
  confirmed : Bool := false
  /-- claim of the manager that armed it (R80) -/
  claim : Nat := 0
deriving DecidableEq, Repr

/-- The launch engine (R59 to R81): entries by index, and the entries the engine has dispatched, oldest first. -/
structure Launches where
  entries : List (Nat × LEntry) := []
deriving DecidableEq, Repr

end Sys2Proof.Machine
end

