-- ==== Sys2Proof/Machine/StPort.lean ====
section
/-! DEFINITION. State of the line ports, of a packet on its path and of the slices' tables (chapters Line Ports, The
Press, Match Stages and Action Resolution). -/
namespace Sys2Proof.Machine

/-- Port states, in the order of Table 3.7. -/
inductive PState where
  | disabled | refused | signalWait | an | lockWait | debounce | up | holdoff | down
deriving DecidableEq, Repr

/-- Code of Table 3.7. -/
def PState.code : PState → Nat
  | .disabled => 0 | .refused => 1 | .signalWait => 2 | .an => 3 | .lockWait => 4 | .debounce => 5 | .up => 6
  | .holdoff => 7 | .down => 8

/-- Why a packet entered where it did (R13). -/
inductive PktOrigin where
  | line | injectPipe | injectRaw | fabric | replica | hostCopy
deriving DecidableEq, Repr

/-- A read of the DRAM table region that a stage of a packet waits for (R140). -/
structure Lookup where
  stage : Nat
  /-- logical line of the table region -/
  line : Nat
  /-- the first copy was uncorrectable and the read is repeated on the other (R140) -/
  repeated : Bool := false
  /-- the request has crossed the control channel of the Dukider link (R20) -/
  asked : Bool := false
  /-- the response waits on the T-die for the slice's share of the control channel (R20, R142) -/
  held : Option Bool := none
  /-- the response has arrived: `some true` good data, `some false` both copies failed -/
  done : Option Bool := none
  /-- the stack whose copy the first read took (R140, R352) -/
  readAt : Option Nat := none
deriving DecidableEq, Repr

/-- One packet with everything that travels with it. -/
structure Pkt where
  uid : Nat := 0
  origin : PktOrigin := .line
  /-- the frame from its first byte to the last byte before the FCS -/
  frame : Bytes := []
  /-- length without FCS that queues and buffers use; the R194 length while the tail has not arrived -/
  len : Nat := 0
  /-- the tail has not arrived (cut-through hand-on) -/
  headOnly : Bool := false
  /-- the FCS is to be stomped (R232) -/
  stomp : Bool := false
  port : Nat := 0
  injected : Bool := false
  rxTs : DevTime := {}
  vint : Nat := 0
  pass : Nat := 0
  recEntry : Nat := 0
  recStart : Nat := 0
  recTag : Nat := 0
  /-- the header vector (Table 4.3) -/
  vec : BitVec 1024 := 0#1024
  /-- the metadata bus, then the metadata record (Table 5.4): 64 bytes -/
  bus : Bytes := []
  /-- parse default in force: 0 none, 1 drop, 2 punt (R115) -/
  dflt : Nat := 0
  /-- next match stage to run, 0 to 16; 16 when the stages are done -/
  stage : Nat := 0
  lookups : List Lookup := []
  /-- what the stage took when it began: its record, its descriptor and its key (R132, R538) -/
  begun : Option (BitVec 256 × BitVec 256 × Nat) := none
  resolved : Bool := false
  /-- copy to a host queue that the resolver asked for (R152) -/
  copyQueue : Option Nat := none
  /-- slice that accepted it and holds it -/
  slice : Nat := 0
  /-- buffer handle and owner tag, once allocated -/
  handle : Option Nat := none
  tag : Nat := 0
  /-- the packet is a recirculation on its way back -/
  recirc : Bool := false
  /-- queue it is on: kind × 2^18 + index -/
  queue : Nat := 0
  /-- the queue's local port, where it has one -/
  outPort : Option Nat := none
  tc : Nat := 0
  colour : Nat := 3
  /-- order of arrival on its queue -/
  seq : Nat := 0
  /-- ingress share it is held under, 8p + tc, and the bytes held (R221) -/
  shareKey : Option Nat := none
  shareBytes : Nat := 0
  /-- DRAM buffer granted for an evacuation whose write has not completed (R223) -/
  evacTo : Option Nat := none
  /-- an evacuation was asked for and is not decided yet (R223) -/
  evacAsk : Bool := false
  /-- DRAM buffer that holds it, once evacuated (R223) -/
  dram : Option Nat := none
  /-- bytes of Dukider form still to cross the crossbar, and those it began with (R226, R227) -/
  left : Nat := 0
  size : Nat := 0
  input : Nat := 0
  /-- a nominated DRAM-resident packet whose read has not returned (R225) -/
  reading : Bool := false
  /-- held at dispatch and counted so: gate, guard band (R245, R247) -/
  gateHeld : Bool := false
  guardHeld : Bool := false
  /-- cut through: enqueued before its tail (R231) -/
  cutThrough : Bool := false
  /-- the slice marked it capable of cut-through (R231) -/
  capable : Bool := false
  /-- a multicast copy (R233): the port whose REPL_COPY_FAIL its failure counts in, or a remote copy -/
  copy : Bool := false
  remoteCopy : Bool := false
  editProg : Option Nat := none
  editData : Option Nat := none
  /-- punt item kind (Table 14.6), and whether it is made by the resolver as a host copy -/
  itemKind : Nat := 0
  /-- shapers charged at nomination, and the length charged (R255) -/
  shapers : List Nat := []
  chargedLen : Nat := 0
  /-- bytes of the record and frame already sent on a Trellis link (R277) -/
  sent : Nat := 0
  /-- the tail of a cut-through frame turned out bad -/
  bad : Bool := false
  /-- flits that have still to cross the Dukider link (R19) -/
  flits : Nat := 0
deriving DecidableEq, Repr

/-- What is held for a packet as a whole, over all its copies: the flow-control charge (R97), the in-flight count of
its vintage (R169), and the number of copies that still hold it. -/
structure Hold where
  port : Nat := 0
  prio : Nat := 0
  charged : Nat := 0
  vint : Nat := 0
  counted : Bool := false
  refs : Nat := 0
deriving DecidableEq, Repr

/-- What the transmitter of a port sends (R90, R91, R92). -/
inductive TxSignal where
  | electricalIdle | basePage (pg : BasePage) | remoteFault | idles | frames
deriving DecidableEq, Repr

/-- One line port (R83 to R101). -/
structure Port where
  st : PState := .disabled
  reason : Nat := 0
  /-- PG_PORT_CFG as read at the enable, and what it says (R87) -/
  cfg : Word := 0#32
  mode : Nat := 0
  fec : Nat := 0
  anEn : Bool := false
  fcMode : Nat := 0
  /-- a flush of R99 has started and not completed (R100) -/
  flushing : Bool := false
  /-- quanta left of the received pause, by priority (R96); PAUSE uses all eight alike -/
  paused : List Bool := List.replicate 8 false
  /-- watchdog active, by priority (R98) -/
  wdog : List Bool := List.replicate 8 false
  /-- XOFF has been sent and holds, by priority (R97) -/
  xoff : List Bool := List.replicate 8 false
  /-- flow-control frames owed at the next frame boundary: (priority, xoff) (R97) -/
  fcOwed : List (Nat × Bool) := []
  /-- occupancy in bytes, by priority (R97) -/
  occ : List Nat := List.replicate 8 0
  /-- frames in the MAC transmit FIFO, oldest first -/
  txFifo : List Pkt := []
  /-- what the transmitter sends -/
  tx : TxSignal := .electricalIdle
  /-- lanes of the port whose receive pair is swapped, by bit, as the lock found them (R89) -/
  swapped : BitVec 4 := 0#4
  /-- a frame whose tail has not been received: none; or the identity of the head that was passed on, if it was (R93) -/
  rxOpen : Option (Option Nat) := none
deriving DecidableEq, Repr

/-- One associative entry (R143). -/
structure AssocEntry where
  key : BitVec 320 := 0#320
  mask : BitVec 320 := 0#320
  act : BitVec 64 := 0#64
  valid : Bool := false
  vFirst : Nat := 0
  vLast : Nat := 0
deriving DecidableEq, Repr

/-- The search context of a slice (R148): key, range, vintage and the position in the stepping order. -/
structure SearchCtx where
  key : BitVec 320
  first : Nat
  count : Nat
  vint : Nat
  /-- (mask length, index) of the last match returned -/
  pos : Option (Nat × Nat) := none
deriving DecidableEq, Repr

/-- The program tables of the forwarding path, held alike by every serving slice and the golden copy (R105, R127,
R129, R143, R156, R159). -/
structure Program where
  press : List (Nat × BitVec 256) := []
  records : List (Nat × BitVec 256) := []
  descs : List (Nat × BitVec 256) := []
  edits : List (Nat × BitVec 256) := []
  editData : List (Nat × BitVec 512) := []
  assoc : List (Nat × AssocEntry) := []
deriving DecidableEq, Repr

end Sys2Proof.Machine
end

