-- ==== Sys2Proof/Machine/StPath.lean ====
section
/-! DEFINITION. State of vintages, learning, table access and the buffer pools (chapters Vintages, Learning and Table
Access; Buffer Pools) and of the slices and the Dukider link. -/
namespace Sys2Proof.Machine

/-- One learning item (R174 to R176). -/
structure LearnItem where
  slice : Nat
  prof : Nat
  desc : Nat
  key : Bytes
  data : Bytes
deriving DecidableEq, Repr

/-- One LPM route, or the default of a VRF when `plen` is 0 (R139, R188). -/
structure Route where
  /-- the table: base, node pool, log2_entries and family, IPv6 or not, of its descriptor (R129, R139) -/
  table : Nat × Nat × Nat × Bool
  vrf : Nat
  plen : Nat
  addr : Nat
  result : BitVec 64
deriving DecidableEq, Repr

/-- Vintages, learning and ageing (R163 to R190). -/
structure Vint where
  started : Bool := false
  current : Nat := 0
  old : Option Nat := none
  /-- TSCLK cycle of the commit that made the old vintage old (R173) -/
  oldSince : Nat := 0
  /-- packets held, by vintage (R169) -/
  inflight : List (Nat × Nat) := []
  learn : List LearnItem := []
  epoch : Nat := 0
  /-- buckets the sweep of the ager has still to read: (descriptor, bucket) of the next, none when no sweep runs -/
  sweep : List (Nat × Nat) := []
  /-- an epoch has ended while the sweep runs: the counter waits for it (R181) -/
  epochDue : Bool := false
  /-- the source that the table-access engine serves next: 0 host command, 1 learning item, 2 ager (R179) -/
  turn : Nat := 0
  routes : List Route := []
deriving DecidableEq, Repr

/-- A state entry of a buffer (R196), with the auditor's marks (R210). -/
structure BufEntry where
  alloc : Bool := false
  tag : Nat := 0
  refs : Nat := 0
  marked : Bool := false
  suspect : Bool := false
deriving DecidableEq, Repr

/-- A run of free buffers: `cnt` of them from `start` in steps of `step` (R539). -/
structure Seg where
  start : Nat
  step : Nat
  cnt : Nat
deriving DecidableEq, Repr

/-- What a waiting buffer request is for: a packet handed off, an evacuation, or a packet that the fabric reassembles, with the
key of its context and the port its cells name. -/
inductive ReqFor where
  | handoff | evacuate
  | reassemble (key port : Nat)
deriving DecidableEq, Repr

/-- One buffer waited for (R193): pool key, requester tag, length and the packet it is for. -/
structure AllocReq where
  pool : Nat
  tag : Nat
  pkt : Pkt
  use : ReqFor := .handoff
deriving DecidableEq, Repr

/-- The state of a tag after its party failed (R206). -/
inductive TagState where
  | live | draining | closed
deriving DecidableEq, Repr

/-- The buffer pool manager (R191 to R218). Handles follow R195. Pool keys: 0 to 3 on-die by class, 4 to 7
recirculation by class, 8 to 11 DRAM by class. Free-list keys: the pool key below 8, and 8 + 8 × class + stack for
a DRAM pool. -/
structure Bpm where
  bufs : List (Nat × BufEntry) := []
  free : List (Nat × List Seg) := []
  ready : List (Nat × Bool) := []
  disabled : List (Nat × Bool) := []
  ptr : List (Nat × Nat) := []
  /-- next stack of a DRAM pool's rotation (R192) -/
  rot : List (Nat × Nat) := []
  retired : List (Nat × Nat) := []
  waiting : List AllocReq := []
  tags : List (Nat × TagState) := []
  /-- open recovery window: (tag of the failed slice, tag of the new holder) (R208) -/
  window : List (Nat × Nat) := []
  /-- tags whose revocation scan is running (R206, R207) -/
  scans : List Nat := []
  auditing : Bool := false
  /-- the pass in progress is in its sweep phase (R210, Table 7.6) -/
  sweeping : Bool := false
  /-- stacks lost, whose buffers retire (R213) -/
  lost : List Nat := []
  /-- (kind × 16 + party, cycle of the last logged refusal, refusals since) (R204) -/
  quiet : List (Nat × (Nat × Nat)) := []
deriving DecidableEq, Repr

/-- The states of a slice (Table 15.3). -/
inductive SState where
  | active | spare | racking | draining | failed | unfit
deriving DecidableEq, Repr

/-- One slice (R14, R403 to R420). -/
structure Slice where
  st : SState := .active
  /-- port group held, or racked for -/
  pg : Option Nat := none
  cause : Nat := 0
  /-- TSCLK cycles of the verdict miscompares in the window (R407) -/
  miscmps : List Nat := []
  /-- packets steered to the ingress port, oldest first -/
  ingress : List Pkt := []
  /-- packets in the slice in order of acceptance: press, stages, order buffer (R16) -/
  order : List Pkt := []
  /-- its packet channels of the Dukider link, oldest first: packets handed off, and packets dispatched toward it (R19) -/
  up : List Pkt := []
  down : List Pkt := []
  /-- packets received over the link and not yet edited -/
  egress : List Pkt := []
  /-- transition entries and associative entries awaiting reload (R114, R146) -/
  pressReload : List Nat := []
  assocReload : List Nat := []
  /-- stage-memory lines with a double-bit error (R141) -/
  badLines : List Nat := []
  srch : Option SearchCtx := none
  /-- TSCLK cycle of the last hand-off or drop, and whether a packet has been accepted since (R407) -/
  lastOut : Nat := 0
  accepted : Bool := false
deriving DecidableEq, Repr

/-- Every packet that a slice or its channels hold. -/
def Slice.held (x : Slice) : List Pkt := x.ingress ++ x.order ++ x.up ++ x.down ++ x.egress

/-- One direction of the Dukider link (R18 to R22). -/
structure DukDir where
  /-- the cycle now failing, and how often it has been replayed (R21, R22) -/
  replays : Nat := 0
  failing : Option Nat := none
  /-- number of the next cycle the receiver delivers -/
  next : Nat := 0
  sent : Nat := 0
  /-- the rotating pointer over the nine slice channels (R19) -/
  ptr : Nat := 0
  /-- the next slice channel that the lookups of the control channel serve (R142) -/
  lptr : Nat := 0
  /-- bytes of the control channel still to give to table lookups (R20) -/
  ctl : Int := 224
  /-- the last 64 cycles: number, and the flits of each slice channel in it (R21) -/
  kept : List (Nat × List (Nat × Nat)) := []
deriving DecidableEq, Repr

end Sys2Proof.Machine
end

