-- ==== Sys2Proof/Machine/StQueue.lean ====
section
/-! DEFINITION. State of the queue manager, the crossbar scheduler, replication, sampling, gates, shapers and meters
(chapters Queueing and Scheduling; Gates, Shapers and Meters). -/
namespace Sys2Proof.Machine

/-- One queue (R219): its packets in order of enqueue, and whether it is EVACUATING (R223). -/
structure Queue where
  pkts : List Pkt := []
  evac : Bool := false
deriving DecidableEq, Repr

/-- Keys of a queue: kind × 2^18 + index (Table 8.1). -/
def qKey (kind idx : Nat) : Nat := kind * 2 ^ 18 + idx

/-- A token bucket filled by elapsed TSCLK cycles (R224, R242): tokens in bytes and the cycle of the last filling. -/
structure Bucket where
  tokens : Nat := 2 ^ 20
  last : Nat := 0
deriving DecidableEq, Repr

/-- One sampling session's count of offers and of records (R236, R237). -/
structure Session where
  offers : Nat := 0
  made : Nat := 0
deriving DecidableEq, Repr

/-- Queue manager, scheduler and replication (R219 to R240). Table entries are kept as the words of Tables 8.5 and
8.10; an entry not listed holds its reset value. -/
structure Qm where
  queues : List (Nat × Queue) := []
  /-- packets with a granted buffer that wait for admission, oldest first -/
  arrived : List Pkt := []
  /-- endpoint queues, groups, class nodes and ingress limits, value xor reset value (Table 8.10) -/
  eq : List (Nat × BitVec 64) := []
  eg : List (Nat × BitVec 64) := []
  node : List (Nat × BitVec 64) := []
  ilimit : List (Nat × BitVec 64) := []
  /-- bytes held for each (port, class) (R221) -/
  ishare : List (Nat × Nat) := []
  evacTok : List (Nat × Bucket) := []
  /-- nominated packets by output, in nomination order (R227) -/
  noms : List (Nat × List Pkt) := []
  /-- deficits by child and pointers by parent (R229) -/
  deficit : List (Nat × Nat) := []
  ptr : List (Nat × Nat) := []
  /-- matcher pointers g[j] and a[i] (R228) -/
  grant : List (Nat × Nat) := []
  accept : List (Nat × Nat) := []
  /-- next host queue of output 9's rotation -/
  hqPtr : Nat := 0
  /-- next child of each rotation of the calendar's VOQs -/
  voqPtr : Nat := 0
  /-- the replication queue (R233) -/
  repl : List Pkt := []
  groups : List (Nat × BitVec 64) := []
  copies : List (Nat × BitVec 64) := []
  sessions : List (Nat × Session) := []
  /-- TMQ_QSTAT_PKTS as latched (R240) -/
  qstat : Word := 0#32
  holds : List (Nat × Hold) := []
  /-- second of the capture engine's count and records made in it (R237) -/
  capWin : Nat × Nat := (0, 0)
  /-- items each host queue has dropped since its previous item (Table 14.6) -/
  hqLost : List (Nat × Nat) := []
deriving DecidableEq, Repr

/-- A gate bank header (Table 9.2). -/
structure GateHdr where
  sec : Nat := 0
  ns : Nat := 0
  cycle : Nat := 0
  length : Nat := 0
deriving DecidableEq, Repr

/-- A shaper: bound profile, signed credit in units of 1/8,000,000 byte, cycle of the last update (R254, R255). -/
structure Shaper where
  prof : Nat := 0
  credit : Int := 0
  last : Nat := 0
deriving DecidableEq, Repr

/-- A meter: bound profile, the two buckets in units of 1/8,000,000 byte and the cycle of the last refill (R259, R516); its
counts lie in DRAM (R263). -/
structure Meter where
  prof : Nat := 0
  c : Nat := 0
  p : Nat := 0
  last : Nat := 0
deriving DecidableEq, Repr

/-- Gates, shapers and meters (R241 to R265). -/
structure Gsm where
  /-- bank headers by 2p + b, entries by 2048p + 1024b + j -/
  hdrs : List (Nat × GateHdr) := []
  gates : List (Nat × Word) := []
  /-- the active bank by port -/
  bank : List (Nat × Nat) := []
  /-- open mask that the last edge put in force, by port (R246) -/
  openMask : List (Nat × Nat) := []
  shpProf : List (Nat × BitVec 64) := []
  shapers : List (Nat × Shaper) := []
  mtrProf : List (Nat × BitVec 128) := []
  meters : List (Nat × Meter) := []
  /-- MTR_BKT_P as latched -/
  bktP : Word := 0#32
deriving DecidableEq, Repr

end Sys2Proof.Machine
end

