-- ==== Sys2Proof/Machine/StSpr.lean ====
section
/-! DEFINITION. State of the RL stacks and of slice sparing and cellar mode (chapters RL Stacks and Memory Controllers;
Slice Sparing and Cellar Mode). -/
namespace Sys2Proof.Machine

/-- A command of a channel, as its retry buffer holds it (R358): a line read or written, or a bank refreshed. -/
inductive ChanCmd where
  | read (n : Nat) | write (n : Nat) | refresh (bank : Nat)
deriving DecidableEq, Repr

/-- One channel of a stack (R358 to R364). -/
structure Chan where
  failed : Bool := false
  /-- the retry buffer: commands issued and not yet complete, newest first, at most 32 (R358) -/
  retry : List ChanCmd := []
  /-- the commands of the retry buffer are being replayed (R358) -/
  replaying : Bool := false
  /-- length in ns of the retraining pause in progress (R363) -/
  pause : Option Nat := none
  recovering : Bool := false
  /-- power-down, bit for each rank (R361) -/
  pd : BitVec 2 := 0#2
  /-- failed replays of the command that is failing (R359) -/
  replays : Nat := 0
  /-- lengths of retraining pauses that wait (R364) -/
  waiting : List Nat := []
  /-- TSCLK cycle of the last completed pause -/
  lastRetrain : Nat := 0
  /-- refresh commands owed, by bank of the two ranks (R360) -/
  owed : List (Nat × Nat) := []
deriving DecidableEq, Repr

/-- The states of a stack (Table 13.5). -/
inductive MState where
  | off | training | ready | lost
deriving DecidableEq, Repr

def MState.code : MState → Nat
  | .off => 0 | .training => 1 | .ready => 2 | .lost => 3

/-- One memory controller and its stack (R344 to R370). -/
structure Mc where
  st : MState := .off
  cause : Nat := 0
  chans : List (Nat × Chan) := []
  /-- TSCLK cycles of the uncorrectable reads of the last second (R356) -/
  ues : List Nat := []
  /-- next line of the scrub, and of the running pass (R357) -/
  scrub : Nat := 0
  /-- the refresh interval is halved (R360) -/
  hot : Bool := false
deriving DecidableEq, Repr

/-- A takeover or move in progress (R410, R416). -/
structure Rack where
  spare : Nat
  pg : Nat
  old : Nat
  move : Bool
  /-- RACKING has begun; before that the tasting round is being stopped -/
  begun : Bool
  since : Nat
deriving DecidableEq, Repr

/-- The claim sequencer, tasting and cellar mode (R403 to R432). -/
structure Spr where
  claims : List Nat := [1, 1, 1, 1, 1, 1, 1, 1]
  lastHolder : List Nat := [0, 1, 2, 3, 4, 5, 6, 7]
  /-- fences: (slice, port group) (R404) -/
  fences : List (Nat × Nat) := []
  rack : Option Rack := none
  fit : Bool := true
  tasting : Bool := false
  health : Nat := 8
  last : Nat := 0
  rounds : Nat := 0
  cellar : Bool := false
  cellarCause : Nat := 0
  /-- the F-die-only form of R425 -/
  fdieOnly : Bool := false
  /-- cellar memory of the port groups in that form, by port group (R425) -/
  cellarMem : List (Nat × List Pkt) := []
deriving DecidableEq, Repr

end Sys2Proof.Machine
end

