-- ==== Sys2Proof/Machine/StFabric.lean ====
section
/-! DEFINITION. State of the Trellis links, calendars, reassembly and the manager role (chapters Trellis Links; Trellis
Calendars and Relays; Manager and Workers). -/
namespace Sys2Proof.Machine

/-- A candidate frame position in HUNT or PRESYNC (R284): byte position, frames counted, mfi expected next. -/
structure LinkCand where
  pos : Nat
  count : Nat
  next : Nat
deriving DecidableEq, Repr

/-- One second of performance monitoring before it is final (R294, R295). -/
structure PmSec where
  sec : Nat := 0
  errored : Nat := 0
  frames : Nat := 0
  defect : Bool := false
  corr : Nat := 0
  uncorr : Nat := 0
  drops : Nat := 0
  /-- the link was enabled for all of it (R294) -/
  whole : Bool := true
  /-- device time was not valid at some moment of it (R297) -/
  invalid : Bool := false
  /-- u of R296 in this second -/
  u : Int := 0
deriving DecidableEq, Repr

/-- One bin (Table 10.9). -/
structure PmBin where
  exists_ : Bool := false
  suspect : Bool := false
  start : Nat := 0
  secs : Nat := 0
  es : Nat := 0
  ses : Nat := 0
  uas : Nat := 0
  bbe : Nat := 0
  corr : Nat := 0
  uncorr : Nat := 0
  drops : Nat := 0
  /-- spans of this length before the bin's, counted from u (R296) -/
  span : Int := 0
deriving DecidableEq, Repr

/-- A message being assembled on a link (R338): source, identity, type, next fragment expected, bytes so far. -/
structure Asm where
  src : Nat
  msg : Nat
  typ : Nat
  next : Nat
  bytes : Bytes
deriving DecidableEq, Repr

/-- The arrival of a frame (R281, R291): its number, the time of its FAW byte 0, whether its oh_crc was good, and the
number of frames that this device had begun to send. -/
structure Arrival where
  mfi : Nat
  time : DevTime
  good : Bool
  sent : Nat
deriving DecidableEq, Repr

/-- The 1 ms windows of SF or SD (R286): when the present one began, what it has met, and of the last ten ended whether they passed
the threshold and whether they held an uncorrectable codeword. -/
structure SigWin where
  since : Nat := 0
  corr : Nat := 0
  uncorr : Nat := 0
  last : List (Bool × Bool) := []
deriving DecidableEq, Repr

/-- One Trellis link (R266 to R302). -/
structure Link where
  /-- code of Table 10.4 -/
  align : Nat := 0
  cands : List LinkCand := []
  /-- frame position once in SYNC, and the run of bad frames (R285) -/
  pos : Nat := 0
  badRun : Nat := 0
  /-- numbers of the last received frame -/
  rxMfi : Nat := 0
  rxMfc : Nat := 0
  lastGood : Option Nat := none
  /-- runs of good frames toward a declaration or a clearing: LOM, AIS, RDI, CALM (Table 10.5) -/
  lomRun : Nat := 0
  aisRun : Nat := 0
  rdiRun : Nat := 0
  calmRun : Nat := 0
  /-- reported defects, in the bit order of TRL_LINK_DEFECT -/
  defects : BitVec 10 := 0#10
  /-- by defect: cycle of the last logged change and the changes since (R290) -/
  quiet : List (Nat × (Nat × Nat)) := []
  nbrValid : Bool := false
  nbrDev : Nat := 0
  nbrLink : Nat := 0
  nbrGen : Nat := 0
  /-- device, lane and length of the run of frames that name them (R289) -/
  nbrRun : Nat × Nat × Nat := (0, 0, 0)
  /-- active pages (R303) -/
  txPage : Option Nat := none
  rxPage : Option Nat := none
  /-- gleaning pointer (R309) -/
  gp : Nat := 0
  /-- number of frames sent since the transmitter started (R272): mfi and mfc follow from it -/
  txFrame : Nat := 0
  txOn : Bool := false
  /-- the bytes sent that no codeword holds yet, and the scrambler's last 58 bits (R269) -/
  lineBuf : Bytes := []
  scr : Nat := 0
  /-- the pair of the received lane is swapped (R268) -/
  swapped : Bool := false
  /-- runs of uncorrectable and of correctable codewords (R286) -/
  cwBad : Nat := 0
  cwGood : Nat := 0
  sf : SigWin := {}
  sd : SigWin := {}
  /-- the framer's transmit PLL is out of lock: electrical idle (R271) -/
  txIdle : Bool := false
  /-- armed transmit switches: direction of the argument and first frame of the boundary (R316) -/
  txArm : List (Nat × Nat) := []
  /-- last received cal_req, its run, and the persistent request (R317) -/
  rxReq : BitVec 64 := 0#64
  rxReqRun : Nat := 0
  rxPersist : Option (BitVec 64) := none
  ack : BitVec 64 := 0#64
  /-- the receive side is armed: instant in ns (R318) -/
  rxArm : Option Nat := none
  /-- departures of the last 16 frames, newest first: mfi and time (R291) -/
  ttDep : List (Nat × DevTime) := []
  /-- arrivals of the last 16 frames, newest first -/
  ttArr : List Arrival := []
  /-- TRL_LINK_PHASE (Table 11.6) -/
  phase : Nat := 0
  /-- sums of 2θ and 2d over the valid samples, in 2^-48 ns, and their number (R293) -/
  ttSum : Int := 0
  ttDsum : Int := 0
  ttCount : Nat := 0
  ttOffset : Word := 0#32
  ttDelay : Word := 0#32
  ttInfo : Word := 0#32
  /-- DELAY and TT_INFO as latched by a read of OFFSET (R300) -/
  ttLatch : Word × Word := (0#32, 0#32)
  asm : List Asm := []
  /-- last message channel header received: claim, role, flash, obeyed, confirm_grp, hear, mask (Table 12.2) -/
  beacon : Bytes := List.replicate 12 0
  /-- frames left that flash RECLAIM (R172, R337) -/
  flash : Nat := 0
  /-- fragments waiting to be sent: priority and the 152 bytes of header and payload (R338) -/
  txMsg : List (Nat × Bytes) := []
  /-- the current second, seconds awaiting their classification, and the bins (R295 to R297) -/
  pmCur : PmSec := {}
  pmPend : List PmSec := []
  pmBins : List PmBin := List.replicate 19 {}
  /-- the frame in progress is counted as errored (R294) -/
  frameErr : Bool := false
  /-- bins 0 and 17 as latched by a read of their start word (R301) -/
  binLatch : PmBin × PmBin := ({}, {})
  unavail : Bool := false
deriving DecidableEq, Repr

/-- A cell (Table 10.2). -/
structure Cell where
  src : Nat := 0
  dst : Nat := 0
  port : Nat := 0
  tc : Nat := 0
  seq : Nat := 0
  valid : Bool := false
  first : Bool := false
  last : Bool := false
  abort : Bool := false
  length : Nat := 0
  payload : Bytes := []
  /-- the link it arrived on -/
  link : Nat := 0
deriving DecidableEq, Repr

/-- A reassembly context (R313, R314). -/
structure Ctx where
  sync : Bool := false
  exp : Nat := 0
  held : List Cell := []
  /-- the gap timer runs since this TSCLK cycle -/
  gap : Option Nat := none
  /-- packet in assembly: length of its record, bytes so far -/
  pkt : Option Pkt := none
  bytes : Bytes := []
  /-- the rest of a dropped packet is discarded -/
  skip : Bool := false
deriving DecidableEq, Repr

/-- A cell that waits in the interchange (R311): outgoing link and slot, the link it came on, the TSCLK cycle from which it
may leave, and its bytes. -/
structure Relay where
  link : Nat
  slot : Nat
  inLink : Nat
  ready : Nat
  bytes : Bytes
deriving DecidableEq, Repr

/-- A worker's report as the manager holds it (Table 11.4, Table 12.4). -/
structure Report where
  demand : Bytes := []
  links : Bytes := []
  serial : Bytes := []
  vints : Bytes := []
deriving DecidableEq, Repr

/-- Calendars, reassembly and the manager role of the device (R303 to R343). -/
structure Fabric where
  links : List (Nat × Link) := []
  /-- connection memories: ((link × 2 + direction) × 2 + page) × 1024 + slot; direction 0 transmit, 1 receive (R303) -/
  conn : List (Nat × Word) := []
  gens : List (Nat × Nat) := []
  ctxs : List (Nat × Ctx) := []
  relays : List Relay := []
  /-- next sequence number of each destination device and class (R277) -/
  seqs : List (Nat × Nat) := []
  /-- cells admitted to VOQs of (device, class group) since the last report (Table 11.4) -/
  admitted : List (Nat × Nat) := []
  /-- role machine (Table 12.1): code, whether the claim is fixed, own claim, obeyed claim -/
  role : Nat := 0
  roleOn : Bool := false
  claim : Nat := 0
  obeyed : Nat := 0
  /-- claim and TSCLK cycle of the last role-2 beacon of the obeyed manager heard directly (Table 12.2) -/
  heard : Nat × Nat := (0, 0)
  /-- root_src not yet written to src_sel: the firmware is restarting (R335, R435) -/
  rootPend : Option Nat := none
  msgId : Nat := 0
  /-- messages assembled and not yet handled: type, source, payload -/
  inbox : List (Nat × Nat × Bytes) := []
  /-- latest reports and the history of admitted cells, newest first, by source -/
  reports : List (Nat × Report) := []
  history : List (Nat × List Bytes) := []
  /-- consecutive zero flags by source (R172) -/
  zeros : List (Nat × (Nat × Nat)) := []
  /-- vintage of the RECLAIM being flashed (R172) -/
  reclaim : Option Nat := none
  /-- generation of the last plan, and the workers that have not acknowledged it -/
  planGen : Nat := 0
  plan : Bytes := []
  planWait : List Nat := []
  planNack : Bool := false
  /-- D[i,d,g] of the last recomputation in units of 2^-8 slots, by (32i + d) × 4 + g (R321, R336) -/
  demandD : List (Nat × Nat) := []
  /-- the snapshot's history fills gaps until the first recomputation (R335) -/
  fromSnap : Bool := false
  dupIds : List Nat := []
  /-- a snapshot stands in the racking region: the multiframe count at which it was sent (R336, Table 12.5) -/
  snapshot : Option Nat := none
  timeLink : Option (Nat × Bool) := none
deriving DecidableEq, Repr

end Sys2Proof.Machine
end

