-- ==== Sys2Proof/Machine/StHost.lean ====
section
/-! DEFINITION. State of the host interface, the management subsystem, start-up and the counter harvest (chapters Host
Interface and Rings; Management Subsystem; Start-up, NVM and Configuration; Counters and Harvest). -/
namespace Sys2Proof.Machine

/-- The states of a submission ring (Table 14.11). -/
inductive SqState where
  | disabled | active | draining | fault
deriving DecidableEq, Repr

def SqState.code : SqState → Nat
  | .disabled => 0 | .active => 1 | .draining => 2 | .fault => 3

/-- How far a fetched entry has come. -/
inductive EntSt where
  /-- unit 0 is read and owned; the rest is awaited (R381) -/
  | reading
  /-- complete and not dispatched -/
  | ready
  /-- its frame read is out (R386) -/
  | frame
  /-- its packet awaits a buffer or admission -/
  | packet
  /-- handed to its engine -/
  | engine
  /-- a buffer of a punt ring, not yet filled (R394) -/
  | posted
  /-- ended; its completion is not yet written or held -/
  | ended
deriving DecidableEq, Repr

/-- One entry in flight (R385). -/
structure SqEnt where
  /-- identity of the entry: the model's own field -/
  id : Nat := 0
  head : Nat := 0
  units : Nat := 0
  op : Nat := 0
  tag : Nat := 0
  bytes : Bytes := []
  st : EntSt := .reading
  /-- outcome: status, length, result and the more flag (Table 14.7) -/
  status : Nat := 0
  length : Nat := 0
  result : Nat := 0
  more : Bool := false
  uid : Nat := 0
  /-- when its work ended: order of ending and device time (R390) -/
  endNo : Nat := 0
  ns : Nat := 0
  sec : Nat := 0
deriving DecidableEq, Repr

/-- One submission ring (R377 to R399). -/
structure Sq where
  st : SqState := .disabled
  phase : Bool := false
  head : Nat := 0
  tailSeen : Nat := 0
  polls : Nat := 0
  /-- a read of unit 0 is out -/
  unitOut : Bool := false
  /-- waits for a doorbell (R382) -/
  waitDb : Bool := false
  lastErr : Nat := 0
  /-- start units of the entries fetched beyond tail_seen, oldest first (R382) -/
  ahead : List Nat := []
  ents : List SqEnt := []
deriving DecidableEq, Repr

/-- A completion written or held (Table 14.7). -/
structure Cpl where
  sq : Nat
  tag : Nat
  head : Nat
  status : Nat
  length : Nat
  result : Nat
  more : Bool
  ns : Nat
  sec : Nat
  /-- it has counted toward its vector already (R393, R395) -/
  counted : Bool := false
deriving DecidableEq, Repr

/-- One completion ring (R390 to R400). -/
structure Cq where
  on : Bool := false
  phase : Bool := false
  tail : Nat := 0
  head : Nat := 0
  held : List Cpl := []
  /-- fetching is stopped for it (R392) -/
  stopped : Bool := false
deriving DecidableEq, Repr

/-- One interrupt vector (R393). -/
structure Vec where
  unsig : Nat := 0
  masked : Bool := true
  pba : Bool := false
  /-- message address and data of its table entry (Table 14.1) -/
  addr : BitVec 64 := 0#64
  data : Word := 0#32
deriving DecidableEq, Repr

/-- The host ring engine and the endpoint (R371 to R402). -/
structure HostIf where
  linkUp : Bool := false
  speed : Nat := 0
  width : Nat := 0
  /-- 0 L0, 1 L1, 2 L1.2, 7 down -/
  link : Nat := 7
  d3 : Bool := false
  bme : Bool := false
  msix : Bool := false
  /-- Function Mask of the MSI-X capability -/
  fnMask : Bool := false
  pmeEn : Bool := false
  pmeStatus : Bool := false
  /-- the other writable fields of configuration space: value xor reset value, by byte offset (R372) -/
  pci : List (Nat × Word) := []
  sqs : List (Nat × Sq) := []
  cqs : List (Nat × Cq) := []
  /-- the ring whose turn it is to be served, and the entries fetched in it (R385) -/
  turn : Nat × Nat := (0, 0)
  /-- writes to host memory that wait for Bus Master Enable and D0, oldest first: address, bytes, Relaxed Ordering (R374, R395) -/
  dmaHeld : List (Nat × Bytes × Bool) := []
  vecs : List (Nat × Vec) := []
  /-- a punt item being written: host queue, ring, bytes left, its packet (R387) -/
  punt : Option (Nat × Nat × Bytes × Pkt) := none
deriving DecidableEq, Repr

/-- A voltage monitor's runs of samples outside and inside its range (R444). -/
structure Rail where
  outRun : Nat := 0
  inRun : Nat := 0
  low : Bool := false
  high : Bool := false
  mv : Nat := 0
deriving DecidableEq, Repr

/-- A staging in progress (R459, R460): the request's source, the image file, and what its checks will find. -/
structure FwJob where
  src : Nat
  file : Bytes
  sigOk : Bool
  nvm : NvmCheck
deriving DecidableEq, Repr

/-- The firmware update (Table 16.6, R459 to R463). -/
structure FwState where
  active : Nat := 0
  /-- 0 IDLE, 1 STAGING, 2 VERIFYING, 3 TRIAL -/
  state : Nat := 0
  lastResult : Nat := 0
  block : Nat := 0
  /-- TSCLK cycle at which the image of a trial started -/
  trialSince : Nat := 0
  /-- source of the FW_UPDATE that completes when the new image serves (R460) -/
  owed : Option Nat := none
  job : Option FwJob := none
deriving DecidableEq, Repr

/-- The management subsystem (R433 to R465). -/
structure Mgmt where
  /-- firmware serves -/
  serving : Bool := false
  /-- cause of the last restart: 1 activation, 2 fall-back, 3 watchdog, 4 RESTART request -/
  restartCause : Nat := 0
  temps : List (Nat × (BitVec 12)) := []
  sampled : Bool := false
  trimmed : Bool := false
  warnRun : List (Nat × Nat) := []
  coolRun : Nat := 0
  warned : Bool := false
  alertN : Bool := false
  hotRun : List (Nat × Nat) := []
  tripRun : List (Nat × Nat) := []
  rails : List (Nat × Rail) := []
  power : Nat := 0
  /-- the pin SD_VSEL: high once a card has accepted 1.80 V signalling (R523) -/
  sdVsel : Bool := false
  /-- MGMT_TRIP, kept through SYS_RST_N (R443) -/
  trip : Word := 0#32
  thermtripN : Bool := false
  /-- a trip that no start has reported yet (R443) -/
  tripNew : Bool := false
  /-- fuses: owner key hash, anti-rollback count (R456, R461) -/
  ownerHash : Option Bytes := none
  fuseCount : Nat := 0
  nonce : Option (Bytes × Nat) := none
  nextSlot : Nat := 0
  full : Bool := false
  /-- a clear that has been accepted and has not taken effect: source of the request, number of the last record, hash and
  nonce bytes (R454) -/
  clearing : Option (Nat × Nat × Bytes × Bytes) := none
  fw : FwState := {}
  /-- register mailbox: request in progress -/
  mbxBusy : Bool := false
  mbxReq : Nat := 0
  /-- its place in the order of arrival, among the entries of the rings (R436) -/
  mbxStamp : Nat := 0
  mbxResult : Nat := 0
  respLen : Nat := 0
  /-- operating time: seconds of the AONCLK counter, the store's part, the power-cycle count, AONCLK running -/
  opBase : Nat := 0
  opSecs : Nat := 0
  pcc : Nat := 0
  /-- milliseconds of the running second of the AONCLK counter, and whether this power-on has its record (R487, R488) -/
  opMs : Nat := 0
  opRecord : Bool := false
  aonOn : Bool := true
deriving DecidableEq, Repr

/-- Start-up (R466 to R489). -/
structure Boot where
  step : Nat := 0
  tdieReady : Bool := false
  fdieReady : Bool := false
  hostWait : Bool := false
  cfgAbsent : Bool := false
  recovery : Bool := false
  fallback : Bool := false
  slot : Nat := 0
  calValid : BitVec 5 := 0#5
  fail : Nat := 0
  early : Bool := false
  /-- PLLs in lock, in the bit order of GLB_PLL_STATUS; the SerDes PLLs out of lock by lane -/
  plls : BitVec 18 := 0#18
  lanesOut : List Nat := []
  dukTrained : Bool := false
  /-- Dukider training failed: the link is declared lost at the end of start-up (R22) -/
  dukFailed : Bool := false
  /-- the boot ROM found no slot that verifies (R472, R473) -/
  noSlot : Bool := false
  /-- first start since power-on: the operating-time store is added then (R487) -/
  firstStart : Bool := true
  /-- configuration half selected and loaded, position of the next head, cause of the end -/
  selected : Nat := 0
  half : Nat := 0
  pos : Nat := 0
  loading : Bool := false
  endCause : Nat := 0
  endOff : Nat := 0
  /-- DRAM training seeds are valid (R362) -/
  seeds : Bool := false
  /-- calibration sections 1 to 3 as loaded: line and fabric transmit equalisers, sensor trims (Table 17.9) -/
  lineEq : Bytes := []
  fabEq : Bytes := []
  trims : Bytes := []
  osc : Word := 0#32
deriving DecidableEq, Repr

/-- One harvest in progress (R513 to R515). -/
structure Harvest where
  /-- the frozen blocks still to stream, oldest first: set, instance, bank, words, chain word, partial -/
  blocks : List (Nat × Nat × Nat × List Nat × Nat × Bool) := []
  dest : Nat := 0
  sec : Nat := 0
  ns : Nat := 0
  late : Bool := false
  missing : Bool := false
  tag : Nat := 0
  seq : Nat := 0
  skipped : Nat := 0
  index : Nat := 0
  total : Nat := 0
  /-- a block of this harvest was discarded at the end of a ring without wrap (R515) -/
  stopped : Bool := false
deriving DecidableEq, Repr

/-- Harvests and per-meter reads (R513 to R516). -/
structure Cnt where
  seq : Nat := 0
  skipped : Nat := 0
  /-- instant of the last harvest performed -/
  lastAt : Option Nat := none
  active : List Harvest := []
  mtrData : List Word := [0#32, 0#32, 0#32, 0#32, 0#32, 0#32]
deriving DecidableEq, Repr

end Sys2Proof.Machine
end

