-- ==== Sys2Proof/Machine/State.lean ====
section
/-! DEFINITION. The state of the ZL9128: plain data holding everything the spec gives the block, and the queue of
waiting commands. `State.reset` is the device right after SYS_RST_N is released (R11, R40, R61, R90, R466). -/
namespace Sys2Proof.Machine

/-- What the device sends out of its package; newest first in `Dev.out`. -/
inductive Output where
  /-- a register read returned this word to the path with this code -/
  | readData (path : Nat) (value : Word)
  /-- a frame on the lanes of a port, each with its polarity inverted or not, in lane order (R89) -/
  | frame (port : Nat) (bytes : Bytes) (stomped : Bool) (lanes : List (Nat × Bool))
  /-- what the transmitter of a port sends from now on (R90 to R92) -/
  | line (port : Nat) (sig : TxSignal)
  | frameCut (port : Nat)
  | fcFrame (port : Nat) (classes : Nat) (quanta : Nat)
  | ppsPulse (widthUs : Nat)
  | todLine (bytes : Bytes)
  /-- a cell or an overhead slot on a Trellis link -/
  | cell (link : Nat) (bytes : Bytes)
  /-- a codeword on a fabric lane: its 544 symbols, and whether the lane's polarity is inverted (R268, R269) -/
  | codeword (link : Nat) (symbols : List Nat) (inverted : Bool)
  | overhead (link : Nat) (bytes : Bytes)
  /-- a write request to host memory, with or without Relaxed Ordering, and a read request of it (R374) -/
  | dmaWrite (addr : Nat) (bytes : Bytes) (relaxed : Bool)
  | dmaRead (addr : Nat) (len : Nat)
  /-- the message of an MSI-X vector: its table entry's address and data (R393) -/
  | msix (vector : Nat) (addr : BitVec 64) (data : Word)
  | pme
  /-- a mailbox response to a source: 0 ring, 1 registers, 2 console, 3 SMBus -/
  | mbxResponse (src : Nat) (result : Nat) (bytes : Bytes)
  /-- an output pin: SMB_ALERT_N, THERMTRIP_N, NVM_RST_N, SD_VSEL, SYNCE and 1PPS outputs -/
  | pin (name : Nat) (level : Bool)
  /-- SYNCE_OUT0 or SYNCE_OUT1 gives LRX of a lane divided by n (R57) -/
  | clock (name lane n : Nat)
  /-- the JEDEC xSPI software reset of the flash (R468) -/
  | flashReset
  /-- every output and bidirectional pin but THERMTRIP_N becomes high-impedance, and the SerDes transmitters idle (R526) -/
  | pinsRelease
  /-- CLK_OBS gives the clock of a domain, in the order of Table 1.6, divided by n (Table 18.5); none: it is not driven -/
  | clkObs (domain : Option (Nat × Nat))
deriving DecidableEq, Repr

/-- Everything of the device but the command queue. -/
structure Dev where
  /-- rails are up (R467) -/
  powered : Bool := true
  /-- SYS_RST_N asserted, or held by the thermal trip (R467, R443) -/
  inReset : Bool := false
  /-- SYS_RST_N is held asserted: after a thermal trip the device is in reset without it (R443) -/
  rstAsserted : Bool := false
  /-- register file: value xor reset value, by own BAR0 offset -/
  regs : List (Nat × Word) := []
  /-- counters: bank × 256 + index (R506) -/
  cnt : List (Nat × Word) := []
  /-- one 64-bit latch for each access path: (offset of the high word, its value) (R501) -/
  latch : List (Nat × (Nat × Word)) := []
  /-- GLB_LOCK (R499) -/
  lock : BitVec 5 := 0#5
  events : List Event := []
  out : List Output := []
  /-- cursor of the free values: the model's own field -/
  free : Nat := 0
  /-- next identity for a packet: the model's own field -/
  nextUid : Nat := 0
  /-- what waits before a clock domain or a DRAM channel, oldest first: the PLL's bit of GLB_PLL_STATUS, or 64 + 16 × stack +
  channel, and the row (R34, R350) -/
  parked : List (Nat × Instr) := []
  time : TimeBase := {}
  lnch : Launches := {}
  ports : List (Nat × Port) := []
  prog : Program := {}
  vint : Vint := {}
  bpm : Bpm := {}
  slices : List (Nat × Slice) := []
  /-- the device time of the Dukider link's loss is past: the link is declared lost (R22) -/
  dukLost : Bool := false
  dukUp : DukDir := {}
  dukDown : DukDir := {}
  /-- entries lost out of crossing FIFOs, by the counter bank of the block on the destination side (R32) -/
  crossLost : List (Nat × Nat) := []
  qm : Qm := {}
  gsm : Gsm := {}
  /-- active partition: (base, size) in MiB of the four regions (R346, R349) -/
  part : List (Nat × Nat) := [(0, 12288), (12288, 3072), (15360, 512), (15872, 512)]
  mc : List (Nat × Mc) := []
  /-- contents of the RL stacks: byte b of line n of stack k at 2^34 × k + 64 × n + b; an unlisted byte reads 0 (R348, R362) -/
  dram : List Host.Cell := []
  spr : Spr := {}
  /-- TRL_REACH (R323) -/
  reach : BitVec 32 := 0#32
  fab : Fabric := {}
  host : HostIf := {}
  mgmt : Mgmt := {}
  boot : Boot := {}
  harv : Cnt := {}
  /-- the NVM flash; an unlisted byte is erased, 0xFF (R449, R474) -/
  nvm : List Host.Cell := []
  /-- the flash is in octal mode; its power-on state is not (R468, R474) -/
  nvmOctal : Bool := false
  /-- the slices' stage memories: the replica in slice n of byte a of the table region at 2^32 × n + a (R130); unlisted 0 -/
  smem : List Host.Cell := []
deriving DecidableEq, Repr

/-- The machine state: the device, and the commands that wait, first in first out. -/
structure State where
  dev : Dev := {}
  pending : List Instr := []
deriving DecidableEq, Repr

/-- Why the block would stop. No command of this model raises it: the spec gives every row an effect. -/
inductive Fault where
  /-- never raised: kept so that the type of faults is not empty; safe -/
  | unused
deriving DecidableEq, Repr

/-- Why a command is turned away. -/
inductive Refusal where
  /-- a row of the table that has no meaning yet: raised by Dispatch alone; safe, the block stops -/
  | notModelled (mnemonic : String)
deriving DecidableEq, Repr

/-- The device right after SYS_RST_N is released: every register holds the value of its map, GLB_BOOT.step 0 among them (R11);
step 1, CLOCKS, shows from the first PLL that locks (R469; log entry 98, DESIGN CHOICE). -/
def State.reset : State := {}

end Sys2Proof.Machine
end

