-- ==== Sys2Proof/Machine/Ops.lean ====
section
/-! DEFINITION. The shared operations over registers, counters, status bits, events, outputs and tables, which every
meaning is written with. -/
namespace Sys2Proof.Machine

/-- The device runs: it is powered and out of reset. -/
def Dev.up (d : Dev) : Bool := d.powered && !d.inReset

/-- What almost every row leaves as it is: power and reset (R443, R467), GLB_LOCK (R499), device time (R39) and the flash
(R449). The rows that act on one of them take a form that leaves it open. -/
def Dev.keep (d e : Dev) : Dev :=
  { e with powered := d.powered, inReset := d.inReset, rstAsserted := d.rstAsserted, lock := d.lock, nvm := d.nvm,
           time := { e.time with now := d.time.now } }

/-- What a row that may write registers or step device time leaves as it is; a lock bit, once set, stays (R499). -/
def Dev.keepBus (d e : Dev) : Dev :=
  { e with powered := d.powered, inReset := d.inReset, rstAsserted := d.rstAsserted, nvm := d.nvm, lock := d.lock ||| e.lock }

/-- What a row that may write the flash leaves as it is. -/
def Dev.keepNvm (d e : Dev) : Dev :=
  { e with powered := d.powered, inReset := d.inReset, rstAsserted := d.rstAsserted, lock := d.lock,
           time := { e.time with now := d.time.now } }

/-- The form of almost every meaning: an effect on the device when it runs, and nothing while it is in reset. -/
def act (s : State) (f : Dev → Dev) : Host.Outcome State Fault Refusal :=
  .next { s with dev := if s.dev.up then s.dev.keep (f s.dev) else s.dev }

/-- The form of a meaning that may write registers, GLB_LOCK among them, or move device time. -/
def actBus (s : State) (f : Dev → Dev) : Host.Outcome State Fault Refusal :=
  .next { s with dev := if s.dev.up then s.dev.keepBus (f s.dev) else s.dev }

/-- The form of a meaning that may write the flash. -/
def actNvm (s : State) (f : Dev → Dev) : Host.Outcome State Fault Refusal :=
  .next { s with dev := if s.dev.up then s.dev.keepNvm (f s.dev) else s.dev }

/-- The form of a meaning that acts in reset too. -/
def actRaw (s : State) (f : Dev → Dev) : Host.Outcome State Fault Refusal :=
  .next { s with dev := f s.dev }

/-! ## Registers -/

/-- The stored value of a register, by its own offset. -/
def Dev.reg (d : Dev) (key : Nat) : Word := Tbl.get 0#32 d.regs key ^^^ regReset key

/-- Store a register whole. -/
def Dev.setReg (d : Dev) (key : Nat) (v : Word) : Dev :=
  { d with regs := Tbl.set 0#32 d.regs key (v ^^^ regReset key) }

/-- Change one field of a register. -/
def Dev.setRegFld (d : Dev) (key hi lo x : Nat) : Dev := d.setReg key (setFld (d.reg key) hi lo x)

/-- A software write of a plain register: the bits of mask `rw` take the written value (R9, R10). -/
def Dev.writeRw (d : Dev) (key : Nat) (rw v : Word) : Dev :=
  d.setReg key ((d.reg key &&& ~~~rw) ||| (v &&& rw))

/-- Latch one status bit: the bit is set and the sequence count advances by 1 (R497). -/
def Dev.latchBit (d : Dev) (key b : Nat) : Dev :=
  let v := d.reg key
  d.setReg key (setFld (v ||| put 1 b) 31 24 ((fld v 31 24 + 1) % 256))

/-- A sequence-clear write with a matching count clears the bits written 1 (R497). -/
def Dev.clearSqc (d : Dev) (key : Nat) (sqc v : Word) : Dev :=
  d.setReg key (d.reg key &&& ~~~(v &&& sqc))

/-! ## Counters -/

/-- The key of counter `i` of bank `b` (R506). -/
def cntKey (b i : Nat) : Nat := b * 256 + i

/-- The value of a counter. -/
def Dev.counter (d : Dev) (b i : Nat) : Word := Tbl.get 0#32 d.cnt (cntKey b i)

/-- Is the pair that holds counter `i` of bank `b` chained (R509)? -/
def Dev.chained (d : Dev) (b i : Nat) : Bool :=
  if 147 ≤ b ∧ b ≤ 155 then true
  else if b = 163 then false
  else if b = 159 then if i < 32 then false else true
  else if i < 32 then bit (d.reg (Reg.CNT_BANK_CFG b)) (i / 2) else false

/-- Count `n` events in counter `i` of bank `b` (R507, R509): a chained odd counter counts only the wraps of the even
one below it. -/
def Dev.bump (d : Dev) (b i n : Nat) : Dev :=
  if d.chained b i then
    if i % 2 = 1 then d
    else
      let v := (d.counter b i).toNat + n
      let c := Tbl.set 0#32 d.cnt (cntKey b i) (wd v)
      { d with cnt := Tbl.set 0#32 c (cntKey b (i + 1)) (d.counter b (i + 1) + wd (v / 2 ^ 32)) }
  else { d with cnt := Tbl.set 0#32 d.cnt (cntKey b i) (d.counter b i + wd n) }

/-- Count one event. -/
def Dev.inc (d : Dev) (b i : Nat) : Dev := d.bump b i 1

/-! ## Banks (Table 19.1) -/

def bankGlb : Nat := 0
def bankPort (p : Nat) : Nat := 1 + p
def bankPress (n : Nat) : Nat := 129 + n
def bankStage (n : Nat) : Nat := 138 + n
def bankSlot (n : Nat) : Nat := 147 + n
def bankVint : Nat := 156
def bankBpm : Nat := 157
def bankTmq : Nat := 158
def bankSchd : Nat := 159
def bankShp : Nat := 160
def bankMtr : Nat := 161
def bankRepl : Nat := 162
def bankSess : Nat := 163
def bankMc (k : Nat) : Nat := 164 + k
def bankTrl : Nat := 172
def bankLink (n : Nat) : Nat := 173 + n
def bankHost : Nat := 429
def bankMgmt : Nat := 430
def bankSpr : Nat := 431
def bankCnt : Nat := 432

/-! ## Events, outputs, free values -/

/-- A unit posts an event to the event FIFO with its device time; a full FIFO loses it, counted (R446). -/
def Dev.log (d : Dev) (src code : Nat) (data : Bytes) : Dev :=
  if d.events.length < 1024 then
    { d with events := d.events ++ [{ src := src, code := code, sec := d.time.now.sec, ns := d.time.now.ns, data := data }] }
  else
    (d.setReg Reg.MGMT_EVT_LOST (d.reg Reg.MGMT_EVT_LOST + 1#32)).inc bankMgmt 1

/-- The event of status bit `b` of status register `idx` under source `src` (R448): instance, then the values. -/
def Dev.logBit (d : Dev) (src idx b inst : Nat) (data : Bytes) : Dev :=
  d.log src (idx * 256 + b) (le 2 inst ++ data)

/-- The event of Table 16.9 with number `k` under source `src`. -/
def Dev.logNum (d : Dev) (src k inst : Nat) (data : Bytes) : Dev :=
  d.log src (0xFF00 + k) (le 2 inst ++ data)

/-- Send something out of the device. -/
def Dev.emit (d : Dev) (o : Output) : Dev := { d with out := o :: d.out }

/-- Take the next free value: a number nothing constrains (log entry 2, DESIGN CHOICE). -/
def Dev.takeFree (d : Dev) : Nat × Dev := (Config.freeNat d.free, { d with free := d.free + 1 })

/-- Code of a path (R490). -/
def pathCode : Path → Nat
  | .bar0 => 0 | .ring => 1 | .mgmt => 2 | .launch => 3 | .cfg => 4

/-- Deliver a read value to its path. -/
def Dev.deliver (d : Dev) (p : Path) (v : Word) : Dev := d.emit (.readData (pathCode p) v)

/-! ## Tables of typed state -/

def Dev.port (d : Dev) (p : Nat) : Port := Tbl.get {} d.ports p
def Dev.setPort (d : Dev) (p : Nat) (x : Port) : Dev := { d with ports := Tbl.set {} d.ports p x }
def Dev.modPort (d : Dev) (p : Nat) (f : Port → Port) : Dev := d.setPort p (f (d.port p))

/-- A slice as SYS_RST_N leaves it (R17, Table 15.3): S0 to S7 ACTIVE and holding their port group, S8 the spare. -/
def sliceDflt (n : Nat) : Slice :=
  if n < 8 then { st := .active, pg := some n } else { st := .spare, pg := none }

/-- The state of slice `n`; the table lists the slices that differ from their reset state. -/
def Dev.slice (d : Dev) (n : Nat) : Slice := Tbl.get (sliceDflt n) d.slices n
def Dev.setSlice (d : Dev) (n : Nat) (x : Slice) : Dev := { d with slices := Tbl.set (sliceDflt n) d.slices n x }
def Dev.modSlice (d : Dev) (n : Nat) (f : Slice → Slice) : Dev := d.setSlice n (f (d.slice n))

/-- A fence is set on a (slice, port group) pair (R404). -/
def Dev.fenced (d : Dev) (n g : Nat) : Bool := d.spr.fences.contains (n, g)

/-- The slice that holds port group `g` (R403), if any: an ACTIVE slice presenting its claim, and not fenced. -/
def Dev.holder (d : Dev) (g : Nat) : Option Nat :=
  (List.range 9).find? fun n => (d.slice n).st = .active && ((d.slice n).pg == some g) && !d.fenced n g

def Dev.entry (d : Dev) (i : Nat) : LEntry := Tbl.get {} d.lnch.entries i
def Dev.setEntry (d : Dev) (i : Nat) (e : LEntry) : Dev :=
  { d with lnch := { d.lnch with entries := Tbl.set {} d.lnch.entries i e } }
def Dev.modEntry (d : Dev) (i : Nat) (f : LEntry → LEntry) : Dev := d.setEntry i (f (d.entry i))

/-- A fresh identity for a packet. -/
def Dev.newUid (d : Dev) : Nat × Dev := (d.nextUid, { d with nextUid := d.nextUid + 1 })

/-! ## Vintages -/

/-- The live vintages (R124, R164, R165). -/
def Dev.liveVints (d : Dev) : List Nat :=
  if d.vint.started then d.vint.current :: d.vint.old.toList else []

/-- The vintage test of R107. -/
def vintIn (v first last : Nat) : Bool := fwd 4 first v ≤ fwd 4 first last

/-- Key of the device's own run of multiframes without a packet of the old vintage, beside those of the workers (R172). -/
def ownZero : Nat := 32

/-- Add to or take from the in-flight count of a vintage (R169); a packet of the old vintage ends the device's own run at
0 (R172). -/
def Dev.vintAdd (d : Dev) (v : Nat) : Dev :=
  let z := if d.vint.old = some v then Tbl.set (0, 0) d.fab.zeros ownZero (0, 0) else d.fab.zeros
  { d with vint := { d.vint with inflight := Tbl.modify 0 d.vint.inflight v (· + 1) }, fab := { d.fab with zeros := z } }
def Dev.vintSub (d : Dev) (v : Nat) : Dev :=
  { d with vint := { d.vint with inflight := Tbl.modify 0 d.vint.inflight v (· - 1) } }
def Dev.inflight (d : Dev) (v : Nat) : Nat := Tbl.get 0 d.vint.inflight v

end Sys2Proof.Machine
end

