-- ==== Sys2Proof/Machine/TimeCore.lean ====
section
/-! DEFINITION. The time base: device time arithmetic, the increment with discipline and slew, steps and the time
state (R39 to R48). -/
namespace Sys2Proof.Machine

/-- One nanosecond in the units of the hidden fraction, 2^-48 ns (R39, R41). -/
def nsUnit : Nat := 2 ^ 48

/-- Device time as one number of 2^-48 ns units. -/
def DevTime.units (t : DevTime) : Nat := (t.sec * 10 ^ 9 + t.ns) * nsUnit + t.frac

/-- Device time from units; seconds wrap at 2^48, nanoseconds carry into seconds at 10^9 (R39). -/
def DevTime.ofUnits (u : Nat) : DevTime :=
  { sec := u / nsUnit / 10 ^ 9 % 2 ^ 48, ns := u / nsUnit % 10 ^ 9, frac := u % nsUnit }

/-- Whole nanoseconds since the epoch of the time base. -/
def DevTime.nsTotal (t : DevTime) : Nat := t.sec * 10 ^ 9 + t.ns

/-- The 16-bit sub-nanoseconds field (R39). -/
def DevTime.subns (t : DevTime) : Nat := t.frac / 2 ^ 32

/-- The 12 bytes of a 96-bit device time, most significant first (R39). -/
def DevTime.bytes (t : DevTime) : Bytes := be 6 t.sec ++ be 4 t.ns ++ be 2 t.subns

/-- A time shifted by a signed number of 2^-48 ns units; below the epoch it stays at the epoch. -/
def DevTime.shift (t : DevTime) (x : Int) : DevTime := DevTime.ofUnits ((t.units : Int) + x).toNat

/-- Rounding to the nearest integer, a half away from zero (R41). -/
def roundAway (n : Int) (m : Nat) : Int :=
  let q : Int := ((2 * n.natAbs + m) / (2 * m) : Nat)
  if n < 0 then -q else q

/-- The limit of the rate, ±200 ppm in units of 2^-10 ppb (R41). -/
def rateLimit : Int := 204800000

/-- The slew rate, 100 ppm in units of 2^-10 ppb (R42). -/
def slewRate : Int := 102400000

/-- A rate clamped to ±200 ppm (R41). -/
def clampRate (a : Int) : Int := max (-rateLimit) (min rateLimit a)

/-- The increment of one TSCLK cycle for the rate n / m in units of 2^-10 ppb, in units of 2^-48 ns (R41). -/
def increment (n : Int) (m : Nat) : Int :=
  roundAway (nsUnit * (1024 * 10 ^ 9 * (m : Int) + n)) (1024 * 10 ^ 9 * m)

/-- The rate in force as numerator and denominator: TIME_FREQ_ADJ clamped, or the mean that HOLDOVER runs at
(R41, R46). -/
def Dev.rate (d : Dev) : Int × Nat :=
  match d.time.state, d.time.holdRate with
  | .holdover, some r => r
  | _, _ => (clampRate (d.reg Reg.TIME_FREQ_ADJ).toInt, 1)

/-- The slew rate that survives the clamp (R42): TIME_FREQ_ADJ keeps its full rate. -/
def slewPart (rem : Int) (r : Int × Nat) : Int :=
  let m : Int := r.2
  if rem = 0 then 0
  else if 0 < rem then max 0 (min (slewRate * m) (rateLimit * m - r.1))
  else min 0 (max (-(slewRate * m)) (-(rateLimit * m) - r.1))

/-- The clamp cuts the slew (R42). -/
def slewCut (rem : Int) (r : Int × Nat) : Bool :=
  rem ≠ 0 ∧ (slewPart rem r).natAbs ≠ (slewRate * r.2).natAbs

/-- What one cycle adds to device time, and the slew left after it: the last cycle of a slew applies exactly what is
left (R42, log entry 5, DEDUCED). -/
def tickPart (rem : Int) (r : Int × Nat) : Int × Int :=
  let base := increment r.1 r.2
  let part := increment (r.1 + slewPart rem r) r.2 - base
  if rem = 0 then (base, 0)
  else if rem.natAbs ≤ part.natAbs then (base + rem, 0)
  else (base + part, rem - part)

/-- One TSCLK cycle (R41, R42). -/
def TimeBase.tick (t : TimeBase) (r : Int × Nat) : TimeBase :=
  if t.running then
    let x := tickPart t.slewRem r
    { t with now := t.now.shift x.1, slewRem := x.2, tsc := t.tsc + 1 }
  else t

/-- TIME_SLEW as it reads: the part not yet applied, rounded away from zero to whole nanoseconds (R42). -/
def slewRead (rem : Int) : Word :=
  let q : Int := ((rem.natAbs + nsUnit - 1) / nsUnit : Nat)
  BitVec.ofInt 32 (if rem < 0 then -q else q)

/-- Code of TIME_STATUS.state (Table 2.3). -/
def TimeState.code : TimeState → Nat
  | .freeRun => 0 | .acquiring => 1 | .locked => 2 | .holdover => 3

/-- TIME_CTRL.src_sel, with 4–7 acting as 0 (Table 2.2). -/
def srcOf (ctrl : Word) : Nat := if fld ctrl 2 0 ≤ 3 then fld ctrl 2 0 else 0

def Dev.src (d : Dev) : Nat := srcOf (d.reg Reg.TIME_CTRL)

/-- TIME_STATUS.valid (R47). -/
def Dev.timeValid (d : Dev) : Bool :=
  d.time.state = .locked || d.time.state = .holdover || bit (d.reg Reg.TIME_CTRL) 4

/-- Record a change of TIME_STATUS.valid made by an operation (R47, R63): valid_change is latched, and the first
moment of validity is kept. -/
def Dev.noteValid (before : Bool) (d : Dev) : Dev :=
  let d1 := if before = d.timeValid then d else d.latchBit Reg.TIME_STATUS 8
  if d.timeValid ∧ d1.time.firstValid = none then
    { d1 with time := { d1.time with firstValid := some d1.time.now } }
  else d1

/-- Enter a time state. LOCKED starts its rate history; other states clear the count of good samples. -/
def TimeBase.enter (t : TimeBase) (st : TimeState) (a : Int) : TimeBase :=
  { t with state := st, goodSamples := 0,
           rateHist := if st = .locked then [(t.tsc, a)] else t.rateHist,
           holdRate := if st = .holdover then t.holdRate else none }

/-- clamp is latched where the clamp begins to cut the slew in progress (R42); `was`: it was already cut. -/
def Dev.noteCut (was : Bool) (d : Dev) : Dev :=
  if slewCut d.time.slewRem d.rate && !was then d.latchBit Reg.TIME_STATUS 14 else d

/-- Enter a time state, with the change of rate and of validity it brings (R42, R46, R47). -/
def Dev.enterTime (d : Dev) (st : TimeState) : Dev :=
  Dev.noteValid d.timeValid
    (Dev.noteCut (slewCut d.time.slewRem d.rate) { d with time := d.time.enter st (d.reg Reg.TIME_FREQ_ADJ).toInt })

/-- TIME_STATUS.indirect follows the source and the time link (Table 2.3, R81, R340). -/
def Dev.noteIndirect (d : Dev) : Dev :=
  { d with time := { d.time with indirect := d.src = 3 && (d.fab.timeLink.map (·.2)).getD false } }

/-- Add up rate × cycles over a history (newest first) that ends at cycle `upto`, no further back than `from`. -/
def rateSum : List (Nat × Int) → Nat → Nat → Int × Nat
  | [], _, _ => (0, 0)
  | (t0, a) :: rest, upto, lo =>
    let s := max t0 lo
    let w := upto - s
    let r := if t0 ≤ lo then (0, 0) else rateSum rest t0 lo
    (a * w + r.1, w + r.2)

/-- The mean TIME_FREQ_ADJ of the last 64 s of LOCKED (R46), as numerator and denominator: 64 × 10^9 TSCLK cycles. -/
def meanRate (hist : List (Nat × Int)) (now : Nat) (a : Int) : Int × Nat :=
  let r := rateSum hist now (now - 64 * 10 ^ 9)
  if r.2 = 0 then (a, 1) else (max (-(rateLimit * r.2)) (min (rateLimit * r.2) r.1), r.2)

/-- A write to TIME_FREQ_ADJ (R41): stored, clamped in effect, with clamp latched when it is out of range or when it
makes the clamp cut a slew in progress (R42). -/
def Dev.writeFreqAdj (d : Dev) (v : Word) : Dev :=
  let a := v.toInt
  let d1 := d.setReg Reg.TIME_FREQ_ADJ v
  let d2 := { d1 with time := { d1.time with
    rateHist := if d1.time.state = .locked then (d1.time.tsc, a) :: d1.time.rateHist else d1.time.rateHist } }
  if clampRate a ≠ a ∨ slewCut d2.time.slewRem d2.rate then d2.latchBit Reg.TIME_STATUS 14 else d2

/-- A slew of `rem` units begins in place of any in progress (R42). -/
def Dev.setSlew (d : Dev) (rem : Int) : Dev := Dev.noteCut false { d with time := { d.time with slewRem := rem } }

/-- A write to TIME_SLEW (R42): it replaces any remainder, its fraction included. -/
def Dev.writeSlew (d : Dev) (v : Word) : Dev := d.setSlew (v.toInt * nsUnit)

/-- A write to TIME_CTRL (R46): what changes src_sel selects a source or free-run. -/
def Dev.writeTimeCtrl (d : Dev) (v : Word) : Dev :=
  let before := d.timeValid
  let old := d.src
  let d1 := d.writeRw Reg.TIME_CTRL 0xFFFF7F17#32 v
  let new := d1.src
  let raw := (d.reg Reg.TIME_CTRL)
  let d2 :=
    if new = 0 ∧ old ≠ 0 then { d1 with time := d1.time.enter .freeRun 0 }
    else if new ≠ 0 ∧ fld v 2 0 ≠ fld raw 2 0 then { d1 with time := d1.time.enter .acquiring 0 }
    else d1
  (Dev.noteValid before (Dev.noteCut (slewCut d.time.slewRem d.rate) d2)).noteIndirect

/-- The value staged in TIME_STEP_NS, TIME_STEP_SEC_LO and TIME_STEP_SEC_HI (R43). -/
def Dev.stepNs (d : Dev) : Nat := (d.reg Reg.TIME_STEP_NS).toNat
def Dev.stepSec (d : Dev) : Nat :=
  (d.reg Reg.TIME_STEP_SEC_LO).toNat + 2 ^ 32 * fld (d.reg Reg.TIME_STEP_SEC_HI) 15 0

/-- The device time that a step would set: op 1 sets, op 2 adds; none when R43 refuses. -/
def Dev.stepTarget (d : Dev) (add : Bool) : Option DevTime :=
  if fld (d.reg Reg.TIME_CTRL) 2 0 = 3 ∨ 10 ^ 9 ≤ d.stepNs then none
  else if add then
    let total : Int := (d.time.now.nsTotal : Int) + signed 48 d.stepSec * 10 ^ 9 + d.stepNs
    if total < 0 ∨ 2 ^ 48 * 10 ^ 9 ≤ total then none
    else some { sec := total.toNat / 10 ^ 9, ns := total.toNat % 10 ^ 9, frac := 0 }
  else some { sec := d.stepSec, ns := d.stepNs, frac := 0 }

/-- An instant in whole nanoseconds. -/
def LEntry.instant (e : LEntry) : Nat := e.sec * 10 ^ 9 + e.ns

/-- An entry's instant moved on by its period (R69). -/
def LEntry.next (e : LEntry) : LEntry :=
  let t := e.instant + e.period
  { e with sec := t / 10 ^ 9 % 2 ^ 48, ns := t % 10 ^ 9 }

/-- What a forward step to `t` nanoseconds does to an entry that it passes over: it is due to act at once. A backward step
recalls a dispatched one, and what an earlier step made due waits for its instant again (R72, R73). -/
def stepEntry (fwdStep : Bool) (t : Nat) (e : LEntry) : LEntry :=
  if fwdStep then
    if (e.st = .armed ∨ e.st = .dispatched) ∧ e.instant ≤ t then { e with due := true } else e
  else { e with due := false, tardy := false, st := if e.st = .dispatched then .armed else e.st }

/-- The time that PPS_OUT follows: device time advanced by TIME_PPS_CORR[15:0] (R51). -/
def Dev.ppsTime (d : Dev) : DevTime := d.time.now.shift (signed 16 (fld (d.reg Reg.TIME_PPS_CORR) 15 0) * nsUnit)

/-- A step passes no whole second: the next output edge is that of the first second reached after it (R51; log entry 101,
DESIGN CHOICE). -/
def Dev.ppsRestart (d : Dev) : Dev := { d with time := { d.time with ppsOutSec := d.ppsTime.sec } }

/-- A step of device time (R43, R72, R73, R298): refused with step_refused, or done at once. The entries that a
forward step passes over are marked due and act in the same step of the block. -/
def Dev.timeStep (d : Dev) (add : Bool) : Dev :=
  match d.stepTarget add with
  | none => d.latchBit Reg.TIME_STATUS 15
  | some t =>
    let before := d.timeValid
    let f : Bool := decide (d.time.now.units ≤ t.units)
    let d1 := { d with
      time := { d.time with now := t, slewRem := 0 },
      lnch := { d.lnch with entries := d.lnch.entries.map fun (p : Nat × LEntry) => (p.1, stepEntry f t.nsTotal p.2) } }
    let d2 := d1.ppsRestart.latchBit Reg.TIME_STATUS 9
    let s := fld (d.reg Reg.TIME_CTRL) 2 0
    if s = 1 ∨ s = 2 then Dev.noteValid before { d2 with time := d2.time.enter .acquiring 0 } else d2

/-- A read of TIME_NOW_NS latches the words of the same instant (R44). -/
def Dev.readNow (d : Dev) : Word × Dev :=
  let t := d.time.now
  (wd t.ns, { d with time := { d.time with
    nowSecLo := wd t.sec, nowHi := wd (t.subns * 65536 + t.sec / 2 ^ 32) } })

/-- A read of TIME_PPS_CAPT_NS latches the seconds word (R49). -/
def Dev.readCapt (d : Dev) : Word × Dev :=
  (wd d.time.ppsCapt.ns, { d with time := { d.time with ppsCaptSec := wd d.time.ppsCapt.sec } })

/-- A read of TIME_TXTS_DATA0 latches DATA1–DATA3 and pops the record of the selected port (R56). -/
def Dev.readTxTs (d : Dev) : Word × Dev :=
  let p := fld (d.reg Reg.TIME_TXTS_SEL) 6 0
  match Tbl.get [] d.time.txts p with
  | [] => (0#32, d)
  | r :: rest =>
    (wd (2 ^ 31 + r.msgType * 2 ^ 24 + r.domain * 2 ^ 16 + r.seqId),
     { d with time := { d.time with
        txts := Tbl.set [] d.time.txts p rest,
        txtsLatch := [wd r.time.ns, wd r.time.sec, wd (r.time.subns * 65536 + r.time.sec / 2 ^ 32)] } })

/-- Push a transmit timestamp record; a full FIFO of 64 discards and counts it (R56). -/
def Dev.pushTxTs (d : Dev) (p : Nat) (r : TxTs) : Dev :=
  let q := Tbl.get [] d.time.txts p
  if q.length < 64 then { d with time := { d.time with txts := Tbl.set [] d.time.txts p (q ++ [r]) } }
  else { d with time := { d.time with txtsDiscarded := Tbl.modify 0 d.time.txtsDiscarded p (· + 1) } }

end Sys2Proof.Machine
end

