-- ==== Sys2Proof/Machine/LaunchCore.lean ====
section
/-! DEFINITION. The launch list: entry layout, arming, cancelling, reading, and the order and targets of dispatch
(R59 to R69). -/
namespace Sys2Proof.Machine

/-- The 256 bits of an entry (Table 2.8), as a number. -/
def LEntry.bits (e : LEntry) : Nat :=
  e.sec * 2 ^ 208 + e.ns * 2 ^ 176 + e.kind * 2 ^ 168 + e.st.code * 2 ^ 164 + e.origin * 2 ^ 162 +
  b2n e.late * 2 ^ 161 + e.target * 2 ^ 128 + e.arg * 2 ^ 64 + e.period * 2 ^ 32 + e.tag * 2 ^ 16 + e.skipped

/-- A field [hi:lo] of a number. -/
def nfld (x hi lo : Nat) : Nat := (x >>> lo) % 2 ^ (hi - lo + 1)

/-- The entry that 256 staged bits spell; the read-only fields are ignored (Table 2.8). -/
def LEntry.ofBits (x : Nat) : LEntry :=
  { sec := nfld x 255 208, ns := nfld x 207 176, kind := nfld x 175 168, target := nfld x 159 128,
    arg := nfld x 127 64, period := nfld x 63 32, tag := nfld x 31 16 }

/-- The eight staging words as one number, little-endian (R60). -/
def Dev.lnchStage (d : Dev) : Nat :=
  (List.range 8).foldr (fun j acc => (d.reg (Reg.LNCH_STAGE j)).toNat + 2 ^ 32 * acc) 0

/-- Put 256 bits into the staging words. -/
def Dev.setLnchStage (d : Dev) (x : Nat) : Dev :=
  (List.range 8).foldl (fun d j => d.setReg (Reg.LNCH_STAGE j) (wd (x >>> (32 * j)))) d

/-- The kinds of Table 2.11 (R70). -/
def kindOk (k : Nat) : Bool := (1 ≤ k ∧ k ≤ 0x0A) ∨ k = 0x0F

/-- The entry may be armed: it is not HELD, ARMED or DISPATCHED (R61, R64). -/
def LEntry.armable (e : LEntry) : Bool :=
  match e.st with
  | .held | .armed | .dispatched => false
  | _ => true

/-- Index use (R59): 0 host, 1 firmware, 2 distributed. -/
def idxClass (i : Nat) : Nat := if i ≤ 3071 then 0 else if i ≤ 3583 then 1 else 2

/-- End a LNCH_CMD with a result; one other than OK sets cmd_refused (Table 2.10). -/
def Dev.lnchResult (d : Dev) (r : Nat) : Dev :=
  let d1 := d.setReg Reg.LNCH_CMD (put r 28)
  if r = 0 then d1 else d1.latchBit Reg.LNCH_STATUS 1

/-- Count in LNCH_LATE_CNT and set late (R67). -/
def Dev.countLate (d : Dev) : Dev :=
  (d.setReg Reg.LNCH_LATE_CNT (d.reg Reg.LNCH_LATE_CNT + 1#32)).latchBit Reg.LNCH_STATUS 2

/-- An entry is DISCARDED and counted (R74). -/
def Dev.discardEntry (d : Dev) (i : Nat) : Dev :=
  let d1 := d.modEntry i fun e => { e with st := .discarded, due := false }
  (d1.setReg Reg.LNCH_DISCARD_CNT (d1.reg Reg.LNCH_DISCARD_CNT + 1#32)).latchBit Reg.LNCH_STATUS 4

/-- LNCH_FREE: entries of 0–3071 that may be armed (Table 2.10). -/
def Dev.lnchFree (d : Dev) : Nat :=
  3072 - (d.lnch.entries.filter fun p => p.1 ≤ 3071 ∧ !p.2.armable).length

/-- Targets with a launch FIFO of 32 entries (R65, CX22): one for the TCLK side, one for each memory controller, one
for the Trellis side, one for the F-die. REG_WRITE and MARK have none (log entry 6, DEDUCED). -/
inductive LTarget where
  | none | fdie | tclk | xclk | mc (k : Nat)
deriving DecidableEq, Repr

/-- The target of an entry (Table 2.11). -/
def LEntry.fifo (e : LEntry) : LTarget :=
  match e.kind with
  | 0x01 => .fdie
  | 0x02 => .xclk
  | 0x07 => .mc (nfld e.target 6 4)
  | 0x0A => .none
  | 0x0F => .none
  | _ => .tclk

/-- Entries that sit in a target's FIFO: those dispatched and not yet acted. -/
def Dev.fifoCount (d : Dev) (t : LTarget) : Nat :=
  (d.lnch.entries.filter fun p => p.2.st = .dispatched ∧ p.2.fifo = t).length

/-- Order of dispatch and of action: instant, then kind code, then index (R65, R68). -/
def orderKey (i : Nat) (e : LEntry) : Nat := (e.instant * 256 + e.kind) * 4096 + i

/-- The least of a list by a key. -/
def leastBy (k : Nat × LEntry → Nat) : List (Nat × LEntry) → Option (Nat × LEntry)
  | [] => none
  | p :: ps => match leastBy k ps with
    | none => some p
    | some q => if k p ≤ k q then some p else some q

/-- The first entry, in the order of R68, of those that satisfy `f`. -/
def Dev.firstEntry (d : Dev) (f : LEntry → Bool) : Option Nat :=
  (leastBy (fun p => orderKey p.1 p.2) (d.lnch.entries.filter fun p => f p.2)).map (·.1)

/-- Set an entry's late flag, count and log it (R67): index, kind, tag, instant and the lateness in ns. -/
def Dev.noteLate (d : Dev) (i : Nat) : Dev :=
  let e := d.entry i
  let lateness := d.time.now.nsTotal - e.instant
  let d1 := (d.modEntry i fun e => { e with late := true }).countLate
  d1.logBit 0x02 0 2 0
    (le 2 i ++ le 1 e.kind ++ le 2 e.tag ++ le 4 e.ns ++ le 6 e.sec ++ le 4 (satN 32 lateness))

/-- The first repetition after time `t`, and how many are passed over (R72). -/
def seriesAfter (e : LEntry) (t : Nat) : LEntry :=
  let k := (t - e.instant) / e.period
  let at' := e.instant + (k + 1) * e.period
  { e with sec := at' / 10 ^ 9 % 2 ^ 48, ns := at' % 10 ^ 9, skipped := satN 16 (e.skipped + k) }

/-- After an entry has acted: DONE or DONE_LATE, or back to ARMED with the next instant when it repeats (R69, R72). -/
def afterAct (late : Bool) (now : Nat) (e : LEntry) : LEntry :=
  let e1 := { e with due := false, tardy := false }
  if e.period = 0 then { e1 with st := if late then .doneLate else .done }
  else if e.due then { seriesAfter e1 now with st := .armed }
  else { e1.next with st := .armed }

end Sys2Proof.Machine
end

