-- ==== Sys2Proof/Machine/FlowCore.lean ====
section
/-! DEFINITION. What is held for a packet: flow-control occupancy (R97), the in-flight count of its vintage (R169) and
the ingress share (R221), and how a hold ends. -/
namespace Sys2Proof.Machine

/-- max_frame as the enable read it, clamped to 64–10,240 (R87, Table 3.4). -/
def Dev.maxFrame (d : Dev) (p : Nat) : Nat := max 64 (min 10240 (fld (d.port p).cfg 31 18))

/-- Replace element `i` of a list. -/
def lset {α : Type} (l : List α) (i : Nat) (x : α) : List α := l.set i x

/-- The flow-control class that an occupancy of `prio` is judged as: with PAUSE all eight are one, shown as 0, judged
by the highest occupancy against PG_FC_THR0; with PFC only the priorities of pfc_mask (R95, R97, log entry 7, DESIGN CHOICE). -/
def fcClass (fcMode : Nat) (cfg : Word) (prio : Nat) : Option Nat :=
  match fcMode with
  | 1 => some 0
  | 2 => if bit cfg (24 + prio) then some prio else none
  | _ => none

/-- The occupancy compared for a class. -/
def fcOcc (fcMode : Nat) (occ : List Nat) (cls : Nat) : Nat :=
  if fcMode = 1 then occ.foldl max 0 else occ.getD cls 0

/-- FC_THRESHOLD_CROSS (R97): XOFF is owed when the occupancy rises above xoff, and 0 quanta when it falls to xon or
below; an xoff of 0 disables sending. -/
def fcCheck (thr : Word) (o cls : Nat) (pt : Port) : Port :=
  let xoff := 256 * fld thr 31 16
  let xon := 256 * fld thr 15 0
  let on := pt.xoff.getD cls false
  if !on ∧ xoff ≠ 0 ∧ xoff < o then { pt with xoff := lset pt.xoff cls true, fcOwed := pt.fcOwed ++ [(cls, true)] }
  else if on ∧ xoff = 0 then { pt with xoff := lset pt.xoff cls false }
  else if on ∧ o ≤ xon then { pt with xoff := lset pt.xoff cls false, fcOwed := pt.fcOwed ++ [(cls, false)] }
  else pt

/-- Change the occupancy of (port, priority) and check the thresholds (R97). -/
def Dev.changeOcc (d : Dev) (p prio : Nat) (f : Nat → Nat) : Dev :=
  let pt := d.port p
  let pt1 := { pt with occ := lset pt.occ prio (f (pt.occ.getD prio 0)) }
  match fcClass pt.fcMode (d.reg (Reg.PG_FC_CFG p)) prio with
  | none => d.setPort p pt1
  | some c => d.setPort p (fcCheck (d.reg (Reg.PG_FC_THR p c)) (fcOcc pt.fcMode pt1.occ c) c pt1)

def Dev.hold (d : Dev) (uid : Nat) : Hold := Tbl.get {} d.qm.holds uid
def Dev.setHold (d : Dev) (uid : Nat) (h : Hold) : Dev := { d with qm := { d.qm with holds := Tbl.set {} d.qm.holds uid h } }

/-- Begin the hold of a packet: charge its occupancy (R97) and, when it is stamped, count its vintage (R169). -/
def Dev.charge (d : Dev) (uid p prio len : Nat) : Dev :=
  (d.setHold uid { d.hold uid with port := p, prio := prio, charged := len, refs := max 1 (d.hold uid).refs }).changeOcc p prio
    (· + len)

/-- The packet is stamped with a vintage and counted in flight (Table 6.2). -/
def Dev.countVint (d : Dev) (uid v : Nat) : Dev :=
  let h := d.hold uid
  if h.counted then d
  else (d.setHold uid { h with vint := v, counted := true, refs := max 1 h.refs }).vintAdd v

/-- Reclaim the old vintage as soon as nothing carries it, on a device that stands alone (R171). -/
def Dev.reclaimOld (d : Dev) : Dev :=
  match d.vint.old with
  | none => d
  | some _ =>
    let d1 := { d with vint := { d.vint with old := none } }
    ((d1.inc bankVint 2).latchBit Reg.SL_VNT_STATUS 9).logBit 0x20 0 9 0xFFFF []

/-- One more copy holds the packet. -/
def Dev.shareHold (d : Dev) (uid n : Nat) : Dev := d.setHold uid { d.hold uid with refs := (d.hold uid).refs + n }

/-- A hold on a packet ends: the last one releases the flow-control charge (R97) and the in-flight count (Table 6.2). -/
def Dev.endHold (d : Dev) (uid : Nat) : Dev :=
  let h := d.hold uid
  if 1 < h.refs then d.setHold uid { h with refs := h.refs - 1 }
  else
    let d1 := d.setHold uid {}
    let d2 := if h.charged = 0 then d1 else d1.changeOcc h.port h.prio (· - h.charged)
    if h.counted then d2.vintSub h.vint else d2

/-- Give back a packet's ingress share (R221). -/
def Dev.endShare (d : Dev) (k : Pkt) : Dev :=
  match k.shareKey with
  | none => d
  | some key => { d with qm := { d.qm with ishare := Tbl.modify 0 d.qm.ishare key (· - k.shareBytes) } }

end Sys2Proof.Machine
end

