-- ==== Sys2Proof/Machine/DramCore.lean ====
section
/-! DEFINITION. The DRAM regions: where a logical line lands (R346 to R348), which copies of it live (R352, R353,
R366), and the contents the device reads and writes by region and offset. -/
namespace Sys2Proof.Machine

/-- The regions of Table 13.2. -/
def rPacket : Nat := 0
def rTable : Nat := 1
def rCount : Nat := 2
def rRack : Nat := 3

def Dev.mcOf (d : Dev) (k : Nat) : Mc := Tbl.get {} d.mc k
def Dev.setMc (d : Dev) (k : Nat) (x : Mc) : Dev := { d with mc := Tbl.set {} d.mc k x }
def Dev.modMc (d : Dev) (k : Nat) (f : Mc → Mc) : Dev := d.setMc k (f (d.mcOf k))
def Mc.chan (m : Mc) (c : Nat) : Chan := Tbl.get {} m.chans c
def Mc.setChan (m : Mc) (c : Nat) (x : Chan) : Mc := { m with chans := Tbl.set {} m.chans c x }

/-- What R352 redirects a mirrored read away from: the channel is paused for retraining, or in recovery. -/
def Chan.out (c : Chan) : Bool := c.pause.isSome || c.recovering

/-- A channel issues none of its requests: it is paused or in recovery, or it replays (R350, R358, R359, R363). -/
def Chan.busy (c : Chan) : Bool := c.out || c.replaying

/-- A channel issues a command: the retry buffer holds the last 32, newest first (R358). -/
def Chan.issue (x : ChanCmd) (c : Chan) : Chan := { c with retry := (x :: c.retry).take 32 }

def Dev.chan (d : Dev) (k c : Nat) : Chan := (d.mcOf k).chan c
def Dev.modChan (d : Dev) (k c : Nat) (f : Chan → Chan) : Dev := d.modMc k fun m => m.setChan c (f (m.chan c))

/-- A stack is lost (Table 13.5). -/
def Dev.stackLost (d : Dev) (k : Nat) : Bool := (d.mcOf k).st = .lost

/-- The stacks that hold logical line `m` of region `r`, copy A first (R347). A packet-buffer line is named by
8 × (line of the stack's share) + stack. -/
def copiesOf (r m : Nat) : List Nat :=
  if r = 1 ∨ r = 3 then [m % 4, m % 4 + 4] else [m % 8]

/-- Line of the region's share of a stack (R347). -/
def shareLine (r m : Nat) : Nat := if r = 1 ∨ r = 3 then m / 4 else m / 8

/-- The stack line of a logical line under the active partition (R347). -/
def Dev.stackLine (d : Dev) (r m : Nat) : Nat := (d.part.getD r (0, 0)).1 * 2 ^ 14 + shareLine r m

/-- Channel, rank, bank, row and column of a stack line (R348). -/
structure LineAt where
  channel : Nat
  rank : Nat
  bank : Nat
  row : Nat
  column : Nat
deriving DecidableEq, Repr

def lineAt (n : Nat) : LineAt :=
  { channel := (n % 16) ^^^ (n / 2 ^ 15 % 16), bank := (n / 16 % 64) ^^^ (n / 2 ^ 19 % 64), rank := n / 2 ^ 10 % 2,
    column := n / 2 ^ 11 % 16, row := n / 2 ^ 15 % 2 ^ 13 }

/-- Some copy of a line is on a stack that is not lost (R352, R366). -/
def Dev.lineAlive (d : Dev) (r m : Nat) : Bool := (copiesOf r m).any fun k => !d.stackLost k

/-- Logical lines of a region: four times the per-stack size for a mirrored one, eight times otherwise (R347). -/
def Dev.regionLines (d : Dev) (r : Nat) : Nat := (if r = 1 ∨ r = 3 then 4 else 8) * (d.part.getD r (0, 0)).2 * 2 ^ 14

/-! ## Copies (R352) -/

/-- The copies of a line in the order a read tries them: copy A first where bit 0 of ⌊m / 4⌋ is 0 (R352). -/
def readOrder (r m : Nat) : List Nat := if m / 4 % 2 = 0 then copiesOf r m else (copiesOf r m).reverse

/-- A read of stack line `n` is redirected away from stack `k` (R352). -/
def Dev.copyOut (d : Dev) (k n : Nat) : Bool := d.stackLost k || (d.chan k (lineAt n).channel).out

/-- The copy that a read of a line is sent to (R352): a line with one copy waits while its channel is paused or in recovery. -/
def Dev.copyFor (d : Dev) (r m : Nat) : Option Nat :=
  if r = 1 ∨ r = 3 then (readOrder r m).find? fun k => !d.copyOut k (d.stackLine r m)
  else (copiesOf r m).find? fun k => !d.stackLost k

/-- The copy that answers in the end: where both are out of service for a time, the first that is not lost. -/
def Dev.dataCopy (d : Dev) (r m : Nat) : Option Nat :=
  match d.copyFor r m with
  | some k => some k
  | none => (readOrder r m).find? fun k => !d.stackLost k

/-! ## Requests on a channel (R358, R361, R370) -/

/-- A request wakes the rank of its line (R361). -/
def Dev.wakeRank (d : Dev) (k n : Nat) : Dev :=
  let a := lineAt n
  d.modChan k a.channel fun c => { c with pd := c.pd &&& ~~~BitVec.ofNat 2 (2 ^ a.rank) }

/-- A channel issues the read of a stack line, counted in READS. -/
def Dev.issueRead (d : Dev) (k n : Nat) : Dev :=
  ((d.wakeRank k n).modChan k (lineAt n).channel (Chan.issue (.read n))).inc (bankMc k) 0

/-- A channel issues the write of a stack line, counted in WRITES. -/
def Dev.issueWrite (d : Dev) (k n : Nat) : Dev :=
  ((d.wakeRank k n).modChan k (lineAt n).channel (Chan.issue (.write n))).inc (bankMc k) 2

/-- One copy of a write: it is discarded on a lost stack (R353, R366). -/
def Dev.writeCopy (d : Dev) (n k : Nat) : Dev := if d.stackLost k then d.inc (bankMc k) 15 else d.issueWrite k n

/-- A read is sent to copy `k`; MIRROR_REDIRECTS counts one sent elsewhere than to its first copy (R352). -/
def Dev.sendRead (d : Dev) (r m k : Nat) : Dev :=
  let first := (readOrder r m).headD k
  (if first = k then d else d.inc (bankMc first) 11).issueRead k (d.stackLine r m)

/-! ## Contents -/

/-- The key of byte `b` of line `n` of stack `k`. -/
def stackKey (k n b : Nat) : Nat := 2 ^ 34 * k + 64 * n + b

/-- The lines of a region that a run of bytes lies in. -/
def linesOf (a n : Nat) : List Nat := if n = 0 then [] else (List.range ((a + n - 1) / 64 - a / 64 + 1)).map (a / 64 + ·)

/-- One byte of a region, of the copy that answers; what has not been written reads 0 (R362), and so does what lies beyond the
region (log entry 118, DESIGN CHOICE). -/
def Dev.dramByte (d : Dev) (r a : Nat) : Byte :=
  if d.regionLines r ≤ a / 64 then 0#8
  else match d.dataCopy r (a / 64) with
    | some k => Tbl.get 0#8 d.dram (stackKey k (d.stackLine r (a / 64)) (a % 64))
    | none => 0#8

/-- The bytes of a region at an offset. -/
def Dev.dramRead (d : Dev) (r a n : Nat) : Bytes := (List.range n).map fun i => d.dramByte r (a + i)

/-- Store one byte of a region in every copy that is not lost (R353, R366); none beyond the region. -/
def Dev.storeByte (d : Dev) (r a : Nat) (b : Byte) : Dev :=
  if d.regionLines r ≤ a / 64 then d
  else { d with dram := ((copiesOf r (a / 64)).filter fun k => !d.stackLost k).foldl (fun t k =>
      Tbl.set 0#8 t (stackKey k (d.stackLine r (a / 64)) (a % 64)) b) d.dram }

/-- Store a run of bytes. -/
def Dev.dramStore (d : Dev) (r a : Nat) : Bytes → Dev
  | [] => d
  | b :: bs => (d.storeByte r a b).dramStore r (a + 1) bs

/-- The lines that a unit of the device reads in a region (R370): a unit waits for a channel that is paused, in recovery or
replaying, which takes no time here (log entry 118). -/
def Dev.countReads (d : Dev) (r a n : Nat) : Dev :=
  ((linesOf a n).filter fun m => m < d.regionLines r).foldl (fun d m => match d.dataCopy r m with
    | some k => d.sendRead r m k
    | none => d) d

/-- A write of bytes of a region by a unit of the device: both copies of a mirrored line, one on a lost stack discarded (R353,
R366, R370). -/
def Dev.dramWrite (d : Dev) (r a : Nat) (bs : Bytes) : Dev :=
  ((linesOf a bs.length).filter fun m => m < d.regionLines r).foldl (fun d m =>
    (copiesOf r m).foldl (fun d k => d.writeCopy (d.stackLine r m) k) d) (d.dramStore r a bs)

/-- Both copies of some pair of the table region are lost (R366, Table 13.7). -/
def Dev.tableLost (d : Dev) : Bool := (List.range 4).any fun j => d.stackLost j && d.stackLost (j + 4)

end Sys2Proof.Machine
end

