-- ==== Sys2Proof/Machine/BpmCore.lean ====
section
/-! DEFINITION. The buffer pool manager: handles, free lists, the operations on a state entry, allocation, revocation,
the auditor and the loss of a stack (R191 to R218, R539). -/
namespace Sys2Proof.Machine

/-! ## Handles and pools -/

/-- A handle (R195): tier, size class, index. -/
def mkHandle (tier cls idx : Nat) : Nat := tier * 2 ^ 31 + cls * 2 ^ 29 + idx
def hTier (h : Nat) : Nat := h / 2 ^ 31
def hCls (h : Nat) : Nat := h / 2 ^ 29 % 4
def hIdx (h : Nat) : Nat := h % 2 ^ 29

/-- The smallest size class that holds a length (R193, Table 7.1); none for 0 or more than 10,240 bytes. -/
def sizeClass (len : Nat) : Option Nat :=
  if len = 0 then none else if len ≤ 256 then some 0 else if len ≤ 1024 then some 1
  else if len ≤ 2048 then some 2 else if len ≤ 10240 then some 3 else none

/-- Bytes of a buffer of a class. -/
def bufBytes (cls : Nat) : Nat := [256, 1024, 2048, 10240].getD cls 0

def Dev.poolCount (d : Dev) (t s : Nat) : Nat := fld (d.reg (Reg.BPM_POOL_COUNT t s)) 28 0
def Dev.recircCount (d : Dev) (s : Nat) : Nat := fld (d.reg (Reg.BPM_RECIRC_CFG s)) 15 0

/-- The pool a handle belongs to: the highest-numbered on-die buffers are the recirculation pool (R205). -/
def Dev.poolKey (d : Dev) (h : Nat) : Nat :=
  if hTier h = 1 then 8 + hCls h
  else if d.poolCount 0 (hCls h) - d.recircCount (hCls h) ≤ hIdx h then 4 + hCls h else hCls h

/-- The free list a handle returns to (R192, R539). -/
def Dev.listKey (d : Dev) (h : Nat) : Nat :=
  let k := d.poolKey h
  if k < 8 then k else 8 + 8 * hCls h + hIdx h % 8

/-- Tier of a pool key, and its class. -/
def poolTier (k : Nat) : Nat := if k < 8 then 0 else 1
def poolCls (k : Nat) : Nat := k % 4

/-- The free-list keys of a pool. -/
def poolLists (k : Nat) : List Nat := if k < 8 then [k] else (List.range 8).map fun m => 8 + 8 * (k - 8) + m

def Dev.freeList (d : Dev) (k : Nat) : List Seg := Tbl.get [] d.bpm.free k
def Dev.setFreeList (d : Dev) (k : Nat) (l : List Seg) : Dev := { d with bpm := { d.bpm with free := Tbl.set [] d.bpm.free k l } }

/-- Free buffers on a list. -/
def segTotal (l : List Seg) : Nat := (l.map (·.cnt)).foldl (· + ·) 0

/-- Free buffers of a pool. -/
def Dev.poolFree (d : Dev) (k : Nat) : Nat := ((poolLists k).map fun j => segTotal (d.freeList j)).foldl (· + ·) 0

/-- Take the buffer at the head of a list (R539). -/
def popSeg : List Seg → Option (Nat × List Seg)
  | [] => none
  | s :: rest =>
    if s.cnt = 0 then popSeg rest
    else if s.cnt = 1 then some (s.start, rest)
    else some (s.start, { s with start := s.start + s.step, cnt := s.cnt - 1 } :: rest)

def Dev.buf (d : Dev) (h : Nat) : BufEntry := Tbl.get {} d.bpm.bufs h
def Dev.setBuf (d : Dev) (h : Nat) (b : BufEntry) : Dev := { d with bpm := { d.bpm with bufs := Tbl.set {} d.bpm.bufs h b } }

/-- H[t] of R200: allocated buffers of a pool under a tag. -/
def Dev.held (d : Dev) (tag k : Nat) : Nat :=
  (d.bpm.bufs.filter fun p => p.2.alloc && p.2.tag = tag && d.poolKey p.1 = k).length

/-- BPM_HELD: buffers held under a tag in a tier and class, recirculation buffers included (Table 7.6). -/
def Dev.heldReg (d : Dev) (tag t s : Nat) : Nat :=
  (d.bpm.bufs.filter fun p => p.2.alloc && p.2.tag = tag && hTier p.1 = t && hCls p.1 = s).length

/-- MIN[t] of R200: the recirculation pools have no minima. -/
def Dev.minOf (d : Dev) (tag k : Nat) : Nat :=
  if 4 ≤ k ∧ k < 8 then 0 else fld (d.reg (Reg.BPM_RSV tag (poolTier k) (poolCls k))) 28 0

/-- SH of R200. -/
def Dev.sharedFree (d : Dev) (k : Nat) : Int :=
  (d.poolFree k : Int) - (((List.range 14).map fun t => d.minOf t k - d.held t k).foldl (· + ·) 0 : Nat)

def Dev.tagState (d : Dev) (t : Nat) : TagState := Tbl.get .live d.bpm.tags t
def Dev.setTag (d : Dev) (t : Nat) (x : TagState) : Dev := { d with bpm := { d.bpm with tags := Tbl.set .live d.bpm.tags t x } }

/-! ## Refusals and their log (R202 to R204) -/

/-- Log a refusal unless one of the same kind and party was logged within a second (10^9 cycles); the next record
carries the number left out (R204, R448). -/
def Dev.logRefusal (d : Dev) (kind party : Nat) (mk : Dev → Bytes → Dev) : Dev :=
  let k := kind * 16 + party
  let none' : Nat × Nat := (0, 0)
  match d.bpm.quiet.find? (fun p => p.1 = k) with
  | some (_, (t, n)) =>
    if d.time.tsc < t + 10 ^ 9 then
      { d with bpm := { d.bpm with quiet := Tbl.set none' d.bpm.quiet k (t, n + 1) } }
    else mk { d with bpm := { d.bpm with quiet := Tbl.set none' d.bpm.quiet k (d.time.tsc, 0) } } (le 4 n)
  | none => mk { d with bpm := { d.bpm with quiet := Tbl.set none' d.bpm.quiet k (d.time.tsc, 0) } } []

/-- Latch BPM_LAST_FAULT and BPM_LAST_FAULT_BUF (Table 7.6). -/
def Dev.bpmFault (d : Dev) (kind party found h : Nat) : Dev :=
  (d.setReg Reg.BPM_LAST_FAULT (wd (kind * 2 ^ 28 + party * 2 ^ 24 + found * 2 ^ 20))).setReg Reg.BPM_LAST_FAULT_BUF (wd h)

/-- Data of a refusal record with the count of unlogged refusals in bytes 36–39 (R448): `n` is empty when none. -/
def refusalData (vals n : Bytes) : Bytes := if n = [] then vals else padTo 34 vals ++ n

/-- A double free (R202). -/
def Dev.doubleFree (d : Dev) (party h : Nat) : Dev :=
  let d1 := ((d.inc bankBpm 12).latchBit Reg.BPM_STATUS 10).bpmFault 1 party (d.buf h).tag h
  d1.logRefusal 1 party fun e n => e.logBit 0x50 0 10 0 (refusalData [] n)

/-- A foreign operation (R203), or one whose count is out of range (R197): kinds 2, 3 and 6. -/
def Dev.foreignOp (d : Dev) (kind party h : Nat) : Dev :=
  let d1 := ((d.inc bankBpm 13).latchBit Reg.BPM_STATUS 11).bpmFault kind party (d.buf h).tag h
  d1.logRefusal kind party fun e n => e.logBit 0x50 0 11 0 (refusalData [] n)

/-- An operation of a revoked party (R206): operation 1 allocate, 2 free, 3 hand-over, 4 SET_REFS. An allocation names no buffer:
BPM_LAST_FAULT takes found 0 and handle 0 (log entry 113, DESIGN CHOICE). -/
def Dev.revokedOp (d : Dev) (op party h : Nat) : Dev :=
  let d1 := (d.inc bankBpm 14).bpmFault 4 party (if op = 1 then 0 else (d.buf h).tag) h
  d1.logRefusal 4 party fun e n => e.logNum 0x50 1 party (refusalData (le 1 op ++ le 4 h) n)

/-- An operation on a RETIRED buffer (R214). -/
def Dev.retiredOp (d : Dev) (op party h : Nat) : Dev :=
  let d1 := (d.inc bankBpm 13).bpmFault 5 party 15 h
  d1.logRefusal 5 party fun e n => e.logNum 0x50 2 party (refusalData (le 1 op ++ le 4 h) n)

/-- The handle names a buffer of its pool, so a state entry. -/
def Dev.hasEntry (d : Dev) (h : Nat) : Bool := h < 2 ^ 32 && hIdx h < d.poolCount (hTier h) (hCls h)

/-- Count a buffer retired (R213, R214). -/
def Dev.countRetired (d : Dev) (h : Nat) : Dev :=
  let k := hTier h * 4 + hCls h
  ({ d with bpm := { d.bpm with retired := Tbl.modify 0 d.bpm.retired k (· + 1) } }).inc bankBpm 20

/-- Take an index out of a run of free buffers. -/
def Seg.without (i : Nat) (s : Seg) : List Seg :=
  let j := (i - s.start) / s.step
  if i < s.start ∨ (i - s.start) % s.step ≠ 0 ∨ s.cnt ≤ j then [s]
  else ([{ s with cnt := j }, { s with start := i + s.step, cnt := s.cnt - j - 1 }] : List Seg).filter fun x => x.cnt ≠ 0

/-- Take a buffer off its free list. -/
def Dev.unlist (d : Dev) (h : Nat) : Dev := d.setFreeList (d.listKey h) ((d.freeList (d.listKey h)).flatMap (Seg.without (hIdx h)))

/-- An uncorrectable state entry is rewritten as allocated with tag RETIRED, and the buffer leaves its pool (R214). -/
def Dev.stateEcc (d : Dev) (h : Nat) : Dev :=
  let d1 := (d.unlist h).setBuf h { alloc := true, tag := 15, refs := 1, marked := true }
  (((d1.inc bankBpm 19).countRetired h).latchBit Reg.BPM_STATUS 14).logBit 0x50 0 14 0 (le 4 h)

/-! ## Operations on a state entry (R197) -/

/-- A buffer of a lost stack (R213). -/
def Dev.onLostStack (d : Dev) (h : Nat) : Bool := hTier h = 1 && d.bpm.lost.contains (hIdx h % 8)

/-- A buffer returns to its pool at the tail of its free list (R539); one on a lost stack retires (R213). -/
def Dev.returnBuf (d : Dev) (h : Nat) : Dev :=
  let tag := (d.buf h).tag
  if d.onLostStack h then
    ((d.setBuf h { alloc := true, tag := 15, refs := 1, marked := true }).countRetired h).latchBit Reg.BPM_STATUS 15
  else
    let d1 := d.setBuf h { alloc := false, tag := tag, refs := 0, marked := true, suspect := false }
    d1.setFreeList (d1.listKey h) (d1.freeList (d1.listKey h) ++ [{ start := hIdx h, step := 1, cnt := 1 }])

/-- May the party operate on the buffer (R203, R208)? -/
def ownsBuf (party tag : Nat) : Bool := party = tag || tag = 12

/-- FREE (R197, R202, R203, R206, R213, R214). -/
def Dev.bufFree (d : Dev) (party h : Nat) : Dev :=
  let b := d.buf h
  if d.tagState party = .closed then d.revokedOp 2 party h
  else if b.alloc ∧ b.tag = 15 then d.retiredOp 2 party h
  else if !b.alloc then d.doubleFree party h
  else if !ownsBuf party b.tag then d.foreignOp 2 party h
  else if 1 < b.refs then d.setBuf h { b with refs := b.refs - 1, marked := true }
  else d.returnBuf h

/-- HAND_OVER (R197, R203, R206, R214). -/
def Dev.bufHandOver (d : Dev) (party h newTag : Nat) : Dev :=
  let b := d.buf h
  if d.tagState party = .closed then d.revokedOp 3 party h
  else if b.alloc ∧ b.tag = 15 then d.retiredOp 3 party h
  else if !b.alloc ∨ !ownsBuf party b.tag then d.foreignOp 3 party h
  else d.setBuf h { b with tag := newTag, marked := true }

/-- The state entries that an operation reads and finds uncorrectable are retired (R214). -/
def Dev.stateEccs (d : Dev) (hs : List Nat) : Dev := hs.foldl (fun d h => if d.hasEntry h then d.stateEcc h else d) d

/-- SET_REFS (R197, R203, R206, R214). A count of 0 or above 4,095 is judged after the owner (log entry 8, DESIGN CHOICE); one of a
failed slice is accepted until its drain time ends, as its frees are (log entry 114, DESIGN CHOICE). It marks nothing (R210). -/
def Dev.bufSetRefs (d : Dev) (party h n : Nat) : Dev :=
  let b := d.buf h
  if d.tagState party = .closed then d.revokedOp 4 party h
  else if b.alloc ∧ b.tag = 15 then d.retiredOp 4 party h
  else if !b.alloc ∨ !ownsBuf party b.tag then d.foreignOp 3 party h
  else if n = 0 ∨ 4095 < n then d.foreignOp 6 party h
  else d.setBuf h { b with refs := n }

/-! ## Allocation (R199, R200) -/

/-- Take a free buffer out of a pool: a DRAM pool goes round its stacks, skipping the empty ones (R192). -/
def Dev.takeBuf (d : Dev) (k tag : Nat) : Option (Nat × Dev) :=
  let start := Tbl.get 0 d.bpm.rot k
  let lists := if k < 8 then [k] else (List.range 8).map fun i => 8 + 8 * (k - 8) + (start + i) % 8
  lists.findSome? fun l =>
    match popSeg (d.freeList l) with
    | none => none
    | some (i, rest) =>
      let h := mkHandle (poolTier k) (poolCls k) i
      let d1 := (d.setFreeList l rest).setBuf h { alloc := true, tag := tag, refs := 1, marked := true }
      some (h, if k < 8 then d1 else { d1 with bpm := { d1.bpm with rot := Tbl.set 0 d1.bpm.rot k ((l % 8 + 1) % 8) } })

/-- The pool can serve: ready and not disabled (R215). -/
def Dev.poolOpen (d : Dev) (k : Nat) : Bool :=
  let m := if k < 8 then k % 4 else 4 + k % 4
  Tbl.get false d.bpm.ready m && !Tbl.get false d.bpm.disabled m

/-- Count a failed buffer (R193, R205, Table 7.6): ALLOC_FAIL of its tier and class, or RECIRC_FAIL alone; alloc_fail is set. -/
def Dev.countFail (d : Dev) (k : Nat) : Dev :=
  (d.inc bankBpm (if k < 4 then k else if k < 8 then 8 else 4 + k % 4)).latchBit Reg.BPM_STATUS 8

/-- Count a buffer failed for its length (R193). -/
def Dev.countBadLen (d : Dev) : Dev := (d.inc bankBpm 9).latchBit Reg.BPM_STATUS 8

/-- Is a recovery window open for the tag (R208)? -/
def Dev.inWindow (d : Dev) (tag : Nat) : Bool := d.bpm.window.any fun w => w.2 = tag

/-- Grant or fail one buffer (R193, R200, R206, R208, R215): `sh` is SH of the cycle so far. Answers the handle, SH
after it, and the device. -/
def Dev.allocOne (d : Dev) (k tag len : Nat) (sh : Int) : Option Nat × Int × Dev :=
  if d.tagState tag ≠ .live then
    let d1 := d.revokedOp 1 tag 0
    (none, sh, if sizeClass len = none then d1.countBadLen else d1.countFail k)
  else if sizeClass len = none then (none, sh, d.countBadLen)
  else if !d.poolOpen k then (none, sh, (d.inc bankBpm 10).countFail k)
  else if d.held tag k < d.minOf tag k then
    match d.takeBuf k tag with
    | some (h, d1) => (some h, sh, d1)
    | none => (none, sh, d.countFail k)
  else if tag ≠ 12 ∧ 0 < sh then
    match d.takeBuf k tag with
    | some (h, d1) => (some h, sh - 1, d1)
    | none => (none, sh, d.countFail k)
  else if tag ≠ 12 ∧ k < 4 ∧ d.inWindow tag ∧ d.held 12 k < d.minOf 12 k then
    match d.takeBuf k 12 with
    | some (h, d1) => (some h, sh, d1.inc bankBpm 11)
    | none => (none, sh, d.countFail k)
  else (none, sh, d.countFail k)

/-! ## Building the lists, the check at forwarding start (R215, R539) -/

/-- Build the on-die list of a class and its recirculation list, in ascending index. -/
def Dev.buildOnDie (d : Dev) (s : Nat) : Dev :=
  let n := d.poolCount 0 s
  let r := min n (d.recircCount s)
  (d.setFreeList s [{ start := 0, step := 1, cnt := n - r }]).setFreeList (4 + s) [{ start := n - r, step := 1, cnt := r }]

/-- Build the DRAM lists of a class: one for each stack, in ascending index; a lost stack's buffers retire. -/
def Dev.buildDram (d : Dev) (s : Nat) : Dev :=
  let n := d.poolCount 1 s
  (List.range 8).foldl (fun d m =>
    if d.bpm.lost.contains m then d
    else d.setFreeList (8 + 8 * s + m) [{ start := m, step := 8, cnt := (n + 7 - m) / 8 }]) d

/-- The extent of a pool: start and end in bytes of its tier's space (per stack for the DRAM tier). -/
def Dev.poolExtent (d : Dev) (t s : Nat) : Nat × Nat :=
  let base := fld (d.reg (Reg.BPM_POOL_BASE t s)) 19 0
  let n := d.poolCount t s
  if t = 0 then (base * 256, base * 256 + n * bufBytes s)
  else (base * 2 ^ 20, base * 2 ^ 20 + ceilDiv n 8 * bufBytes s)

/-- The minima of a pool sum within the limit of R198. -/
def Dev.minSumOk (d : Dev) (t s : Nat) : Bool :=
  let sum := ((List.range 14).map fun o => fld (d.reg (Reg.BPM_RSV o t s)) 28 0).foldl (· + ·) 0
  sum ≤ (if t = 0 then d.poolCount 0 s - d.recircCount s else d.poolCount 1 s)

/-- The check of one pool (R215): no overlap in its tier, within its space, minima within R198. -/
def Dev.poolOk (d : Dev) (t s dramShare : Nat) : Bool :=
  let e := d.poolExtent t s
  let lim := if t = 0 then 256 * 2 ^ 20 else dramShare
  e.2 ≤ lim && d.minSumOk t s &&
  (List.range 4).all fun q => q = s || (let f := d.poolExtent t q; e.2 ≤ f.1 || f.2 ≤ e.1 || e.1 = e.2 || f.1 = f.2)

/-! ## Revocation, audit, loss of a stack -/

/-- A buffer is freed whatever its tag and count (R206, R210). -/
def Dev.forceFree (d : Dev) (h : Nat) : Dev := d.returnBuf h

/-- The order of the scan and of the sweep (R206): on-die before DRAM, classes ascending, indices ascending, which is
ascending handle. -/
def scanOrder (l : List (Nat × BufEntry)) : List (Nat × BufEntry) := l

/-- The revocation scan of a tag, done (R206): each buffer is retagged REVOKED and freed; one event gives the tag and
the number. -/
def Dev.revokeTag (d : Dev) (tag : Nat) : Dev :=
  let hs := (d.bpm.bufs.filter fun p => p.2.alloc && p.2.tag = tag).map (·.1)
  let d1 := hs.foldl (fun d h => (d.setBuf h { d.buf h with tag := 14 }).forceFree h) d
  let d2 := (d1.bump bankBpm 15 hs.length).latchBit Reg.BPM_STATUS 13
  d2.logBit 0x50 0 13 0 (le 1 tag ++ le 4 (satN 32 hs.length))

/-- The mark phase of a pass in progress ends and the sweep begins (R210; log entry 119, DESIGN CHOICE). -/
def Dev.auditTurns (d : Dev) : Dev := if d.bpm.auditing then { d with bpm := { d.bpm with sweeping := true } } else d

/-- Loss of stack `k` (R213): its free buffers retire at once, its allocated ones when freed, and the DRAM minima
shrink to ⌊MIN × s / 8⌋. -/
def Dev.bpmStackLost (d : Dev) (k : Nat) : Dev :=
  let d0 := { d with bpm := { d.bpm with lost := k :: d.bpm.lost } }
  let left := 8 - d0.bpm.lost.length
  let d1 := (List.range 4).foldl (fun d s =>
    let n := segTotal (d.freeList (8 + 8 * s + k))
    let e := d.setFreeList (8 + 8 * s + k) []
    let e1 := { e with bpm := { e.bpm with retired := Tbl.modify 0 e.bpm.retired (4 + s) (· + n) } }
    let e2 := e1.bump bankBpm 20 n
    (List.range 14).foldl (fun d o => d.setReg (Reg.BPM_RSV o 1 s) (wd (fld (d.reg (Reg.BPM_RSV o 1 s)) 28 0 * left / 8))) e2) d0
  d1.latchBit Reg.BPM_STATUS 15

end Sys2Proof.Machine
end

