-- ==== Sys2Proof/Machine/GateCore.lean ====
section
/-! DEFINITION. Gates, shapers and meters: the open mask at a time, the guard band, bucket filling, colouring, and the
checks of their table writes (R241 to R265). -/
namespace Sys2Proof.Machine

/-! ## Gates -/

def Dev.gateBank (d : Dev) (p : Nat) : Nat := Tbl.get 0 d.gsm.bank p
def Dev.gateHdr (d : Dev) (i : Nat) : GateHdr := Tbl.get {} d.gsm.hdrs i
def Dev.gateEntry (d : Dev) (i : Nat) : Word := Tbl.get 0#32 d.gsm.gates i

/-- The entries in use of a bank of a port. -/
def Dev.gateList (d : Dev) (p b : Nat) : List Word :=
  (List.range (d.gateHdr (2 * p + b)).length).map fun j => d.gateEntry (2048 * p + 1024 * b + j)

def gateOpen (e : Word) : Nat := fld e 31 24
def gateNs (e : Word) : Nat := fld e 23 0

/-- The phase φ of R244, in whole ns, also for T before the base. -/
def gatePhase (h : GateHdr) (t : Nat) : Nat :=
  (((t : Int) - (h.sec * 10 ^ 9 + h.ns : Nat)) % (h.cycle : Int)).toNat

/-- The entry in force at a phase: the highest whose start is at or below it (R244). -/
def entryAt (phi : Nat) : List Word → (j start : Nat) → Nat
  | [], j, _ => j - 1
  | e :: rest, j, start => if start ≤ phi then entryAt phi rest (j + 1) (start + gateNs e) else j - 1

/-- The spans of one cycle as (start, end, mask), entries cut at the end of the cycle and the last one holding to it
(R244). -/
def gateSpans (cycle : Nat) : List Word → Nat → List (Nat × Nat × Nat)
  | [], _ => []
  | [e], s => if s < cycle then [(s, cycle, gateOpen e)] else []
  | e :: rest, s =>
    if s < cycle then (s, min cycle (s + gateNs e), gateOpen e) :: gateSpans cycle rest (s + gateNs e) else []

/-- The evaluation time T of R244, in whole ns. -/
def Dev.gateTime (d : Dev) (p : Nat) : Nat := d.time.now.nsTotal + fld (d.reg (Reg.SHP_GATE_CFG p)) 15 0

/-- The gate list applies: device time is valid (R249) and the active bank has entries. -/
def Dev.gateListed (d : Dev) (p : Nat) : Bool :=
  d.timeValid && (d.gateHdr (2 * p + d.gateBank p)).length ≠ 0

/-- The open mask of R244. -/
def Dev.gateMask (d : Dev) (p : Nat) : Nat :=
  if !d.timeValid then fld (d.reg (Reg.SHP_GATE_CFG p)) 23 16
  else
    let b := d.gateBank p
    let h := d.gateHdr (2 * p + b)
    if h.length = 0 then 0xFF
    else gateOpen ((d.gateList p b).getD (entryAt (gatePhase h (d.gateTime p)) (d.gateList p b) 0 0) 0#32)

/-- The current entry of SHP_GATE_STATE. -/
def Dev.gateEntryNow (d : Dev) (p : Nat) : Nat :=
  if d.gateListed p then
    let b := d.gateBank p
    let h := d.gateHdr (2 * p + b)
    entryAt (gatePhase h (d.gateTime p)) (d.gateList p b) 0 0
  else 0

/-- Two cycles of spans end to end, for spans that cross the end of the cycle. -/
def twoCycles (cycle : Nat) (l : List Word) : List (Nat × Nat × Nat) :=
  let s := gateSpans cycle l 0
  s ++ s.map fun x => (x.1 + cycle, x.2.1 + cycle, x.2.2)

/-- The close time C of R247 from a phase: none for a class that stays open for a whole cycle. -/
def closeTime (spans : List (Nat × Nat × Nat)) (cycle phi tc : Nat) : Option Nat :=
  match spans.find? fun s => phi < s.2.1 && !s.2.2.testBit tc && phi ≤ max s.1 phi with
  | some s => if s.1 < phi + cycle then some (s.1 - phi) else none
  | none => none

/-- The longest open span O of R247 over two cycles of spans: `run` is the open length so far. -/
def longestOpen (tc : Nat) : List (Nat × Nat × Nat) → (run best : Nat) → Nat
  | [], _, best => best
  | s :: rest, run, best =>
    let run' := if s.2.2.testBit tc then run + (s.2.1 - s.1) else 0
    longestOpen tc rest run' (max best run')

/-- The rate of a port in Gb/s by mode (Table 3.1). -/
def modeGbps (mode : Nat) : Nat := [0, 10, 25, 50, 100, 200, 400].getD mode 0

/-- The guard verdict of R247 for a packet of class tc and length L on port p: 0 pass, 1 hold, 2 drop. The wire time
w = (L + 4 × guard_extra + 24) × 8 / r is compared as w × r, and the close time counts from the sub-nanosecond of device time. -/
def Dev.guard (d : Dev) (p tc len : Nat) : Nat :=
  let cfg := d.reg (Reg.SHP_GATE_CFG p)
  let b := d.gateBank p
  let h := d.gateHdr (2 * p + b)
  if !bit cfg 31 ∨ !d.gateListed p then 0
  else
    let l := d.gateList p b
    let spans := twoCycles h.cycle l
    let r := modeGbps (d.port p).mode
    let wr := (len + 4 * fld cfg 30 24 + 24) * 8
    let longest := longestOpen tc spans 0 0
    if longest < h.cycle ∧ longest * r < wr then 2
    else match closeTime spans h.cycle (gatePhase h (d.gateTime p)) tc with
      | some c => if c * r * 2 ^ 16 < wr * 2 ^ 16 + d.time.now.subns * r then 1 else 0
      | none => 0

/-- Gates stop or start with the validity of device time (R249): each stop counts once, and the masks in force are
those of R244. -/
def Dev.gatesFollow (before : Bool) (d : Dev) : Dev :=
  if before ∧ !d.timeValid then (d.inc bankShp 4).latchBit Reg.SHP_STATUS 9 else d

/-- GATE_SWAP of bank `b` on port `p` (R250). -/
def Dev.gateSwap (d : Dev) (p b : Nat) : Dev :=
  if d.gateBank p = b then d
  else ({ d with gsm := { d.gsm with bank := Tbl.set 0 d.gsm.bank p b } }).inc bankShp 0

/-! ## Buckets

Rates are in kb/s and time in TSCLK cycles of 1 ns (R242), so one cycle at 1 kb/s adds 10^-6 / 8 byte: buckets are
kept in units of 1/8,000,000 byte. -/

/-- One byte in bucket units. -/
def byteU : Nat := 8000000

/-- The signed 7-bit addend of a profile. -/
def adjOf (x : Nat) : Int := signed 7 x

/-- The charge B = max(1, L + adj) (R254, R260). -/
def chargeOf (len adj : Nat) : Nat := (max 1 ((len : Int) + adjOf adj)).toNat

def Dev.shaper (d : Dev) (i : Nat) : Shaper := Tbl.get {} d.gsm.shapers i
def Dev.setShaper (d : Dev) (i : Nat) (x : Shaper) : Dev := { d with gsm := { d.gsm with shapers := Tbl.set {} d.gsm.shapers i x } }
def Dev.shpProf (d : Dev) (i : Nat) : BitVec 64 := Tbl.get 0#64 d.gsm.shpProf i

def spEn (x : BitVec 64) : Bool := bit x 63
def spAdj (x : BitVec 64) : Nat := fld x 62 56
def spBurst (x : BitVec 64) : Int := fld x 55 32 * byteU
def spRate (x : BitVec 64) : Nat := fld x 31 0

/-- update(s) of R255. -/
def shpUpdate (pr : BitVec 64) (now : Nat) (s : Shaper) : Shaper :=
  if spEn pr then { s with credit := min (spBurst pr) (s.credit + spRate pr * (now - s.last : Nat)), last := now } else s

/-- eligible(s) of R255, of the credit as it stands now. -/
def Dev.shpEligible (d : Dev) (i : Nat) : Bool :=
  let s := d.shaper i
  let pr := d.shpProf s.prof
  !spEn pr || 0 ≤ (shpUpdate pr d.time.tsc s).credit

/-- Charge a shaper for a packet at nomination (R255). -/
def Dev.shpCharge (d : Dev) (len i : Nat) : Dev :=
  let s := d.shaper i
  let pr := d.shpProf s.prof
  if spEn pr then
    let s1 := shpUpdate pr d.time.tsc s
    d.setShaper i { s1 with credit := s1.credit - (chargeOf len (spAdj pr) * byteU : Nat) }
  else d

/-- Credit back the difference between two lengths of a cut-through packet (R255), up to burst (log entry 9, DEDUCED). -/
def Dev.shpCorrect (d : Dev) (old new i : Nat) : Dev :=
  let s := d.shaper i
  let pr := d.shpProf s.prof
  if spEn pr then
    let diff : Int := ((chargeOf old (spAdj pr) : Int) - chargeOf new (spAdj pr)) * byteU
    d.setShaper i { s with credit := min (spBurst pr) (s.credit + diff) }
  else d

/-- Bind a profile to a shaper (R256). -/
def Dev.shpBind (d : Dev) (i prof : Nat) : Dev :=
  let s := d.shaper i
  let old := d.shpProf s.prof
  let new := d.shpProf prof
  let s1 := shpUpdate old d.time.tsc s
  d.setShaper i { s with prof := prof, last := d.time.tsc,
                         credit := if spEn old then min s1.credit (spBurst new) else spBurst new }

/-- SHAPER_PROFILE for a target (R256). -/
def Dev.shaperProfile (d : Dev) (target prof : Nat) : Dev :=
  if 0x4447F < target then (d.latchBit Reg.SHP_STATUS 10).inc bankShp 3 else d.shpBind target prof

/-! ## Meters -/

def Dev.meter (d : Dev) (i : Nat) : Meter := Tbl.get {} d.gsm.meters i
def Dev.setMeter (d : Dev) (i : Nat) (x : Meter) : Dev := { d with gsm := { d.gsm with meters := Tbl.set {} d.gsm.meters i x } }
def Dev.mtrProf (d : Dev) (i : Nat) : BitVec 128 := Tbl.get 0#128 d.gsm.mtrProf i

def mpCir (x : BitVec 128) : Nat := fld x 127 96
def mpPir (x : BitVec 128) : Nat := fld x 95 64
def mpCbs (x : BitVec 128) : Nat := fld x 63 40
def mpPbs (x : BitVec 128) : Nat := fld x 39 16
def mpMode (x : BitVec 128) : Nat := if fld x 15 14 = 3 then 0 else fld x 15 14
def mpAware (x : BitVec 128) : Bool := bit x 13
def mpAdj (x : BitVec 128) : Nat := fld x 12 6

/-- Refill C at cir up to cbs and P at pir up to pbs (R260). -/
def mtrRefill (pr : BitVec 128) (now : Nat) (m : Meter) : Meter :=
  if mpMode pr = 0 then m
  else { m with c := min (mpCbs pr * byteU) (m.c + mpCir pr * (now - m.last)),
                p := min (mpPbs pr * byteU) (m.p + mpPir pr * (now - m.last)), last := now }

/-- The colouring of R260 on refilled buckets: 0 green, 1 yellow, 2 red. -/
def mtrColour (pr : BitVec 128) (pre b : Nat) (m : Meter) : Nat × Meter :=
  let u := b * byteU
  let pre := if mpAware pr then (if pre = 3 then 0 else pre) else 0
  match mpMode pr with
  | 1 =>
    if pre = 2 ∨ m.p < u then (2, m)
    else if pre = 1 ∨ m.c < u then (1, { m with p := m.p - u })
    else (0, { m with p := m.p - u, c := m.c - u })
  | 2 =>
    if pre = 0 ∧ u ≤ m.c then (0, { m with c := m.c - u })
    else if pre ≠ 2 ∧ u ≤ m.p then (1, { m with p := m.p - u })
    else (2, m)
  | _ => (0, m)

/-- The place of a meter's count of a colour in the counter and telemetry region (R516). -/
def meterAt (i c : Nat) : Nat := 24 * i + 8 * c

/-- The 64-bit count of a meter's colour (R516). -/
def Dev.meterCount (d : Dev) (i c : Nat) : Nat := unle (d.dramRead rCount (meterAt i c) 8)

/-- One more packet of a colour. -/
def Dev.meterBump (d : Dev) (i c : Nat) : Dev :=
  (d.countReads rCount (meterAt i c) 8).dramWrite rCount (meterAt i c) (le 8 ((d.meterCount i c + 1) % 2 ^ 64))

/-- Meter a packet of length `len` (R258, R260, R263): the colour and the device after it. Per-meter counts are kept
while CNT_CTRL.mtr_cnt_en is 1, for modes 1 and 2, unless the line of the counts lies on a lost stack (R516), which
`lost` says. -/
def Dev.meterPkt (d : Dev) (i pre len : Nat) (lost : Bool) : Nat × Dev :=
  let m := d.meter i
  let pr := d.mtrProf m.prof
  let m1 := mtrRefill pr d.time.tsc m
  let r := mtrColour pr pre (chargeOf len (mpAdj pr)) m1
  let d1 := d.setMeter i r.2
  if mpMode pr = 0 then (r.1, d1)
  else
    let d2 := d1.inc bankMtr r.1
    let d3 :=
      if !bit (d2.reg Reg.CNT_CTRL) 0 then d2
      else if lost then d2.inc bankCnt 5
      else d2.meterBump i r.1
    (r.1, d3)

/-- Bind a profile to a meter (R262). -/
def Dev.mtrBind (d : Dev) (i prof : Nat) : Dev :=
  let m := d.meter i
  let old := d.mtrProf m.prof
  let new := d.mtrProf prof
  let m1 := mtrRefill old d.time.tsc m
  d.setMeter i { m with prof := prof, last := d.time.tsc,
                        c := if mpMode old = 0 then mpCbs new * byteU else min m1.c (mpCbs new * byteU),
                        p := if mpMode old = 0 then mpPbs new * byteU else min m1.p (mpPbs new * byteU) }

/-- BAD_ENTRY of a meter profile (R259, R264). -/
def mtrProfBad (x : BitVec 128) : Bool :=
  let mode := fld x 15 14
  ((mode = 1 || mode = 2) && (mpCbs x = 0 || mpPbs x = 0)) || (mode = 1 && mpPir x < mpCir x) || fld x 5 0 ≠ 0

/-! ## SHP_CMD and MTR_CMD (R264, R251) -/

def Dev.shpResult (d : Dev) (r : Nat) : Dev :=
  let d1 := d.setReg Reg.SHP_CMD (put r 28)
  if r = 0 then d1 else d1.latchBit Reg.SHP_STATUS 8

def Dev.mtrResult (d : Dev) (r : Nat) : Dev :=
  let d1 := d.setReg Reg.MTR_CMD (put r 28)
  if r = 0 then d1 else d1.latchBit Reg.MTR_STATUS 8

/-- Words of SHP_DATA or MTR_DATA as one number, little-endian. -/
def Dev.dataWords (d : Dev) (base : Nat → Nat) (n : Nat) : Nat :=
  (List.range n).foldr (fun j acc => (d.reg (base j)).toNat + 2 ^ 32 * acc) 0

def Dev.setDataWords (d : Dev) (base : Nat → Nat) (n x : Nat) : Dev :=
  (List.range n).foldl (fun d j => d.setReg (base j) (wd (x >>> (32 * j)))) d

def shpLimit (target : Nat) : Nat := [0x10000, 0x44480, 0x40000, 256].getD target 0

/-- A bank header from its 128 bits (Table 9.2). -/
def hdrOf (x : Nat) : GateHdr :=
  { sec := (x >>> 80) % 2 ^ 48, ns := (x >>> 48) % 2 ^ 32, cycle := (x >>> 16) % 2 ^ 32, length := x % 2 ^ 11 }

def hdrBits (h : GateHdr) : Nat := h.sec * 2 ^ 80 + h.ns * 2 ^ 48 + h.cycle * 2 ^ 16 + h.length

/-- BAD_ENTRY of a header (R251): `g` the gate-entry index of the bank's entry 0. -/
def Dev.hdrBad (d : Dev) (g x : Nat) : Bool :=
  let h := hdrOf x
  10 ^ 9 ≤ h.ns || h.cycle < 8 || 1024 < h.length || (x >>> 11) % 32 ≠ 0 ||
  (List.range h.length).any fun j => gateNs (d.gateEntry (g + j)) < 8

/-- The bank of a gate entry or header index is active and may not be written (R251). -/
def Dev.bankInUse (d : Dev) (p b : Nat) : Bool := d.vint.started && d.gateBank p = b

/-- Write one gate entry (R251): 0 OK, 1 BAD_INDEX, 2 BAD_ENTRY, 3 IN_USE. -/
def Dev.writeGate (d : Dev) (i : Nat) (w : Word) : Nat × Dev :=
  if 0x40000 ≤ i then (1, d)
  else if gateNs w < 8 then (2, d)
  else if d.bankInUse (i / 2048) (i / 1024 % 2) then (3, d)
  else (0, { d with gsm := { d.gsm with gates := Tbl.set 0#32 d.gsm.gates i w } })

/-- Write one bank header (R251). -/
def Dev.writeGateHdr (d : Dev) (i x : Nat) : Nat × Dev :=
  if 256 ≤ i then (1, d)
  else if d.hdrBad (1024 * i) x then (2, d)
  else if d.bankInUse (i / 2) (i % 2) then (3, d)
  else (0, { d with gsm := { d.gsm with hdrs := Tbl.set {} d.gsm.hdrs i (hdrOf x) } })

/-- SHP_CMD op WRITE (R264): shaper profile, binding, gate entry or bank header. -/
def Dev.shpWrite (d : Dev) (target idx : Nat) : Dev :=
  if shpLimit target ≤ idx then d.shpResult 1
  else match target with
    | 0 => ({ d with gsm := { d.gsm with
        shpProf := Tbl.set 0#64 d.gsm.shpProf idx (BitVec.ofNat 64 (d.dataWords Reg.SHP_DATA 2)) } }).shpResult 0
    | 1 => (d.shpBind idx (fld (d.reg (Reg.SHP_DATA 0)) 15 0)).shpResult 0
    | 2 => let r := d.writeGate idx (d.reg (Reg.SHP_DATA 0)); r.2.shpResult r.1
    | _ => let r := d.writeGateHdr idx (d.dataWords Reg.SHP_DATA 4); r.2.shpResult r.1

/-- SHP_CMD op READ (R264). -/
def Dev.shpRead (d : Dev) (target idx : Nat) : Dev :=
  if shpLimit target ≤ idx then d.shpResult 1
  else match target with
    | 0 => (d.setDataWords Reg.SHP_DATA 2 (d.shpProf idx).toNat).shpResult 0
    | 1 => (d.setDataWords Reg.SHP_DATA 1 (d.shaper idx).prof).shpResult 0
    | 2 => (d.setReg (Reg.SHP_DATA 0) (d.gateEntry idx)).shpResult 0
    | _ => (d.setDataWords Reg.SHP_DATA 4 (hdrBits (d.gateHdr idx))).shpResult 0

def mtrLimit (target : Nat) : Nat := if target = 0 then 0x10000 else 0x20000

/-- MTR_CMD op WRITE (R259, R262, R264). -/
def Dev.mtrWrite (d : Dev) (target idx : Nat) : Dev :=
  if mtrLimit target ≤ idx then d.mtrResult 1
  else if target = 0 then
    let x := BitVec.ofNat 128 (d.dataWords Reg.MTR_DATA 4)
    if mtrProfBad x then d.mtrResult 2
    else ({ d with gsm := { d.gsm with mtrProf := Tbl.set 0#128 d.gsm.mtrProf idx x } }).mtrResult 0
  else (d.mtrBind idx (fld (d.reg (Reg.MTR_DATA 0)) 15 0)).mtrResult 0

/-- MTR_CMD op READ (R264). -/
def Dev.mtrRead (d : Dev) (target idx : Nat) : Dev :=
  if mtrLimit target ≤ idx then d.mtrResult 1
  else if target = 0 then (d.setDataWords Reg.MTR_DATA 4 (d.mtrProf idx).toNat).mtrResult 0
  else (d.setDataWords Reg.MTR_DATA 1 (d.meter idx).prof).mtrResult 0

/-- A read of SHP_CRED brings the selected credit up to date (R264): whole bytes, rounded down. -/
def Dev.readCred (d : Dev) : Word × Dev :=
  let i := fld (d.reg Reg.SHP_CRED_SEL) 19 0
  if 0x44480 ≤ i then (0#32, d)
  else
    let s := shpUpdate (d.shpProf (d.shaper i).prof) d.time.tsc (d.shaper i)
    (BitVec.ofInt 32 (s.credit / (byteU : Int)), d.setShaper i s)

/-- A read of MTR_BKT_C refills the selected meter and latches MTR_BKT_P (R264). -/
def Dev.readBkt (d : Dev) : Word × Dev :=
  let i := fld (d.reg Reg.MTR_BKT_SEL) 16 0
  let m := mtrRefill (d.mtrProf (d.meter i).prof) d.time.tsc (d.meter i)
  let d1 := d.setMeter i m
  (wd (m.c / byteU), { d1 with gsm := { d1.gsm with bktP := wd (m.p / byteU) } })

end Sys2Proof.Machine
end

