-- ==== Sys2Proof/Machine/Access.lean ====
section
/-! DEFINITION. What every register access passes first: the device answers (R470), the F-die is reached (R495), the
register is not locked (R499), and what a refusal records (R491, R495, R499). -/
namespace Sys2Proof.Machine

/-- GLB_LAST_FAULT (Table 18.5): cause, path, offset as issued. -/
def Dev.lastFault (d : Dev) (cause : Nat) (p : Path) (off : Nat) : Dev :=
  d.setReg Reg.GLB_LAST_FAULT (wd (cause * 2 ^ 29 + pathCode p * 2 ^ 26 + off % 2 ^ 26))

/-- A write ignored under a lock (R499); a REG_WRITE launch also logs (R71). -/
def Dev.lockedWrite (d : Dev) (p : Path) (off : Nat) : Dev :=
  let d1 := ((d.inc bankGlb 1).latchBit Reg.GLB_STATUS 10).lastFault 1 p off
  if p = .launch then d1.logBit 0x00 0 10 0 (le 4 off) else d1

/-- An access that reaches no register (R495). -/
def Dev.noRegister (d : Dev) (p : Path) (off : Nat) : Dev :=
  ((d.inc bankGlb 3).latchBit Reg.GLB_STATUS 12).lastFault 2 p off

/-- A write with missing byte enables (R491). -/
def Dev.partialWrite (d : Dev) (p : Path) (off : Nat) : Dev :=
  ((d.inc bankGlb 4).latchBit Reg.GLB_STATUS 9).lastFault 3 p off

/-- An access to an F-die window that does not answer (R495); one made before the windows first answer is shown as
early (R470). -/
def Dev.fdieRefuse (d : Dev) (p : Path) (off : Nat) : Dev :=
  let d1 := if d.boot.fdieReady then d else { d with boot := { d.boot with early := true } }
  ((d1.inc bankGlb 5).latchBit Reg.GLB_STATUS 13).lastFault 4 p off

/-- The F-die windows answer (R470, R495). -/
def Dev.fdieUp (d : Dev) : Bool := d.boot.fdieReady && !d.dukLost

/-- Bits of GLB_PLL_STATUS (Table 18.5). -/
def pllF : Nat := 0
def pllT : Nat := 1
def pllLine : Nat := 12
def pllFabric : Nat := 13
def pllHost : Nat := 14
def pllMgmt : Nat := 16
def pllTime : Nat := 17

/-- A PLL is locked; a domain whose PLL is not stands still (R34). -/
def Dev.clocked (d : Dev) (b : Nat) : Bool := d.boot.plls.getLsbD b

/-! ## Stopped domains (R34): what goes into a domain whose PLL is out of lock waits in its FIFO until the PLL locks again -/

/-- Bit of controller k's PLL in GLB_PLL_STATUS. -/
def pllMclk (k : Nat) : Nat := 4 + k

/-- A channel of a memory controller as a place where transfers wait, numbered above the PLLs. -/
def memDom (k c : Nat) : Nat := 64 + 16 * k + c

/-- A channel takes a request (R350): its stack is READY and clocked, and it is not paused, in recovery or replaying. What
waits for a stack that is lost waits no longer (R366). -/
def Dev.memOpen (d : Dev) (k c : Nat) : Bool :=
  d.stackLost k || ((d.mcOf k).st = .ready && d.clocked (pllMclk k) && !(d.chan k c).busy)

/-- What waits before domain `b` may go on: its PLL is locked, or the channel takes requests. -/
def Dev.opens (d : Dev) (b : Nat) : Bool := if b < 64 then d.clocked b else d.memOpen ((b - 64) / 16) ((b - 64) % 16)

/-- Domain `b` takes a transfer: it is open, and nothing waits before it. -/
def Dev.flows (d : Dev) (b : Nat) : Bool := d.opens b && !d.parked.any (·.1 == b)

/-- A write of the line waits for a channel: the place where a read of the line waits behind it (R350, R353). -/
def Dev.writeWaits (d : Dev) (r m : Nat) : Option Nat :=
  (d.parked.find? fun p => match p.2 with
    | .dramWrite r' m' _ => r'.val = r && m' = m
    | _ => false).map (·.1)

/-- The first domain of a path that does not take a transfer. -/
def Dev.stopped (d : Dev) (bs : List Nat) : Option Nat := bs.find? fun b => !d.flows b

/-- A transfer waits before domain `b`. -/
def Dev.park (d : Dev) (b : Nat) (c : Instr) : Dev := { d with parked := d.parked ++ [(b, c)] }

/-- A transfer through domains: it acts when all take it, and waits before the first that does not. -/
def Dev.across (d : Dev) (bs : List Nat) (c : Instr) (f : Dev → Dev) : Dev :=
  match d.stopped bs with
  | some b => d.park b c
  | none => f d

/-- The form of a meaning that is an event of one clock domain: row `c` itself waits while the domain stands still (R34). -/
def actIn (b : Nat) (c : Instr) (s : State) (f : Dev → Dev) : Host.Outcome State Fault Refusal :=
  act s fun d => d.across [b] c f

/-- The same for a meaning that may write registers, and for one that may write the flash. -/
def actBusIn (b : Nat) (c : Instr) (s : State) (f : Dev → Dev) : Host.Outcome State Fault Refusal :=
  actBus s fun d => d.across [b] c f
def actNvmIn (b : Nat) (c : Instr) (s : State) (f : Dev → Dev) : Host.Outcome State Fault Refusal :=
  actNvm s fun d => d.across [b] c f

/-- The form of a meaning that is a signal from outside, or a count of the domain's own cycles: it is lost while the domain
stands still. -/
def actLive (b : Nat) (s : State) (f : Dev → Dev) : Host.Outcome State Fault Refusal :=
  act s fun d => if d.clocked b then f d else d

/-- The domains that a window's registers lie in, with those on the way to them (R29, CX04, CX05, CX19 to CX21). -/
def windowClocks : Block × Nat × Nat → List Nat
  | (.time, _, _) => [pllTime]
  | (.lnch, _, _) => [pllTime]
  | (.pg, _, _) => [pllT, 2, 3, pllLine]
  | (.slice, _, _) => [pllT, 2, 3, pllF]
  | (.mc, k, _) => [4 + k]
  | (.trl, _, _) => [pllFabric]
  | (.link, _, _) => [pllFabric]
  | (.host, _, _) => [pllHost]
  | (.glb, _, _) => []
  | (.mgmt, _, _) => []
  | (.spr, _, _) => []
  | (.cnt, _, _) => []
  | (.bpm, _, _) => [pllT]
  | (.tmq, _, _) => [pllT]
  | (.schd, _, _) => [pllT]
  | (.shp, _, _) => [pllT]
  | (.mtr, _, _) => [pllT]
  | (.repl, _, _) => [pllT]

/-- The domains that a path's accesses come through (CX16, CX17, CX22). -/
def pathClocks : Path → List Nat
  | .bar0 => [pllHost, pllMgmt]
  | .ring => [pllHost, pllMgmt]
  | .mgmt => [pllMgmt]
  | .launch => [pllTime, pllMgmt]
  | .cfg => [pllMgmt]

/-- The domains of an access at `off` by path `p`; one that the F-die does not answer goes no further than PERCLK (R495). -/
def Dev.busClocks (d : Dev) (p : Path) (off : Nat) : List Nat :=
  pathClocks p ++ (if fdieOffset off ∧ !d.fdieUp then [] else
    match windowOf off with
    | some w => windowClocks w
    | none => [])

/-- BAR0 answers path `p`: once the T-die is ready (R470), or in the halt of R473. -/
def Dev.busUp (d : Dev) (p : Path) : Bool := d.boot.tdieReady || d.boot.fail ≠ 0 || p != .bar0

/-- No access by path `p` at `off` waits. -/
def Dev.busFlows (d : Dev) (p : Path) (off : Nat) : Bool := (d.stopped (d.busClocks p off)).isNone

/-- An access of the host over PCIe wakes the link (R371). -/
def Dev.hostWakes (d : Dev) (p : Path) : Dev :=
  if p = .bar0 ∧ (d.host.link = 1 ∨ d.host.link = 2) then { d with host := { d.host with link := 0 } } else d

/-- An access at `off` by path `p` that row `c` makes: it has no effect before BAR0 answers, and waits before a stopped
domain (R34, R470). -/
def Dev.request (d : Dev) (p : Path) (off : Nat) (c : Instr) (f : Dev → Dev) : Dev :=
  if d.busUp p then (d.hostWakes p).across (d.busClocks p off) c f else d

/-- A write whose byte enables are missing goes no further than the register fabric, whatever its offset (R491). -/
def Dev.partialRequest (d : Dev) (p : Path) (off : Nat) (c : Instr) : Dev :=
  if d.busUp p then (d.hostWakes p).across (pathClocks p) c fun d => d.partialWrite p off else d

/-- The offset lies in a window that does not answer since no firmware was found (R473): only the GLB window does. -/
def Dev.silent (d : Dev) (off : Nat) : Bool :=
  d.boot.fail ≠ 0 && (match windowOf off with
    | some (.glb, _, _) => false
    | some _ => true
    | none => false)

/-- The form of a row that is an access to the register at `off`: one of a window that does not answer is discarded (R473,
R495). -/
def actReg (p : Path) (off : Nat) (c : Instr) (s : State) (f : Dev → Dev) : Host.Outcome State Fault Refusal :=
  act s fun d => d.request p off c fun d =>
    if d.silent off then d else if fdieOffset off ∧ !d.fdieUp then d.fdieRefuse p off else f d

/-- The same for one that may step device time. -/
def actBusReg (p : Path) (off : Nat) (c : Instr) (s : State) (f : Dev → Dev) : Host.Outcome State Fault Refusal :=
  actBus s fun d => d.request p off c fun d => if d.silent off then d else f d

/-- A lock domain is locked (R499). -/
def Dev.locked (d : Dev) (dom : Nat) : Bool := d.lock.getLsbD dom

/-- The form of a row that writes the register at `off`, of a lock domain (R499). -/
def actLocked (p : Path) (off dom : Nat) (c : Instr) (s : State) (f : Dev → Dev) : Host.Outcome State Fault Refusal :=
  actReg p off c s fun d => if d.locked dom then d.lockedWrite p off else f d

/-- The form of a row that reads the register at `off`: the value is delivered to the path. -/
def actRead (p : Path) (off : Nat) (c : Instr) (s : State) (f : Dev → Word × Dev) : Host.Outcome State Fault Refusal :=
  act s fun d => d.request p off c fun d =>
    if d.silent off then d.deliver p 0xFFFFFFFF#32
    else
      let r := f d
      r.2.deliver p r.1

/-- Answers of Huafin firmware are given only while it serves (R434, R48). -/
def Dev.ifServing (d : Dev) (f : Dev → Dev) : Dev := if d.mgmt.serving then f d else d

end Sys2Proof.Machine
end

