-- ==== Sys2Proof/Machine/PressCore.lean ====
section
/-! DEFINITION. The press: transition entries, one parse step, the whole parse, the header vector, and the checks of
a program write (R102 to R126). -/
namespace Sys2Proof.Machine

/-- The vintage test of R107 on a vintaged 256-bit item with its vint fields at [hi:hi-3] and [lo:lo-3] and its valid
bit at `v`. -/
def itemValid (x : BitVec 256) (hi lo v : Nat) (vint : Nat) : Bool :=
  bit x v && vintIn vint (fld x hi (hi - 3)) (fld x lo (lo - 3))

/-- Validity of a transition entry for a vintage (Table 4.1, R107). -/
def pressValid (x : BitVec 256) (vint : Nat) : Bool := itemValid x 183 179 175 vint

/-- The parse window of R102: the frame's bytes from the start offset, at most 256. -/
def windowBytes (frame : Bytes) (start : Nat) : Bytes := (frame.drop start).take 256

/-- The 16-bit big-endian word at a window offset; bytes outside the window read 0 (R102, R107). -/
def winWord (w : Bytes) (o : Nat) : Nat := (w.getD o 0).toNat * 256 + (w.getD (o + 1) 0).toNat

/-- The key of a step (R107). -/
def pressKey (w : Bytes) (c o0 o1 : Nat) : Nat := winWord w (c + o0) * 65536 + winWord w (c + o1)

/-- Does an entry qualify in a state for a key and a vintage (R107)? -/
def pressMatches (x : BitVec 256) (state key vint : Nat) : Bool :=
  fld x 255 248 = state && pressValid x vint && (key &&& fld x 215 184 == fld x 247 216)

/-- The lowest-numbered entry that qualifies (R107). -/
def pressSearch (t : List (Nat × BitVec 256)) (state key vint : Nat) : Option (Nat × BitVec 256) :=
  t.find? fun p => pressMatches p.2 state key vint

/-- The header length of R108. -/
def hdrLen (x : BitVec 256) (w : Bytes) (c : Nat) : Nat :=
  if bit x 155 then
    (((winWord w (c + fld x 154 149) &&& fld x 148 133) >>> fld x 132 129) <<< fld x 128 127) + fld x 163 156
  else fld x 163 156

/-- What a parse builds up: instances as 16-bit words, the 88 field bytes and the flags. -/
structure Parse where
  insts : List Nat := []
  field : Bytes := List.replicate 88 0
  flags : Nat := 0
  cursor : Nat := 0
  status : Nat := 0
  final : Nat := 0
  /-- the entry whose parity failed (R114) -/
  entry : Nat := 0
deriving DecidableEq, Repr

/-- One extraction of an entry (R109): field j at [18j+17:18j]. -/
def extractOne (x : BitVec 256) (w : Bytes) (c j : Nat) (field : Bytes) : Bytes :=
  let e := fld x (18 * j + 17) (18 * j)
  if e / 2 ^ 17 = 1 then
    let src := e / 2 ^ 11 % 64
    let n := e / 2 ^ 7 % 16 + 1
    overwrite field (e % 128) (slice w (c + src) n)
  else field

/-- The four extractions of an entry in ascending order, so that the higher-numbered wins (R109). -/
def extractAll (x : BitVec 256) (w : Bytes) (c : Nat) (field : Bytes) : Bytes :=
  extractOne x w c 3 (extractOne x w c 2 (extractOne x w c 1 (extractOne x w c 0 field)))

/-- The parse of R110 from a state with at most 16 headers left: `fuel` bounds the steps, `bad` lists the entries
whose parity fails in this slice (R114), `fb` is the number of frame bytes from the window start. -/
def parseSteps (t : List (Nat × BitVec 256)) (bad : List Nat) (w : Bytes) (fb vint : Nat) :
    Nat → (state o0 o1 : Nat) → Parse → Parse
  | 0, state, _, _, p => { p with status := 2, final := state }
  | fuel + 1, state, o0, o1, p =>
    match pressSearch t state (pressKey w p.cursor o0 o1) vint with
    | none => { p with status := 1, final := state }
    | some (i, x) =>
      if bad.contains i then { p with insts := [], status := 5, final := state, entry := i }
      else if fld x 171 166 = 0 then { p with status := 0, final := state }
      else if p.insts.length = 16 then { p with status := 2, final := state }
      else
        let len := hdrLen x w p.cursor
        if len = 0 ∨ len < fld x 126 119 then { p with status := 3, final := state }
        else if bit x 118 ∧ fb < p.cursor + winWord w (p.cursor + fld x 117 112) + fld x 111 104 then
          { p with status := 3, final := state }
        else if fb < p.cursor + len then { p with status := 3, final := state }
        else if 256 < p.cursor + len then { p with status := 2, final := state }
        else
          let p1 : Parse := { p with
            insts := p.insts ++ [fld x 171 166 * 1024 + p.cursor * 4 + fld x 165 164],
            field := extractAll x w p.cursor p.field,
            flags := if bit x 83 then p.flags ||| (1 <<< fld x 80 78) else p.flags,
            cursor := p.cursor + len }
          if bit x 173 then { p1 with status := 4, final := state }
          else if bit x 174 then { p1 with status := 0, final := state }
          else parseSteps t bad w fb vint fuel (fld x 103 96) (fld x 95 90) (fld x 89 84) p1

/-- The whole parse of a pass that starts at byte `start` of the frame (R110, R117, R119). -/
def parse (t : List (Nat × BitVec 256)) (bad : List Nat) (frame : Bytes) (start state o0 o1 vint : Nat) : Parse :=
  if frame.length ≤ start ∧ start ≠ 0 then { status := 3, final := state }
  else parseSteps t bad (windowBytes frame start) (frame.length - start) vint 18 state o0 o1 {}

/-- The header vector of Table 4.3. -/
def headerVector (r : Parse) (pass vint port : Nat) (injected : Bool) (start tag : Nat) : BitVec 1024 :=
  let insts := (List.range 16).foldl (fun acc i => acc * 65536 + r.insts.getD i 0) 0
  let top := ((((((((r.status * 2 ^ 5 + r.insts.length) * 2 ^ 9 + r.cursor) * 2 ^ 8 + r.final) * 2 ^ 2 + pass) * 2 ^ 4
    + vint) * 2 ^ 7 + port) * 2 + b2n injected) * 2 ^ 8 + start) * 2 ^ 8 + tag
  BitVec.ofNat 1024 (((top * 2 ^ 8 + r.flags) * 2 ^ 256 + insts) * 2 ^ 704 + unbe r.field)

/-- The counter of a parse status (Table 4.5). -/
def statusCounter (st : Nat) : Option Nat := if st ≤ 4 then some (st + 1) else none

/-- The default action of a port for a failed parse (R115): 0 CONTINUE, 1 DROP, 2 PUNT. -/
def parseDefault (cfg : Word) (st : Nat) : Nat :=
  let a := match st with
    | 1 => fld cfg 1 0
    | 2 => fld cfg 3 2
    | 3 => fld cfg 5 4
    | 4 => fld cfg 7 6
    | _ => 0
  if a = 3 then 1 else a

/-- SL_PRS_LAST_FAIL (Table 4.4). -/
def lastFail (r : Parse) (port : Nat) : Word :=
  wd (((r.status * 2 ^ 7 + port) * 2 ^ 8 + r.final) * 2 ^ 14 + r.cursor * 2 ^ 5 + r.insts.length)

/-- The content check of a transition entry (R123), applied when its valid is 1. -/
def pressBad (x : BitVec 256) : Bool :=
  bit x 175 && ((fld x 171 166 = 0 && !bit x 174) || (fld x 247 216 &&& (2 ^ 32 - 1 - fld x 215 184)) ≠ 0 ||
    (List.range 4).any fun j =>
      let e := fld x (18 * j + 17) (18 * j)
      e / 2 ^ 17 = 1 && 88 < e % 128 + e / 2 ^ 7 % 16 + 1)

/-- The visibility test of R124 for a vintaged item: for every live vintage either both are invalid, or both are
valid and they differ in nothing but their vint fields, which `m` masks. -/
def seesSame (live : List Nat) (m : BitVec 256) (valid : BitVec 256 → Nat → Bool) (old new : BitVec 256) : Bool :=
  live.all fun v =>
    (!valid old v && !valid new v) || (valid old v && valid new v && ((old &&& ~~~m) == (new &&& ~~~m)))

/-- Mask of an item's field [hi:lo]. -/
def itemMask (hi lo : Nat) : BitVec 256 := BitVec.ofNat 256 ((2 ^ (hi - lo + 1) - 1) <<< lo)

/-- Eight staged words as one 256-bit item, little-endian (R106). -/
def Dev.stage256 (d : Dev) (base : Nat → Nat) : BitVec 256 :=
  BitVec.ofNat 256 ((List.range 8).foldr (fun j acc => (d.reg (base j)).toNat + 2 ^ 32 * acc) 0)

/-- Put a 256-bit item into eight staging words. -/
def Dev.setStage256 (d : Dev) (base : Nat → Nat) (x : BitVec 256) : Dev :=
  (List.range 8).foldl (fun d j => d.setReg (base j) (wd (x.toNat >>> (32 * j)))) d

end Sys2Proof.Machine
end

