-- ==== Sys2Proof/Machine/MatchCore.lean ====
section
/-! DEFINITION. Match stages: keys, the metadata bus, the four stage kinds, and the associative block (R127 to R148,
R538). -/
namespace Sys2Proof.Machine

/-! ## Stage records and descriptors -/

/-- Fields of a stage record (Table 5.1). -/
def recKind (x : BitVec 256) : Nat := fld x 255 253
def recValid (x : BitVec 256) (v : Nat) : Bool := itemValid x 252 248 244 v
def recDesc (x : BitVec 256) : Nat := fld x 236 231
def recSeg (x : BitVec 256) (j : Nat) : Nat := fld x (19 * j + 87) (19 * j + 69)
def recWr (x : BitVec 256) (j : Nat) : Nat := fld x (17 * j + 16) (17 * j)

/-- Fields of a table descriptor (Table 5.2). -/
def descKind (x : BitVec 256) : Nat := fld x 255 253
def descDram (x : BitVec 256) : Bool := bit x 252 && (descKind x = 1 || descKind x = 2)
def descEsize (x : BitVec 256) : Nat := 8 * 2 ^ fld x 251 250
def descLog2 (x : BitVec 256) : Nat := fld x 249 245
def descValid (x : BitVec 256) : Bool := bit x 244
def descIpv6 (x : BitVec 256) : Bool := bit x 243
def descBase (x : BitVec 256) : Nat := fld x 239 208
def descCount (x : BitVec 256) : Nat := fld x 207 200
def descFirst (x : BitVec 256) : Nat := fld x 198 192
def descSeed (x : BitVec 256) : Word := wd (fld x 191 160)
def descMiss (x : BitVec 256) : BitVec 64 := BitVec.ofNat 64 (fld x 127 64)

/-- The extent of a table in bytes, rounded up to whole lines of 64 (R129). -/
def descExtent (x : BitVec 256) : Nat :=
  match descKind x with
  | 1 => 64 * ceilDiv (2 ^ descLog2 x * descEsize x) 64
  | 2 => 64 * ceilDiv (2 ^ descLog2 x * descEsize x) 64
  | 3 => 64 * ceilDiv (2 ^ descLog2 x * 8) 64
  | _ => 0

/-- The bucket count of a hash-exact table (R138). -/
def descBuckets (x : BitVec 256) : Nat := 2 ^ descLog2 x * descEsize x / 64

/-- Width of a key in bits: the enabled segments of R128, each of `length − 1` in [6:0] and enabled by bit 18. -/
def segWidth (s : Nat) : Nat := if s / 2 ^ 18 = 1 then s % 128 + 1 else 0

def keyWidth (segs : List Nat) : Nat := (segs.map segWidth).foldl (· + ·) 0

def recSegs (x : BitVec 256) : List Nat := (List.range 8).map (recSeg x)

/-- The key width fits the kind (Table 5.3). -/
def widthOk (kind : Nat) (v6 : Bool) (w : Nat) : Bool :=
  match kind with
  | 1 => 1 ≤ w && w ≤ 20
  | 2 => 1 ≤ w && w ≤ 320
  | 3 => if v6 then w = 140 else w = 44
  | 4 => 1 ≤ w && w ≤ 320
  | _ => true

/-- Every enabled segment lies within its source (R133). -/
def segInside (s : Nat) : Bool :=
  if s / 2 ^ 18 = 1 then
    if s / 2 ^ 17 % 2 = 0 then s / 2 ^ 7 % 1024 + (s % 128 + 1) ≤ 1024 else s / 2 ^ 7 % 1024 + (s % 128 + 1) ≤ 512
  else true

/-- Record and descriptor fit each other: R129, R133, R138 (the check of R538). -/
def fitOk (r dsc : BitVec 256) : Bool :=
  descValid dsc && descKind dsc = recKind r && widthOk (recKind r) (descIpv6 dsc) (keyWidth (recSegs r)) &&
  (recKind r ≠ 2 || (2 + ceilDiv (keyWidth (recSegs r)) 8 ≤ descEsize dsc && 1 ≤ descBuckets dsc))

/-- Bits of a source, most significant first: `n` bits from offset `o` (R133). -/
def takeBits {k : Nat} (v : BitVec k) (o n : Nat) : Nat := (v.toNat >>> (k - o - n)) % 2 ^ n

/-- The metadata bus as 512 bits, byte 0 most significant (R134). -/
def busBits (bus : Bytes) : BitVec 512 := BitVec.ofNat 512 (unbe (padTo 64 bus))

/-- The key of a list of segments (R133): segment 0 first and most significant. -/
def buildKey (segs : List Nat) (vec : BitVec 1024) (bus : Bytes) : Nat :=
  segs.foldl (fun acc s =>
    if s / 2 ^ 18 = 1 then
      let n := s % 128 + 1
      let o := s / 2 ^ 7 % 1024
      acc * 2 ^ n + (if s / 2 ^ 17 % 2 = 0 then takeBits vec o n else takeBits (busBits bus) o n)
    else acc) 0

/-- A key of `w` bits left-aligned in ⌈w / 8⌉ bytes (Table 5.3). -/
def keyBytes (key w : Nat) : Bytes := be (ceilDiv w 8) (key * 2 ^ (8 * ceilDiv w 8 - w))

/-- A summary flag of the header vector (Table 4.3). -/
def vecFlag (vec : BitVec 1024) (b : Nat) : Bool := bit vec (960 + b)

/-- The hit bit of a stage on the bus (Table 5.4). -/
def busHit (bus : Bytes) (s : Nat) : Bool :=
  if s < 8 then (bus.getD 17 0).getLsbD s else (bus.getD 16 0).getLsbD (s - 8)

/-- Set the hit bit of a stage. -/
def setHit (bus : Bytes) (s : Nat) : Bytes :=
  if s < 8 then overwrite bus 17 [bus.getD 17 0 ||| BitVec.ofNat 8 (2 ^ s)]
  else overwrite bus 16 [bus.getD 16 0 ||| BitVec.ofNat 8 (2 ^ (s - 8))]

/-- The predicate of R131: enabled bit, source, bit number and value. -/
def predHolds (en src : Bool) (b : Nat) (val : Bool) (vec : BitVec 1024) (bus : Bytes) : Bool :=
  !en || ((if src then busHit bus b else vecFlag vec b) == val)

/-- Result writes of R135 from a presented result of 64 bytes. -/
def resultWrites (r : BitVec 256) (res : Bytes) (bus : Bytes) : Bytes :=
  (List.range 4).foldl (fun bus j =>
    let w := recWr r j
    if w / 2 ^ 16 = 1 then overwrite bus (w % 64) (slice res (w / 2 ^ 10 % 64) (w / 2 ^ 6 % 16 + 1)) else bus) bus

/-- Which record of a stage applies to a vintage (R127). -/
def stageRecord (t : List (Nat × BitVec 256)) (s v : Nat) : Option (BitVec 256) :=
  let a := Tbl.get 0#256 t (2 * s)
  let b := Tbl.get 0#256 t (2 * s + 1)
  if recValid a v then some a else if recValid b v then some b else none

/-! ## Hash-exact -/

/-- The two buckets of a key (R138); both are bucket 0 when the table has one bucket. -/
def hashBuckets (dsc : BitVec 256) (key : Bytes) : Nat × Nat :=
  let b := descBuckets dsc
  let h1 := (crc32cFrom (descSeed dsc) key).toNat % b
  let h2 := (crc32cFrom (~~~ descSeed dsc) key).toNat % b
  (h1, if h2 = h1 then (h1 + 1) % b else h2)

/-- Byte offsets, in the table, of the slots of a bucket. -/
def bucketSlots (dsc : BitVec 256) (b : Nat) : List Nat :=
  (List.range (64 / descEsize dsc)).map fun i => b * 64 + i * descEsize dsc

/-- The slots a key may lie in, in the order of R138. -/
def keySlots (dsc : BitVec 256) (key : Bytes) : List Nat :=
  let b := hashBuckets dsc key
  if b.1 = b.2 then bucketSlots dsc b.1 else bucketSlots dsc b.1 ++ bucketSlots dsc b.2

/-- An entry is valid (R136) and stores a key (R177). -/
def entryValid (e : Bytes) : Bool := (e.getD 0 0).getLsbD 7
def entryLock (e : Bytes) : Bool := (e.getD 0 0).getLsbD 6
def entryStamp (e : Bytes) : Nat := (e.getD 1 0).toNat
def entryHolds (e key : Bytes) : Bool := entryValid e && (slice e 2 key.length == key)

/-- The slots that hold a key: (offset, entry) in search order, over a reader of the table's bytes. -/
def hashFind (rd : Nat → Nat → Bytes) (dsc : BitVec 256) (key : Bytes) : List (Nat × Bytes) :=
  ((keySlots dsc key).map fun o => (o, rd o (descEsize dsc))).filter fun p => entryHolds p.2 key

/-! ## LPM -/

/-- Does a route cover an address (R139)? -/
def covers (v6 : Bool) (r : Route) (vrf addr : Nat) : Bool :=
  let w := if v6 then 128 else 32
  r.vrf = vrf && (addr >>> (w - r.plen) == r.addr >>> (w - r.plen))

/-- The longest prefix that covers the address (R139); a VRF default has length 0. -/
def lpmBest (rs : List Route) (v6 : Bool) (vrf addr : Nat) : Option Route :=
  rs.foldl (fun best r =>
    if covers v6 r vrf addr then
      match best with
      | some b => if b.plen < r.plen then some r else some b
      | none => some r
    else best) none

/-- Does the VRF hold a prefix longer than `n` within the address's `/n` (R139)? -/
def longerWithin (rs : List Route) (v6 : Bool) (vrf addr n : Nat) : Bool :=
  let w := if v6 then 128 else 32
  rs.any fun r => r.vrf = vrf && n < r.plen && (addr >>> (w - n) == r.addr >>> (w - n))

/-- The number of DRAM reads of an LPM lookup (R139). -/
def lpmReads (rs : List Route) (v6 : Bool) (vrf addr : Nat) : Nat :=
  let l := longerWithin rs v6 vrf addr
  if v6 then
    if l 32 then if l 64 then if l 96 then 3 else 2 else 1 else 0
  else if l 16 then if l 24 then 2 else 1 else 0

/-! ## The associative block -/

def maskLen (m : BitVec 320) : Nat := (List.range 320).foldl (fun n i => n + b2n (m.getLsbD i)) 0

def assocMatches (e : AssocEntry) (key : BitVec 320) (v : Nat) : Bool :=
  e.valid && vintIn v e.vFirst e.vLast && (key &&& e.mask == e.key)

/-- The matches in a range of units of 256, as (index, mask length), leaving out entries under reload (R146). -/
def assocHits (t : List (Nat × AssocEntry)) (first count : Nat) (skip : List Nat) (key : BitVec 320) (v : Nat) :
    List (Nat × Nat) :=
  (t.filter fun p => first * 256 ≤ p.1 && p.1 < (first + count) * 256 && !skip.contains p.1 &&
    assocMatches p.2 key v).map fun p => (p.1, maskLen p.2.mask)

/-- The stepping order of R148: descending mask length, then ascending index. -/
def assocBefore (a b : Nat × Nat) : Bool := b.2 < a.2 || (a.2 = b.2 && a.1 < b.1)

/-- The winner of a list of matches (R144). -/
def assocBest (l : List (Nat × Nat)) : Option (Nat × Nat) :=
  l.foldl (fun best h => match best with
    | some b => if assocBefore h b then some h else some b
    | none => some h) none

/-- More than one match at the winning length (R144). -/
def assocMulti (l : List (Nat × Nat)) (w : Nat) : Bool := 1 < (l.filter fun h => h.2 = w).length

/-- The search key of a stage: the key in bits [319:320−W] (Table 5.3). -/
def assocKey (key w : Nat) : BitVec 320 := BitVec.ofNat 320 (key * 2 ^ (320 - w))

/-- 64 result bytes. -/
def res64 (bs : Bytes) : Bytes := padTo 64 (bs.take 64)

/-! ## Content checks -/

/-- BAD_ENTRY of a descriptor against the other valid descriptors (R129): `own` its index, `limit` the lines of the
table region. That a kind Table 5.2 does not list, and a log2_entries above its limits, are refused too is the model's choice
(log entry 107, DESIGN CHOICE). -/
def descBad (t : List (Nat × BitVec 256)) (own limit : Nat) (x : BitVec 256) : Bool :=
  descValid x &&
  (let k := descKind x
   k = 0 || 5 ≤ k || (k = 1 && 20 < descLog2 x) || (k = 2 && 22 < descLog2 x) ||
   128 < descFirst x + descCount x || (k = 4 && descCount x = 0) ||
   (k = 2 && 2 ^ descLog2 x * descEsize x < 64) ||
   (k ≠ 4 &&
     (limit < descBase x + descExtent x / 64 ||
      (!descDram x &&
        (12 * 2 ^ 20 < 64 * descBase x + descExtent x ||
         t.any fun p => p.1 ≠ own && descValid p.2 && descKind p.2 ≠ 4 && !descDram p.2 &&
           descBase x < descBase p.2 + descExtent p.2 / 64 && descBase p.2 < descBase x + descExtent x / 64)))))

/-- BAD_ENTRY of a stage record for stage `s` (R128, R129, R131, R133, R134, R145). -/
def recBad (prog : Program) (own : Nat) (x : BitVec 256) : Bool :=
  let s := own / 2
  let k := recKind x
  let wrBad := (List.range 4).any fun j =>
    let w := recWr x j
    w / 2 ^ 16 = 1 && (w % 64 < 18 || 64 < w % 64 + w / 2 ^ 6 % 16 + 1)
  let predBad := bit x 243 && (if bit x 242 then s ≤ fld x 241 238 else 7 < fld x 241 238)
  let assocBad := k = 4 && (List.range 16).any fun v =>
    recValid x v &&
      4 < ((prog.records.filter fun p => p.1 ≠ own && recKind p.2 = 4 && recValid p.2 v).length + 1)
  bit x 244 && (5 ≤ k || wrBad || predBad || (recSegs x).any (fun sg => !segInside sg) ||
    (1 ≤ k && (!fitOk x (Tbl.get 0#256 prog.descs (recDesc x)) || assocBad)))

/-- The lie of an edit op: code, length and source run (R157). -/
def opBad (op : Nat) : Bool :=
  let code := op / 2 ^ 27
  let len := op / 2 ^ 5 % 128
  (code = 1 || code = 3) && (64 < len || 64 < 4 * (op % 16) + len)

/-- BAD_ENTRY of an edit program (R157). -/
def editBad (x : BitVec 256) : Bool :=
  bit x 247 && (List.range 8).any fun j => opBad (fld x (30 * j + 29) (30 * j))

def editValid (x : BitVec 256) (v : Nat) : Bool := itemValid x 255 251 247 v

/-! ## Edit ops -/

/-- The 16-bit ones' complement sum of a byte string (RFC 1624 arithmetic). -/
def onesSum (bs : Bytes) : Nat → Nat
  | 0 => 0
  | n + 1 =>
    let s := onesSum bs n + winWord bs (2 * n)
    if 65535 < s then s - 65535 else s

/-- The header checksum over bytes with the checksum field taken as 0 (CSUM4, Table 5.10). -/
def csum4 (hdr : Bytes) : Nat := 65535 - onesSum (overwrite hdr 10 [0, 0]) (hdr.length / 2)

/-- The incremental update of RFC 1624, eqn. 3: HC' = ~(~HC + ~m + m'). -/
def csumUpdate (hc m m' : Nat) : Nat :=
  let s := (65535 - hc) + (65535 - m) + m'
  let s1 := s % 65536 + s / 65536
  65535 - (s1 % 65536 + s1 / 65536) % 65536

/-- One edit op on a frame: none when R158 drops the packet. `data` is the 64 bytes of the edit data entry, `rec` the
record. -/
def editOp (op : Nat) (data record frame : Bytes) : Option Bytes :=
  let code := op / 2 ^ 27
  let off := op / 2 ^ 12 % 256 + (if op / 2 ^ 26 % 2 = 1 then (record.getD (op / 2 ^ 20 % 64) 0).toNat else 0)
  let len := op / 2 ^ 5 % 128
  let src := slice (if op / 2 ^ 4 % 2 = 1 then record else data) (4 * (op % 16)) len
  let lies (n : Nat) : Bool := n = 0 || (off + n - 1 ≤ 255 && off + n ≤ frame.length)
  match code with
  | 1 => if len = 0 then some frame
         else if frame.length < off ∨ 255 < off + len - 1 then none
         else some (frame.take off ++ src ++ frame.drop off)
  | 2 => if len = 0 then some frame else if lies len then some (frame.take off ++ frame.drop (off + len)) else none
  | 3 => if len = 0 then some frame else if lies len then some (overwrite frame off src) else none
  | 4 => if lies 12 then
           let ttl := frame.getD (off + 8) 0
           if ttl = 0#8 then some frame
           else
             let m := winWord frame (off + 8)
             let f := overwrite frame (off + 8) [ttl - 1#8]
             some (overwrite f (off + 10) (be 2 (csumUpdate (winWord frame (off + 10)) m (m - 256))))
         else none
  | 5 => if lies 8 then
           let hop := frame.getD (off + 7) 0
           some (if hop = 0#8 then frame else overwrite frame (off + 7) [hop - 1#8])
         else none
  | 6 => if ¬ lies 1 then none
         else
           let n := max 12 (4 * ((frame.getD off 0).toNat % 16))
           if lies n then some (overwrite frame (off + 10) (be 2 (csum4 (slice frame off n)))) else none
  | 7 => if len = 0 then some frame
         else if lies 2 then some (overwrite frame off (be 2 ((frame.length + 65536 - len) % 65536))) else none
  | _ => some frame

/-- The eight ops in order (R156). -/
def runEdits (prog : BitVec 256) (data record : Bytes) (frame : Bytes) : Option Bytes :=
  (List.range 8).foldl (fun f j => f.bind fun fr => editOp (fld prog (30 * j + 29) (30 * j)) data record fr) (some frame)

end Sys2Proof.Machine
end

