-- ==== Sys2Proof/Machine/QueueCore.lean ====
section
/-! DEFINITION. The queue manager: record fields, queues and their table entries, drops, sampling, admission,
evacuation, replication, nomination, the matcher and dispatch (R219 to R240). -/
namespace Sys2Proof.Machine

/-! ## The metadata record (Table 5.4) -/

def Pkt.act (k : Pkt) : Nat := (k.bus.getD 18 0).toNat / 32
def Pkt.recTc (k : Pkt) : Nat := (k.bus.getD 18 0).toNat / 4 % 8
def Pkt.recColour (k : Pkt) : Nat := (k.bus.getD 18 0).toNat % 4
def Pkt.dest (k : Pkt) : Nat := unbe (Machine.slice k.bus 19 4)
def Pkt.flags (k : Pkt) : Nat := (k.bus.getD 23 0).toNat
def Pkt.copyHost (k : Pkt) : Bool := k.flags.testBit 7
def Pkt.noLearn (k : Pkt) : Bool := k.flags.testBit 6
def Pkt.ptp (k : Pkt) : Nat := if k.flags / 16 % 4 = 3 then 0 else k.flags / 16 % 4
def Pkt.sample (k : Pkt) : Bool := k.flags.testBit 3
def Pkt.meterEn (k : Pkt) : Bool := k.flags.testBit 2
def Pkt.copyQ (k : Pkt) : Nat := unbe (Machine.slice k.bus 24 2) / 64
def Pkt.session (k : Pkt) : Nat := (k.bus.getD 25 0).toNat % 64
def Pkt.meter (k : Pkt) : Nat := unbe (Machine.slice k.bus 26 3) % 2 ^ 17
def Pkt.editNo (k : Pkt) : Nat := k.editProg.getD (k.bus.getD 29 0).toNat
def Pkt.reason (k : Pkt) : Nat := (k.bus.getD 30 0).toNat
def Pkt.ptpOff (k : Pkt) : Nat := (k.bus.getD 31 0).toNat
def Pkt.editDataNo (k : Pkt) : Nat := k.editData.getD (unbe (Machine.slice k.bus 32 2) % 4096)
def Pkt.recVint (k : Pkt) : Nat := (k.bus.getD 15 0).toNat / 16
def Pkt.recStatus (k : Pkt) : Nat := (k.bus.getD 15 0).toNat % 16
def Pkt.recPass (k : Pkt) : Nat := (k.bus.getD 12 0).toNat / 64
def Pkt.recLen (k : Pkt) : Nat := unbe (Machine.slice k.bus 12 2) % 2 ^ 14
def Pkt.recPort (k : Pkt) : Nat := (k.bus.getD 14 0).toNat / 2
def Pkt.recInjected (k : Pkt) : Bool := (k.bus.getD 14 0).getLsbD 0

/-- Write byte 18 of a record. -/
def setVerdict (bus : Bytes) (act tc colour : Nat) : Bytes := overwrite bus 18 [BitVec.ofNat 8 (act * 32 + tc * 4 + colour)]

/-- Set the colour bits (R258). -/
def Pkt.setColour (k : Pkt) (c : Nat) : Pkt := { k with colour := c, bus := setVerdict k.bus k.act k.recTc c }

/-- The device's own ID (R466). -/
def Dev.devId (d : Dev) : Nat := fld (d.reg Reg.GLB_STRAP) 12 8

/-! ## Queues and their entries (Tables 8.1, 8.10) -/

def eqReset : BitVec 64 := 0x0000010100000400#64
def egReset : BitVec 64 := 0x2000#64
def nodeReset : BitVec 64 := 0x8080E00100000400#64
def ilimitReset : BitVec 64 := 0x1000#64

def Dev.eqEntry (d : Dev) (n : Nat) : BitVec 64 := Tbl.get 0#64 d.qm.eq n ^^^ eqReset
def Dev.egEntry (d : Dev) (n : Nat) : BitVec 64 := Tbl.get 0#64 d.qm.eg n ^^^ egReset
def Dev.nodeEntry (d : Dev) (n : Nat) : BitVec 64 := Tbl.get 0#64 d.qm.node n ^^^ nodeReset
def Dev.ilimitEntry (d : Dev) (n : Nat) : BitVec 64 := Tbl.get 0#64 d.qm.ilimit n ^^^ ilimitReset

def qKind (q : Nat) : Nat := q / 2 ^ 18
def qIdx (q : Nat) : Nat := q % 2 ^ 18

def Dev.queue (d : Dev) (q : Nat) : Queue := Tbl.get {} d.qm.queues q
def Dev.setQueue (d : Dev) (q : Nat) (x : Queue) : Dev := { d with qm := { d.qm with queues := Tbl.set {} d.qm.queues q x } }

/-- Depth in bytes (R221). -/
def Queue.depth (q : Queue) : Nat := (q.pkts.map (·.len)).foldl (· + ·) 0

/-- Port and class of an endpoint group. -/
def Dev.groupPort (d : Dev) (g : Nat) : Nat := fld (d.egEntry g) 30 24
def Dev.groupTc (d : Dev) (g : Nat) : Nat := fld (d.egEntry g) 23 21
def Dev.eqGroup (d : Dev) (n : Nat) : Nat := fld (d.eqEntry n) 61 48

/-- The local port of a queue, where it has one. -/
def Dev.queuePort (d : Dev) (q : Nat) : Option Nat :=
  match qKind q with
  | 0 => some (qIdx q / 8)
  | 1 => some (d.groupPort (d.eqGroup (qIdx q)))
  | _ => none

/-- The class of a queue's node. -/
def Dev.queueTc (d : Dev) (q : Nat) : Nat :=
  match qKind q with
  | 1 => d.groupTc (d.eqGroup (qIdx q))
  | 3 => 0
  | 4 => 0
  | _ => qIdx q % 8

/-- The limit of a queue in 256-byte units; return queues have none. -/
def Dev.queueLimit (d : Dev) (q : Nat) : Option Nat :=
  match qKind q with
  | 0 => some (fld (d.nodeEntry (qIdx q)) 39 20)
  | 1 => some (fld (d.eqEntry (qIdx q)) 39 20)
  | 2 => some (fld (d.reg (Reg.TMQ_VOQ_LIMIT (qIdx q % 8))) 19 0)
  | 3 => some (fld (d.reg Reg.TMQ_HQ_LIMIT) 19 0)
  | _ => none

/-- The evacuation threshold in 256-byte units; host and return queues are never evacuated (R223). -/
def Dev.queueEvacThr (d : Dev) (q : Nat) : Option Nat :=
  match qKind q with
  | 0 => some (fld (d.nodeEntry (qIdx q)) 19 0)
  | 1 => some (fld (d.eqEntry (qIdx q)) 19 0)
  | 2 => some (fld (d.reg (Reg.TMQ_VOQ_EVAC (qIdx q % 8))) 19 0)
  | _ => none

/-- yellow_frac of the queue's class node; 8 for a VOQ and a host queue (R221). -/
def Dev.queueYellow (d : Dev) (q : Nat) : Nat :=
  match d.queuePort q with
  | some p => fld (d.nodeEntry (8 * p + d.queueTc q)) 46 43
  | none => 8

/-- The port is UP or in HOLDOFF (R99). -/
def Dev.portLive (d : Dev) (p : Nat) : Bool := (d.port p).st = .up || (d.port p).st = .holdoff

/-- The queue a record names (R149, Table 8.1): a remote destination that is this device is read in its local form. -/
def Dev.queueFor (d : Dev) (k : Pkt) : Nat :=
  let x := k.dest
  let cq (p : Nat) := qKey 0 (8 * p + k.recTc)
  match k.act with
  | 3 => qKey 3 (x % 1024)
  | 4 => qKey 4 (k.port / 16)
  | _ =>
    match x / 2 ^ 30 with
    | 0 => cq (x / 2 ^ 18 % 128)
    | 1 => qKey 1 (x % 2 ^ 18)
    | _ =>
      let dv := x / 2 ^ 25 % 32
      if dv = d.devId then (if x % 2 ^ 18 = 0x3FFFF then cq (x / 2 ^ 18 % 128) else qKey 1 (x % 2 ^ 18))
      else qKey 2 ((dv * 128 + x / 2 ^ 18 % 128) * 8 + k.recTc)

/-! ## Drops -/

/-- Free a buffer, if the packet holds one. -/
def Dev.freeOpt (d : Dev) (party : Nat) (h : Option Nat) : Dev :=
  match h with
  | some h => d.bufFree party h
  | none => d

/-- A failed copy counts for its port, or as a remote one (R235). -/
def Dev.copyFail (d : Dev) (k : Pkt) : Dev :=
  if k.remoteCopy then d.inc bankRepl 6
  else if k.copy then
    match k.outPort with
    | some p => d.inc bankSess (64 + p)
    | none => d
  else d

/-- What a packet holds ends: its buffers are freed by their holder, its ingress share and its hold go (Table 7.3). -/
def Dev.release (d : Dev) (k : Pkt) : Dev :=
  let d1 := d.freeOpt k.tag k.handle
  let d2 := (d1.freeOpt 13 k.dram).freeOpt 13 k.evacTo
  (d2.endShare k).endHold k.uid

/-- A packet is dropped by its holder. -/
def Dev.dropPkt (d : Dev) (k : Pkt) : Dev := (d.release k).copyFail k

/-! ## Sampling capture (R236, R237) -/

/-- The capture record of Table 8.7 for session `s`, record number `seq`. -/
def captureRec (t : DevTime) (s seq point : Nat) (dropped : Bool) (reason : Nat) (k : Pkt) : Bytes :=
  le 2 t.subns ++ le 4 t.ns ++ le 6 t.sec ++ le 2 seq ++ [BitVec.ofNat 8 (b2n dropped * 128 + point * 64 + s)] ++
  [BitVec.ofNat 8 (min 128 k.frame.length)] ++ le 2 (k.len % 2 ^ 14) ++
  [BitVec.ofNat 8 (k.port % 128 + (if k.origin = .fabric then 128 else 0))] ++ slice k.bus 18 5 ++
  [BitVec.ofNat 8 reason] ++ [BitVec.ofNat 8 (k.recStatus * 16 + k.recVint)] ++ le 4 (k.queue % 2 ^ 21) ++ le 2 0 ++
  padTo 128 (k.frame.take 128)

/-- A capture is discarded and counted (R237). -/
def Dev.captureDrop (d : Dev) (s : Nat) : Dev := (d.inc bankSess s).latchBit Reg.REPL_STATUS 10

/-- An item for a host queue: enqueued when the queue's limit takes it (R219, R221). -/
def Dev.hostItem (d : Dev) (hq kind : Nat) (body : Bytes) : Option Dev :=
  let q := qKey 3 hq
  let x := d.queue q
  if fld (d.reg Reg.TMQ_HQ_LIMIT) 19 0 * 256 < x.depth + body.length then none
  else
    let u := d.newUid
    let k : Pkt := { uid := u.1, origin := .hostCopy, frame := body, len := body.length, queue := q, input := 9,
                     itemKind := kind, seq := u.1, tag := 13 }
    some (u.2.setQueue q { x with pkts := x.pkts ++ [k] })

/-- Count an item a host queue has dropped (Table 14.6). -/
def Dev.hqDrop (d : Dev) (hq : Nat) : Dev :=
  { d with qm := { d.qm with hqLost := Tbl.modify 0 d.qm.hqLost hq (fun n => satN 32 (n + 1)) } }

/-- Write a capture record to its destination (R237). Its time is the device time at admission or dispatch, with no correction for the
path to a port (log entry 115, DESIGN CHOICE). -/
def Dev.capture (d : Dev) (s point : Nat) (dropped : Bool) (reason : Nat) (k : Pkt) : Dev :=
  let ctrl := d.reg (Reg.REPL_SESS_CTRL s)
  let ses := Tbl.get {} d.qm.sessions s
  let sec := d.time.tsc / 10 ^ 9
  let made := if d.qm.capWin.1 = sec then d.qm.capWin.2 else 0
  let body := captureRec d.time.now s (ses.made % 65536) point dropped reason k
  let done (d : Dev) : Dev :=
    { d with qm := { d.qm with
        sessions := Tbl.set {} d.qm.sessions s { ses with made := ses.made + 1 }, capWin := (sec, made + 1) } }.inc bankRepl 7
  if 100 * 10 ^ 6 ≤ made then d.captureDrop s
  else if !bit ctrl 29 then
    let hq := fld (d.reg (Reg.REPL_SESS_RING s)) 9 0
    match d.hostItem hq 3 body with
    | some d1 => done d1
    | none => (d.captureDrop s).hqDrop hq
  else
    let size := fld (d.reg (Reg.REPL_SESS_SIZE s)) 23 0
    let prod := fld (d.reg (Reg.REPL_SESS_PROD s)) 23 0
    let at' := 64 * (d.reg (Reg.REPL_SESS_BASE s)).toNat + 160 * prod
    if size = 0 ∨ at' < 64 * 0xC000 then d.captureDrop s
    else if !bit ctrl 28 ∧ (prod + 1) % size = fld (d.reg (Reg.REPL_SESS_CONS s)) 23 0 then d.captureDrop s
    else
      let d1 := d.dramWrite rCount at' body
      done (d1.setReg (Reg.REPL_SESS_PROD s) (wd ((prod + 1) % size)))

/-- Offer a packet to its session at a capture point (R236). -/
def Dev.offer (d : Dev) (point : Nat) (dropped : Bool) (reason : Nat) (k : Pkt) : Dev :=
  let s := k.session
  let ctrl := d.reg (Reg.REPL_SESS_CTRL s)
  if !k.sample ∨ !bit ctrl 31 ∨ fld ctrl 30 30 ≠ point then d
  else
    let ses := Tbl.get {} d.qm.sessions s
    let d1 := { d with qm := { d.qm with sessions := Tbl.set {} d.qm.sessions s { ses with offers := ses.offers + 1 } } }
    if (ses.offers + 1) % (fld ctrl 15 0 + 1) = 0 then d1.capture s point dropped reason k else d1

/-- A session begins: its offers are counted from here (R236). -/
def Dev.startSession (d : Dev) (s : Nat) : Dev :=
  let ses := Tbl.get {} d.qm.sessions s
  { d with qm := { d.qm with sessions := Tbl.set {} d.qm.sessions s { ses with offers := 0 } } }

/-! ## Admission (R221, R222) -/

/-- The check of Table 8.2 that a packet bound for queue `q` fails first. -/
def Dev.admitFails (d : Dev) (q : Nat) (k : Pkt) : Option Nat :=
  let down := match d.queuePort q with
    | some p => !d.portLive p
    | none => false
  let unbound := match qKind q with
    | 1 => !bit (d.eqEntry (qIdx q)) 63 || !bit (d.egEntry (d.eqGroup (qIdx q))) 31
    | 2 => !d.reach.getLsbD (qIdx q / 1024)
    | _ => false
  let share := 8 * k.port + k.recTc
  let tooMuch := k.origin = .line &&
    decide (fld (d.ilimitEntry share) 19 0 * 256 < Tbl.get 0 d.qm.ishare share + k.len)
  let full := match d.queueLimit q with
    | some l =>
      let need := (d.queue q).depth + k.len
      decide (l * 256 < need) || (k.colour = 1 && decide (l * 256 * d.queueYellow q < need * 16))
    | none => false
  if down then some 1 else if unbound then some 2 else if k.colour = 2 then some 3 else if tooMuch then some 4
  else if full then some 5 else none

/-- Count a drop at admission check `c` (Table 8.2). -/
def Dev.countAdmit (d : Dev) (c q : Nat) : Dev :=
  if c = 1 then
    match d.queuePort q with
    | some p => d.inc (bankPort p) 26
    | none => d
  else
    let d1 := d.inc bankTmq (c - 1)
    if qKind q = 3 then d1.hqDrop (qIdx q) else d1

/-- Cut-through at enqueue (R231): everything but the head having arrived early is checked here. -/
def Dev.mayCut (d : Dev) (q : Nat) (k : Pkt) : Bool :=
  bit (d.reg Reg.TMQ_CTRL) 0 && k.headOnly && k.origin = .line && k.act = 1 && !k.copy && k.capable &&
  ((d.queue q).pkts == []) && !(d.queue q).evac && !d.spr.cellar &&
  (match d.queuePort q with
   | some p => (d.port p).st = .up
   | none => qKind q = 2)

/-- The queue's packets that keep it EVACUATING: resident in DRAM, or on the way there (R223). -/
def Queue.resident (q : Queue) : Bool := q.pkts.any fun k => k.dram.isSome || k.evacTo.isSome || k.evacAsk

/-- Return a queue to ON_DIE when it holds no DRAM-resident packet (R223). -/
def Queue.settle (q : Queue) : Queue := if q.resident then q else { q with evac := false }

/-- Ask for the evacuation of a packet that has just been enqueued on an EVACUATING queue (R223). -/
def Dev.askEvac (d : Dev) (k : Pkt) : Dev :=
  match sizeClass k.len with
  | none => d
  | some c => { d with bpm := { d.bpm with waiting := d.bpm.waiting ++ [{ pool := 8 + c, tag := 13, pkt := k, use := .evacuate }] } }

/-- Class group of a class (R305). -/
def Dev.classGroup (d : Dev) (tc : Nat) : Nat := fld (d.reg Reg.TRL_CG_MAP) (2 * tc + 1) (2 * tc)

/-- Cells admitted to the VOQs of a device and class group, for the next demand report (Table 11.4). -/
def Dev.countDemand (d : Dev) (q len : Nat) : Dev :=
  if qKind q = 2 then
    let k := 4 * (qIdx q / 1024) + d.classGroup (qIdx q % 8)
    { d with fab := { d.fab with admitted := Tbl.modify 0 d.fab.admitted k (· + ceilDiv (64 + len) 256) } }
  else d

/-- A raw injection takes the current vintage when it is enqueued (R165). -/
def Pkt.rawVint (k : Pkt) (v : Nat) : Pkt :=
  if k.origin = .injectRaw then { k with vint := v, bus := overwrite k.bus 15 [BitVec.ofNat 8 (v * 16)] } else k

/-- A raw injection is counted in flight from its enqueue on (Table 6.2). -/
def Dev.countRaw (d : Dev) (k : Pkt) : Dev := if k.origin = .injectRaw then d.countVint k.uid k.vint else d

/-- Enqueue an admitted packet: its buffer goes to QM (Table 7.3), its share is held, and evacuation is decided (R223): a packet that
is to be written to DRAM is not cut through (R231). -/
def Dev.enqueue (d : Dev) (q : Nat) (k : Pkt) : Dev :=
  let deep : Bool := match d.queueEvacThr q with
    | some t => !d.spr.cellar &&
      ((d.queue q).evac || (bit (d.reg Reg.TMQ_CTRL) 1 && decide (t * 256 < (d.queue q).depth + k.len)))
    | none => false
  let cut := d.mayCut q k && !deep
  let d1 := if k.tag = 13 then d else
    match k.handle with
    | some h => d.bufHandOver k.tag h 13
    | none => d
  let u := d1.newUid
  let share := 8 * k.port + k.recTc
  let line : Bool := k.origin = .line ∧ !k.recirc
  let k0 := k.rawVint d.vint.current
  let k1 := { k0 with tag := 13, queue := q, outPort := d.queuePort q, tc := d.queueTc q, seq := u.1, cutThrough := cut,
                      shareKey := if line then some share else none, shareBytes := if line then k.len else 0 }
  let d2 := if line then { u.2 with qm := { u.2.qm with ishare := Tbl.modify 0 u.2.qm.ishare share (· + k.len) } } else u.2
  let d3 := if cut then d2.inc bankTmq 10 else d2
  let x := d3.queue q
  let k2 := { k1 with evacAsk := deep }
  let d4 := ((d3.countRaw k2).setQueue q { pkts := x.pkts ++ [k2], evac := x.evac || deep }).countDemand q k.len
  if deep then d4.askEvac k2 else d4

/-- Offer a packet at admission, when check `c` of Table 8.2 fails it or none does. One that crossed only for its host copy was
dropped by its verdict, for the reason in its record (R152, Table 8.7). -/
def Dev.offerAdmission (d : Dev) (c : Option Nat) (k : Pkt) : Dev :=
  if k.copy then d
  else if k.act = 2 then d.offer 0 true k.reason k
  else match c with
    | some c => d.offer 0 true (0x10 + c) k
    | none => d.offer 0 false 0 k

/-- A packet arrives at admission: it is metered unless it was (R258), then checked and enqueued or dropped, and
offered to its session at point 0 whatever was decided (R221, R236). -/
def Dev.admitTo (d : Dev) (q : Nat) (k : Pkt) : Dev :=
  let k1 := { k with queue := q, outPort := d.queuePort q }
  match d.admitFails q k with
  | some c => ((d.countAdmit c q).dropPkt k1).offerAdmission (some c) k1
  | none => ((d.enqueue q k).inc bankTmq 0).offerAdmission none k1

/-- A line of a meter's counts, bytes 24m to 24m + 23 of the counter and telemetry region, is on a lost stack (R516). -/
def Dev.mtrLineLost (d : Dev) (m : Nat) : Bool :=
  !d.lineAlive rCount (24 * m / 64) || !d.lineAlive rCount ((24 * m + 23) / 64)

/-- The meter's part of admission (R258): packets resolved here with meter_en are metered; packets received over
Trellis keep their colour, and a host copy has that of its packet; the others are green. -/
def Dev.colourPkt (d : Dev) (k : Pkt) : Pkt × Dev :=
  if k.copy ∨ k.origin = .hostCopy then (k, d)
  else if k.origin = .fabric then ({ k with colour := k.recColour }, d)
  else if k.meterEn ∧ k.origin ≠ .injectRaw then
    let r := d.meterPkt k.meter k.recColour k.len (d.mtrLineLost k.meter)
    (k.setColour r.1, r.2)
  else ({ k with colour := 0 }, d)

/-- One packet with a granted buffer reaches admission (R221): a recirculated one joins RQ, one with act 5 the
replication queue (R233), any other is checked for its queue. -/
def Dev.admitOne (d : Dev) (k : Pkt) : Dev :=
  if k.recirc then d.enqueue (qKey 4 (k.port / 16)) k
  else
    let r := d.colourPkt k
    if k.act = 5 ∧ !k.copy ∧ k.queue = 0 then
      if 16384 ≤ r.2.qm.repl.length then (((r.2.inc bankRepl 5).dropPkt r.1).offer 0 true 0 r.1)
      else
        let d1 := match k.handle with
          | some h => if k.tag = 13 then r.2 else r.2.bufHandOver k.tag h 13
          | none => r.2
        { d1 with qm := { d1.qm with repl := d1.qm.repl ++ [{ r.1 with tag := 13 }] } }.offer 0 false 0 r.1
    else if k.copy then r.2.admitTo k.queue r.1
    else if k.queue ≠ 0 then r.2.admitTo (k.queue - 1) r.1
    else r.2.admitTo (r.2.queueFor k) r.1

/-- One TCLK cycle of admission (R222): up to 40 packets, in the order of their inputs from `start`. -/
def Dev.admitCycle (d : Dev) (start : Nat) : Dev :=
  let byInput := (List.range 10).flatMap fun i => d.qm.arrived.filter fun k => k.input = (start + i) % 10
  let now := byInput.take 40
  let d1 := { d with qm := { d.qm with arrived := now.foldl List.erase d.qm.arrived } }
  now.foldl (fun d k => d.admitOne k) d1

/-! ## Evacuation (R223, R224) -/

/-- The evacuation shares of R224: 0 VOQ write, 1 VOQ read, 2 egress-queue write, 3 egress-queue read. -/
def evacShare (q : Nat) (read : Bool) : Nat := (if qKind q = 2 then 0 else 2) + b2n read

/-- A bucket at 1.924 TB/s, 1,924 bytes in each TSCLK cycle of 1 ns, holding at most 1 MiB (R224). -/
def Dev.evacTokens (d : Dev) (s : Nat) : Nat :=
  let b := Tbl.get {} d.qm.evacTok s
  min (2 ^ 20) (b.tokens + 1924 * (d.time.tsc - b.last))

/-- Take tokens from a share. -/
def Dev.takeTokens (d : Dev) (s n : Nat) : Dev :=
  { d with qm := { d.qm with evacTok := Tbl.set {} d.qm.evacTok s { tokens := d.evacTokens s - n, last := d.time.tsc } } }

/-- Bytes a DRAM transfer of a packet charges (R224). -/
def evacCharge (len : Nat) : Nat := 64 * ceilDiv len 64

/-- Change one packet of a queue. -/
def Dev.modInQueue (d : Dev) (q seq : Nat) (f : Pkt → Pkt) : Dev :=
  let x := d.queue q
  d.setQueue q { x with pkts := x.pkts.map fun k => if k.seq = seq then f k else k }

/-- Is a packet still on its queue? -/
def Dev.inQueue (d : Dev) (q seq : Nat) : Bool := (d.queue q).pkts.any fun k => k.seq = seq

/-- An evacuation is refused: the packet stays on-die in its place (R224). -/
def Dev.evacRefused (d : Dev) (q seq : Nat) : Dev :=
  let d1 := d.modInQueue q seq fun k => { k with evacAsk := false }
  ((d1.setQueue q (d1.queue q).settle).inc bankTmq 6).latchBit Reg.TMQ_STATUS 10

/-- The lines of a packet in a DRAM buffer count in READS or WRITES of its stack, where that is not lost (R192, R370). -/
def Dev.countLines (d : Dev) (h : Option Nat) (i len : Nat) : Dev :=
  match h with
  | some h => if d.stackLost (hIdx h % 8) then d else d.bump (bankMc (hIdx h % 8)) i (ceilDiv len 64)
  | none => d

/-- The evacuation write of a granted packet is complete (R223): its on-die buffer is freed. -/
def Dev.evacWritten (d : Dev) (q : Nat) (k : Pkt) : Dev :=
  let d1 := d.modInQueue q k.seq fun x => { x with dram := x.evacTo, evacTo := none, handle := none }
  ((d1.freeOpt 13 k.handle).countLines k.evacTo 2 k.len).inc bankTmq 5

/-! ## Replication (R233 to R235) -/

/-- Walk a copy list: the valid copies in order, and whether the walk was cut at 4,095 copies. `fuel` bounds the
entries walked, `n` the copies still allowed; a walk that outruns `copyFuel` goes round entries that make no copy, and never
ends (log entry 50, DEDUCED). -/
def walkCopies (t : List (Nat × BitVec 64)) (fabric : Bool) : (fuel n e : Nat) → Option (List (BitVec 64) × Bool)
  | 0, _, _ => none
  | fuel + 1, n, e =>
    let x := Tbl.get 0#64 t e
    let kind := fld x 62 61
    let makes : Bool := bit x 63 && kind ≠ 3 && !(fabric && kind = 2)
    if makes then
      match n with
      | 0 => some ([], true)
      | m + 1 =>
        if bit x 60 then some ([x], false)
        else (walkCopies t fabric fuel m (fld x 59 42)).map fun r => (x :: r.1, r.2)
    else if bit x 60 then some ([], false)
    else walkCopies t fabric fuel n (fld x 59 42)

/-- Entries that a walk which ends can pass: the 2^18 entries before each of 4,095 copies, and after the last. -/
def copyFuel : Nat := 4096 * 2 ^ 18

/-- The packet that a copy entry makes of a packet (R234). -/
def Dev.makeCopy (d : Dev) (k : Pkt) (x : BitVec 64) : Pkt :=
  let tgt := fld x 41 24
  let q := match fld x 62 61 with
    | 0 => qKey 0 (8 * (tgt % 128) + k.recTc)
    | 1 => qKey 1 tgt
    | _ => qKey 2 ((tgt / 128 % 32 * 128 + tgt % 128) * 8 + k.recTc)
  { k with copy := true, remoteCopy := fld x 62 61 = 2, queue := q, outPort := d.queuePort q, headOnly := false,
           editProg := if bit x 23 then k.editProg else some (fld x 19 12),
           editData := if bit x 23 then k.editData else some (fld x 11 0) }

/-- A packet of the replication queue is dropped for its group (R233). -/
def Dev.badGroup (d : Dev) (k : Pkt) : Dev := ((d.inc bankRepl 2).latchBit Reg.REPL_STATUS 9).dropPkt k

/-- The copies of a walk are made (R233): SET_REFS before any copy is admitted. -/
def Dev.copiesMade (d : Dev) (k : Pkt) (w : List (BitVec 64) × Bool) : Dev :=
  let d1 := if w.2 then d.inc bankRepl 4 else d
  if w.1 = [] then (d1.inc bankRepl 3).dropPkt k
  else
    let n := w.1.length
    let d2 := match k.handle with
      | some h => d1.bufSetRefs 13 h n
      | none => d1
    let d3 := ((d2.shareHold k.uid (n - 1)).inc bankRepl 0).bump bankRepl 1 n
    { d3 with qm := { d3.qm with arrived := d3.qm.arrived ++ w.1.map (d3.makeCopy k) } }

/-- The replication engine takes the next packet (R233). A walk that never ends keeps the engine at it. -/
def Dev.replicate (d : Dev) : Dev :=
  match d.qm.repl with
  | [] => d
  | k :: rest =>
    if k.headOnly then d
    else
    let d0 := { d with qm := { d.qm with repl := rest } }
    let g := k.dest % 2 ^ 18
    let ge := Tbl.get 0#64 d.qm.groups g
    if 65536 ≤ g ∨ !bit ge 31 then d0.badGroup k
    else match walkCopies d.qm.copies (k.origin = .fabric) copyFuel 4095 (fld ge 17 0) with
      | some w => d0.copiesMade k w
      | none => d

/-! ## The egress hierarchy (R229) -/

/-- Node numbers: shaper numbers of Table 9.5, then class queues and port groups. -/
def nGroup (g : Nat) : Nat := 0x40000 + g
def nClass (p tc : Nat) : Nat := 0x44000 + 8 * p + tc
def nPort (p : Nat) : Nat := 0x44400 + p
def nCq (p tc : Nat) : Nat := 0x50000 + 8 * p + tc
def nPg (g : Nat) : Nat := 0x60000 + g

/-- The deficit loop of R229 over eligible children (number, quantum, length of the next packet). -/
def dwrrLoop (cs : List (Nat × Nat × Nat)) : (fuel i : Nat) → List (Nat × Nat) → Option (Nat × List (Nat × Nat))
  | 0, _, _ => none
  | fuel + 1, i, df =>
    match cs[i % cs.length]? with
    | none => none
    | some (c, q, l) =>
      let x := Tbl.get 0 df c
      if l ≤ x then some (c, Tbl.set 0 df c (x - l)) else dwrrLoop cs fuel (i + 1) (Tbl.set 0 df c (x + q))

/-- choose(parent) of R229: the rotation starts at the parent's pointer, which stays on the child chosen. -/
def Dev.dwrr (d : Dev) (parent : Nat) (cs : List (Nat × Nat × Nat)) : Option (Nat × Dev) :=
  let ptr := Tbl.get 0 d.qm.ptr parent
  let start := (cs.findIdx? fun c => ptr ≤ c.1).getD 0
  match dwrrLoop cs (42 * cs.length) start d.qm.deficit with
  | none => none
  | some (c, df) => some (c, { d with qm := { d.qm with deficit := df, ptr := Tbl.set 0 d.qm.ptr parent c } })

/-- quantum(c) of R229. -/
def quantum (w : Nat) : Nat := 256 * max 1 w

/-- A packet may be nominated: it is stored in full or cut through, and no evacuation write is under way. -/
def Pkt.nominable (k : Pkt) : Bool := (!k.headOnly || k.cutThrough) && k.evacTo.isNone

/-- The packet at the head of a queue, when it may be nominated. -/
def Dev.headOf (d : Dev) (q : Nat) : Option Pkt :=
  match (d.queue q).pkts with
  | [] => none
  | k :: _ => if k.nominable then some k else none

/-- The first packet the choice of a node leads to, with its queue and the device after the choice. -/
structure Pick where
  q : Nat
  pkt : Pkt
  dev : Dev

/-- What a table became in `new` where it differs from `old`, put into `into`: the choices of two levels change
different nodes. -/
def tblMerge (old new into : List (Nat × Nat)) : List (Nat × Nat) :=
  (new ++ old).foldl (fun t p =>
    if Tbl.get 0 new p.1 = Tbl.get 0 old p.1 then t else Tbl.set 0 t p.1 (Tbl.get 0 new p.1)) into

/-- Choose among children by DWRR: each child is (number, quantum, its own pick). -/
def Dev.pickBy (d : Dev) (parent : Nat) (cs : List (Nat × Nat × Pick)) : Option Pick :=
  match d.dwrr parent (cs.map fun c => (c.1, c.2.1, c.2.2.pkt.len)) with
  | none => none
  | some (c, d1) =>
    match cs.find? fun x => x.1 = c with
    | none => none
    | some x =>
      let e := x.2.2.dev
      some { x.2.2 with dev := { d1 with qm := { d1.qm with
        ptr := tblMerge d.qm.ptr e.qm.ptr d1.qm.ptr, deficit := tblMerge d.qm.deficit e.qm.deficit d1.qm.deficit } } }

/-- Queues with packets, of a kind, by index. -/
def Dev.busyQueues (d : Dev) (kind : Nat) : List Nat :=
  (d.qm.queues.filter fun x => qKind x.1 = kind && !(x.2.pkts == [])).map fun x => qIdx x.1

/-- The choice under a group: its endpoint queues that hold packets (R229, R240). -/
def Dev.pickGroup (d : Dev) (g : Nat) : Option Pick :=
  if !d.shpEligible (nGroup g) then none
  else d.pickBy (nGroup g) ((d.busyQueues 1).filterMap fun n =>
    if d.eqGroup n = g ∧ d.shpEligible n then
      (d.headOf (qKey 1 n)).map fun k => (n, quantum (fld (d.eqEntry n) 47 40), { q := qKey 1 n, pkt := k, dev := d })
    else none)

/-- Groups of a class node that hold packets, ascending. -/
def Dev.busyGroups (d : Dev) (p tc : Nat) : List Nat :=
  ((((d.busyQueues 1).map d.eqGroup).filter fun g => d.groupPort g = p && d.groupTc g = tc).eraseDups).mergeSort

/-- The choice under a class: the class queue and the groups (R229); a paused class is not eligible. -/
def Dev.pickClass (d : Dev) (p tc : Nat) : Option Pick :=
  if (d.port p).paused.getD tc false ∨ !d.shpEligible (nClass p tc) then none
  else
    let ne := d.nodeEntry (8 * p + tc)
    let grp := (d.busyGroups p tc).filterMap fun g =>
      (d.pickGroup g).map fun x => (nGroup g, quantum (fld (d.egEntry g) 20 13), x)
    let cq := ((d.headOf (qKey 0 (8 * p + tc))).map fun k =>
      (nCq p tc, quantum (fld ne 54 47), { q := qKey 0 (8 * p + tc), pkt := k, dev := d })).toList
    d.pickBy (nClass p tc) (grp ++ cq)

/-- The choice under a port: strict classes first, TC7 first; the others by DWRR (R229). -/
def Dev.pickPort (d : Dev) (p : Nat) : Option Pick :=
  if !d.shpEligible (nPort p) then none
  else
    let strict := ([7, 6, 5, 4, 3, 2, 1, 0].filter fun tc => bit (d.nodeEntry (8 * p + tc)) 63).findSome? fun tc => d.pickClass p tc
    match strict with
    | some x => some x
    | none => d.pickBy (nPort p) (((List.range 8).filter fun tc => !bit (d.nodeEntry (8 * p + tc)) 63).filterMap fun tc =>
        (d.pickClass p tc).map fun x => (nClass p tc, quantum (fld (d.nodeEntry (8 * p + tc)) 62 55), x))

/-- The weight of a port: the register, or the port rate in units of 5 Gb/s (R229). -/
def Dev.portWeight (d : Dev) (p : Nat) : Nat :=
  let w := fld (d.reg (Reg.SCHD_PORT_CFG p)) 7 0
  if w = 0 then modeGbps (d.port p).mode / 5 else w

/-- The choice of a port group's output among the ports whose transmit FIFO has credit. -/
def Dev.pickOutput (d : Dev) (g : Nat) (credit : Nat → Bool) : Option Pick :=
  d.pickBy (nPg g) ((List.range 16).filterMap fun i =>
    let p := 16 * g + i
    if credit p then (d.pickPort p).map fun x => (nPort p, quantum (d.portWeight p), x) else none)

/-! ## Nomination (R227) -/

/-- Nomination depth and staging memory of an output (Table 8.3). -/
def nomDepth (o : Nat) : Nat := if o = 8 then 1024 else if o = 9 then 128 else 256
def nomBytes (o : Nat) : Nat := (if o = 8 then 16 else if o = 9 then 2 else 4) * 2 ^ 20

/-- Bytes of a packet's Dukider form: the record and the data flits (R19). -/
def dukSize (len : Nat) : Nat := 64 + 32 * ceilDiv len 32

def Dev.noms (d : Dev) (o : Nat) : List Pkt := Tbl.get [] d.qm.noms o
def Dev.setNoms (d : Dev) (o : Nat) (l : List Pkt) : Dev := { d with qm := { d.qm with noms := Tbl.set [] d.qm.noms o l } }

/-- Room for one more nominated packet. -/
def Dev.nomRoom (d : Dev) (o : Nat) (k : Pkt) : Bool :=
  (d.noms o).length < nomDepth o && ((d.noms o).map (·.size)).foldl (· + ·) 0 + dukSize k.len ≤ nomBytes o

/-- The shapers of a packet's queue, group, class node and port (R255). -/
def Dev.shapersOf (d : Dev) (q : Nat) : List Nat :=
  match qKind q, d.queuePort q with
  | 0, some p => [nClass p (d.queueTc q), nPort p]
  | 1, some p => [qIdx q, nGroup (d.eqGroup (qIdx q)), nClass p (d.queueTc q), nPort p]
  | _, _ => []

/-- A node that becomes empty has its deficit set to 0 (R229). -/
def Dev.zeroDeficit (d : Dev) (n : Nat) : Dev := { d with qm := { d.qm with deficit := Tbl.set 0 d.qm.deficit n 0 } }

/-- Set the deficits of the nodes above a queue that have become empty. -/
def Dev.emptyNodes (d : Dev) (q : Nat) : Dev :=
  if !((d.queue q).pkts == []) then d
  else
    match d.queuePort q with
    | none => d
    | some p =>
      let tc := d.queueTc q
      let d1 := d.zeroDeficit (if qKind q = 0 then nCq p tc else qIdx q)
      let g := d.eqGroup (qIdx q)
      let d2 := if qKind q = 1 ∧ !((d.busyQueues 1).any fun n => d.eqGroup n = g) then d1.zeroDeficit (nGroup g) else d1
      let clsBusy (c : Nat) : Bool := !((d.queue (qKey 0 (8 * p + c))).pkts == []) || !((d.busyGroups p c) == [])
      let d3 := if clsBusy tc then d2 else d2.zeroDeficit (nClass p tc)
      if (List.range 8).any clsBusy then d3 else d3.zeroDeficit (nPort p)

/-- Take the packet at the head of a queue. -/
def Dev.popQueue (d : Dev) (q : Nat) : Dev :=
  let x := d.queue q
  (d.setQueue q ({ x with pkts := x.pkts.drop 1 } : Queue).settle).emptyNodes q

/-- A packet with its DRAM buffer on a lost stack (R225). -/
def Pkt.onLost (d : Dev) (k : Pkt) : Bool :=
  match k.dram with
  | some h => d.onLostStack h
  | none => false

/-- An output nominates the head packet of a queue (R225, R227, R255). -/
def Dev.nominate (d : Dev) (o q : Nat) (k : Pkt) : Dev :=
  let d1 := d.popQueue q
  if k.onLost d then ((d1.inc bankTmq 8).latchBit Reg.TMQ_STATUS 11).dropPkt k
  else
    let sh := d.shapersOf q
    let d2 := sh.foldl (fun d i => d.shpCharge k.len i) d1
    d2.setNoms o (d2.noms o ++ [{ k with shapers := sh, chargedLen := k.len, size := dukSize k.len, left := dukSize k.len,
                                         reading := k.dram.isSome, evacAsk := false }])

/-- Return queues of output g: RQg and the IQ of the holder of PGg, the earlier arrival first (R227). -/
def Dev.returnHead (d : Dev) (g : Nat) : Option (Nat × Pkt) :=
  let rq := qKey 4 g
  let iq := (d.holder g).map fun n => qKey 4 (8 + n)
  let a := (d.headOf rq).map fun k => (rq, k)
  let b := iq.bind fun q => (d.headOf q).map fun k => (q, k)
  match a, b with
  | some x, some y => if x.2.seq ≤ y.2.seq then some x else some y
  | some x, none => some x
  | none, y => y

/-- Output g of a port group nominates (R227). -/
def Dev.nominatePg (d : Dev) (g : Nat) (credit : Nat → Bool) : Dev :=
  match d.returnHead g with
  | some x => if d.nomRoom g x.2 then d.nominate g x.1 x.2 else d
  | none =>
    match d.pickOutput g credit with
    | some x => if d.nomRoom g x.pkt then x.dev.nominate g x.q x.pkt else d
    | none => d

/-- Streams (d, tc) of output 8 with fewer than 4 nominated packets (R308). -/
def Dev.streamNoms (d : Dev) (s : Nat) : Nat :=
  ((d.noms 8).filter fun k => qIdx k.queue / 1024 * 8 + k.queue % 8 = s).length

/-- Output 8 nominates (R308): streams go round from the pointer, and within a stream the ports do. -/
def Dev.nominateTrellis (d : Dev) : Dev :=
  let order := (List.range 256).map fun i => (d.qm.voqPtr + i) % 256
  let pick := order.findSome? fun s =>
    if 4 ≤ d.streamNoms s then none
    else
      let pp := Tbl.get 0 d.qm.ptr (0x70000 + s)
      ((List.range 128).map fun i => (pp + i) % 128).findSome? fun p =>
        let q := qKey 2 ((s / 8 * 128 + p) * 8 + s % 8)
        (d.headOf q).map fun k => (s, p, q, k)
  match pick with
  | none => d
  | some (s, p, q, k) =>
    if d.nomRoom 8 k then
      let d1 := { d with qm := { d.qm with voqPtr := (s + 1) % 256, ptr := Tbl.set 0 d.qm.ptr (0x70000 + s) ((p + 1) % 128) } }
      d1.nominate 8 q k
    else d

/-! ## The matcher (R228) -/

/-- Bytes of a nominated packet that may cross now: none while a DRAM read is out, the first cell of a packet whose
tail has not arrived (R225, R231). -/
def Pkt.avail (k : Pkt) : Nat :=
  if k.reading then 0 else if k.headOnly then min k.size 256 - (k.size - k.left) else k.left

/-- Bytes pending from input i in a list of nominated packets: in nomination order, up to the first packet that is
not wholly there (R227). -/
def pendBytes (i : Nat) : List Pkt → Nat
  | [] => 0
  | k :: ks =>
    if k.input ≠ i ∨ k.left = 0 then pendBytes i ks
    else if k.avail < k.left then k.avail else k.left + pendBytes i ks

/-- Move `n` bytes of input i, in nomination order: none of a packet behind one that has not wholly crossed (R227). -/
def moveBytes (i : Nat) : List Pkt → Nat → List Pkt
  | [], _ => []
  | k :: ks, n =>
    if k.input ≠ i ∨ k.left = 0 then k :: moveBytes i ks n
    else
      let m := min n k.avail
      { k with left := k.left - m } :: (if m < k.left then ks else moveBytes i ks (n - m))

/-- Capacities of Table 8.3. -/
def xbarCap (o : Nat) : Nat := if o = 8 then 20 else if o = 9 then 2 else 3

/-- One round of a walk that hands out cells one at a time. -/
def grantWalk (start : Nat) (req : Nat → Nat) : (fuel i : Nat) → (free : Nat) → List (Nat × Nat) → List (Nat × Nat)
  | 0, _, _, acc => acc
  | fuel + 1, i, free, acc =>
    if free = 0 then acc
    else
      let inp := (start + i) % 10
      let have' := Tbl.get 0 acc inp
      if have' < req inp then grantWalk start req fuel (i + 1) (free - 1) (Tbl.set 0 acc inp (have' + 1))
      else grantWalk start req fuel (i + 1) free acc

/-- The accepting walk of an input: all granted cells of each output until the capacity is reached. -/
def acceptWalk (start : Nat) (gr : Nat → Nat) : List Nat → (free : Nat) → List (Nat × Nat)
  | [], _ => []
  | i :: is, free =>
    let o := (start + i) % 10
    let n := min free (gr o)
    (o, n) :: acceptWalk start gr is (free - n)

/-- State of one matching: free capacities, cells left per pair (10 × i + j), accepted cells per pair. -/
structure Match where
  fo : List Nat
  fi : List Nat
  cells : List Nat
  acc : List Nat
deriving DecidableEq, Repr

/-- One iteration of R228, with the pointers g and a; answers the match and the accepted cells of this iteration. -/
def matchIter (g a : Nat → Nat) (m : Match) : Match × List Nat :=
  let fi (i : Nat) := m.fi.getD i 0
  let fo (j : Nat) := m.fo.getD j 0
  let req (i j : Nat) := if fi i = 0 then 0 else min (m.cells.getD (10 * i + j) 0) (min (fi i) (fo j))
  let grants := (List.range 10).map fun j => grantWalk (g j) (fun i => req i j) 220 0 (fo j) []
  let accepts := (List.range 10).map fun i =>
    acceptWalk (a i) (fun j => Tbl.get 0 (grants.getD j []) i) (List.range 10) (fi i)
  let got := (List.range 100).map fun x => (((accepts.getD (x / 10) []).find? fun p => p.1 = x % 10).map (·.2)).getD 0
  ({ fo := (List.range 10).map fun j => fo j - ((List.range 10).map fun i => got.getD (10 * i + j) 0).foldl (· + ·) 0
     fi := (List.range 10).map fun i => fi i - ((List.range 10).map fun j => got.getD (10 * i + j) 0).foldl (· + ·) 0
     cells := (List.range 100).map fun x => m.cells.getD x 0 - got.getD x 0
     acc := (List.range 100).map fun x => m.acc.getD x 0 + got.getD x 0 }, got)

/-- The pointer after iteration 1: one past the last of a walk from `start` that satisfies `f`, else unmoved. -/
def ptrAfter (start : Nat) (f : Nat → Bool) : Nat :=
  match ((List.range 10).map fun i => (start + i) % 10).reverse.find? f with
  | some x => (x + 1) % 10
  | none => start

/-- One cell time of the crossbar (R228): the cells that move, the counts of SCHD 0–19, the slot ledger, and the
pointers. The classes of the slot ledger follow R518. -/
def Dev.matchCells (d : Dev) : Match × List Nat × List Nat :=
  let cells := (List.range 100).map fun x => ceilDiv (pendBytes (x / 10) (d.noms (x % 10))) 256
  let m0 : Match := { fo := (List.range 10).map xbarCap, fi := (List.range 10).map xbarCap, cells := cells,
                      acc := List.replicate 100 0 }
  let g (j : Nat) := Tbl.get 0 d.qm.grant j
  let a (i : Nat) := Tbl.get 0 d.qm.accept i
  let r1 := matchIter g a m0
  let g1 := (List.range 10).map fun j => ptrAfter (g j) fun i => r1.2.getD (10 * i + j) 0 ≠ 0
  let a1 := (List.range 10).map fun i => ptrAfter (a i) fun j => r1.2.getD (10 * i + j) 0 ≠ 0
  let r2 := matchIter (fun j => g1.getD j 0) (fun i => a1.getD i 0) r1.1
  (r2.1, g1, a1)

end Sys2Proof.Machine
end

