-- ==== Sys2Proof/Machine/PciConfig.lean ====
section
/-! DEFINITION. The configuration space of the PCIe function: header, BARs and capabilities (R371 to R374, Tables 14.1 and 14.2),
and what its fields decide for the requests that the device makes. Where the capabilities lie, and the fields that the spec
does not name, follow the PCIe Base Specification (log entry 125, PRESUMED). -/
namespace Sys2Proof.Machine

/-! ## Offsets of the dwords that the device acts on -/

def pciCommand : Nat := 0x04
def pciBar0 : Nat := 0x10
def pciBar2 : Nat := 0x18
def pciBar4 : Nat := 0x20
def pciPmcsr : Nat := 0x44
def pciDevCtl : Nat := 0x58
def pciLinkCtl : Nat := 0x60
def pciMsix : Nat := 0x90
def pciSerial : Nat := 0x154
def pciL1Ctl : Nat := 0x168

/-- Values of configuration space at reset, with its fixed fields, by dword. -/
def pciReset (off : Nat) : Word :=
  match off with
  | 0x00 => 0x91281D9F#32
  | 0x04 => 0x00100000#32
  | 0x08 => 0x028000B0#32
  | 0x10 => 0x00000004#32
  | 0x18 => 0x00000004#32
  | 0x20 => 0x00000004#32
  | 0x2C => Config.subsystemId
  | 0x34 => 0x00000040#32
  | 0x40 => 0x40035001#32
  | 0x44 => 0x00000008#32
  | 0x50 => 0x00029010#32
  | 0x54 => 0x10008022#32
  | 0x58 => 0x00002810#32
  | 0x5C => 0x00400905#32
  | 0x74 => 0x0003081F#32
  | 0x7C => 0x0000003E#32
  | 0x80 => 0x00000005#32
  | 0x90 => 0x07FF0011#32
  | 0x94 => 0x00000004#32
  | 0x98 => 0x00008004#32
  | 0x100 => 0x15020001#32
  | 0x10C => 0x00462030#32
  | 0x114 => 0x00002000#32
  | 0x118 => 0x000000A0#32
  | 0x150 => 0x16010003#32
  | 0x154 => Config.factorySerial 0
  | 0x158 => Config.factorySerial 1
  | 0x160 => 0x0001001E#32
  | 0x164 => 0x00000015#32
  | _ => 0#32

/-- Bits that a configuration write sets, of the fields kept in `HostIf.pci`: those of the BARs give the sizes of Table 14.2. -/
def pciRw (off : Nat) : Word :=
  match off with
  | 0x04 => 0x00000542#32
  | 0x0C => 0x000000FF#32
  | 0x10 => 0xFC000000#32
  | 0x14 => 0xFFFFFFFF#32
  | 0x18 => 0xFFFE0000#32
  | 0x1C => 0xFFFFFFFF#32
  | 0x20 => 0xFFFF0000#32
  | 0x24 => 0xFFFFFFFF#32
  | 0x3C => 0x000000FF#32
  | 0x58 => 0x00007FFF#32
  | 0x60 => 0x000003FB#32
  | 0x78 => 0x0000141F#32
  | 0x80 => 0x0000000F#32
  | 0x108 => 0x0FF7F030#32
  | 0x10C => 0x0FF7F030#32
  | 0x114 => 0x0000F1C1#32
  | 0x118 => 0x00000140#32
  | 0x168 => 0x00000005#32
  | 0x16C => 0x000000FB#32
  | _ => 0#32

/-- A dword of configuration space as the table of written fields gives it. -/
def HostIf.pciWord (h : HostIf) (off : Nat) : Word := Tbl.get 0#32 h.pci off ^^^ pciReset off

/-- Write fields of a dword. -/
def HostIf.pciSet (h : HostIf) (off : Nat) (v : Word) : HostIf :=
  { h with pci := Tbl.set 0#32 h.pci off (((h.pciWord off &&& ~~~(pciRw off)) ||| (v &&& pciRw off)) ^^^ pciReset off) }

/-- A configuration read: the written fields, with those that other state holds (R372, R395). -/
def HostIf.cfgRead (h : HostIf) (off : Nat) : Word :=
  let w := h.pciWord off
  match off with
  | 0x04 => w ||| wd (b2n h.bme * 4)
  | 0x44 => w ||| wd ((if h.d3 then 3 else 0) + b2n h.pmeEn * 2 ^ 8 + b2n h.pmeStatus * 2 ^ 15)
  | 0x60 => w ||| wd (h.speed * 2 ^ 16 + h.width * 2 ^ 20)
  | 0x90 => w ||| wd (b2n h.fnMask * 2 ^ 30 + b2n h.msix * 2 ^ 31)
  | _ => w

/-- The bytes of a dword that a write enables. -/
def enabledBytes (be : BitVec 4) : Word :=
  wd (((List.range 4).map fun i => if be.getLsbD i then 255 * 256 ^ i else 0).foldl (· + ·) 0)

/-- What a dword would hold after a write of some of its bytes. -/
def HostIf.cfgMerge (h : HostIf) (w : CfgWrite) : Word :=
  let m := enabledBytes w.enables
  (h.cfgRead (4 * w.dword.val) &&& ~~~m) ||| (w.value &&& m)

/-- Fields that a Function Level Reset leaves: Max_Payload_Size, Link Control and the controls of L1 PM Substates. -/
def HostIf.afterFlr (h : HostIf) : List (Nat × Word) :=
  let keep : HostIf := ({} : HostIf).pciSet pciDevCtl ((pciReset pciDevCtl &&& 0xFFFFFF1F#32) ||| (h.pciWord pciDevCtl &&& 0x000000E0#32))
  ((keep.pciSet pciLinkCtl (h.pciWord pciLinkCtl)).pciSet pciL1Ctl (h.pciWord pciL1Ctl)).pci

/-! ## What the fields decide (R374) -/

/-- Max_Payload_Size in bytes: of the sizes supported, at most 512 (Table 14.1). -/
def Dev.maxPayload (d : Dev) : Nat := 128 * 2 ^ min 2 (fld (d.host.pciWord pciDevCtl) 7 5)

/-- Max_Read_Request_Size in bytes, at most 4,096. -/
def Dev.maxRead (d : Dev) : Nat := 128 * 2 ^ min 5 (fld (d.host.pciWord pciDevCtl) 14 12)

/-- Relaxed Ordering on writes of punted data: HOST_CTRL.ro_en and the function's enable (R374). -/
def Dev.relaxes (d : Dev) : Bool := bit (d.reg Reg.HOST_CTRL) 15 && bit (d.host.pciWord pciDevCtl) 4

/-- The requests that `n` bytes at an address take: none is longer than the limit or crosses a 4 KiB boundary. -/
def splitReq (limit : Nat) : (fuel addr n : Nat) → List (Nat × Nat)
  | 0, _, _ => []
  | f + 1, addr, n =>
    if n = 0 then []
    else
      let k := min n (min limit (4096 - addr % 4096))
      (addr, k) :: splitReq limit f (addr + k) (n - k)

/-- The state that the link rests in: L1.2 where its substates allow it, in D3hot by PCI-PM and in D0 by ASPM; none while ASPM is off in
D0 (R371). -/
def HostIf.restState (h : HostIf) : Option Nat :=
  let c := h.pciWord pciL1Ctl
  if h.d3 then some (if bit c 0 then 2 else 1)
  else if bit (h.pciWord pciLinkCtl) 1 then some (if bit c 2 then 2 else 1)
  else none

/-- A link in L0 with nothing to carry goes to its rest state (R371; log entry 125, DESIGN CHOICE). -/
def Dev.linkRests (d : Dev) : Dev :=
  if d.host.linkUp ∧ d.host.link = 0 then
    match d.host.restState with
    | some l => { d with host := { d.host with link := l } }
    | none => d
  else d

end Sys2Proof.Machine
end

