-- ==== Sys2Proof/Machine/HostCore.lean ====
section
/-! DEFINITION. The host ring engine: entries in flight and their places, completions, interrupts, and the states of
submission and completion rings (R374 to R385, R390 to R400). -/
namespace Sys2Proof.Machine

def Dev.sq (d : Dev) (q : Nat) : Sq := Tbl.get {} d.host.sqs q
def Dev.setSq (d : Dev) (q : Nat) (x : Sq) : Dev := { d with host := { d.host with sqs := Tbl.set {} d.host.sqs q x } }
def Dev.modSq (d : Dev) (q : Nat) (f : Sq → Sq) : Dev := d.setSq q (f (d.sq q))
def Dev.cq (d : Dev) (c : Nat) : Cq := Tbl.get {} d.host.cqs c
def Dev.setCq (d : Dev) (c : Nat) (x : Cq) : Dev := { d with host := { d.host with cqs := Tbl.set {} d.host.cqs c x } }
def Dev.modCq (d : Dev) (c : Nat) (f : Cq → Cq) : Dev := d.setCq c (f (d.cq c))
def Dev.vec (d : Dev) (v : Nat) : Vec := Tbl.get {} d.host.vecs v
def Dev.setVec (d : Dev) (v : Nat) (x : Vec) : Dev := { d with host := { d.host with vecs := Tbl.set {} d.host.vecs v x } }

/-! ## Ring registers (Table 14.12) -/

def Dev.sqBase (d : Dev) (q : Nat) : Nat := (d.reg (Reg.HOST_SQ_BASE_LO q)).toNat + 2 ^ 32 * (d.reg (Reg.HOST_SQ_BASE_HI q)).toNat
def Dev.sqSize (d : Dev) (q : Nat) : Nat := fld (d.reg (Reg.HOST_SQ_SIZE q)) 20 0
def Dev.sqKind (d : Dev) (q : Nat) : Nat := fld (d.reg (Reg.HOST_SQ_CTRL q)) 29 28
def Dev.sqCq (d : Dev) (q : Nat) : Nat := fld (d.reg (Reg.HOST_SQ_CTRL q)) 27 16
def Dev.sqWb (d : Dev) (q : Nat) : Nat := (d.reg (Reg.HOST_SQ_WB_LO q)).toNat + 2 ^ 32 * (d.reg (Reg.HOST_SQ_WB_HI q)).toNat
def Dev.cqBase (d : Dev) (c : Nat) : Nat := (d.reg (Reg.HOST_CQ_BASE_LO c)).toNat + 2 ^ 32 * (d.reg (Reg.HOST_CQ_BASE_HI c)).toNat
def Dev.cqSize (d : Dev) (c : Nat) : Nat := fld (d.reg (Reg.HOST_CQ_SIZE c)) 16 0
def Dev.cqCompat (d : Dev) (c : Nat) : Bool := bit (d.reg (Reg.HOST_CQ_CTRL c)) 30
def Dev.cqOvf (d : Dev) (c : Nat) : Nat := fld (d.reg (Reg.HOST_CQ_CTRL c)) 28 16
def Dev.cqVec (d : Dev) (c : Nat) : Nat := fld (d.reg (Reg.HOST_CQ_CTRL c)) 10 0

/-- The engine may issue memory requests (R374). -/
def Dev.busMaster (d : Dev) : Bool := d.host.linkUp && d.host.bme && !d.host.d3

/-- A write or a message is due: the device starts an exit from L1 or L1.2 (R393). -/
def Dev.wakeLink (d : Dev) : Dev :=
  if d.host.link = 1 ∨ d.host.link = 2 then ({ d with host := { d.host with link := 0 } }).inc bankHost 16 else d

/-- The write requests that bytes take, of at most Max_Payload_Size (R374). -/
def Dev.dmaEmit (d : Dev) (addr : Nat) (bs : Bytes) (relaxed : Bool) : Dev :=
  (splitReq d.maxPayload bs.length addr bs.length).foldl (fun d r =>
    d.emit (.dmaWrite r.1 (Machine.slice bs (r.1 - addr) r.2) relaxed)) d.wakeLink

/-- Write host memory: the requests wait while the function may issue none (R374, R395). -/
def Dev.dmaWrites (d : Dev) (addr : Nat) (bs : Bytes) (relaxed : Bool) : Dev :=
  if d.busMaster then d.dmaEmit addr bs relaxed
  else { d with host := { d.host with dmaHeld := d.host.dmaHeld ++ [(addr, bs, relaxed)] } }

/-- The writes that waited are issued, once the function may. -/
def Dev.dmaFlush (d : Dev) : Dev :=
  if d.busMaster then
    d.host.dmaHeld.foldl (fun d x => d.dmaEmit x.1 x.2.1 x.2.2) { d with host := { d.host with dmaHeld := [] } }
  else d

/-- A write that keeps its order, and one of punted data (R374). -/
def Dev.dmaOut (d : Dev) (addr : Nat) (bs : Bytes) : Dev := d.dmaWrites addr bs false
def Dev.dmaPunt (d : Dev) (addr : Nat) (bs : Bytes) : Dev := d.dmaWrites addr bs d.relaxes

/-- Read host memory in requests of at most Max_Read_Request_Size (R374). -/
def Dev.dmaAsk (d : Dev) (addr n : Nat) : Dev :=
  (splitReq d.maxRead n addr n).foldl (fun d r => d.emit (.dmaRead r.1 r.2)) d.wakeLink

/-! ## Places (R392) -/

def Dev.inflightAll (d : Dev) : Nat := (d.host.sqs.map fun p => p.2.ents.length).foldl (· + ·) 0
def Dev.heldAll (d : Dev) : Nat := (d.host.cqs.map fun p => p.2.held.length).foldl (· + ·) 0
def Dev.placesUsed (d : Dev) : Nat := d.inflightAll + d.heldAll

/-- Entries written to a CQ and not yet consumed. -/
def Dev.unconsumed (d : Dev) (c : Nat) : Nat :=
  let n := d.cqSize c
  ((d.cq c).tail + n - (d.cq c).head) % n

/-- K of R392. -/
def Dev.cqK (d : Dev) (c : Nat) : Nat :=
  ((d.host.sqs.filter fun p => d.sqCq p.1 = c).map fun p => p.2.ents.length).foldl (· + ·) 0 + (d.cq c).held.length + d.unconsumed c

/-- may_fetch of R392: the answer, and the device with the stop it may cause. -/
def Dev.mayFetch (d : Dev) (q : Nat) : Bool × Dev :=
  let c := d.sqCq q
  if 64 ≤ (d.sq q).ents.length ∨ 4096 ≤ d.placesUsed ∨ (d.cq c).stopped then (false, d)
  else if !d.cqCompat c ∧ d.cqSize c - 1 + d.cqOvf c ≤ d.cqK c then
    (false, (d.modCq c fun x => { x with stopped := true }).inc bankHost 4)
  else (true, d)

/-! ## Interrupts (R393, R395) -/

/-- Send a vector's message, or leave it pending while it is masked, MSI-X is off or the function sleeps. -/
def Dev.sendVec (d : Dev) (v : Nat) : Dev :=
  let x := d.vec v
  if d.host.d3 then
    let d1 := d.setVec v { x with unsig := 0, pba := true }
    if d1.host.pmeEn ∧ !d1.host.pmeStatus then
      ((({ d1 with host := { d1.host with pmeStatus := true } }).wakeLink).emit .pme).inc bankHost 15
    else d1
  else if x.masked ∨ d.host.fnMask ∨ !d.host.msix ∨ !d.busMaster then d.setVec v { x with unsig := 0, pba := true }
  else (((d.setVec v { x with unsig := 0, pba := false }).wakeLink).emit (.msix v x.addr x.data)).inc bankHost 14

/-- One completion counts toward a vector (R393): it matures at HOST_VEC_MOD.count, or at once when both triggers are
off. -/
def Dev.countVec (d : Dev) (v : Nat) : Dev :=
  let m := d.reg (Reg.HOST_VEC_MOD v)
  let n := (d.vec v).unsig + 1
  let d1 := d.setVec v { d.vec v with unsig := n }
  if (fld m 31 16 ≠ 0 ∧ fld m 31 16 ≤ n) ∨ (fld m 31 16 = 0 ∧ fld m 9 0 = 0) then d1.sendVec v else d1

/-- The timer of a vector runs out (R393). -/
def Dev.vecTimer (d : Dev) (v : Nat) : Dev :=
  if fld (d.reg (Reg.HOST_VEC_MOD v)) 9 0 ≠ 0 ∧ (d.vec v).unsig ≠ 0 then d.sendVec v else d

/-- Deliver every pending vector that may be sent. -/
def Dev.deliverVecs (d : Dev) : Dev :=
  (d.host.vecs.map (·.1)).foldl (fun d v => if (d.vec v).pba ∧ !(d.vec v).masked then d.sendVec v else d) d

/-! ## Completions (R390 to R392) -/

/-- An entry of a ring in flight by its place in the list. -/
def SqEnt.startOf (e : SqEnt) (size : Nat) : Nat := if e.head = 0 then size - e.units else e.head - e.units

/-- The counter of a completion status (Table 14.13). -/
def cplCounter (status : Nat) : Option Nat :=
  match status with
  | 1 => some 9
  | 2 => some 11
  | 3 => some 11
  | 4 => some 11
  | 5 => some 10
  | 6 => some 6
  | _ => none

/-- The work of an entry ends: its status, length and result are fixed with the device time (R390, R391). -/
def Dev.endEnt (d : Dev) (q : Nat) (e : SqEnt) (status length result : Nat) (more : Bool) : Dev :=
  let u := d.newUid
  let e1 := { e with st := .ended, status := status, length := length, result := result, more := more, endNo := u.1,
                     ns := d.time.now.ns, sec := d.time.now.sec }
  let d1 := u.2.modSq q fun x => { x with
    ents := x.ents.map fun j => if j.id = e.id then e1 else j
    lastErr := if status = 0 then x.lastErr else status }
  let d2 := match cplCounter status with
    | some i => d1.inc bankHost i
    | none => d1
  if status = 5 then d2.latchBit Reg.HOST_STATUS 8 else d2

/-- The 32 bytes of a completion (Table 14.7). -/
def Cpl.bytes (x : Cpl) (phase ovf : Bool) : Bytes :=
  [BitVec.ofNat 8 (b2n phase * 128 + b2n x.more * 64 + b2n ovf * 32), BitVec.ofNat 8 x.status] ++ le 2 x.sq ++ le 4 x.tag ++
    le 4 x.head ++ le 4 x.length ++ le 8 x.result ++ le 4 x.ns ++ le 4 x.sec

/-- Write a completion at the tail of its ring. -/
def Dev.writeCpl (d : Dev) (c : Nat) (x : Cpl) (ovf : Bool) : Dev :=
  let y := d.cq c
  let d1 := (d.dmaOut (d.cqBase c + 32 * y.tail) (x.bytes y.phase ovf)).inc bankHost 2
  let wraps : Bool := y.tail + 1 = d.cqSize c
  let d2 := d1.setCq c { y with tail := if wraps then 0 else y.tail + 1, phase := if wraps then !y.phase else y.phase }
  let d3 := if ovf then d2.inc bankHost 3 else d2
  if x.counted then d3 else d3.countVec (d.cqVec c)

/-- Room in a ring for one more entry. -/
def Dev.cqRoom (d : Dev) (c : Nat) : Bool := decide (d.unconsumed c < d.cqSize c - 1) && d.busMaster

/-- Write held completions in order while there is room (R392). -/
def Dev.flushHeld (d : Dev) (c : Nat) : (fuel : Nat) → Dev
  | 0 => d
  | n + 1 =>
    match (d.cq c).held with
    | [] => d
    | x :: rest => if d.cqRoom c then ((d.modCq c fun y => { y with held := rest }).writeCpl c x true).flushHeld c n else d

/-- A new head for a CQ, or D0 again: held completions are written and fetching resumes (R392). -/
def Dev.resumeCq (d : Dev) (c : Nat) : Dev :=
  (d.flushHeld c (d.cq c).held.length).modCq c fun x => { x with stopped := false }

/-- The completion of an entry. -/
def SqEnt.cpl (e : SqEnt) (q : Nat) : Cpl :=
  { sq := q, tag := e.tag, head := e.head, status := e.status, length := e.length, result := e.result, more := e.more,
    ns := e.ns, sec := e.sec % 2 ^ 32 }

/-- Take an entry out of a ring's list. -/
def Dev.dropEnt (d : Dev) (q : Nat) (e : SqEnt) : Dev := d.modSq q fun x => { x with ents := x.ents.filter fun j => j.id ≠ e.id }

/-- The end of work of an entry reaches its CQ (R391, R392): the head record, a completion written, or one held. -/
def Dev.complete (d : Dev) (q : Nat) (e : SqEnt) : Dev :=
  let c := d.sqCq q
  let d1 := d.dropEnt q e
  if d.cqCompat c then
    let h := match (d1.sq q).ents with
      | [] => (d1.sq q).head
      | f :: _ => f.startOf (d.sqSize q)
    (d1.dmaOut (d.sqWb q) (le 4 h)).countVec (d.cqVec c)
  else if (d1.cq c).held = [] ∧ d1.cqRoom c then d1.writeCpl c (e.cpl q) false
  else if d.host.d3 then (d1.modCq c fun x => { x with held := x.held ++ [{ e.cpl q with counted := true }] }).countVec (d.cqVec c)
  else d1.modCq c fun x => { x with held := x.held ++ [e.cpl q] }

/-- The ended entry with the least order of ending. -/
def firstEnded : List (Nat × SqEnt) → Option (Nat × SqEnt)
  | [] => none
  | p :: ps => match firstEnded ps with
    | none => if p.2.st = .ended then some p else none
    | some r => if p.2.st = .ended ∧ p.2.endNo < r.2.endNo then some p else some r

/-- The next completion due for the CQ that ring `q` is bound to: native completions in the order in which their work
ended, over all rings of the CQ; in compatibility mode those of the ring (R390, R391). -/
def Dev.nextEnded (d : Dev) (q : Nat) : Option (Nat × SqEnt) :=
  if d.cqCompat (d.sqCq q) then firstEnded ((d.sq q).ents.map fun e => (q, e))
  else firstEnded ((d.host.sqs.filter fun p => d.sqCq p.1 = d.sqCq q).flatMap fun p => p.2.ents.map fun e => (p.1, e))

/-- One completion of the CQ of ring `q`. -/
def Dev.completeNext (d : Dev) (q : Nat) : Dev :=
  match d.nextEnded q with
  | none => d
  | some (r, e) => d.complete r e

/-! ## Ring states (R396 to R400) -/

def Dev.cfgRefused (d : Dev) : Dev := d.latchBit Reg.HOST_STATUS 9

/-- A ring enters FAULT (R399). -/
def Dev.ringFault (d : Dev) (q : Nat) : Dev :=
  let h := (d.sq q).head
  (((d.modSq q fun x => { x with st := .fault, unitOut := false }).latchBit Reg.HOST_STATUS 11).inc bankHost 12).logBit 0x90 0 11 q (le 3 h)

/-- An entry has not been started: its frame read is not issued, or it is not handed to its engine (R398). -/
def SqEnt.unstarted (e : SqEnt) (kind : Nat) : Bool :=
  match e.st with
  | .reading => true
  | .ready => true
  | .posted => kind = 1
  | _ => false

/-- End FLUSHED every entry that satisfies `f`; a SKIP entry just goes. -/
def Dev.flushEnts (d : Dev) (q : Nat) (f : SqEnt → Bool) : Dev :=
  ((d.sq q).ents.filter f).foldl (fun d e => if e.op = 0 then d.dropEnt q e else d.endEnt q e 1 0 0 false) d

/-- The bytes of a punt item that fill the posted buffers of a ring, in order (R387): `more` on all but the last. -/
def Dev.fillBuffers (d : Dev) (q : Nat) (rest : Bytes) : (fuel : Nat) → Bytes × Dev
  | 0 => (rest, d)
  | n + 1 =>
    if rest = [] then (rest, d)
    else match (d.sq q).ents.find? fun e => e.st = .posted with
      | none => (rest, d)
      | some e =>
        let addr := unle (Machine.slice e.bytes 8 8)
        let len := unle (Machine.slice e.bytes 16 4)
        let now := rest.take len
        let d1 := (d.dmaPunt addr now).endEnt q e 0 now.length 0 (decide (len < rest.length))
        d1.fillBuffers q (rest.drop len) n

/-- Items a host queue has dropped (Table 14.6). -/
def Dev.lostItem (d : Dev) (hq : Nat) : Dev := d.hqDrop hq

/-- The last write of the punt item has been issued: its buffer is freed and its holds end (R387, Table 7.3). -/
def Dev.puntDone (d : Dev) (k : Pkt) : Dev := (({ d with host := { d.host with punt := none } }).release k).inc bankHost 7

/-- A punt item that its ring can no longer take is cut off (R398): the last completion of it carries more 0. -/
def Dev.puntCut (d : Dev) (hq q : Nat) (k : Pkt) : Dev :=
  let last := ((d.sq q).ents.filter fun e => e.st = .ended && e.more).map (·.endNo) |>.foldl max 0
  let d1 := d.modSq q fun x => { x with ents := x.ents.map fun e => if e.st = .ended ∧ e.more ∧ e.endNo = last then { e with more := false } else e }
  (({ d1 with host := { d1.host with punt := none } }).release k).lostItem hq

/-- enable of a submission ring is cleared (R398, Table 14.11). -/
def Dev.sqStop (d : Dev) (q : Nat) : Dev :=
  let kind := d.sqKind q
  let d1 := d.modSq q fun x => { x with st := .draining, unitOut := false }
  let d2 := match d1.host.punt with
    | some (hq, r, rest, k) =>
      if r = q then
        let f := d1.fillBuffers q rest 64
        if f.1 = [] then f.2.puntDone k else f.2.puntCut hq q k
      else d1
    | none => d1
  d2.flushEnts q fun e => e.unstarted kind

/-- The configuration of a submission ring allows its enable (R397). -/
def Dev.sqValid (d : Dev) (q : Nat) : Bool :=
  let n := d.sqSize q
  (d.sq q).st = .disabled && d.sqBase q % 4096 = 0 && 64 ≤ n && n ≤ 2 ^ 20 && d.sqKind q ≠ 3 && (d.cq (d.sqCq q)).on

/-- A write of HOST_SQ_CTRL (R396 to R398). -/
def Dev.sqCtrlWrite (d : Dev) (q : Nat) (v : Word) : Dev :=
  let key := Reg.HOST_SQ_CTRL q
  let old := d.reg key
  let idle : Bool := (d.sq q).st = .disabled
  let d1 := d.writeRw key (if idle then 0x3FFF00FF#32 else 0x000000FF#32) v
  let d2 := if !idle ∧ (fld v 29 16 ≠ fld old 29 16) then d1.cfgRefused else d1
  if bit v 31 ∧ !bit old 31 then
    if d2.sqValid q then (d2.setReg key (d2.reg key ||| 0x80000000#32)).setSq q { st := .active, phase := true }
    else d2.cfgRefused
  else if !bit v 31 ∧ bit old 31 then (d2.setReg key (d2.reg key &&& 0x7FFFFFFF#32)).sqStop q
  else d2

/-- A write of a ring's base, size or head record address (R397): ignored unless the ring is DISABLED. -/
def Dev.sqCfgWrite (d : Dev) (q key : Nat) (rw v : Word) : Dev :=
  if (d.sq q).st = .disabled then d.writeRw key rw v else d.cfgRefused

/-- A ring that drains has no entry in flight: it becomes DISABLED (Table 14.11). -/
def Dev.sqDrained (d : Dev) (q : Nat) : Dev :=
  if (d.sq q).st = .draining ∧ (d.sq q).ents = [] then d.modSq q fun x => { x with st := .disabled } else d

/-- A write of HOST_CQ_CTRL (R400). -/
def Dev.cqCtrlWrite (d : Dev) (c : Nat) (v : Word) : Dev :=
  let key := Reg.HOST_CQ_CTRL c
  let on := (d.cq c).on
  let d1 := d.writeRw key 0x5FFF07FF#32 v
  let valid : Bool := d.cqBase c % 4096 = 0 && 16 ≤ d.cqSize c && d.cqSize c ≤ 65536
  let busy : Bool := (d.host.sqs.any fun p => d.sqCq p.1 = c && p.2.st ≠ .disabled) || (d.cq c).held ≠ []
  if bit v 31 ∧ !on then
    if valid then (d1.setReg key (d1.reg key ||| 0x80000000#32)).setCq c { on := true, phase := true } else d1.cfgRefused
  else if !bit v 31 ∧ on then
    if busy then d1.cfgRefused else (d1.setReg key (d1.reg key &&& 0x7FFFFFFF#32)).modCq c fun x => { x with on := false }
  else d1

/-! ## Reset of the engine (R376) -/

/-- PERST_N or FLR: the endpoint and the ring engine return to reset, and buffers tagged HOST are to be revoked. -/
def Dev.hostReset (d : Dev) (linkDown : Bool) : Dev :=
  let h : HostIf := if linkDown then {} else { linkUp := d.host.linkUp, speed := d.host.speed, width := d.host.width, link := d.host.link, pci := d.host.afterFlr }
  let d1 := match d.host.punt with
    | some (_, _, _, k) => d.endHold k.uid
    | none => d
  let regs := d1.regs.filter fun p => p.1 < 0x900000 || 0xA00000 ≤ p.1
  { d1 with host := h, regs := regs }

/-! ## Fetching (R381 to R385) -/

/-- The head of a ring stands at or beyond the last tail its doorbell carried. -/
def Sq.beyond (x : Sq) : Bool := x.ahead ≠ [] || x.head = x.tailSeen

/-- A ring may have unit 0 at its head read now (R381 to R383). -/
def Dev.wantsUnit (d : Dev) (q : Nat) : Bool :=
  let x := d.sq q
  x.st = .active && d.busMaster &&
  (if d.sqKind q = 2 then !x.beyond else x.ahead.length < 8 && !x.waitDb) && (x.polls = 0 || x.unitOut)

/-- Unit 0 was not owned (R382, R383). -/
def Dev.notOwned (d : Dev) (q : Nat) : Dev :=
  let limit := max 1 (fld (d.reg Reg.HOST_CTRL) 31 24)
  let n := (d.sq q).polls + 1
  (d.modSq q fun x => { x with polls := n, unitOut := false, waitDb := decide (d.sqKind q ≠ 2) && decide (limit ≤ n) }).inc bankHost 1

/-- A ring has work for the engine: its unit 0 may be read now and an entry of it fetched (R385, R392). -/
def Dev.ringWaits (d : Dev) (q : Nat) : Bool :=
  d.wantsUnit q && !(d.sq q).unitOut && decide ((d.sq q).ents.length < 64) && decide (d.placesUsed < 4096) && !(d.cq (d.sqCq q)).stopped

/-- The ring whose turn it is goes on: it has work, and its weight is not used up; a weight of 0 acts as 1 (R385). -/
def Dev.turnGoesOn (d : Dev) : Bool :=
  d.ringWaits d.host.turn.1 && decide (d.host.turn.2 < max 1 (fld (d.reg (Reg.HOST_SQ_CTRL d.host.turn.1)) 7 0))

/-- The ring that is served next: the rings with work take turns in rotating order (R385). -/
def Dev.servedRing (d : Dev) : Option Nat :=
  let t := d.host.turn.1
  if d.turnGoesOn then some t
  else
    let ws := (d.host.sqs.map (·.1)).filter d.ringWaits
    (ws.find? fun q => t < q).or ws.head?

/-- An entry of a ring is fetched in its turn. -/
def Dev.tookTurn (d : Dev) (q : Nat) : Dev :=
  { d with host := { d.host with turn := (q, if d.turnGoesOn then d.host.turn.2 + 1 else 1) } }

/-- The head moves past an entry. -/
def Sq.pass (x : Sq) (units size : Nat) : Sq :=
  let h := x.head + units
  let y := { x with ahead := if x.beyond then x.ahead ++ [x.head] else [], polls := 0, unitOut := false, waitDb := false }
  if size ≤ h then { y with head := 0, phase := !x.phase } else { y with head := h }

/-- An entry that leaves the engine unable to find the next one ends, and its ring enters FAULT (R381, R399). -/
def Dev.faultEnt (d : Dev) (q : Nat) (status : Nat) (tag : Nat) : Dev :=
  let u := d.newUid
  let e : SqEnt := { id := u.1, head := (d.sq q).head, tag := tag }
  ((u.2.modSq q fun x => { x with ents := x.ents ++ [e] }).endEnt q e status 0 0 false).ringFault q

/-- Unit 0 at the head of a ring has been read (R381). -/
def Dev.takeUnit (d : Dev) (q : Nat) (u : Bytes) : Dev :=
  let x := d.sq q
  let b0 := u.getD 0 0
  let units := (u.getD 2 0).toNat
  if b0.getLsbD 7 ≠ x.phase then d.notOwned q
  else if units = 0 ∨ 128 < units ∨ d.sqSize q < x.head + units then (d.inc bankHost 0).faultEnt q 3 (unle (Machine.slice u 4 4))
  else
    let y := x.pass units (d.sqSize q)
    let op := (u.getD 1 0).toNat
    let f := d.newUid
    let e : SqEnt := { id := f.1, head := y.head, units := units, op := op, tag := unle (Machine.slice u 4 4),
                       bytes := padTo 32 (u.take 32), st := if units = 1 ∨ op = 0 then .ready else .reading }
    (f.2.setSq q { y with ents := y.ents ++ [e] }).inc bankHost 0

/-- The read of unit 0 at the head of a ring completes, when one may be made: in the ring's turn, or because a poll issued it (R382,
R385). -/
def Dev.unitRead (d : Dev) (q : Nat) (u : Option Bytes) : Dev :=
  if !d.wantsUnit q ∨ (!(d.sq q).unitOut ∧ d.servedRing ≠ some q) then d
  else
    let m := (if (d.sq q).unitOut then d else d.tookTurn q).mayFetch q
    if !m.1 then m.2
    else
      let d1 := if (d.sq q).unitOut then m.2 else m.2.dmaAsk (d.sqBase q + 32 * (d.sq q).head) 32
      match u with
      | some bs => d1.takeUnit q bs
      | none =>
        let f := d1.takeFree
        f.2.faultEnt q 5 (f.1 % 2 ^ 32)

/-- Units 1 onward of the oldest entry that awaits them arrive (R381). -/
def Dev.restRead (d : Dev) (q : Nat) (rest : Option Bytes) : Dev :=
  match (d.sq q).ents.find? fun e => e.st = .reading with
  | none => d
  | some e =>
    match rest with
    | some bs =>
      let n := 32 * (e.units - 1)
      let e1 := { e with bytes := e.bytes ++ padTo n (bs.take n), st := .ready }
      d.modSq q fun x => { x with ents := x.ents.map fun j => if j.id = e.id then e1 else j }
    | none => let d1 := d.endEnt q e 5 0 0 false
              if (d.sq q).st = .active then d1.ringFault q else d1

/-- The entry that is next to be dispatched: the first that is not past dispatch, when it is complete; on a command ring
every entry before it has ended (R385). -/
def Dev.frontEnt (d : Dev) (q : Nat) : Option SqEnt :=
  let waits (e : SqEnt) : Bool := if d.sqKind q = 2 then e.st ≠ .ended else e.st = .reading || e.st = .ready
  match (d.sq q).ents.find? waits with
  | some e => if e.st = .ready then some e else none
  | none => none

/-- The ring dispatches entries: ACTIVE, or FAULT for those already in flight, in D0 (R395). -/
def Dev.sqRuns (d : Dev) (q : Nat) : Bool := ((d.sq q).st = .active || (d.sq q).st = .fault) && !d.host.d3

/-- Act on the front entry of a ring when it carries one of the ops. -/
def Dev.onEntry (d : Dev) (q : Nat) (ops : List Nat) (f : Dev → SqEnt → Dev) : Dev :=
  if !d.sqRuns q then d
  else match d.frontEnt q with
    | none => d
    | some e => if ops.contains e.op then f d e else d

/-- Change an entry of a ring. -/
def Dev.putEnt (d : Dev) (q : Nat) (e : SqEnt) : Dev :=
  d.modSq q fun x => { x with ents := x.ents.map fun j => if j.id = e.id then e else j }

/-! ## Injections after their buffer request and admission (R386) -/

/-- The packet of an injection waits for its buffer or for admission. -/
def Dev.stillAsked (d : Dev) (uid : Nat) : Bool :=
  (d.bpm.waiting.any fun r => r.pkt.uid = uid) || d.qm.arrived.any fun k => k.uid = uid

/-- End the injections whose packet has been enqueued or dropped. -/
def Dev.settleRing (d : Dev) (q : Nat) : Dev :=
  ((d.sq q).ents.filter fun e => e.st = .packet).foldl (fun d e =>
    if d.stillAsked e.uid then d
    else if d.qm.queues.any fun p => p.2.pkts.any fun k => k.uid = e.uid then (d.endEnt q e 0 e.length 0 false).inc bankHost 5
    else d.endEnt q e 6 e.length 0 false) d

def Dev.settleInjections (d : Dev) : Dev := (d.host.sqs.map (·.1)).foldl (fun d q => d.settleRing q) d

end Sys2Proof.Machine
end

