-- ==== Sys2Proof/Machine/LineCode.lean ====
section
/-! DEFINITION. The line code of a fabric lane: scrambled 257-bit blocks in RS(544,514) codewords (R269). What the rule takes from
IEEE 802.3 (the field and the generator of the code, and that a byte's and a symbol's least significant bit goes first) is log
entry 121, PRESUMED. -/
namespace Sys2Proof.Machine

/-! ## The scrambler of Clause 49: x^58 + x^39 + 1 -/

/-- The scrambler holds its last 58 output bits, the newest in bit 0. -/
def scrTap (s : Nat) : Bool := Bool.xor (s.testBit 38) (s.testBit 57)

/-- The state after a line bit. -/
def scrNext (s : Nat) (b : Bool) : Nat := (2 * s + b.toNat) % 2 ^ 58

/-- Scramble bits in the order they are sent. -/
def scramble : Nat → List Bool → List Bool × Nat
  | s, [] => ([], s)
  | s, b :: bs =>
    let o := Bool.xor b (scrTap s)
    let r := scramble (scrNext s o) bs
    (o :: r.1, r.2)

/-- Take the scrambling off bits in the order they come: the state is that of the line bits. -/
def descramble : Nat → List Bool → List Bool × Nat
  | s, [] => ([], s)
  | s, o :: os =>
    let r := descramble (scrNext s o) os
    (Bool.xor o (scrTap s) :: r.1, r.2)

/-! ## Bits of bytes, blocks and symbols -/

/-- The bits of a byte, least significant first. -/
def byteBits (b : Byte) : List Bool := (List.range 8).map fun i => b.getLsbD i

/-- The number that bits spell, least significant first. -/
def bitsNat : List Bool → Nat
  | [] => 0
  | b :: bs => b.toNat + 2 * bitsNat bs

/-- Cut bits into `n` pieces of `k`. -/
def pieces (k : Nat) : Nat → List Bool → List (List Bool)
  | 0, _ => []
  | n + 1, l => l.take k :: pieces k n (l.drop k)

/-- Bytes of a codeword's message: 20 blocks of 32. -/
def codewordBytes : Nat := 640

/-- The 5,140 message bits of 640 bytes: each group of 256 scrambled bits behind a lead bit of 1. -/
def messageBits (s : Nat) (bs : Bytes) : List Bool × Nat :=
  let r := scramble s (bs.flatMap byteBits)
  ((pieces 256 20 r.1).flatMap fun g => true :: g, r.2)

/-- The 640 bytes of 5,140 message bits: the lead bits are ignored and the rest is descrambled. -/
def messageBytes (s : Nat) (bits : List Bool) : Bytes × Nat :=
  let r := descramble s ((pieces 257 20 bits).flatMap fun g => g.drop 1)
  ((pieces 8 codewordBytes r.1).map fun p => BitVec.ofNat 8 (bitsNat p), r.2)

/-! ## RS(544,514) over GF(2^10) (Clause 91) -/

/-- A field element times α, the field's primitive polynomial being x^10 + x^3 + 1. -/
def gfDouble (a : Nat) : Nat := if a < 512 then 2 * a else (2 * a) ^^^ 0x409

/-- The product of two field elements, over the lowest bits of `b`. -/
def gfMulBits : (bits a b : Nat) → Nat
  | 0, _, _ => 0
  | n + 1, a, b => (if b % 2 = 1 then a else 0) ^^^ gfMulBits n (gfDouble a) (b / 2)

def gfMul (a b : Nat) : Nat := gfMulBits 10 a b

/-- A polynomial, highest power first, times x − r. -/
def polyTimes (p : List Nat) (r : Nat) : List Nat := List.zipWith (· ^^^ ·) (p ++ [0]) (0 :: p.map (gfMul r))

/-- The product of x − α^j for `n` powers from α^j on. -/
def rsProduct : (n root : Nat) → List Nat → List Nat
  | 0, _, p => p
  | n + 1, r, p => rsProduct n (gfDouble r) (polyTimes p r)

/-- The coefficients of the generator below its highest: roots 1, α, …, α^29. -/
def rsGen : List Nat := (rsProduct 30 1 [1]).drop 1

/-- One message symbol enters the division. -/
def rsStep (reg : List Nat) (s : Nat) : List Nat :=
  let f := s ^^^ reg.headD 0
  List.zipWith (· ^^^ ·) (reg.drop 1 ++ [0]) (rsGen.map (gfMul f))

/-- The 30 check symbols of a message. -/
def rsParity (msg : List Nat) : List Nat := msg.foldl rsStep (List.replicate 30 0)

/-- The codeword of 640 bytes, as its 544 symbols in the order sent, and the scrambler after it. -/
def codewordOf (s : Nat) (bs : Bytes) : List Nat × Nat :=
  let m := messageBits s bs
  let msg := (pieces 10 514 m.1).map bitsNat
  (msg ++ rsParity msg, m.2)

end Sys2Proof.Machine
end

