-- ==== Sys2Proof/Machine/FabBase.lean ====
section
/-! DEFINITION. Links and roles as the other units see them: accessors, working links, peers, and whether the device is
in a system (R171, R279, R323, R331, R332). -/
namespace Sys2Proof.Machine

def Dev.link (d : Dev) (n : Nat) : Link := Tbl.get {} d.fab.links n
def Dev.setLink (d : Dev) (n : Nat) (x : Link) : Dev := { d with fab := { d.fab with links := Tbl.set {} d.fab.links n x } }
def Dev.modLink (d : Dev) (n : Nat) (f : Link → Link) : Dev := d.setLink n (f (d.link n))
def Dev.setFab (d : Dev) (x : Fabric) : Dev := { d with fab := x }

/-- Defects by their bit in TRL_LINK_DEFECT (Table 10.8). -/
def dLos : Nat := 9
def dLol : Nat := 8
def dLoa : Nat := 7
def dLof : Nat := 6
def dLom : Nat := 5
def dAis : Nat := 4
def dRdi : Nat := 3
def dSf : Nat := 2
def dSd : Nat := 1
def dCalm : Nat := 0

/-- A defect of rank 1–6 is reported (Table 10.5). -/
def Link.down (x : Link) : Bool := fld x.defects 9 4 ≠ 0

/-- The received overhead names the device itself (R289). -/
def Link.selfLoop (x : Link) (own : Nat) : Bool := x.nbrValid && x.nbrDev = own

/-- A link in SYNC with no defect of rank 1–6 (R323). -/
def Link.works (x : Link) : Bool := x.align = 4 && !x.down

/-- The recorded neighbour of a link, unless the link loops back to the device (R289, R309). -/
def Dev.peerOf (d : Dev) (n : Nat) : Option Nat :=
  let x := d.link n
  if x.nbrValid ∧ x.nbrDev ≠ d.devId then some x.nbrDev else none

/-- The peers that the device exchanges overhead messages with, by device: those of links in SYNC, whose overhead is delivered
under AIS and LOM too (R166, R172, R288, R332). -/
def Dev.peers (d : Dev) : List Nat :=
  ((d.fab.links.filter fun p => p.2.align = 4 && p.2.nbrValid && p.2.nbrDev ≠ d.devId).map fun p => p.2.nbrDev).eraseDups

/-- The device is a manager candidate (R328). -/
def Dev.candidate (d : Dev) : Bool := fld (d.reg Reg.GLB_STRAP) 5 4 = 1

/-- The claim of a candidate: that of start-up until it is fixed (R330). -/
def Dev.ownClaim (d : Dev) : Nat := if d.fab.roleOn then d.fab.claim else fld (d.reg Reg.TRL_MGR_CFG) 31 21 * 32 + d.devId

def Dev.exchanges (d : Dev) : Bool := d.peers ≠ []

/-- The device holds the manager role (Table 12.1). -/
def Dev.isManager (d : Dev) : Bool := d.fab.roleOn && d.fab.role = 2

/-- The snapshot that the racking region holds: none once the region is lost (R336, Table 13.7). -/
def Dev.heldSnap (d : Dev) : Option Nat := if d.tableLost then none else d.fab.snapshot

/-- It obeys no manager and is manager of no worker (R171). -/
def Dev.alone (d : Dev) : Bool := if d.isManager then !d.exchanges else d.fab.obeyed = 0

/-! ## Pages and reachability (R303, R323) -/

/-- Key of a page: direction 0 transmit, 1 receive. -/
def pageKey (n dir page : Nat) : Nat := (n * 2 + dir) * 2 + page

/-- The generation of a page. -/
def Dev.gen (d : Dev) (n dir page : Nat) : Nat := Tbl.get 0 d.fab.gens (pageKey n dir page)
def Dev.setGen (d : Dev) (n dir page g : Nat) : Dev := { d with fab := { d.fab with gens := Tbl.set 0 d.fab.gens (pageKey n dir page) g } }

/-- An entry of a connection memory. -/
def Dev.connEntry (d : Dev) (n dir page t : Nat) : Word := Tbl.get 0#32 d.fab.conn (pageKey n dir page * 1024 + t)

/-- Write an entry: its page becomes empty (R304). -/
def Dev.setConn (d : Dev) (n dir page t : Nat) (w : Word) : Dev :=
  let d1 := d.setGen n dir page 0
  { d1 with fab := { d1.fab with conn := Tbl.set 0#32 d1.fab.conn (pageKey n dir page * 1024 + t) w } }

/-- The active page of a direction. -/
def Link.page (x : Link) (dir : Nat) : Option Nat := if dir = 0 then x.txPage else x.rxPage

/-- The generation of the active page of a direction; 0 when none is active. -/
def Dev.activeGen (d : Dev) (n dir : Nat) : Nat :=
  match (d.link n).page dir with
  | some p => d.gen n dir p
  | none => 0

/-- The standby page of a direction: page 0 when none is active. -/
def Link.standby (x : Link) (dir : Nat) : Nat :=
  match x.page dir with
  | some 0 => 1
  | _ => 0

/-- The active transmit page of a link holds a DATA slot for a device. -/
def Dev.dataSlotFor (d : Dev) (n dev : Nat) : Bool :=
  match (d.link n).txPage with
  | none => false
  | some p =>
    let lo := pageKey n 0 p * 1024
    d.fab.conn.any fun e => lo ≤ e.1 && e.1 < lo + 1024 && fld e.2 31 30 = 1 && fld e.2 28 24 = dev

/-- Device `dev` is reachable (R323). -/
def Dev.reachable (d : Dev) (dev : Nat) : Bool :=
  d.fab.links.any fun p => p.2.works && ((p.2.nbrValid && p.2.nbrDev = dev) || d.dataSlotFor p.1 dev)

/-- Bring TRL_REACH up to date; a device that became unreachable sets its status bit (R323, Table 11.5). -/
def Dev.updateReach (d : Dev) : Dev :=
  let new : BitVec 32 := BitVec.ofNat 32 (((List.range 32).map fun i => if d.reachable i then 2 ^ i else 0).foldl (· + ·) 0)
  let lost := d.reach &&& ~~~new
  let d1 : Dev := { d with reach := new }
  (List.range 32).foldl (fun d i => if lost.getLsbD i then d.latchBit Reg.TRL_CAL_STATUS 12 else d) d1

/-! ## Performance monitoring (R294 to R298) -/

/-- Seconds of a link are counted: it is enabled and pm_en is 1. -/
def Dev.pmCounts (d : Dev) (n : Nat) : Bool := bit (d.reg (Reg.TRL_LINK_CTRL n)) 0 && bit (d.reg Reg.TRL_CTRL) 0

/-- The link has never been counted: it has no bin and no second. -/
def Link.pmIdle (x : Link) : Bool := x.pmPend == [] && !(x.pmBins.any fun b => b.exists_)

/-- u of R296 as the registers stand. -/
def Dev.pmBase (d : Dev) : Int :=
  if bit (d.reg Reg.TRL_CTRL) 1 then signed 16 (fld (d.reg Reg.TIME_UTC) 15 0) else 0

/-- A second in which nothing but the present defects is known. -/
def Dev.pmFresh (d : Dev) (n sec : Nat) : PmSec :=
  { sec := sec, whole := d.pmCounts n, defect := (d.link n).down, invalid := !d.timeValid, u := d.pmBase }

/-- Seconds that have ended since the last event of the link join those that await their classification. -/
def Dev.pmRoll (d : Dev) (n : Nat) : Dev :=
  let x := d.link n
  let now := d.time.now.sec
  if now ≤ x.pmCur.sec then d
  else if x.pmIdle ∧ !d.pmCounts n then d.setLink n { x with pmCur := { sec := now, whole := false } }
  else
    let gap := (List.range (now - x.pmCur.sec - 1)).map fun i => d.pmFresh n (x.pmCur.sec + 1 + i)
    d.setLink n { x with pmPend := x.pmPend ++ [x.pmCur] ++ gap, pmCur := d.pmFresh n now }

/-- Change the current second of a link. -/
def Dev.pmNote (d : Dev) (n : Nat) (f : PmSec → PmSec) : Dev :=
  (d.pmRoll n).modLink n fun x => { x with pmCur := f x.pmCur }

/-- The seconds of every link are brought up to now, before what their edges depend on changes. -/
def Dev.pmRollAll (d : Dev) : Dev := (d.fab.links.map (·.1)).foldl Dev.pmRoll d

/-- The current second of every link takes the offset that begins with it (R52; log entry 122, DEDUCED). -/
def Dev.pmRebase (d : Dev) : Dev :=
  (d.fab.links.map (·.1)).foldl (fun e n => e.modLink n fun x => { x with pmCur := { x.pmCur with u := e.pmBase } }) d

/-- A link stops or starts to be counted within this second: the second is not counted. -/
def Dev.pmBreak (d : Dev) (n : Nat) : Dev := d.pmNote n fun s => { s with whole := false }

/-- The validity of device time follows: gates stop or start (R249), and the current second of every link is marked when
time is not valid at some moment of it (R297). -/
def Dev.validFollow (before : Bool) (d : Dev) : Dev :=
  let d1 := Dev.gatesFollow before d
  if before = d1.timeValid then d1
  else (d1.fab.links.map (·.1)).foldl (fun d n => d.pmNote n fun s => { s with invalid := true }) d1

/-! ## Defects (R286 to R290) -/

/-- Record or count a change of a defect: it is logged unless an earlier change was logged within a second (10^9
cycles); the next record carries the number left out (R290). -/
def Dev.logDefect (d : Dev) (n b : Nat) (mk : Dev → Bytes → Dev) : Dev :=
  let q := (d.link n).quiet
  let put' (t c : Nat) : Dev := d.modLink n fun x => { x with quiet := Tbl.set (0, 0) q b (t, c) }
  match q.find? fun p => p.1 = b with
  | none => mk (put' d.time.tsc 0) []
  | some (_, t, c) => if d.time.tsc < t + 10 ^ 9 then put' t (c + 1) else mk (put' d.time.tsc 0) (le 4 c)

/-- The run of frames toward a change of LOM, AIS, RDI or CALM. -/
def Link.run (x : Link) (b : Nat) : Nat :=
  match b with
  | 5 => x.lomRun
  | 4 => x.aisRun
  | 3 => x.rdiRun
  | 0 => x.calmRun
  | _ => 0

def Link.setRun (x : Link) (b r : Nat) : Link :=
  match b with
  | 5 => { x with lomRun := r }
  | 4 => { x with aisRun := r }
  | 3 => { x with rdiRun := r }
  | 0 => { x with calmRun := r }
  | _ => x

/-- A defect is reported. -/
def Link.has (x : Link) (b : Nat) : Bool := x.defects.getLsbD b

/-- A defect of higher rank is reported, which suppresses this one (R287). -/
def Link.suppressed (x : Link) (b : Nat) : Bool := x.defects.toNat / 2 ^ (b + 1) ≠ 0

/-- Set or clear a bit of the reported defects. -/
def Link.mark (x : Link) (b : Nat) (v : Bool) : Link :=
  let m : BitVec 10 := BitVec.ofNat 10 (2 ^ b)
  ({ x with defects := if v then x.defects ||| m else x.defects &&& ~~~m } : Link).setRun b 0

/-- The detection of LOA, SF and SD below a defect starts afresh (R287). -/
def Link.afresh (x : Link) (b now : Nat) : Link :=
  { x with
    cwBad := if dLoa < b then 0 else x.cwBad
    cwGood := if dLoa < b then 0 else x.cwGood
    sf := if dSf < b then { since := now } else x.sf
    sd := if dSd < b then { since := now } else x.sd }

/-- Take back a reported defect, with its event (R290, Table 16.9). -/
def Dev.unsetDefect (d : Dev) (n b : Nat) : Dev :=
  if (d.link n).has b then
    let d1 := (d.pmRoll n).modLink n fun x => (x.mark b false).afresh b d.time.tsc
    d1.logDefect n b fun e c => e.logNum 0x80 1 n (if c = [] then le 1 b else padTo 34 (le 1 b) ++ c)
  else d

/-- Report a defect (R286 to R290): lower ones clear, and LOS, LOL and LOA end the alignment (R283). -/
def Dev.setDefect (d : Dev) (n b : Nat) : Dev :=
  let d1 := (List.range b).foldl (fun d c => d.unsetDefect n c) d
  let realign (x : Link) : Link := if 7 ≤ b ∧ 2 ≤ x.align then { x with align := 1, cands := [], badRun := 0 } else x
  let d2 := (d1.pmRoll n).modLink n fun x =>
    realign (((List.range b).foldl (fun x c => x.setRun c 0) (x.mark b true)).afresh b d.time.tsc)
  let d3 := if 4 ≤ b then d2.pmNote n fun s => { s with defect := true } else d2
  let d4 := (d3.latchBit (Reg.TRL_LINK_STATUS n) (8 + b)).latchBit Reg.TRL_STATUS 8
  d4.logDefect n b fun e c => e.logBit 0x80 0 (8 + b) n (if c = [] then le 1 b else padTo 34 (le 1 b) ++ c)

/-! ## Codewords received (R269, R286, R295, R302) -/

/-- Windows that have ended by `now`: the first holds what was met, those after it nothing. -/
def SigWin.roll (w : SigWin) (thr now : Nat) : SigWin :=
  let n := (now - w.since) / 10 ^ 6
  if n = 0 then w
  else
    { since := w.since + n * 10 ^ 6
      last := (List.replicate (min 10 (n - 1)) (false, false) ++
        (decide (thr < w.corr), decide (w.uncorr ≠ 0)) :: w.last).take 10 }

/-- The windows of a link are brought up to now. -/
def Dev.sigRoll (d : Dev) (n : Nat) : Dev :=
  let v := d.reg (Reg.TRL_LINK_SDSF n)
  d.modLink n fun x => { x with sf := x.sf.roll (fld v 31 16) d.time.tsc, sd := x.sd.roll (fld v 15 0) d.time.tsc }

/-- The symbols that a codeword had corrected. -/
def cwSymbols : Codeword → Nat
  | .corrected k => k
  | .uncorrectable => 0

/-- A codeword enters the windows. -/
def SigWin.note (w : SigWin) (c : Codeword) : SigWin :=
  { w with corr := w.corr + cwSymbols c, uncorr := w.uncorr + b2n (c = .uncorrectable) }

/-- A codeword enters the detection of LOA, SF and SD; that of a suppressed defect does not run (R287). -/
def Link.noteCw (x : Link) (c : Codeword) : Link :=
  let bad : Bool := c = .uncorrectable
  { x with
    cwBad := if bad && !x.suppressed dLoa then x.cwBad + 1 else 0
    cwGood := if bad || x.suppressed dLoa then 0 else x.cwGood + 1
    sf := if x.suppressed dSf then x.sf else x.sf.note c
    sd := if x.suppressed dSd then x.sd else x.sd.note c }

/-- The receive side is set to the polarity of its lane: with another it finds no codeword (R268; log entry 103, DEDUCED). -/
def Dev.hears (d : Dev) (n : Nat) : Bool := (d.link n).swapped == bit (d.reg (Reg.TRL_LINK_CTRL n)) 9

/-- The codewords that came with some bytes: counted, noted in the current second, and entered in the detection. -/
def Dev.takeCws (d : Dev) (n : Nat) (cws : List Codeword) : Dev :=
  if (d.link n).align = 0 ∨ cws = [] then d
  else
    let syms := (cws.map cwSymbols).foldl (· + ·) 0
    let corr := (cws.filter fun c => cwSymbols c ≠ 0).length
    let bad := (cws.filter fun c => c = .uncorrectable).length
    let d1 := (((d.bump (bankLink n) 8 corr).bump (bankLink n) 10 bad).bump (bankLink n) 16 syms).pmNote n fun s =>
      { s with corr := s.corr + corr, uncorr := s.uncorr + bad }
    (d1.sigRoll n).modLink n fun x => cws.foldl Link.noteCw x

/-- The codewords and windows that declare LOA, SF or SD; what LOS and LOL rest on is the lane's to see (Table 10.5). -/
def Link.declares (x : Link) (b : Nat) : Bool :=
  match b with
  | 7 => 16 ≤ x.cwBad
  | 2 => x.sf.last.length = 10 && (x.sf.last.all (·.1) || x.sf.last.all (·.2))
  | 1 => x.sd.last.length = 10 && x.sd.last.all (·.1)
  | _ => true

/-- Those that clear them. -/
def Link.clears (x : Link) (b : Nat) : Bool :=
  match b with
  | 7 => 4 ≤ x.cwGood
  | 2 => x.sf.last.length = 10 && x.sf.last.all fun w => !w.1 && !w.2
  | 1 => x.sd.last.length = 10 && x.sd.last.all fun w => !w.1
  | _ => true

/-! ## Bytes sent (R269) -/

/-- The bytes of a slot enter the line code of link `n`: each 640 make a codeword. -/
def Dev.lineOut (d : Dev) (n : Nat) (bs : Bytes) : Dev :=
  let x := d.link n
  let buf := x.lineBuf ++ bs
  if buf.length < codewordBytes then d.setLink n { x with lineBuf := buf }
  else
    let c := codewordOf x.scr (buf.take codewordBytes)
    (d.setLink n { x with lineBuf := buf.drop codewordBytes, scr := c.2 }).emit
      (.codeword n c.1 (bit (d.reg (Reg.TRL_LINK_CTRL n)) 8))

/-- LOF is reported while the alignment is HUNT or PRESYNC and no higher defect is (R286, R287). -/
def Dev.lofCheck (d : Dev) (n : Nat) : Dev :=
  let x := d.link n
  if (x.align = 2 ∨ x.align = 3) ∧ !x.has 6 ∧ !x.suppressed 6 then d.setDefect n 6 else d

end Sys2Proof.Machine
end

