-- ==== Sys2Proof/Machine/TimeRows.lean ====
section
/-! DEFINITION. The commands of the time base: ticks, the rate, slew and reads, sources and holdover, 1PPS, time of
day, UTC and SyncE (R39 to R58). -/
namespace Sys2Proof.Machine

/-! ## Ticks, rate and slew -/

/-- TIME_BASE_TICK (R41, R42): one TSCLK cycle; the time base counts only while TSCLK runs (R40). -/
def execTimeBaseTick (s : State) : Host.Outcome State Fault Refusal :=
  actBus s fun d => { d with time := d.time.tick d.rate }

/-- SLEW_CONSUMED (R42): the cycle in which the rest of the slew is applied passes; before that cycle nothing. -/
def execSlewConsumed (s : State) : Host.Outcome State Fault Refusal :=
  actBus s fun d =>
    if d.time.slewRem ≠ 0 ∧ (tickPart d.time.slewRem d.rate).2 = 0 then { d with time := d.time.tick d.rate } else d

/-- TIME_FREQ_ADJ_WRITE (R41). -/
def execTimeFreqAdjWrite (v : Word) (s : State) : Host.Outcome State Fault Refusal :=
  actReg .bar0 Reg.TIME_FREQ_ADJ (.timeFreqAdjWrite v) s fun d => d.writeFreqAdj v

/-- TIME_SLEW_WRITE (R42). -/
def execTimeSlewWrite (v : Word) (s : State) : Host.Outcome State Fault Refusal :=
  actReg .bar0 Reg.TIME_SLEW (.timeSlewWrite v) s fun d => d.writeSlew v

/-- TIME_NOW_READ (R44). -/
def execTimeNowRead (path : Path) (s : State) : Host.Outcome State Fault Refusal :=
  actRead path Reg.TIME_NOW_NS (.timeNowRead path) s Dev.readNow

/-! ## Sources, validity and holdover (R45 to R48) -/

/-- A write to TIME_CTRL, with what its change of validity does to the gates (R46, R249). -/
def Dev.ctrlWrite (d : Dev) (v : Word) : Dev := Dev.validFollow d.timeValid (d.writeTimeCtrl v)

/-- TIME_CTRL_WRITE (R46, R47). -/
def execTimeCtrlWrite (v : Word) (s : State) : Host.Outcome State Fault Refusal :=
  actReg .bar0 Reg.TIME_CTRL (.timeCtrlWrite v) s fun d => d.ctrlWrite v

/-- Enter a time state, with what validity does to the gates (R46, R47, R249). -/
def Dev.timeGoes (d : Dev) (st : TimeState) : Dev := Dev.validFollow d.timeValid (d.enterTime st)

/-- A sample within 100 ns, in units of 2^-8 ns; under Trellis with the manager's time valid (R46). -/
def Dev.goodSample (d : Dev) (offset : Int) (mgrValid : Bool) : Bool :=
  offset.natAbs ≤ 25600 && (d.src ≠ 3 || mgrValid)

/-- One sample of the selected source (R46): device time minus the source's, in units of 2^-8 ns. Back from HOLDOVER the offset
is removed by slewing; the first sample ends HOLDOVER whether or not the manager's time is valid, which the spec asks only
for LOCKED out of ACQUIRING (log entry 99, DESIGN CHOICE). -/
def Dev.timeSample (d : Dev) (offset : Int) (mgrValid : Bool) : Dev :=
  if d.src = 0 then d
  else match d.time.state with
    | .acquiring =>
      if d.goodSample offset mgrValid then
        if 15 ≤ d.time.goodSamples then d.timeGoes .locked
        else { d with time := { d.time with goodSamples := d.time.goodSamples + 1 } }
      else { d with time := { d.time with goodSamples := 0 } }
    | .holdover => (d.timeGoes .locked).setSlew (max (-(2 ^ 31 * nsUnit)) (min ((2 ^ 31 - 1) * nsUnit) (-offset * 2 ^ 40)))
    | _ => d

/-- The sample that source 3 gives (R293, R340): the result of the time link, the peer's time minus device time, with the
offset that an intermediate peer reports, which no frame of the spec carries to a worker and the row names (log entry 100);
none without a valid result. The second part says whether the manager's time is valid. -/
def Dev.trellisSample (d : Dev) (reported : Int) (mgrValid : Bool) : Option (Int × Bool) :=
  match d.fab.timeLink with
  | none => none
  | some (n, indirect) =>
    let x := Tbl.get ({} : Link) d.fab.links n
    if bit x.ttInfo 31 then
      some (-x.ttOffset.toInt + (if indirect then reported * 256 else 0), if indirect then mgrValid else bit x.ttInfo 30)
    else none

/-- The sample of the row, in ns, or under Trellis that of the time link. -/
def Dev.takeSample (d : Dev) (offset : Int) (mgrValid : Bool) : Dev :=
  if d.src = 3 then
    match d.trellisSample offset mgrValid with
    | some x => d.timeSample x.1 x.2
    | none => d
  else d.timeSample (offset * 256) mgrValid

/-- TIME_SAMPLE (R46, R48): the servo is the firmware's, and stands still while it restarts. -/
def execTimeSample (offset : Int) (mgrValid : Bool) (s : State) : Host.Outcome State Fault Refusal :=
  actIn pllMgmt (.timeSample offset mgrValid) s fun d => d.ifServing fun d => d.takeSample offset mgrValid

/-- HOLDOVER from LOCKED (R46): the rate is the mean TIME_FREQ_ADJ of the last 64 s. -/
def Dev.sourceLoss (d : Dev) : Dev :=
  if d.time.state = .locked then
    let m := meanRate d.time.rateHist d.time.tsc (d.reg Reg.TIME_FREQ_ADJ).toInt
    (({ d with time := { d.time with holdRate := some m } }).timeGoes .holdover).latchBit Reg.TIME_STATUS 10
  else d

/-- TIME_SOURCE_LOSS (R46). -/
def execTimeSourceLoss (s : State) : Host.Outcome State Fault Refusal := actIn pllMgmt .timeSourceLoss s fun d => d.ifServing Dev.sourceLoss

/-- The end of holdover (R46). -/
def Dev.holdoverEnds (d : Dev) : Dev :=
  if d.time.state = .holdover then (d.timeGoes .acquiring).latchBit Reg.TIME_STATUS 11 else d

/-- HOLDOVER_EXPIRE (R46). -/
def execHoldoverExpire (s : State) : Host.Outcome State Fault Refusal := actIn pllMgmt .holdoverExpire s fun d => d.ifServing Dev.holdoverEnds

/-! ## 1PPS (R49, R51) -/

/-- Distance of a time from the nearest whole second, in ns. -/
def DevTime.offSecond (t : DevTime) : Nat := min t.ns (10 ^ 9 - t.ns)

/-- An edge of PPS_IN (R49), corrected by TIME_PPS_CORR[31:16]. -/
def Dev.ppsEdge (d : Dev) (rising : Bool) (widthNs : Nat) : Dev :=
  let ctrl := d.reg Reg.TIME_PPS_CTRL
  if !bit ctrl 0 ∨ rising = bit ctrl 1 then d
  else
    let t := d.time.now.shift (signed 16 (fld (d.reg Reg.TIME_PPS_CORR) 31 16) * nsUnit)
    let spaced : Bool := match d.time.ppsEdgeTsc with
      | some c => c + 5 * 10 ^ 8 ≤ d.time.tsc
      | none => true
    if 100 ≤ widthNs ∧ spaced ∧ (d.time.state ≠ .locked ∨ t.offSecond ≤ 10 ^ 8) then
      { d with time := { d.time with ppsCapt := t, ppsEdgeTsc := some d.time.tsc,
                                     todApplied := d.time.todPending, todPending := none } }
    else { d with time := { d.time with ppsDiscarded := d.time.ppsDiscarded + 1 } }

/-- PPS_IN_EDGE (R49, R50): the named second of an accepted line belongs to this edge. -/
def execPpsInEdge (rising : Bool) (widthNs : Nat) (s : State) : Host.Outcome State Fault Refusal :=
  actLive pllTime s fun d => d.ppsEdge rising widthNs

/-- PPS_MISSING_TIMEOUT (R49, Table 2.3). -/
def execPpsMissingTimeout (s : State) : Host.Outcome State Fault Refusal :=
  actIn pllTime .ppsMissingTimeout s fun d => if bit (d.reg Reg.TIME_PPS_CTRL) 0 then d.latchBit Reg.TIME_STATUS 12 else d

/-- PPS_CAPT_READ (R49). -/
def execPpsCaptRead (path : Path) (s : State) : Host.Outcome State Fault Refusal :=
  actRead path Reg.TIME_PPS_CAPT_NS (.ppsCaptRead path) s Dev.readCapt

/-- The PPS output may give pulses (R51). -/
def Dev.ppsDrives (d : Dev) : Bool :=
  let ctrl := d.reg Reg.TIME_PPS_CTRL
  bit ctrl 2 && (d.timeValid || bit ctrl 5)

/-- Output pin numbers of `Output.pin`. -/
def pinSyncE (o : Nat) : Nat := o
def pinPps : Nat := 2
def pinSmbAlertN : Nat := 3
def pinThermtripN : Nat := 4
def pinNvmRstN : Nat := 5
def pinSdVsel : Nat := 6

/-- Device time passes a whole second, advanced by TIME_PPS_CORR[15:0] (R51): each passing gives one edge. -/
def Dev.ppsOut (d : Dev) : Dev :=
  let ctrl := d.reg Reg.TIME_PPS_CTRL
  if d.ppsTime.sec = d.time.ppsOutSec then d
  else if d.ppsDrives then
    (d.ppsRestart.emit (.pin pinPps (!bit ctrl 3))).emit (.ppsPulse (min 999999 (fld ctrl 31 8)))
  else d.ppsRestart

/-- PPS_OUT_EDGE (R51). -/
def execPpsOutEdge (s : State) : Host.Outcome State Fault Refusal := actLive pllTime s Dev.ppsOut

/-! ## Time of day (R50 to R52) -/

/-- The digits of a number, most significant first. -/
def decimalDigits : Nat → Nat → Bytes
  | 0, _ => []
  | fuel + 1, n => (if n < 10 then [] else decimalDigits fuel (n / 10)) ++ [BitVec.ofNat 8 (48 + n % 10)]

/-- A decimal number as ASCII. -/
def decimal (n : Nat) : Bytes := decimalDigits 20 n

/-- A signed decimal number as ASCII. -/
def decimalInt (n : Int) : Bytes := if n < 0 then 45#8 :: decimal n.natAbs else decimal n.natAbs

/-- An upper-case hexadecimal digit. -/
def hexDigit (n : Nat) : Byte := BitVec.ofNat 8 (if n < 10 then 48 + n else 55 + n)

/-- The number that decimal digits spell; none for an empty field or another character. -/
def readDigits : Bytes → Nat → Option Nat
  | [], acc => some acc
  | b :: bs, acc => if 48 ≤ b.toNat ∧ b.toNat ≤ 57 then readDigits bs (10 * acc + (b.toNat - 48)) else none

def readDecimal (bs : Bytes) : Option Nat := if bs = [] then none else readDigits bs 0

def readSigned : Bytes → Option Int
  | [] => none
  | b :: bs => if b = 45#8 then (readDecimal bs).map fun (n : Nat) => -(n : Int) else (readDecimal (b :: bs)).map fun (n : Nat) => (n : Int)

/-- A hexadecimal digit of either case: only the check is upper-case by R50. -/
def readHex (b : Byte) : Option Nat :=
  if 48 ≤ b.toNat ∧ b.toNat ≤ 57 then some (b.toNat - 48)
  else if 65 ≤ b.toNat ∧ b.toNat ≤ 70 then some (b.toNat - 55)
  else if 97 ≤ b.toNat ∧ b.toNat ≤ 102 then some (b.toNat - 87) else none

/-- Split at the first byte equal to `c`. -/
def splitAt (c : Byte) : Bytes → Option (Bytes × Bytes)
  | [] => none
  | b :: bs => if b = c then some ([], bs) else (splitAt c bs).map fun r => (b :: r.1, r.2)

def xorAll (bs : Bytes) : Byte := bs.foldl (· ^^^ ·) 0#8

/-- "ZTOD," -/
def todHead : Bytes := [90#8, 84#8, 79#8, 68#8, 44#8]

/-- The fields of a line's body after "ZTOD," (R50). -/
def todFields (bs : Bytes) : Option TodInfo :=
  match splitAt 44#8 bs with
  | none => none
  | some (a, rest) =>
    match splitAt 44#8 rest with
    | some (b, [f]) =>
      match readDecimal a, readSigned b, readHex f with
      | some sec, some off, some fl => some { sec := sec, taiUtc := off, flags := fl }
      | _, _, _ => none
    | _ => none

/-- Read a whole line `$ZTOD,<seconds>,<tai_utc>,<flags>*<cs><CR><LF>`: none when the form or the check fails (R50). -/
def todParse (line : Bytes) : Option TodInfo :=
  match line with
  | 36#8 :: rest =>
    match splitAt 42#8 rest with
    | some (body, [c1, c0, 13#8, 10#8]) =>
      let x := (xorAll body).toNat
      if body.take 5 = todHead ∧ c1 = hexDigit (x / 16) ∧ c0 = hexDigit (x % 16) then todFields (body.drop 5) else none
    | _ => none
  | _ => none

/-- The line for an edge (R51). -/
def todLineFor (i : TodInfo) : Bytes :=
  let body := todHead ++ decimal i.sec ++ [44#8] ++ decimalInt i.taiUtc ++ [44#8] ++ [hexDigit i.flags]
  let x := (xorAll body).toNat
  [36#8] ++ body ++ [42#8, hexDigit (x / 16), hexDigit (x % 16), 13#8, 10#8]

/-- Write TAI − UTC and the pending leap as the firmware does from a source (R52). -/
def Dev.setUtc (d : Dev) (off : BitVec 16) (leap : Option Bool) : Dev :=
  let d1 := d.pmRollAll.setRegFld Reg.TIME_UTC 15 0 off.toNat
  match leap with
  | some neg => d1.setRegFld Reg.TIME_UTC 17 16 (1 + 2 * b2n neg)
  | none => d1

/-- A time-of-day line (R50): accepted between 100 ms and 900 ms after an accepted edge with a correct check. -/
def Dev.todLine (d : Dev) (line : Bytes) : Dev :=
  let inTime : Bool := match d.time.ppsEdgeTsc with
    | some c => c + 10 ^ 8 ≤ d.time.tsc && d.time.tsc ≤ c + 9 * 10 ^ 8
    | none => false
  match todParse line, inTime with
  | some i, true =>
    let d1 := { d with time := { d.time with todPending := some i } }
    if d.src = 2 ∧ d.mgmt.serving then
      d1.setUtc (BitVec.ofInt 16 i.taiUtc) (if i.flags.testBit 1 then some false else none)
    else d1
  | _, _ => d.latchBit Reg.TIME_STATUS 13

/-- TOD_LINE_RECEIVE (R50, R52). -/
def execTodLineReceive (line : Bytes) (s : State) : Host.Outcome State Fault Refusal := actLive pllMgmt s fun d => d.todLine line

/-- The line that is sent 500 ms after an output edge, for the next edge: the next whole second of the time that the output
follows (R51). -/
def Dev.todSend (d : Dev) : Dev :=
  if bit (d.reg Reg.TIME_PPS_CTRL) 4 ∧ d.ppsDrives then
    let utc := d.reg Reg.TIME_UTC
    let fl := b2n (d.time.state = .locked) + 2 * b2n (bit utc 16)
    d.emit (.todLine (todLineFor { sec := d.ppsTime.sec + 1, taiUtc := signed 16 (fld utc 15 0), flags := fl }))
  else d

/-- TOD_TX_SEND (R51). -/
def execTodTxSend (s : State) : Host.Outcome State Fault Refusal := actIn pllMgmt .todTxSend s Dev.todSend

/-- The second at which a pending leap begins (R52). -/
def Dev.leapDue (d : Dev) : Bool :=
  let utc := d.reg Reg.TIME_UTC
  bit utc 16 && ((d.time.now.sec : Int) - signed 16 (fld utc 15 0)) % 86400 = 0

/-- The pending leap is applied (R52, Table 16.9): the second that it begins with is the first to take its bins' edges from the new
offset. -/
def Dev.leapApply (d : Dev) : Dev :=
  if d.leapDue then
    let utc := d.reg Reg.TIME_UTC
    let old := fld utc 15 0
    let new := unsignedOf 16 (signed 16 old + (if bit utc 17 then -1 else 1))
    ((d.pmRollAll.setReg Reg.TIME_UTC (wd new)).pmRebase).logNum 0x01 1 0 (le 2 old ++ le 2 new)
  else d

/-- LEAP_SECOND_APPLY (R52). -/
def execLeapSecondApply (s : State) : Host.Outcome State Fault Refusal := actIn pllTime .leapSecondApply s Dev.leapApply

/-- ANNOUNCE_UTC_UPDATE (R52): with src_sel 1 the firmware copies the offset and sets the leap. -/
def execAnnounceUtcUpdate (utcOffset : BitVec 16) (leap61 leap59 : Bool) (s : State) : Host.Outcome State Fault Refusal :=
  actIn pllMgmt (.announceUtcUpdate utcOffset leap61 leap59) s fun d => d.ifServing fun d =>
    if d.src = 1 then d.setUtc utcOffset (if leap59 then some true else if leap61 then some false else none) else d

/-! ## Transmit timestamps and SyncE (R56 to R58) -/

/-- TXTS_DATA0_READ (R56). -/
def execTxtsData0Read (path : Path) (s : State) : Host.Outcome State Fault Refusal :=
  actRead path (Reg.TIME_TXTS_DATA 0) (.txtsData0Read path) s Dev.readTxTs

def syncECtrl (o : Nat) : Nat := Reg.TIME_SYNCE_CTRL o

/-- LRX of a lane rate in units of 1/1,024 MHz, by port mode (Tables 2.7 and 3.1). -/
def lrxOf (mode : Nat) : Nat := [0, 330000, 412500, 425000, 850000, 850000, 850000].getD mode 0

/-- The lanes of a mode (Table 3.1). -/
def modeLanes (mode : Nat) : Nat := if mode = 6 then 4 else if mode = 5 then 2 else if mode = 0 then 0 else 1

/-- The port that a lane belongs to: the nearest lower port whose lanes reach it (R82, R83). -/
def Dev.lanePort (d : Dev) (lane : Nat) : Nat :=
  ((List.range 4).map fun i => lane - i).find? (fun p => lane < p + modeLanes (d.port p).mode && p / 16 = lane / 16) |>.getD lane

/-- The divider gives at most 200 MHz (R57). -/
def Dev.syncEInRange (d : Dev) (o : Nat) : Bool :=
  let c := d.reg (syncECtrl o)
  lrxOf (d.port (d.lanePort (fld c 6 0))).mode ≤ 200 * 1024 * (fld c 15 8 + 1)

/-- What a SyncE output gives: LRX of its lane divided by N, or low when it is not enabled, is squelched or would give more
than 200 MHz (R57, R58). -/
def Dev.syncEDrive (d : Dev) (o : Nat) : Option (Nat × Nat) :=
  let c := d.reg (syncECtrl o)
  if bit c 16 && !Tbl.get false d.time.squelch o && d.syncEInRange o then some (fld c 6 0, fld c 15 8 + 1) else none

/-- The output follows its register, its squelch and the rate of its lane. -/
def Dev.syncEFollow (d : Dev) (o : Nat) : Dev :=
  let x := d.syncEDrive o
  if x = Tbl.get none d.time.syncE o then d
  else
    let d1 := { d with time := { d.time with syncE := Tbl.set none d.time.syncE o x } }
    match x with
    | some (lane, n) => d1.emit (.clock (pinSyncE o) lane n)
    | none => d1.emit (.pin (pinSyncE o) false)

/-- Both outputs follow. -/
def Dev.syncEFollowAll (d : Dev) : Dev := (d.syncEFollow 0).syncEFollow 1

/-- SYNCE_SQUELCH (R58): unless squelch_disable is 1 the output is held low. -/
def Dev.syncESquelch (d : Dev) (o : Nat) : Dev :=
  let c := d.reg (syncECtrl o)
  if bit c 16 ∧ !bit c 17 then
    ({ d with time := { d.time with squelch := Tbl.set false d.time.squelch o true } }).syncEFollow o
  else d

/-- SYNCE_RESUME (R57, R58). -/
def Dev.syncEResume (d : Dev) (o : Nat) : Dev :=
  ({ d with time := { d.time with squelch := Tbl.set false d.time.squelch o false } }).syncEFollow o

/-- The squelch is an analogue path from the lane and waits for no clock. -/
def execSynceSquelch (o : Fin 2) (s : State) : Host.Outcome State Fault Refusal := act s fun d => d.syncESquelch o
def execSynceResume (o : Fin 2) (s : State) : Host.Outcome State Fault Refusal := act s fun d => d.syncEResume o

/-- ESMC_FRAME (R58): the firmware reads the quality level of the frame and may select another lane for an output. -/
def execEsmcFrame (port : Fin 128) (sel : Option (Fin 2 × Fin 128)) (s : State) : Host.Outcome State Fault Refusal :=
  actIn pllMgmt (.esmcFrame port sel) s fun d => d.ifServing fun d =>
    match sel with
    | some (o, lane) => (d.setRegFld (syncECtrl o) 6 0 lane).syncEFollow o
    | none => d

end Sys2Proof.Machine
end

