-- ==== Sys2Proof/Machine/RoleCore.lean ====
section
/-! DEFINITION. Claims and beacons, the obeyed manager, and the messages of the overhead channel: sending, forwarding and
assembly (R80, R329 to R332, R337 to R340). -/
namespace Sys2Proof.Machine

/-! ## Claims and beacons (R329, Table 12.2) -/

def claimDev (c : Nat) : Nat := c % 32
def claimEpoch (c : Nat) : Nat := c / 32

def Link.bClaim (x : Link) : Nat := unbe (slice x.beacon 0 2)
def Link.bRole (x : Link) : Nat := (x.beacon.getD 2 0).toNat / 64
def Link.bReclaim (x : Link) : Option Nat := if (x.beacon.getD 3 0).getLsbD 7 then some ((x.beacon.getD 3 0).toNat / 8 % 16) else none
def Link.bConfirm (x : Link) : Bool := (x.beacon.getD 3 0).getLsbD 2
def Link.bObeyed (x : Link) : Nat := unbe (slice x.beacon 4 2)
def Link.bGroup (x : Link) : Nat := (x.beacon.getD 6 0).toNat % 16
def Link.bDirect (x : Link) : Bool := (x.beacon.getD 7 0).getLsbD 0
def Link.bMask (x : Link) : Nat := unbe (slice x.beacon 8 4)

/-- One multiframe in tenths of a nanosecond: 362.0864 µs (Table 10.1). -/
def multiframeU : Nat := 3620864

/-- The device heard the beacon of the manager that it obeys in the last multiframe (Table 12.2, direct). -/
def Dev.hearsDirect (d : Dev) : Bool :=
  d.fab.obeyed ≠ 0 && d.fab.heard.1 = d.fab.obeyed && decide (10 * d.time.tsc ≤ 10 * d.fab.heard.2 + multiframeU)

/-- A beacon of the obeyed manager is noted (Table 12.2). -/
def Dev.noteHeard (d : Dev) (role claim : Nat) : Dev :=
  if role = 2 ∧ claim = d.fab.obeyed then { d with fab := { d.fab with heard := (claim, d.time.tsc) } } else d

/-- The direct flag that the device beacons; the manager stands at itself. -/
def Dev.direct (d : Dev) : Bool := d.isManager || d.hearsDirect

/-- HELD entries of another manager are discarded, unconfirmed (R80, Table 2.10). -/
def Dev.dropForeignHeld (d : Dev) (c : Nat) : Dev :=
  ((d.lnch.entries.filter fun p => 3584 ≤ p.1 && p.2.st = .held && p.2.origin = 2 && p.2.claim ≠ c).map (·.1)).foldl
    (fun d i => (d.discardEntry i).latchBit Reg.LNCH_STATUS 6) d

/-- A worker that obeys a manager takes time from the fabric, unless keep_src is 1 (R340); the source stands while the firmware
restarts (R48). -/
def Dev.followTime (d : Dev) : Dev :=
  if d.isManager ∨ d.fab.obeyed = 0 ∨ bit (d.reg Reg.TRL_MGR_CFG) 20 ∨ fld (d.reg Reg.TIME_CTRL) 2 0 = 3 then d
  else d.ifServing fun d => d.ctrlWrite (setFld (d.reg Reg.TIME_CTRL) 2 0 3)

/-! ## The time link (R331, R340) -/

/-- The result of a link is valid (Table 10.8). -/
def Link.ttValid (x : Link) : Bool := bit x.ttInfo 31

/-- A link whose result serves: valid, and in SYNC, since a link that receives no frame has no result (log entry 100,
DEDUCED). -/
def Link.serves (x : Link) : Bool := x.ttValid && x.align = 4

/-- The least of a list of (delay, link) pairs. -/
def leastDelay (l : List (Nat × Nat)) : Option Nat :=
  match l with
  | [] => none
  | p :: ps => some (ps.foldl (fun q r => if r.1 < q.1 ∨ (r.1 = q.1 ∧ r.2 < q.2) then r else q) p).2

/-- The link a worker would choose now: direct to the manager with the least delay, else to a peer that hears it. -/
def Dev.bestTimeLink (d : Dev) : Option (Nat × Bool) :=
  let ok := d.fab.links.filter fun p => p.2.serves && (d.peerOf p.1).isSome
  let direct := ok.filter fun p => p.2.nbrDev = claimDev d.fab.obeyed
  let by' (l : List (Nat × Link)) := leastDelay (l.map fun p => ((BitVec.toInt p.2.ttDelay + 2 ^ 31).toNat, p.1))
  match by' direct with
  | some n => some (n, false)
  | none => ((ok.find? fun p => p.2.bDirect).map (·.1)).map fun n => (n, true)

/-- The time link, with TIME_STATUS.indirect after it (R81, R340). -/
def Dev.setTimeLink (d : Dev) (t : Option (Nat × Bool)) : Dev := ({ d with fab := { d.fab with timeLink := t } }).noteIndirect

/-- A worker keeps its time link while that link's result is valid; whether its peer is the manager is read anew (R340). -/
def Dev.chooseTimeLink (d : Dev) : Dev :=
  if d.isManager ∨ d.fab.obeyed = 0 then d.setTimeLink none
  else
    let d1 := d.followTime
    match d1.fab.timeLink with
    | some (n, _) =>
      if (d1.link n).serves then d1.setTimeLink (some (n, decide (d1.peerOf n ≠ some (claimDev d1.fab.obeyed))))
      else d1.setTimeLink d1.bestTimeLink
    | none => d1.setTimeLink d1.bestTimeLink

/-- The obeyed claim changes: time comes through a link chosen anew (R80, R331, R340). -/
def Dev.setObeyed (d : Dev) (c : Nat) : Dev :=
  if c = d.fab.obeyed then d
  else
    let d1 := (({ d with fab := { d.fab with obeyed := c } }).setTimeLink none).latchBit Reg.TRL_MGR_STATUS 8
    if c = 0 then d1 else (d1.dropForeignHeld c).chooseTimeLink

/-- The role state changes (Table 12.1); one that is no longer ACTIVE arms no plan and selects no root (R334). -/
def Dev.setRole (d : Dev) (r : Nat) : Dev :=
  if r = d.fab.role then d
  else ({ d with fab := { d.fab with role := r, planWait := [], rootPend := none } }).latchBit Reg.TRL_MGR_STATUS 8

/-- A candidate acts on a beacon it hears (Table 12.1). -/
def Dev.candidateHears (d : Dev) (role claim : Nat) : Dev :=
  if !d.candidate then d
  else match d.fab.role with
    | 0 => if role = 2 ∨ (role = 1 ∧ d.ownClaim < claim) then d.setRole 1 else d
    | 2 => if role = 2 ∧ d.ownClaim < claim then d.setRole 1 else d
    | _ => d

/-- The beacon of link `n` is heard (R330, R331). -/
def Dev.hearBeacon (d : Dev) (n : Nat) : Dev :=
  let x := d.link n
  let d1 := d.candidateHears x.bRole x.bClaim
  let heard := if x.bRole = 2 then x.bClaim else if x.bDirect then x.bObeyed else 0
  (if d1.isManager ∨ heard ≤ d1.fab.obeyed then d1 else d1.setObeyed heard).noteHeard x.bRole x.bClaim

/-- A message of a claim that is not obeyed is discarded (R331). -/
def Dev.foreignMsg (d : Dev) : Dev := (d.inc bankTrl 18).latchBit Reg.TRL_MGR_STATUS 10

/-- The source is the manager that the device obeys (R331). -/
def Dev.fromManager (d : Dev) (src : Nat) : Bool := d.fab.obeyed ≠ 0 && !d.isManager && src = claimDev d.fab.obeyed

/-! ## Fragments (R338, Table 12.2) -/

/-- The header of a fragment. -/
def fragHdr (typ src dst : Nat) (bcast relayed : Bool) (msg frag last len : Nat) : Bytes :=
  be 8 (typ * 2 ^ 56 + src * 2 ^ 51 + dst * 2 ^ 46 + b2n bcast * 2 ^ 45 + b2n relayed * 2 ^ 44 + msg % 2 ^ 16 * 2 ^ 28 +
    frag * 2 ^ 18 + last * 2 ^ 8 + len)

/-- The fragments of a message, each of 152 bytes. -/
def fragments (typ src dst : Nat) (bcast : Bool) (msg : Nat) (payload : Bytes) : List Bytes :=
  let n := max 1 (ceilDiv payload.length 144)
  (List.range n).map fun i =>
    let part := (payload.drop (144 * i)).take 144
    fragHdr typ src dst bcast false msg i (n - 1) part.length ++ padTo 144 part

/-- Priority of a type (Table 12.4). -/
def msgPrio (typ : Nat) : Nat := [9, 1, 1, 2, 3, 4].getD typ 9

/-- Queue fragments on a link. -/
def Dev.queueOn (d : Dev) (n prio : Nat) (fs : List Bytes) : Dev :=
  d.modLink n fun x => { x with txMsg := x.txMsg ++ fs.map fun f => (prio, f) }

/-- The next fragment of a link: the least priority number, oldest first. -/
def nextFrag (l : List (Nat × Bytes)) : Option (Nat × Bytes) :=
  let least := (l.map (·.1)).foldl min 9
  l.find? fun p => p.1 = least

/-- Remove the first occurrence of the next fragment. -/
def popFrag (l : List (Nat × Bytes)) : List (Nat × Bytes) :=
  match nextFrag l with
  | some f => l.erase f
  | none => l

/-- The lowest-numbered link in SYNC to a device (R339). -/
def Dev.linkToPeer (d : Dev) (dev : Nat) : Option Nat :=
  (d.fab.links.find? fun p => p.2.align = 4 && d.peerOf p.1 = some dev).map (·.1)

/-- A device reports a working link to `dev` (Table 11.4). -/
def Report.reaches (r : Report) (dev : Nat) : Bool :=
  (List.range 256).any fun n => let w := unbe (slice r.links (4 * n) 4); w / 2 ^ 31 = 1 && w / 2 ^ 24 % 32 = dev

/-- The link that a message to `dst` leaves on: direct, else through one intermediate (R339, log entry 20, DESIGN CHOICE). -/
def Dev.linkFor (d : Dev) (dst : Nat) : Option Nat :=
  match d.linkToPeer dst with
  | some n => some n
  | none =>
    (d.fab.links.find? fun p => p.2.align = 4 && (d.peerOf p.1).isSome &&
      (if d.isManager then (Tbl.get {} d.fab.reports p.2.nbrDev : Report).reaches dst else p.2.bDirect)).map (·.1)

/-- A number for a new message. -/
def Dev.newMsg (d : Dev) : Nat × Dev := (d.fab.msgId, { d with fab := { d.fab with msgId := (d.fab.msgId + 1) % 65536 } })

/-- Send a message to one device. -/
def Dev.sendMsg (d : Dev) (typ dst : Nat) (payload : Bytes) : Dev :=
  match d.linkFor dst with
  | none => d
  | some n => let m := d.newMsg; m.2.queueOn n (msgPrio typ) (fragments typ d.devId dst false m.1 payload)

/-- Send a message to every peer, on its lowest-numbered link in SYNC (log entry 20, DESIGN CHOICE). -/
def Dev.broadcast (d : Dev) (typ : Nat) (payload : Bytes) : Dev :=
  let m := d.newMsg
  let fs := fragments typ d.devId 0 true m.1 payload
  let devs := ((d.fab.links.filter fun p => p.2.align = 4).filterMap fun p => d.peerOf p.1).eraseDups
  devs.foldl (fun d v => match d.linkToPeer v with
    | some n => d.queueOn n (msgPrio typ) fs
    | none => d) m.2

/-! ## Receiving fragments (R338, R339) -/

/-- Mark of an assembly that has lost a fragment: its rest is passed over. -/
def asmDead : Nat := 2000

def fType (f : Bytes) : Nat := (f.getD 0 0).toNat
def fWord (f : Bytes) : Nat := unbe (f.take 8)
def fSrc (f : Bytes) : Nat := fWord f / 2 ^ 51 % 32
def fDst (f : Bytes) : Nat := fWord f / 2 ^ 46 % 32
def fBcast (f : Bytes) : Bool := (fWord f).testBit 45
def fRelayed (f : Bytes) : Bool := (fWord f).testBit 44
def fMsg (f : Bytes) : Nat := fWord f / 2 ^ 28 % 65536
def fFrag (f : Bytes) : Nat := fWord f / 2 ^ 18 % 1024
def fLast (f : Bytes) : Nat := fWord f / 2 ^ 8 % 1024
def fLen (f : Bytes) : Nat := min 144 (fWord f % 256)

/-- Set relayed in a fragment. -/
def setRelayed (f : Bytes) : Bytes := be 8 (if fRelayed f then fWord f else fWord f + 2 ^ 44) ++ f.drop 8

/-- Forward a fragment on a link. -/
def Dev.forwardFrag (d : Dev) (n : Nat) (f : Bytes) : Dev := (d.queueOn n (msgPrio (fType f)) [setRelayed f]).inc bankTrl 17

/-- A unicast fragment for another device (R339). -/
def Dev.relayUnicast (d : Dev) (f : Bytes) : Dev :=
  if fRelayed f then d
  else match d.linkToPeer (fDst f) with
    | some n => d.forwardFrag n f
    | none => d

/-- A broadcast fragment of the obeyed manager is sent again by a worker that hears it directly (R339). -/
def Dev.relayBroadcast (d : Dev) (f : Bytes) : Dev :=
  if fRelayed f ∨ !d.fromManager (fSrc f) ∨ !d.hearsDirect then d
  else ((d.fab.links.filter fun p => p.2.align = 4 && (d.peerOf p.1).isSome && !p.2.bDirect).map (·.1)).foldl
    (fun d n => d.forwardFrag n f) d

/-- A message is complete: it is handed on, or discarded (R331, R338). -/
def Dev.takeMsg (d : Dev) (typ src : Nat) (payload : Bytes) : Dev :=
  if typ = 0 ∨ 5 < typ then d.inc bankTrl 16
  else
    let d1 := d.inc bankTrl 15
    if (typ = 1 ∨ typ = 3) ∧ !d1.fromManager src then d1.foreignMsg
    else { d1 with fab := { d1.fab with inbox := d1.fab.inbox ++ [(typ, src, payload)] } }

/-- The assemblies of a link without one message. -/
def dropAsm (l : List Asm) (src msg : Nat) : List Asm := l.filter fun a => !(a.src = src && a.msg = msg)

/-- A fragment joins its message on link `n`. -/
def Dev.joinFrag (d : Dev) (n : Nat) (f : Bytes) : Dev :=
  let part := (f.drop 8).take (fLen f)
  let rest := dropAsm (d.link n).asm (fSrc f) (fMsg f)
  let old := (d.link n).asm.find? fun a => a.src = fSrc f && a.msg = fMsg f
  let put' (d : Dev) (next : Nat) (bs : Bytes) : Dev :=
    d.modLink n fun x => { x with asm := rest ++ [{ src := fSrc f, msg := fMsg f, typ := fType f, next := next, bytes := bs }] }
  let gone (d : Dev) : Dev := d.modLink n fun x => { x with asm := rest }
  let lose (d : Dev) : Dev := (if fFrag f = fLast f then gone d else put' d asmDead []).inc bankTrl 16
  let next (d : Dev) (typ : Nat) (bs : Bytes) : Dev :=
    if fFrag f = fLast f then (gone d).takeMsg typ (fSrc f) bs else put' d (fFrag f + 1) bs
  match old with
  | some a =>
    if fFrag f = 0 then next (if a.next = asmDead then d else d.inc bankTrl 16) (fType f) part
    else if a.next = fFrag f then next d a.typ (a.bytes ++ part)
    else if a.next = asmDead then if fFrag f = fLast f then gone d else d
    else lose d
  | none =>
    if fFrag f ≠ 0 ∨ 8 ≤ (rest.filter fun a => a.next ≠ asmDead).length then lose d else next d (fType f) part

/-- The fragment of a good frame on link `n`. -/
def Dev.takeFrag (d : Dev) (n : Nat) (f : Bytes) : Dev :=
  if fType f = 0 then d
  else if !fBcast f ∧ fDst f ≠ d.devId then d.relayUnicast f
  else (if fBcast f then d.relayBroadcast f else d).joinFrag n f

end Sys2Proof.Machine
end

