-- ==== Sys2Proof/Machine/LinkCore.lean ====
section
/-! DEFINITION. The overhead slot of a Trellis link, received and sent: the alignment hunt, defects seen in the overhead,
neighbour, calendar requests and time transfer (R272, R273, R280 to R293, R317). -/
namespace Sys2Proof.Machine

/-! ## The slot (Table 10.3) -/

/-- The frame alignment word. -/
def faw : Bytes := be 8 0xF628F6283CA59E17

def ohFaw (bs : Bytes) : Bool := slice bs 0 8 == faw
def ohGood (bs : Bytes) : Bool := unbe (slice bs 270 2) = (crc16 (padTo 270 (bs.take 270))).toNat
def ohMfi (bs : Bytes) : Nat := (bs.getD 8 0).toNat
def ohMfc (bs : Bytes) : Nat := unbe (slice bs 9 3)
def ohDev (bs : Bytes) : Nat := (bs.getD 12 0).toNat / 8
def ohLink (bs : Bytes) : Nat := (bs.getD 13 0).toNat
def ohFlag (bs : Bytes) (i : Nat) : Bool := (bs.getD 14 0).getLsbD i
def ohReq (bs : Bytes) : BitVec 64 := BitVec.ofNat 64 (unbe (slice bs 16 8))
def ohGen (bs : Bytes) : Nat := unbe (slice bs 32 2)
def ohRxMfi (bs : Bytes) : Nat := (bs.getD 64 0).toNat
def ohMsg (bs : Bytes) : Bytes := slice bs 96 168

/-- A 96-bit device time in a byte string (R39). -/
def timeAt (bs : Bytes) (o : Nat) : DevTime :=
  { sec := unbe (slice bs o 6), ns := unbe (slice bs (o + 6) 4), frac := unbe (slice bs (o + 10) 2) * 2 ^ 32 }

/-- A time as the 96-bit layout holds it. -/
def DevTime.stamped (t : DevTime) : DevTime := { t with frac := t.subns * 2 ^ 32 }

/-! ## Alignment (R283 to R285) -/

/-- A step of the hunt at byte position `pos`: `ok` says that faw and oh_crc hold there. -/
def huntStep (cs : List LinkCand) (pos mfi : Nat) (ok : Bool) : List LinkCand :=
  let new : LinkCand := { pos := pos, count := 1, next := (mfi + 1) % 256 }
  match cs.find? fun c => c.pos = pos with
  | some c =>
    if ok ∧ mfi = c.next then
      cs.map fun c => if c.pos = pos then { c with count := c.count + 1, next := (mfi + 1) % 256 } else c
    else
      let rest := cs.filter fun c => c.pos ≠ pos
      if ok then rest ++ [new] else rest
  | none => if ok ∧ cs.length < 4 then cs ++ [new] else cs

/-- HUNT and PRESYNC examine a position (R284). -/
def Dev.hunt (d : Dev) (n pos : Nat) (bs : Bytes) : Dev :=
  let x := d.link n
  let cs := huntStep x.cands pos (ohMfi bs) (ohFaw bs && ohGood bs)
  if cs.any fun c => 3 ≤ c.count then
    let d1 := d.setLink n { x with align := 4, cands := [], pos := pos, badRun := 0, rxMfi := ohMfi bs, rxMfc := ohMfc bs,
                                   lastGood := some (ohMfi bs), nbrRun := (0, 0, 0), rxReqRun := 0, ttArr := [] }
    (d1.unsetDefect n 6).latchBit (Reg.TRL_LINK_STATUS n) 20
  else (d.setLink n { x with cands := cs, align := if cs.isEmpty then 2 else 3 }).lofCheck n

/-- Four bad frames in a row: out of frame (R285). -/
def Dev.outOfFrame (d : Dev) (n : Nat) : Dev :=
  ((d.modLink n fun x => { x with align := 2, cands := [], badRun := 0 }).inc (bankLink n) 13).lofCheck n

/-! ## Defects of the overhead (R286, R287) -/

/-- One good frame toward the declaration or the clearing of a defect: `hit` says that it shows the defect. -/
def Dev.runDefect (d : Dev) (n b : Nat) (hit : Bool) : Dev :=
  let x := d.link n
  if x.suppressed b then d.setLink n (x.setRun b 0)
  else if hit = x.has b then d.setLink n (x.setRun b 0)
  else if x.run b < 2 then d.setLink n (x.setRun b (x.run b + 1))
  else if hit then d.setDefect n b
  else d.unsetDefect n b

/-- A frame without a good oh_crc ends every run of consecutive good frames. -/
def Link.endRuns (x : Link) : Link := { x with lomRun := 0, aisRun := 0, rdiRun := 0, calmRun := 0, nbrRun := (0, 0, 0), rxReqRun := 0 }

/-- The frame number that follows. -/
def nextFrame (mfi mfc : Nat) : Nat × Nat := if mfi = 255 then (0, (mfc + 1) % 2 ^ 24) else (mfi + 1, mfc)

/-- Frame numbering, with LOM (R273, R286): the count goes on by itself until LOM is declared, and then follows. -/
def Dev.numberFrame (d : Dev) (n : Nat) (bs : Bytes) : Dev :=
  let x := d.link n
  let e := nextFrame x.rxMfi x.rxMfc
  let good := x.lastGood.map fun m => (m + 1) % 256
  let off : Bool := good ≠ some (ohMfi bs)
  let d1 := d.runDefect n 5 off
  let follow : Bool := !off || (d1.link n).has 5
  d1.modLink n fun x => { x with
    rxMfi := if follow then ohMfi bs else e.1, rxMfc := if follow then ohMfc bs else e.2, lastGood := some (ohMfi bs) }

/-! ## Neighbour and calendar request (R289, R317) -/

/-- The neighbour named by three consecutive good frames is recorded. -/
def Dev.noteNbr (d : Dev) (n : Nat) (bs : Bytes) : Dev :=
  let x := d.link n
  let r := if x.nbrRun.1 = ohDev bs ∧ x.nbrRun.2.1 = ohLink bs then min 3 (x.nbrRun.2.2 + 1) else 1
  let d1 := d.setLink n { x with nbrRun := (ohDev bs, ohLink bs, r) }
  if r < 3 then d1
  else
    let changed : Bool := !x.nbrValid || x.nbrDev ≠ ohDev bs || x.nbrLink ≠ ohLink bs
    let d2 := d1.modLink n fun x => { x with nbrValid := true, nbrDev := ohDev bs, nbrLink := ohLink bs, nbrGen := ohGen bs }
    if !changed then d2
    else
      let d3 := (d2.latchBit (Reg.TRL_LINK_STATUS n) 19).logBit 0x80 0 19 n []
      if ohDev bs = d.devId then d3.latchBit (Reg.TRL_LINK_STATUS n) 18 else d3

/-- A calendar request is persistent after three consecutive good frames, and is echoed (R317). -/
def Link.noteReq (x : Link) (r : BitVec 64) : Link :=
  if !bit r 63 then { x with rxReq := r, rxReqRun := 0 }
  else
    let k := if x.rxReq = r then min 3 (x.rxReqRun + 1) else 1
    let y := { x with rxReq := r, rxReqRun := k }
    if k = 3 then { y with rxPersist := some r, ack := r } else y

/-! ## Time transfer (R291 to R293) -/

/-- Twice θ and twice d of a sample in units of 2^-48 ns (R292), when the sample is valid. -/
def Dev.ttSample (d : Dev) (n : Nat) (bs : Bytes) : Option (Int × Int) :=
  let x := d.link n
  let m := ohMfi bs
  let a1 := x.ttDep.find? fun p => p.1 = ohRxMfi bs
  let a2 := x.ttArr.find? fun p => p.mfi = (m + 255) % 256
  if !ohFlag bs 4 ∨ x.defects.toNat / 8 ≠ 0 ∨ x.selfLoop d.devId then none
  else match a1, a2 with
    | some p, some q =>
      let f : Int := (timeAt bs 52).units - p.2.units
      let g : Int := q.time.units - (timeAt bs 40).units
      let asym : Int := signed 16 (fld (d.reg (Reg.TRL_LINK_ASYM n)) 15 0) * 2 ^ 44
      some (f - g - asym, f + g)
    | _, _ => none

/-- A mean of `k` doubled samples in units of 2^-8 ns as a register holds it. How it is rounded, and a mean beyond the
register, the spec leaves open: the next value up or down, or any word (log entry 21, DESIGN CHOICE). -/
def ttWord (sum : Int) (k free : Nat) : Word :=
  let den : Int := 2 * (k : Int) * 2 ^ 40
  let q := sum / den
  let r := if sum % den = 0 then q else q + (free % 2 : Nat)
  if -(2 ^ 31) ≤ r ∧ r < 2 ^ 31 then BitVec.ofInt 32 r else wd free

/-- The result of a multiframe (R293). -/
def Dev.ttResult (d : Dev) (n : Nat) (bs : Bytes) : Dev :=
  let x := d.link n
  let k := x.ttCount
  let f := d.takeFree
  let g := f.2.takeFree
  let info : Word := wd (b2n (decide (64 ≤ k)) * 2 ^ 31 + b2n (ohFlag bs 5) * 2 ^ 30 + min 256 k * 2 ^ 16 + ohMfc bs % 2 ^ 16)
  let y := { x with ttSum := 0, ttDsum := 0, ttCount := 0, ttInfo := info }
  (g.2.setLink n (if 64 ≤ k then { y with ttOffset := ttWord x.ttSum k f.1, ttDelay := ttWord x.ttDsum k g.1 } else y)).chooseTimeLink

/-- The time fields of a good frame. -/
def Dev.ttFrame (d : Dev) (n : Nat) (bs : Bytes) : Dev :=
  let d1 := match d.ttSample n bs with
    | some s => d.modLink n fun x => { x with ttSum := x.ttSum + s.1, ttDsum := x.ttDsum + s.2, ttCount := x.ttCount + 1 }
    | none => d
  if ohMfi bs = 255 then d1.ttResult n bs else d1

/-- The arrival of a frame in SYNC (R291), and the phase against the own transmit frame (Table 11.6). -/
def Dev.arrive (d : Dev) (n : Nat) (good : Bool) : Dev :=
  let x := d.link n
  let a : Arrival := { mfi := x.rxMfi, time := d.time.now.stamped, good := good, sent := x.txFrame }
  let ph := match x.ttDep with
    | p :: _ => (d.time.now.nsTotal - p.2.nsTotal) % 1415
    | [] => 0
  d.setLink n { x with ttArr := (a :: x.ttArr).take 16, phase := ph }

/-! ## A frame received (R281, R282, R285, R294) -/

/-- A frame counts toward the current second; it is errored from the start when faw or oh_crc fails, or the codeword of its first
bytes (R294). -/
def Dev.pmFrame (d : Dev) (n : Nat) (bad : Bool) : Dev :=
  (d.pmNote n fun s => { s with frames := s.frames + 1, errored := s.errored + b2n bad }).modLink n fun x => { x with frameErr := bad }

/-- The overhead of a frame whose oh_crc is good is delivered. -/
def Dev.deliverOh (d : Dev) (n : Nat) (bs : Bytes) : Dev :=
  let d1 := (d.numberFrame n bs).arrive n true
  let d2 := (d1.runDefect n 4 (ohFlag bs 6)).runDefect n 3 (ohFlag bs 7)
  let d3 := d2.runDefect n 0 (decide (ohGen bs ≠ d2.activeGen n 1))
  let d4 := (d3.noteNbr n bs).modLink n fun x => { x.noteReq (ohReq bs) with beacon := (ohMsg bs).take 12 }
  ((d4.ttFrame n bs).hearBeacon n).takeFrag n ((ohMsg bs).drop 16)

/-- A frame at the frame position in SYNC; `bad` says that a codeword of its overhead is uncorrectable. -/
def Dev.syncFrame (d : Dev) (n : Nat) (bs : Bytes) (bad : Bool) : Dev :=
  let fawBad := !ohFaw bs
  let crcBad := !ohGood bs
  let d0 := d.pmFrame n (fawBad || crcBad || bad)
  let d1 := if fawBad then d0.inc (bankLink n) 12 else d0
  let d2 := if crcBad then
      let e := d1.inc (bankLink n) 11
      let f := nextFrame (e.link n).rxMfi (e.link n).rxMfc
      (e.modLink n fun x => { x.endRuns with rxMfi := f.1, rxMfc := f.2 }).arrive n false
    else d1.deliverOh n bs
  if (d2.link n).align ≠ 4 then d2
  else if fawBad ∨ crcBad then
    if 3 ≤ (d2.link n).badRun then d2.outOfFrame n else d2.modLink n fun x => { x with badRun := x.badRun + 1 }
  else d2.modLink n fun x => { x with badRun := 0 }

/-- 272 bytes at byte position `pos` of the corrected stream reach the framer as an overhead slot. -/
def Dev.overheadAt (d : Dev) (n pos : Nat) (bs : Bytes) (bad : Bool) : Dev :=
  let x := d.link n
  if x.align = 2 ∨ x.align = 3 then d.hunt n pos bs
  else if x.align = 4 ∧ x.pos = pos then d.syncFrame n bs bad
  else d

/-- An overhead slot with the codewords that came with it; `bad` says that one that carries any of its bytes is uncorrectable. -/
def Dev.overheadIn (d : Dev) (n pos : Nat) (bs : Bytes) (cws : List Codeword) (bad : Bool) : Dev :=
  if d.hears n then ((d.takeCws n cws).overheadAt n pos bs bad).updateReach else d

/-! ## A frame sent (R272, R280, R281, R288, R316) -/

/-- One frame in units of 10^-4 ns: 1.4144 µs (Table 10.1). -/
def frameU : Nat := 14144000

/-- The number of the calendar cycle of a transmit frame (R273). -/
def cycleOf (frame : Nat) : Nat := frame / 16 % 2 ^ 28

/-- The first transmit frame that begins a calendar cycle at or after an instant in ns (R316): counted from the last
departure. -/
def Dev.boundaryFrame (d : Dev) (n instant : Nat) : Nat :=
  let x := d.link n
  let next := x.txFrame
  let ahead := match x.ttDep with
    | p :: _ => ceilDiv ((instant * nsUnit - p.2.units) * 10 ^ 4) (frameU * nsUnit) - 1
    | [] => 0
  ceilDiv (next + ahead) 16 * 16

/-- Links that a CALENDAR_SWITCH entry names (Table 2.11): one, or all. -/
def LEntry.namesLink (e : LEntry) (n : Nat) : Bool := e.target = 0xFFFFFFFF || e.target % 256 = n

/-- The armed transmit switches of a link: (first frame of the boundary, direction of the argument) (R316). -/
def Dev.txSwitches (d : Dev) (n : Nat) : List (Nat × Nat) :=
  let armed := d.lnch.entries.filter fun p =>
    p.2.kind = 2 && (p.2.st = .armed || p.2.st = .dispatched) && p.2.namesLink n && p.2.arg % 2 = 1
  (armed.map fun p => (d.boundaryFrame n p.2.instant, p.2.arg % 4)) ++
    (d.link n).txArm.map fun a => (a.2, a.1)

/-- The earliest of a list of switches. -/
def earliest : List (Nat × Nat) → Option (Nat × Nat)
  | [] => none
  | p :: ps => some (ps.foldl (fun q r => if r.1 < q.1 then r else q) p)

/-- cal_req (R316, Table 10.3). -/
def Dev.calReq (d : Dev) (n : Nat) : Nat :=
  match earliest (d.txSwitches n) with
  | none => 0
  | some (f, dir) =>
    let pg := (d.link n).standby 0
    2 ^ 63 + dir * 2 ^ 61 + pg * 2 ^ 60 + d.gen n 0 pg * 2 ^ 44 + cycleOf f

/-- The transmit side sends ais and idle cells (R288). -/
def Dev.sendsAis (d : Dev) (n : Nat) : Bool := bit (d.reg (Reg.TRL_LINK_CTRL n)) 1 || (d.link n).txPage.isNone

/-- The groups of distributed entries that CONFIRM names now (R79, R337): confirmed, in the period before the instant
minus 20 µs. -/
def Dev.confirmed (d : Dev) : List Nat :=
  if !d.isManager then []
  else (d.lnch.entries.filter fun p =>
    3584 ≤ p.1 && p.2.confirmed && (p.2.st = .armed || p.2.st = .dispatched) && d.time.now.nsTotal + 20000 < p.2.instant).map (·.1)

/-- The group that frame `f` names: the groups take turns. -/
def Dev.confirmGroup (d : Dev) (f : Nat) : Option Nat :=
  let gs := ((d.confirmed.map fun i => (i - 3584) / 32).eraseDups).mergeSort
  gs[f % gs.length]?

/-- The message channel's first 16 bytes (Table 12.1, Table 12.2). -/
def Dev.beaconOut (d : Dev) (n f : Nat) : Bytes :=
  let role := if d.isManager then 2 else if d.candidate then 1 else 0
  let claim := if d.candidate ∧ d.fab.role ≠ 1 then d.ownClaim else 0
  let rec' := if (d.link n).flash ≠ 0 then d.fab.reclaim else none
  let flash := match rec' with
    | some v => 128 + v * 8
    | none => 0
  let g := d.confirmGroup f
  let mask := match g with
    | some g => ((List.range 32).map fun b => if d.confirmed.contains (3584 + 32 * g + b) then 2 ^ b else 0).foldl (· + ·) 0
    | none => 0
  be 2 claim ++ be 1 (role * 64) ++ be 1 (flash + b2n g.isSome * 4) ++ be 2 d.fab.obeyed ++ be 1 (g.getD 0) ++
    be 1 (b2n d.direct) ++ be 4 mask ++ be 4 0

/-- The frame that rx_ts names (R281): the latest with a good oh_crc that arrived before building began, 200 ns before
the departure. -/
def Dev.rxFrame (d : Dev) (n : Nat) : Option Arrival :=
  (d.link n).ttArr.find? fun a => a.good && a.time.units + 200 * nsUnit < d.time.now.units

/-- The 270 bytes of an overhead slot before its oh_crc. `dep` and `unk` stand for time fields that refer to no frame. -/
def Dev.ohBody (d : Dev) (n dep unk : Nat) : Bytes :=
  let x := d.link n
  let f := x.txFrame
  let ctrl := d.reg (Reg.TRL_LINK_CTRL n)
  let rx := d.rxFrame n
  let recent := match rx with
    | some a => decide (f ≤ a.sent + 15)
    | none => false
  let flags := b2n (x.down || bit ctrl 2) * 128 + b2n (d.sendsAis n) * 64 + b2n d.timeValid * 32 + b2n recent * 16
  let txTs := match x.ttDep with
    | p :: _ => p.2.bytes
    | [] => be 12 dep
  let rxTs := match rx with
    | some a => a.time.bytes ++ be 1 a.mfi
    | none => be 13 unk
  let frag := match nextFrag x.txMsg with
    | some p => p.2
    | none => List.replicate 152 0#8
  faw ++ be 1 (f % 256) ++ be 3 (f / 256) ++ be 1 (d.devId * 8) ++ be 1 n ++ be 1 flags ++ be 1 0 ++ be 8 (d.calReq n) ++
    be 8 x.ack.toNat ++ be 2 (d.activeGen n 0) ++ be 6 0 ++ txTs ++ rxTs ++ List.replicate 31 0#8 ++ d.beaconOut n f ++ frag ++ be 6 0

/-- The framer sends the overhead slot of the next frame. -/
def Dev.overheadOut (d : Dev) (n : Nat) : Dev :=
  let x := d.link n
  if !x.txOn ∨ x.txIdle then d
  else
    let u := d.takeFree
    let v := u.2.takeFree
    let body := v.2.ohBody n u.1 v.1
    let slot := body ++ be 2 (crc16 body).toNat
    let d1 := v.2.emit (.overhead n slot)
    let d2 := if x.txMsg = [] then d1 else d1.inc bankTrl 14
    (d2.setLink n { x with txFrame := x.txFrame + 1, txMsg := popFrag x.txMsg, flash := x.flash - 1,
                           ttDep := ((x.txFrame % 256, d.time.now.stamped) :: x.ttDep).take 16 }).lineOut n slot

end Sys2Proof.Machine
end

