-- ==== Sys2Proof/Machine/Links.lean ====
section
/-! DEFINITION. The commands of a Trellis link: enabling, alignment, overhead, defects, time-transfer reads and
performance monitoring (R271, R281 to R301). -/
namespace Sys2Proof.Machine

/-! ## TRL_LINK_CTRL (R283, Table 10.8) -/

/-- A link leaves OFF: it acquires, and its transmitter starts to send frames. -/
def Link.start (x : Link) (now : Nat) : Link :=
  ({ x with align := 1, txOn := true, txFrame := 0, lineBuf := [], ttDep := [], ttArr := [] } : Link).afresh 10 now

/-- A link returns to OFF: nothing is detected, and the transmitter is in electrical idle. -/
def Link.stop (x : Link) : Link := { x.endRuns with align := 0, cands := [], badRun := 0, defects := 0#10, txOn := false }

/-- A bin emptied by pm_clear: a current bin goes on, suspect (R297). -/
def PmBin.emptied (b : PmBin) (current : Bool) : PmBin :=
  if current && b.exists_ then { exists_ := true, suspect := true, start := b.start } else {}

/-- pm_clear (R297). -/
def Link.pmClear (x : Link) : Link :=
  { x with pmBins := (List.range 19).map fun i => (x.pmBins.getD i {}).emptied (i = 0 || i = 17) }

/-- Every reported defect of a link clears, with its event (R290). -/
def Dev.clearAll (d : Dev) (n : Nat) : Dev := (List.range 10).foldl (fun d b => d.unsetDefect n b) d

/-- A write to TRL_LINK_CTRL. A link that is disabled reports nothing: its defects clear first. -/
def Dev.linkCtrlWrite (d : Dev) (n : Nat) (v : Word) : Dev :=
  let key := Reg.TRL_LINK_CTRL n
  let was := bit (d.reg key) 0
  let is := bit v 0
  let d0 := if was && !is then d.clearAll n else d
  let d1 := (if was = is then d0 else d0.pmBreak n).writeRw key 0x307#32 v
  let d2 := if was = is then d1 else (d1.modLink n fun x => if is then x.start d.time.tsc else x.stop).updateReach
  if bit v 4 then (d2.pmRoll n).modLink n Link.pmClear else d2

/-- TRL_LINK_ENABLE (R283). -/
def execTrlLinkEnable (n : Fin 256) (s : State) : Host.Outcome State Fault Refusal :=
  actReg .bar0 (Reg.TRL_LINK_CTRL n) (.trlLinkEnable n) s fun d => d.linkCtrlWrite n (setFld (d.reg (Reg.TRL_LINK_CTRL n)) 0 0 1)

/-- TRL_LINK_DISABLE (R283). -/
def execTrlLinkDisable (n : Fin 256) (s : State) : Host.Outcome State Fault Refusal :=
  actReg .bar0 (Reg.TRL_LINK_CTRL n) (.trlLinkDisable n) s fun d => d.linkCtrlWrite n (setFld (d.reg (Reg.TRL_LINK_CTRL n)) 0 0 0)

/-- PM_CLEAR (R297). -/
def execPmClear (n : Fin 256) (s : State) : Host.Outcome State Fault Refusal :=
  actReg .bar0 (Reg.TRL_LINK_CTRL n) (.pmClear n) s fun d => d.linkCtrlWrite n (d.reg (Reg.TRL_LINK_CTRL n) ||| 0x10#32)

/-! ## Transmitters and alignment -/

/-- Number of the transmit PLL of a framer among the SerDes PLLs that may be out of lock: one serves its eight lanes (R266). -/
def framerPll (f : Nat) : Nat := 128 + f

/-- Set the electrical idle of a framer's eight transmitters (R271); a codeword they had begun is lost. -/
def Dev.framerIdle (d : Dev) (f : Nat) (v : Bool) : Dev :=
  (List.range 8).foldl (fun d i => d.modLink (8 * f + i) fun x => { x with txIdle := v, lineBuf := [] }) d

/-- The transmit PLL of a framer is locked. -/
def Dev.framerLocked (d : Dev) (f : Nat) : Bool := !d.boot.lanesOut.contains (framerPll f)

/-- FABRIC_TX_RESUME (R271). -/
def execFabricTxResume (f : Fin 32) (s : State) : Host.Outcome State Fault Refusal :=
  actIn pllFabric (.fabricTxResume f) s fun d => if d.framerLocked f then d.framerIdle f false else d

/-- ACQUIRE ends: the hunt begins (R283). A lane of the wrong polarity does not lock (R268). -/
def Dev.codewordLock (d : Dev) (n : Nat) (swapped : Bool) : Dev :=
  if (d.link n).align = 1 ∧ swapped = bit (d.reg (Reg.TRL_LINK_CTRL n)) 9 then
    (d.modLink n fun x => { x with align := 2, cands := [], swapped := swapped }).lofCheck n
  else d

/-- CODEWORD_LOCK (R268, R269, R283): `swapped` says that the pair of the lane is swapped. -/
def execCodewordLock (n : Fin 256) (swapped : Bool) (s : State) : Host.Outcome State Fault Refusal :=
  actIn pllFabric (.codewordLock n swapped) s fun d => d.codewordLock n swapped

/-- OVERHEAD_TRANSMIT (R281). -/
def execOverheadTransmit (n : Fin 256) (s : State) : Host.Outcome State Fault Refusal :=
  actIn pllFabric (.overheadTransmit n) s fun d => d.overheadOut n

/-- OVERHEAD_RECEIVE (R282, R294), with the codewords that came since the last row of the link. -/
def execOverheadReceive (n : Fin 256) (pos : Nat) (bytes : Bytes) (cws : List Codeword) (bad : Bool) (s : State) :
    Host.Outcome State Fault Refusal :=
  actLive pllFabric s fun d => d.overheadIn n pos bytes cws bad

/-! ## Defects (R286, R287) -/

/-- Defects that the lane and the codec see; LOF follows the alignment, and LOM, AIS, RDI and CALM follow the overhead
received. -/
def laneDefect (b : Nat) : Bool := 7 ≤ b || b = 2 || b = 1

/-- A defect is to be declared: LOA, SF and SD are when codewords and windows meet Table 10.5. -/
def Dev.defectDeclared (d : Dev) (n b : Nat) : Dev :=
  let d1 := d.sigRoll n
  let x := d1.link n
  if x.align = 0 ∨ !laneDefect b ∨ x.has b ∨ x.suppressed b ∨ !x.declares b then d1.lofCheck n else (d1.setDefect n b).updateReach

/-- A reported defect is to be cleared; LOF shows once nothing suppresses it. -/
def Dev.defectCleared (d : Dev) (n b : Nat) : Dev :=
  let d1 := d.sigRoll n
  if laneDefect b ∧ (d1.link n).clears b then ((d1.unsetDefect n b).lofCheck n).updateReach else d1

/-- DEFECT_DECLARE (R286). -/
def execDefectDeclare (n : Fin 256) (b : Fin 10) (s : State) : Host.Outcome State Fault Refusal :=
  actIn pllFabric (.defectDeclare n b) s fun d => d.defectDeclared n b

/-- DEFECT_CLEAR (R286). -/
def execDefectClear (n : Fin 256) (b : Fin 10) (s : State) : Host.Outcome State Fault Refusal :=
  actIn pllFabric (.defectClear n b) s fun d => d.defectCleared n b

/-! ## Time-transfer reads -/

/-- A read of TRL_LINK_OFFSET latches the rest of the result (R300). -/
def Dev.readTtOffset (d : Dev) (n : Nat) : Word × Dev :=
  let x := d.link n
  (x.ttOffset, d.setLink n { x with ttLatch := (x.ttDelay, x.ttInfo) })

/-- TT_OFFSET_READ (R300). -/
def execTtOffsetRead (path : Path) (n : Fin 256) (s : State) : Host.Outcome State Fault Refusal :=
  actRead path (Reg.TRL_LINK_CTRL n + 0x20) (.ttOffsetRead path n) s fun d => d.readTtOffset n

/-! ## Performance monitoring (R295 to R298) -/

/-- A counted second that is severely errored (R295). -/
def PmSec.ses (s : PmSec) : Bool := s.whole && (s.defect || (s.frames ≠ 0 && 3 * s.frames ≤ 10 * s.errored))

/-- A counted second that is not severely errored. -/
def PmSec.fine (s : PmSec) : Bool := s.whole && !s.ses

/-- The second at the head of `l` is unavailable time (R295): ten seconds decide its beginning and its end. -/
def pmUnavail (was : Bool) (l : List PmSec) : Bool :=
  let ten := l.take 10
  if was then !(ten.length = 10 && ten.all PmSec.fine) else ten.length = 10 && ten.all PmSec.ses

/-- Add a counted second to a bin (R295, R301). -/
def PmBin.add (b : PmBin) (s : PmSec) (ua : Bool) : PmBin :=
  let plain : Bool := !ua && !s.ses
  { b with
    suspect := b.suspect || s.invalid
    secs := satN 17 (b.secs + 1)
    es := satN 32 (b.es + b2n (!ua && (s.errored ≠ 0 || s.defect)))
    ses := satN 32 (b.ses + b2n (!ua && s.ses))
    uas := satN 32 (b.uas + b2n ua)
    bbe := satN 64 (b.bbe + if plain then s.errored else 0)
    corr := satN 64 (b.corr + s.corr)
    uncorr := satN 64 (b.uncorr + s.uncorr)
    drops := satN 64 (b.drops + s.drops) }

/-- The span of length `len` that holds a second, by its number from the second's u (R296). -/
def spanOf (sec : Nat) (u : Int) (len : Nat) : Int := ((sec : Int) - u) / (len : Int)

/-- A bin for the span that holds a second. -/
def newBin (sec : Nat) (u : Int) (len : Nat) : PmBin :=
  let k := spanOf sec u len
  { exists_ := true, start := (k * len + u).toNat % 2 ^ 32, span := k }

/-- A bin as it closes at second `till`: suspect unless it counted every second of its span (R297). -/
def PmBin.closed (b : PmBin) (till : Nat) : PmBin := { b with suspect := b.suspect || (b.start + b.secs) % 2 ^ 32 ≠ till % 2 ^ 32 }

/-- The current bin of one kind closes at second `till`: 0 the 15-minute bin, 17 the day bin. -/
def closeBin (bins : List PmBin) (i till : Nat) : List PmBin :=
  let b := bins.getD i {}
  if i = 0 then [{}, b.closed till] ++ (bins.drop 1).take 15 ++ bins.drop 17
  else bins.take 17 ++ [{}, b.closed till]

/-- Close the current bin `i` of link `n`, if there is one, with its status bit (R297). -/
def Dev.pmClose (d : Dev) (n i till : Nat) : Dev :=
  let x := d.link n
  if (x.pmBins.getD i {}).exists_ then
    (d.setLink n { x with pmBins := closeBin x.pmBins i till }).latchBit Reg.TRL_STATUS (if i = 0 then 9 else 10)
  else d

/-- A final second enters the current bin `i` of link `n`; a bin closes at the edge before `next`, the second after its last. -/
def Dev.pmEnter (d : Dev) (n i len : Nat) (s next : PmSec) (ua : Bool) : Dev :=
  let k := spanOf s.sec s.u len
  let b := (d.link n).pmBins.getD i {}
  let d1 := if b.exists_ ∧ b.span ≠ k then d.pmClose n i s.sec else d
  let d2 := d1.modLink n fun x =>
    let b := x.pmBins.getD i {}
    let b1 : PmBin := if b.exists_ then b else newBin s.sec s.u len
    if s.whole then { x with pmBins := x.pmBins.set i (b1.add s ua) }
    else if b.exists_ then { x with pmBins := x.pmBins.set i { b with suspect := true } }
    else x
  if spanOf next.sec next.u len ≠ k then d2.pmClose n i next.sec else d2

/-- The oldest second that waits for its classification becomes final, 10 s after its end (R297). -/
def Dev.pmFinal (d : Dev) (n : Nat) : Dev :=
  let d1 := d.pmRoll n
  let x := d1.link n
  match x.pmPend with
  | [] => d1
  | s :: rest =>
    if x.pmPend.length < 11 then d1
    else
      let ua := pmUnavail x.unavail x.pmPend
      let d2 := d1.setLink n { x with pmPend := rest, unavail := ua }
      let next := rest.headD x.pmCur
      if bit (d.reg Reg.TRL_CTRL) 0 then (d2.pmEnter n 0 900 s next ua).pmEnter n 17 86400 s next ua else d2

/-- PM_SECOND_FINAL (R297). -/
def execPmSecondFinal (n : Fin 256) (s : State) : Host.Outcome State Fault Refusal :=
  actIn pllFabric (.pmSecondFinal n) s fun d => d.pmFinal n

/-- A read of the start word of bin 0 or 17 latches the bin (R301). -/
def Dev.readBin (d : Dev) (n : Nat) (day : Bool) : Word × Dev :=
  let x := d.link n
  let b := x.pmBins.getD (if day then 17 else 0) {}
  (wd b.start, d.setLink n { x with binLatch := if day then (x.binLatch.1, b) else (b, x.binLatch.2) })

/-- PM_BIN_READ (R301). -/
def execPmBinRead (path : Path) (n : Fin 256) (day : Bool) (s : State) : Host.Outcome State Fault Refusal :=
  actRead path (Reg.TRL_LINK_CTRL n + 0x800) (.pmBinRead path n day) s fun d => d.readBin n day

/-! ## A step of device time (R292, R298) -/

/-- At a step the current bin closes, and that of the new time starts suspect (R298); a link that is OFF and has no bin gets none. -/
def Dev.restartBin (d : Dev) (n i len : Nat) : Dev :=
  let x := d.link n
  if (x.pmBins.getD i {}).exists_ ∨ x.align ≠ 0 then
    (d.pmClose n i 0).modLink n fun x =>
      { x with pmBins := x.pmBins.set i { newBin d.time.now.sec d.pmBase len with suspect := true } }
  else d

/-- The bins of a link after a step: the current ones close suspect, and those of the new time start suspect (R298). -/
def Dev.pmStepped (d : Dev) (n : Nat) : Dev :=
  let mark (x : Link) : Link := { x with
    pmPend := [], pmCur := { sec := d.time.now.sec, whole := false, u := d.pmBase },
    pmBins := (List.range 19).map fun i => let b := x.pmBins.getD i {}; if i = 0 ∨ i = 17 then { b with suspect := b.exists_ } else b }
  if bit (d.reg Reg.TRL_CTRL) 0 then ((d.modLink n mark).restartBin n 0 900).restartBin n 17 86400
  else d.modLink n fun x => { x with pmPend := [], pmCur := { sec := d.time.now.sec, whole := false, u := d.pmBase } }

/-- Departures and arrivals before a step of `delta` units: they form no sample (R292), and name no frame by their
number. -/
def Link.stepped (x : Link) (delta : Int) : Link :=
  { x with ttDep := x.ttDep.map fun p => (p.1 % 256 + 256, p.2.shift delta) }

/-- Every link after a step of device time of `delta` units. -/
def Dev.linksStepped (d : Dev) (delta : Int) : Dev :=
  (d.fab.links.map (·.1)).foldl (fun d n => (d.modLink n fun x => x.stepped delta).pmStepped n) d

end Sys2Proof.Machine
end

