-- ==== Sys2Proof/Machine/DispatchCore.lean ====
section
/-! DEFINITION. The crossbar's cell time, dispatch from staging, cut-through tails, and flushes (R99, R121, R228, R230,
R231, R232, R245, R247, R405, R518). -/
namespace Sys2Proof.Machine

/-- Set every output's matcher pointers. -/
def Dev.setPtrs (d : Dev) (g a : List Nat) : Dev :=
  { d with qm := { d.qm with
      grant := (List.range 10).foldl (fun t j => Tbl.set 0 t j (g.getD j 0)) d.qm.grant
      accept := (List.range 10).foldl (fun t i => Tbl.set 0 t i (a.getD i 0)) d.qm.accept } }

/-- An output has no room for a nomination (R227). -/
def Dev.nomFull (d : Dev) (o : Nat) : Bool :=
  nomDepth o ≤ (d.noms o).length || nomBytes o ≤ ((d.noms o).map (·.size)).foldl (· + ·) 0

/-- One cell time (R228, R518): the accepted cells move, and every slot of every output counts in one class. -/
def Dev.cellTime (d : Dev) : Dev :=
  let r := d.matchCells
  let acc (i j : Nat) := r.1.acc.getD (10 * i + j) 0
  let pend (j : Nat) := ((List.range 10).map fun i => r.1.cells.getD (10 * i + j) 0).foldl (· + ·) 0
  let inTo (j : Nat) := ((List.range 10).map fun i => acc i j).foldl (· + ·) 0
  let outOf (i : Nat) := ((List.range 10).map fun j => acc i j).foldl (· + ·) 0
  let d1 := (List.range 10).foldl (fun d j =>
    let moved := (List.range 10).foldl (fun l i => moveBytes i l (256 * acc i j)) (d.noms j)
    let free := xbarCap j - inTo j
    let unm := min free (pend j)
    let d1 := (((d.setNoms j moved).bump bankSchd j (inTo j)).bump bankSchd (32 + 8 * j) (inTo j)).bump bankSchd (34 + 8 * j) unm
    d1.bump bankSchd ((if d.nomFull j then 38 else 36) + 8 * j) (free - unm)) d
  let d2 := (List.range 10).foldl (fun d i => d.bump bankSchd (10 + i) (outOf i)) d1
  (d2.inc bankSchd 112).setPtrs r.2.1 r.2.2

/-- A nominated packet may leave staging: it is wholly there, or it is cut through and its first cell is (R231). -/
def Pkt.staged (k : Pkt) : Bool := k.left = 0 || (k.cutThrough && k.headOnly && k.size - k.left = min k.size 256)

/-- What the scan of an output's staging finds. -/
inductive Found where
  | none
  | send (k : Pkt)
  | drop (k : Pkt) (bank idx : Nat)
deriving DecidableEq, Repr

/-- The scan of staged packets in nomination order (R230): it marks the packets it finds held, and stops at the first
that is sent or dropped. `held` lists the (port, class) pairs behind a hold. Answers the list with its marks, the
counts of new gate and guard holds, and what was found. -/
def scanStaged (d : Dev) : List Pkt → (held : List Nat) → List Pkt × Nat × Nat × Found
  | [], _ => ([], 0, 0, .none)
  | k :: ks, held =>
    if !k.staged then (k :: ks, 0, 0, .none)
    else if qKind k.queue = 4 then
      (if k.recirc ∧ (d.holder (k.port / 16)).isNone then
        (k :: ks, 0, 0, .drop k (bankPort k.port) 13)
      else (k :: ks, 0, 0, .send k))
    else
      match k.outPort with
      | none => (k :: ks, 0, 0, .send k)
      | some p =>
        let key := 8 * p + k.tc
        if !d.portLive p then (k :: ks, 0, 0, .drop k (bankPort p) 26)
        else
          let wait (j : Pkt) (g u : Nat) (h : List Nat) :=
            let r := scanStaged d ks h
            (j :: r.1, g + r.2.1, u + r.2.2.1, r.2.2.2)
          if held.contains key ∨ (d.port p).st = .holdoff ∨ (d.port p).paused.getD k.tc false then wait k 0 0 (key :: held)
          else if !(d.gateMask p).testBit k.tc then
            wait { k with gateHeld := true } (b2n !k.gateHeld) 0 (key :: held)
          else
            match d.guard p k.tc k.recLen with
            | 0 => if (d.holder (p / 16)).isNone ∧ !d.spr.cellar then wait k 0 0 (key :: held) else (k :: ks, 0, 0, .send k)
            | 1 => wait { k with guardHeld := true } 0 (b2n !k.guardHeld) (key :: held)
            | _ => (k :: ks, 0, 0, .drop k bankShp 5)

/-- Remove a nominated packet by its order number. -/
def removeSeq (seq : Nat) (l : List Pkt) : List Pkt := l.filter fun k => k.seq ≠ seq

/-- Flits of a packet on the packet channel: the metadata pair, and the data that has arrived (R19; log entry 96). -/
def Pkt.flitForm (k : Pkt) : Nat := 2 + ceilDiv k.frame.length 32

/-- Flits that wait in a list of packets. -/
def flitsIn (l : List Pkt) : Nat := (l.map (·.flits)).foldl (· + ·) 0

/-- Depth of a slice channel's FIFO at the link, in flits (CX04, CX07). -/
def chanDepth : Nat := 128

/-- A slice channel has room for a writer to begin a packet (R30). -/
def chanRoom (l : List Pkt) : Bool := flitsIn l < chanDepth

/-- Put a packet into the channel toward slice `n` (R19). -/
def Dev.sendDown (d : Dev) (n : Nat) (k : Pkt) : Dev :=
  d.modSlice n fun s => { s with down := s.down ++ [{ k with slice := n, flits := k.flitForm }] }

/-- A packet is dispatched to the ingress port of slice `n` (R121, R205, R220): its buffer is handed to the slice. -/
def Dev.toIngress (d : Dev) (n : Nat) (k : Pkt) : Dev :=
  let d1 := match k.handle with
    | some h => d.bufHandOver 13 h n
    | none => d
  d1.sendDown n { k with tag := n }

/-- It has crossed: the slice frees its buffer, and takes it unless it is not ACTIVE (R205, R406). -/
def Dev.ingressCrossed (d : Dev) (n : Nat) (k : Pkt) : Dev :=
  let d1 := match k.handle with
    | some h => d.bufFree n h
    | none => d
  if (d.slice n).st ≠ .active then ((d1.endShare k).endHold k.uid).inc bankSpr 15
  else (d1.endShare k).modSlice n fun s => { s with ingress := s.ingress ++ [{ k with
    handle := none, shareKey := none, shareBytes := 0, queue := 0, stage := 0, resolved := false }] }

/-- A packet has crossed the link toward slice `n`, which discards it unless it is ACTIVE (R406). -/
def Dev.arriveDown (n : Nat) (d : Dev) (k : Pkt) : Dev :=
  if qKind k.queue = 4 then d.ingressCrossed n k
  else if (d.slice n).st ≠ .active then (d.inc bankSpr 15).dropPkt k
  else d.modSlice n fun s => { s with egress := s.egress ++ [k] }

/-- A packet for a line port is dispatched to the slice that holds its port group (Table 7.3); a unicast buffer goes
to the slice, a copy's stays with QM, and a DRAM buffer is freed (R225). -/
def Dev.toEgress (d : Dev) (n : Nat) (k : Pkt) : Dev :=
  let d1 := d.freeOpt 13 k.dram
  let d2 := match k.handle with
    | some h => if k.copy then d1 else d1.bufHandOver 13 h n
    | none => d1
  d2.sendDown n { k with dram := none, tag := if k.copy then 13 else n }

/-- In cellar mode a packet goes to the output stage of its port group without edit stages (R424). -/
def Dev.toMac (d : Dev) (p : Nat) (k : Pkt) : Dev :=
  (d.release k).modPort p fun pt => { pt with txFifo := pt.txFifo ++ [{ k with handle := none, dram := none, shareKey := none }] }

/-- The slice that a staged packet of output `g` goes to (R220). -/
def Dev.sendsTo (d : Dev) (g : Nat) (k : Pkt) : Nat :=
  if qKind k.queue = 4 ∧ 8 ≤ qIdx k.queue then qIdx k.queue - 8 else (d.holder g).getD 0

/-- The channel that a staged packet takes can begin it (R30); the cellar path has none. -/
def Dev.canSend (d : Dev) (g : Nat) (k : Pkt) : Bool :=
  (qKind k.queue ≠ 4 && d.spr.cellar) || chanRoom (d.slice (d.sendsTo g k)).down

/-- Send a staged packet of output `g` where its queue leads (R220, R230). -/
def Dev.sendStaged (d : Dev) (g : Nat) (k : Pkt) : Dev :=
  if qKind k.queue = 4 then d.toIngress (d.sendsTo g k) k
  else
    let d1 := d.offer 1 false 0 k
    if d1.spr.cellar then d1.toMac (k.outPort.getD 0) k else d1.toEgress (d.sendsTo g k) k

/-- Output g dispatches (R230). -/
def Dev.dispatchOut (d : Dev) (g : Nat) : Dev :=
  let r := scanStaged d (d.noms g) []
  let d1 := ((d.setNoms g r.1).bump bankShp 1 r.2.1).bump bankShp 2 r.2.2.1
  match r.2.2.2 with
  | .none => d1
  | .send k => if d1.canSend g k then (d1.setNoms g (removeSeq k.seq r.1)).sendStaged g k else d1
  | .drop k b i => ((d1.setNoms g (removeSeq k.seq r.1)).inc b i).dropPkt k

/-- The spare's share (R19, R220): the injection at the head of IQn goes to a slice that holds no port group. -/
def Dev.dispatchSpare (d : Dev) (n : Nat) : Dev :=
  let q := qKey 4 (8 + n)
  if (List.range 8).any fun g => d.holder g = some n then d
  else
    match d.headOf q with
    | some k => if chanRoom (d.slice n).down then (d.popQueue q).toIngress n k else d
    | none => d

/-! ## Cut-through tails (R231, R232) -/

/-- Apply a function to the packet with identity `uid` wherever the queue manager or a slice's egress holds it. -/
def mapUid (uid : Nat) (f : Pkt → Pkt) (l : List Pkt) : List Pkt := l.map fun k => if k.uid = uid then f k else k

/-- The true length of a packet whose tail has arrived. -/
def tailKnown (frame : Bytes) (k : Pkt) : Pkt :=
  let moved := k.size - k.left
  let size := if k.size = 0 then 0 else dukSize frame.length
  { k with frame := frame, len := frame.length, headOnly := false, size := size, left := size - moved,
           shareBytes := if k.shareKey.isNone then 0 else frame.length }

/-- A nominated packet's shapers are credited with the difference (R255), and its ingress share is corrected. -/
def Dev.correct (d : Dev) (k : Pkt) (len : Nat) : Dev :=
  let d1 := k.shapers.foldl (fun d i => d.shpCorrect k.chargedLen len i) d
  match k.shareKey with
  | none => d1
  | some s => { d1 with qm := { d1.qm with ishare := Tbl.modify 0 d1.qm.ishare s fun b => b - k.shareBytes + len } }

/-- Where a packet whose tail is awaited is held. -/
inductive Held where
  | nowhere
  | slice (n : Nat)
  | waiting
  | arrived
  | repl
  | queue (q : Nat) (k : Pkt)
  | staged (o : Nat) (k : Pkt)
  | egress (n : Nat) (k : Pkt)
  | mac (p : Nat) (k : Pkt)
deriving DecidableEq, Repr

def findUid (uid : Nat) (l : List Pkt) : Option Pkt := l.find? fun k => k.uid = uid && k.headOnly

/-- Find the packet that awaits its tail. -/
def Dev.whereUid (d : Dev) (uid : Nat) : Held :=
  let inQ := d.qm.queues.findSome? fun x => (findUid uid x.2.pkts).map fun k => Held.queue x.1 k
  let inN := d.qm.noms.findSome? fun x => (findUid uid x.2).map fun k => Held.staged x.1 k
  let inE := (List.range 9).findSome? fun n => (findUid uid ((d.slice n).egress ++ (d.slice n).down)).map fun k => Held.egress n k
  let inM := d.ports.findSome? fun x => (findUid uid x.2.txFifo).map fun k => Held.mac x.1 k
  let inS := (List.range 9).findSome? fun n =>
    if ((d.slice n).ingress ++ (d.slice n).order ++ (d.slice n).up).any (fun k => k.uid = uid) then some (Held.slice n) else none
  match inQ, inN, inE, inM, inS with
  | some h, _, _, _, _ => h
  | _, some h, _, _, _ => h
  | _, _, some h, _, _ => h
  | _, _, _, some h, _ => h
  | _, _, _, _, some h => h
  | _, _, _, _, _ =>
    if d.bpm.waiting.any fun r => r.pkt.uid = uid then .waiting
    else if d.qm.arrived.any fun k => k.uid = uid then .arrived
    else if d.qm.repl.any fun k => k.uid = uid then .repl
    else .nowhere

/-- The packet of a port whose tail has not arrived, by identity. -/
def Dev.tailOf (d : Dev) (p : Nat) : Option Nat :=
  let f (k : Pkt) : Bool := k.headOnly && k.port = p && k.origin = .line
  let all := (List.range 9).flatMap (fun n => (d.slice n).held) ++
    d.bpm.waiting.map (·.pkt) ++ d.qm.arrived ++ d.qm.repl ++ d.qm.queues.flatMap (fun x => x.2.pkts) ++
    d.qm.noms.flatMap (fun x => x.2) ++ d.ports.flatMap (fun x => x.2.txFifo)
  (all.find? f).map (·.uid)

/-- Put the true frame into every list that may hold the packet. -/
def Dev.mapTail (d : Dev) (uid : Nat) (f : Pkt → Pkt) : Dev :=
  { d with
    slices := d.slices.map fun x => (x.1, { x.2 with
      ingress := mapUid uid f x.2.ingress, order := mapUid uid f x.2.order, up := mapUid uid f x.2.up,
      down := mapUid uid f x.2.down, egress := mapUid uid f x.2.egress })
    bpm := { d.bpm with waiting := d.bpm.waiting.map fun r => if r.pkt.uid = uid then { r with pkt := f r.pkt } else r }
    qm := { d.qm with
      arrived := mapUid uid f d.qm.arrived, repl := mapUid uid f d.qm.repl
      queues := d.qm.queues.map fun x => (x.1, { x.2 with pkts := mapUid uid f x.2.pkts })
      noms := d.qm.noms.map fun x => (x.1, mapUid uid f x.2) }
    ports := d.ports.map fun x => (x.1, { x.2 with txFifo := mapUid uid f x.2.txFifo }) }

/-- Drop every stored packet of an identity: one that was never cut through and whose tail fails is dropped as R93 drops a
bad frame, with no count beside the MAC's. -/
def Dev.dropStored (d : Dev) (uid : Nat) : Dev :=
  let mine (k : Pkt) : Bool := k.uid = uid && k.headOnly && !k.cutThrough
  let asks (r : AllocReq) : Bool := r.use = .handoff && mine r.pkt
  let qs := d.qm.queues.filter fun x => x.2.pkts.any mine
  let gone := (d.bpm.waiting.filter asks).map (·.pkt) ++ d.qm.arrived.filter mine ++ d.qm.repl.filter mine ++
    qs.flatMap fun x => x.2.pkts.filter mine
  let d1 : Dev := { d with
    bpm := { d.bpm with waiting := d.bpm.waiting.filter fun r => !asks r }
    qm := { d.qm with arrived := d.qm.arrived.filter fun k => !mine k, repl := d.qm.repl.filter fun k => !mine k } }
  let d2 := qs.foldl (fun (e : Dev) x =>
    (e.setQueue x.1 ({ x.2 with pkts := x.2.pkts.filter fun k => !mine k } : Queue).settle).emptyNodes x.1) d1
  gone.foldl Dev.dropPkt d2

/-- The packets with an identity that await their tail where they count in a share or a shaper: the cut-through one, and any that is
stored until it is whole. -/
def Dev.awaiting (d : Dev) (uid : Nat) : List Pkt :=
  (d.qm.queues.flatMap (fun x => x.2.pkts) ++ d.qm.noms.flatMap (fun x => x.2) ++
    (List.range 9).flatMap (fun n => (d.slice n).egress ++ (d.slice n).down) ++ d.ports.flatMap fun x => x.2.txFifo).filter fun k =>
    k.uid = uid && k.headOnly

/-- The shares and shapers of every packet with an identity that awaits its tail take the true length. -/
def Dev.corrected (d : Dev) (uid len : Nat) : Dev := (d.awaiting uid).foldl (fun e k => e.correct k len) d

/-- A cut-through packet found bad late goes by where its head is (R232): dropped before dispatch, stomped toward a line
port, sent with the abort flag once its head is on a link; its shapers are credited with the difference (R255). One still in its
slice is dropped at the handoff. -/
def Dev.badTail (d0 : Dev) (uid : Nat) (frame : Bytes) : Dev :=
  let d := d0.dropStored uid
  let credited := d.corrected uid frame.length
  let stomped := credited.mapTail uid fun k => { tailKnown frame k with stomp := true, bad := true }
  let cut (d : Dev) : Dev := (d.inc bankTmq 11).latchBit Reg.TMQ_STATUS 9
  match d.whereUid uid with
  | .queue q k =>
    let x := d.queue q
    cut (((d.setQueue q ({ x with pkts := x.pkts.filter fun j => j.uid ≠ uid } : Queue).settle).emptyNodes q).dropPkt k)
  | .staged o k =>
    if o = 8 ∧ k.sent ≠ 0 then stomped.latchBit Reg.TMQ_STATUS 9
    else cut ((credited.setNoms o ((d.noms o).filter fun j => j.uid ≠ uid)).dropPkt (tailKnown frame k))
  | .egress _ _ => stomped.latchBit Reg.TMQ_STATUS 9
  | .mac _ _ => stomped.latchBit Reg.TMQ_STATUS 9
  | .slice _ => stomped
  | .waiting => d
  | .arrived => d
  | .repl => d
  | .nowhere => d

/-- The tail of a packet arrives good: its length is corrected wherever it is, and so are the shares and shapers it counts in (R231,
R255). -/
def Dev.goodTail (d : Dev) (uid : Nat) (frame : Bytes) : Dev := (d.corrected uid frame.length).mapTail uid (tailKnown frame)

/-! ## Flushes -/

/-- Drop every packet of a queue, each counted in (bank, index). -/
def Dev.flushQueue (d : Dev) (q bank idx : Nat) : Dev :=
  let ks := (d.queue q).pkts
  ks.foldl (fun d k => (d.inc bank idx).release k) ((d.setQueue q {}).emptyNodes q)

/-- The local egress queues of a port: its class queues and the endpoint queues bound to it (R99). -/
def Dev.portQueues (d : Dev) (p : Nat) : List Nat :=
  (d.qm.queues.filter fun x => d.queuePort x.1 = some p).map (·.1)

/-- The flush of R99. -/
def Dev.flushPort (d : Dev) (p : Nat) : Dev :=
  (d.portQueues p).foldl (fun d q => d.flushQueue q (bankPort p) 27) d

end Sys2Proof.Machine
end

