-- ==== Sys2Proof/Machine/StageMem.lean ====
section
/-! DEFINITION. The tables as the slices and the table-access engine reach them: the replicas in each slice's stage memory and
their masters (R129, R130, R180, R411), and the lookups that slices have out (R140). -/
namespace Sys2Proof.Machine

/-- Key of a byte of slice `n`'s stage memory. -/
def smemKey (n a : Nat) : Nat := n * 2 ^ 32 + a

/-- A slice that takes program and table writes (R417): ACTIVE, RACKING or DRAINING. -/
def Slice.serving (x : Slice) : Bool := x.st = .active || x.st = .racking || x.st = .draining

/-- The valid descriptors whose tables lie in stage memory: dram 0, and every LPM top table (R129, R130). -/
def stageTables (p : Program) : List (BitVec 256) :=
  (p.descs.map fun x => x.2).filter fun x => descValid x && (descKind x = 1 || descKind x = 2 || descKind x = 3) && !descDram x

/-- A byte of the table region that stage memory holds too. -/
def Program.staged (p : Program) (a : Nat) : Bool :=
  (stageTables p).any fun x => 64 * descBase x ≤ a && a < 64 * descBase x + descExtent x

/-- The offset in the table region of a byte of the stacks, where a read of that offset takes it from this copy. -/
def Dev.tableAddr (d : Dev) (key : Nat) : Option Nat :=
  let k := key / 2 ^ 34
  let n := key % 2 ^ 34 / 64
  let p := d.part.getD rTable (0, 0)
  let m := 4 * (n - p.1 * 2 ^ 14) + k % 4
  if p.1 * 2 ^ 14 ≤ n ∧ n < (p.1 + p.2) * 2 ^ 14 ∧ d.dataCopy rTable m = some k then some (64 * m + key % 64) else none

/-- The stage memory after slice `n` has loaded its replicas from the masters: the extents of Table 15.2, row 6, and nothing
else. -/
def Dev.replicasOf (d : Dev) (n : Nat) : List Host.Cell :=
  d.dram.foldl (fun t c => match d.tableAddr c.1 with
    | some a => if d.prog.staged a then Tbl.set 0#8 t (smemKey n a) c.2 else t
    | none => t) (d.smem.filter fun c => c.1 / 2 ^ 32 ≠ n || !d.prog.staged (c.1 % 2 ^ 32))

/-- Slice `n` loads its replicas (R130, R411); the reads count in READS (R370). -/
def Dev.fillSlice (d : Dev) (n : Nat) : Dev :=
  (stageTables d.prog).foldl (fun d x => d.countReads rTable (64 * descBase x) (descExtent x)) { d with smem := d.replicasOf n }

/-- Bytes of a table as slice `n` reads them: of its DRAM lines, or of the slice's replica (R129, R130). -/
def Dev.tblRead (d : Dev) (n : Nat) (dsc : BitVec 256) (off len : Nat) : Bytes :=
  if descDram dsc then d.dramRead rTable (64 * descBase dsc + off) len
  else Tbl.getRun 0#8 d.smem (smemKey n (64 * descBase dsc + off)) len

/-- Bytes of a table as the table-access engine reads them: the master in the table region (R130, R180). -/
def Dev.engRead (d : Dev) (dsc : BitVec 256) (off n : Nat) : Bytes := d.dramRead rTable (64 * descBase dsc + off) n

/-- The lines that the engine reads for an operation (R370). -/
def Dev.engCount (d : Dev) (dsc : BitVec 256) (off n : Nat) : Dev := d.countReads rTable (64 * descBase dsc + off) n

/-- A write reaches the replica of every serving slice (R130, R417). -/
def Dev.writeReplicas (d : Dev) (a : Nat) (bs : Bytes) : Dev :=
  { d with smem := ((List.range 9).filter fun k => (d.slice k).serving).foldl (fun t k => Tbl.setRun 0#8 t (smemKey k a) bs) d.smem }

/-- Write bytes of a table (R180): the master, and the replicas when the table is in stage memory. -/
def Dev.tblWrite (d : Dev) (dsc : BitVec 256) (off : Nat) (bs : Bytes) : Dev :=
  let d1 := d.dramWrite rTable (64 * descBase dsc + off) bs
  if descDram dsc then d1 else d1.writeReplicas (64 * descBase dsc + off) bs

/-! ## Lookups that slices have out (R20, R140, R352) -/

/-- Put the first element of a list that satisfies `p` through `f`. -/
def mapFirst {α : Type} (p : α → Bool) (f : α → α) : List α → List α
  | [] => []
  | x :: xs => if p x then f x :: xs else x :: mapFirst p f xs

/-- A lookup request that has not crossed, and a response that waits on the T-die. -/
def Lookup.toAsk (l : Lookup) : Bool := l.done.isNone && !l.asked
def Lookup.toGive (l : Lookup) : Bool := l.done.isNone && l.held.isSome
def Lookup.out (l : Lookup) : Bool := l.done.isNone && l.asked && l.held.isNone

/-- Data has returned for a read. -/
def Lookup.hold (good : Bool) (l : Lookup) : Lookup := { l with held := some good }

/-- The copy that a lookup reads: by R352, and the copy not yet read when it is repeated (R140). -/
def Dev.lookupCopy (d : Dev) (l : Lookup) : Option Nat :=
  match l.readAt with
  | none => d.copyFor rTable l.line
  | some a => (copiesOf rTable l.line).find? fun k => k ≠ a && !d.stackLost k

/-- The lookups that the controller of a stack holds return uncorrectable when the stack is lost (R366). -/
def Dev.loseLookups (d : Dev) (k : Nat) : Dev :=
  let hit (l : Lookup) : Bool := l.out && d.lookupCopy l = some k
  let fix (p : Pkt) : Pkt := { p with lookups := p.lookups.map fun l => if hit l then { l with held := some false, readAt := some k } else l }
  (List.range 9).foldl (fun d n => d.modSlice n fun s => { s with order := s.order.map fix }) d

end Sys2Proof.Machine
end

