-- ==== Sys2Proof/Machine/SprCore.lean ====
section
/-! DEFINITION. The claim sequencer and cellar mode: declarations, takeover, entry to cellar mode and its forwarding
(R403 to R430). -/
namespace Sys2Proof.Machine

/-- The slice in SPARE; there is at most one (R410). -/
def Dev.spareSlice (d : Dev) : Option Nat := (List.range 9).find? fun n => (d.slice n).st = .spare

/-- The spare that a takeover may choose: in SPARE, fit and not chosen already (R409, R410). -/
def Dev.fitSpare (d : Dev) : Option Nat := if d.spr.fit ∧ d.spr.rack.isNone then d.spareSlice else none

/-- Set a fence (R404). -/
def Dev.fence (d : Dev) (n g : Nat) : Dev :=
  if d.fenced n g then d else { d with spr := { d.spr with fences := (n, g) :: d.spr.fences } }

/-- A slice writes a claim: its fence for that port group clears (R404). -/
def Dev.unfence (d : Dev) (n g : Nat) : Dev := { d with spr := { d.spr with fences := d.spr.fences.filter (· != (n, g)) } }

def Dev.setRack (d : Dev) (r : Option Rack) : Dev := { d with spr := { d.spr with rack := r } }

/-! ## Entry to cellar mode (R421, R422) -/

/-- The class is in the cellar set (R423). -/
def Dev.cellarTc (d : Dev) (tc : Nat) : Bool := bit (d.reg Reg.SPR_CELLAR_CFG) (16 + tc)

/-- A queue that entry to cellar mode flushes (R422): all but class queues and VOQs of the cellar set. -/
def Dev.cellarFlushes (d : Dev) (q : Nat) : Bool :=
  match qKind q with
  | 0 => !d.cellarTc (qIdx q % 8)
  | 2 => !d.cellarTc (qIdx q % 8)
  | _ => true

/-- Drop packets at the flush of R422. -/
def Dev.cellarDrop (d : Dev) (ks : List Pkt) : Dev := ks.foldl (fun d k => (d.inc bankSpr 14).dropPkt k) d

/-- The flush of one queue at entry: all of it, or its DRAM-resident packets. -/
def Dev.cellarFlushQueue (d : Dev) (q : Nat) : Dev :=
  let ks := (d.queue q).pkts
  let goes (k : Pkt) : Bool := d.cellarFlushes q || k.dram.isSome || k.evacTo.isSome
  let kept := (ks.filter fun k => !goes k).map fun k => { k with evacAsk := false }
  ((d.setQueue q { pkts := kept, evac := false }).emptyNodes q).cellarDrop (ks.filter goes)

/-- The steps of R422: fences on every slice, what slices hold is lost, queues are flushed, evacuation stops. -/
def Dev.cellarSteps (d : Dev) : Dev :=
  let d1 := (List.range 9).foldl (fun d n => (List.range 8).foldl (fun d g => d.fence n g) d) d
  let d2 := (List.range 9).foldl (fun d n =>
    let x := d.slice n
    (x.ingress ++ x.order ++ x.up).foldl (fun d k => d.endHold k.uid) (d.setSlice n { x with ingress := [], order := [], up := [] })) d1
  let evs : Dev := { d2 with bpm := { d2.bpm with waiting := d2.bpm.waiting.filter fun (r : AllocReq) => decide (r.use ≠ ReqFor.evacuate) } }
  let d3 := (evs.qm.queues.map (·.1)).foldl (fun d q => d.cellarFlushQueue q) evs
  let d4 := ({ d3 with qm := { d3.qm with repl := [] } }).cellarDrop d3.qm.repl
  (List.range 10).foldl (fun d o =>
    ({ d with qm := { d.qm with noms := Tbl.set [] d.qm.noms o ((d.noms o).filter fun k => !k.reading) } }).cellarDrop
      ((d.noms o).filter fun k => k.reading)) d4

/-- Enter cellar mode for a cause of Table 15.5; a further cause in cellar mode only logs (R421). -/
def Dev.enterCellar (d : Dev) (cause : Nat) : Dev :=
  if d.spr.cellar then d.logNum 0xC0 1 0 (le 1 cause)
  else
    let d1 := { d with spr := { d.spr with cellar := true, cellarCause := cause, rack := none, tasting := false } }
    (((d1.cellarSteps.inc bankSpr 18).latchBit Reg.SPR_STATUS 12).logBit 0xC0 0 12 0 (le 1 cause))

/-! ## Declarations (R407 to R410) -/

/-- The counter of a cause (Table 15.7). -/
def declCounter (cause : Nat) : Option Nat := if 1 ≤ cause ∧ cause ≤ 3 then some cause else none

/-- Count a declaration, set `failed` and log slice, port group and cause (R408). -/
def Dev.declared (d : Dev) (n cause : Nat) (g : Option Nat) : Dev :=
  let d1 := match declCounter cause with
    | some i => d.inc bankSpr i
    | none => d
  (d1.latchBit Reg.SPR_STATUS 9).logBit 0xC0 0 9 0 (le 1 n ++ le 1 (g.getD 0xFF) ++ le 1 cause)

/-- No fit spare remains, by a failure of the spare (R407, R419). -/
def Dev.spareUnfit (d : Dev) (n cause : Nat) : Dev :=
  (({ d with spr := { d.spr with fit := false, tasting := false } }).modSlice n fun s =>
    { s with st := .unfit, cause := cause, pg := none }).latchBit Reg.SPR_STATUS 11

/-- A failed slice loses what it held (R408): packets stamped or steered and not handed off, and those dispatched to it
whose buffers it has not freed, with their ingress shares; the copies' references stay with QM, which frees them. -/
def Dev.sliceLoses (d : Dev) (n : Nat) : Dev :=
  let x := d.slice n
  let sent := x.down ++ x.egress
  let d1 := d.setSlice n { x with ingress := [], order := [], down := [], egress := [] }
  let d2 := (x.ingress ++ x.order ++ sent).foldl (fun d k => (d.endShare k).endHold k.uid) d1
  let d3 := sent.foldl (fun d k => if k.copy then (d.freeOpt 13 k.handle).copyFail k else d) d2
  d3.bump bankSpr 9 (x.order.length + sent.length)

/-- The takeover of a port group begins, or cellar mode does (R409, R410). -/
def Dev.takeover (d : Dev) (n g : Nat) : Dev :=
  match d.fitSpare with
  | some k => d.setRack (some { spare := k, pg := g, old := n, move := false, begun := false, since := d.time.tsc })
  | none => d.enterCellar 1

/-- Declare a slice failed for causes 1 to 3 (R407 to R410). -/
def Dev.declare (d : Dev) (n cause : Nat) : Dev :=
  let x := d.slice n
  if d.spr.cellar ∨ !d.vint.started then d
  else match x.st with
    | .active | .draining =>
      let spare := d.fitSpare
      let d0 := match x.pg with
        | some g => d.fence n g
        | none => d
      let d1 := ((d0.sliceLoses n).setTag n .draining).modSlice n fun s => { s with st := .failed, cause := cause, pg := none }
      let d2 := d1.declared n cause x.pg
      (match x.pg with
       | some g => d2.takeover n g
       | none => if spare.isNone then d2.enterCellar 1 else d2)
    | .spare =>
      let d1 := (d.declared n cause none).spareUnfit n cause
      if d.spr.rack.isSome then (((d1.setRack none).inc bankSpr 7).latchBit Reg.SPR_STATUS 13).enterCellar 5 else d1
    | _ => d

/-- A verdict miscompare of an ACTIVE slice (R407, cause 1). -/
def Dev.noteMiscompare (d : Dev) (n : Nat) : Dev :=
  let ctrl := d.reg Reg.SPR_CTRL
  let span := max 1 (fld ctrl 31 16) * 10 ^ 6
  let l := d.time.tsc :: (d.slice n).miscmps.filter fun t => d.time.tsc < t + span
  let d1 := d.modSlice n fun s => { s with miscmps := l }
  if (d.slice n).st = .active ∧ max 1 (fld ctrl 11 8) ≤ l.length then d1.declare n 1 else d1

/-- Miscompares of the running window, as SPR_SLICE shows them (Table 15.6). -/
def Dev.miscompares (d : Dev) (n : Nat) : Nat :=
  let span := max 1 (fld (d.reg Reg.SPR_CTRL) 31 16) * 10 ^ 6
  ((d.slice n).miscmps.filter fun t => d.time.tsc < t + span).length

/-- Racking fails (R414). -/
def Dev.rackFail (d : Dev) (r : Rack) : Dev :=
  (((((d.setRack none).modSlice r.spare fun s => { s with st := .unfit, cause := 5, pg := none }).inc bankSpr 7).latchBit
    Reg.SPR_STATUS 13).enterCellar 2)

/-- The recovery window opens at the claim write of a takeover, unless the scan is over (R208, R414). -/
def Dev.openWindow (d : Dev) (old new : Nat) : Dev :=
  if d.tagState old = .closed ∧ !d.bpm.scans.contains old then d
  else { d with bpm := { d.bpm with window := d.bpm.window ++ [(old, new)] } }

/-- A slice enters ACTIVE on a port group with fresh tables (R412, R414). -/
def Slice.activate (s : Slice) (g : Nat) : Slice :=
  { s with st := .active, pg := some g, miscmps := [], pressReload := [], assocReload := [], badLines := [], accepted := false }

/-- The claims after a claim write (R414, R416). -/
def Spr.claimBy (x : Spr) (r : Rack) : Spr :=
  { x with claims := x.claims.set r.pg (x.claims.getD r.pg 0 + 1), lastHolder := x.lastHolder.set r.pg r.spare, rack := none }

/-- The racking slice has loaded its replicas from the masters and writes its claim (R403, R411, R414, R416). -/
def Dev.claimWritten (d : Dev) (r : Rack) : Dev :=
  let d1 : Dev := { d with spr := d.spr.claimBy r }
  let d2 := (((d1.unfence r.spare r.pg).modSlice r.spare fun s => s.activate r.pg).fillSlice r.spare).latchBit Reg.SPR_STATUS 10
  if r.move then d2.inc bankSpr 4
  else ((d2.inc bankSpr 0).latchBit Reg.SPR_STATUS 11).openWindow r.old r.spare

/-! ## Frames in cellar mode (R423 to R425) -/

/-- The outermost VLAN tag's PCP, or the untagged priority (R97). The spec names no EtherTypes of tagged frames: those of IEEE
802.1Q, 0x8100 and 0x88A8, are taken (log entry 102, PRESUMED). -/
def framePrio (cfg : Word) (frame : Bytes) : Nat :=
  if winWord frame 12 = 0x8100 ∨ winWord frame 12 = 0x88A8 then (frame.getD 14 0).toNat / 32 else fld cfg 23 21

/-- Offset of the EtherType behind up to two VLAN tags. -/
def etherOff (frame : Bytes) : Nat :=
  let tag (o : Nat) : Bool := winWord frame o = 0x8100 || winWord frame o = 0x88A8
  if tag 12 then if tag 16 then 20 else 16 else 12

/-- A PTP frame (R423). -/
def isPtp (frame : Bytes) : Bool :=
  let o := etherOff frame
  let t := winWord frame o
  let ptpPort (a : Nat) : Bool := winWord frame a = 319 || winWord frame a = 320
  t = 0x88F7 ||
  (t = 0x0800 && (frame.getD (o + 2) 0) = 0x45#8 && (frame.getD (o + 11) 0) = 17#8 && ptpPort (o + 2 + 20 + 2)) ||
  (t = 0x86DD && (frame.getD (o + 8) 0) = 17#8 && ptpPort (o + 2 + 40 + 2))

/-- Record bytes 0 to 15 and zeros behind them (R134, Table 5.4). -/
def busInit (rxTs : DevTime) (pass len port : Nat) (injected : Bool) (vint status : Nat) : Bytes :=
  rxTs.bytes ++ be 2 (pass * 2 ^ 14 + len % 2 ^ 14) ++ [BitVec.ofNat 8 (port * 2 + b2n injected)] ++
  [BitVec.ofNat 8 (vint * 16 + status)] ++ List.replicate 48 0#8

/-- The record of a cellar frame (R424): act 1, the class, green, and its destination. -/
def cellarRec (bus : Bytes) (tc dest : Nat) : Bytes := overwrite (setVerdict bus 1 tc 0) 19 (be 4 dest)

/-- The destination word of an entry of SPR_CELLAR_TBL (R424): a class queue, or a VOQ whose device is reachable. -/
def Dev.cellarDest (d : Dev) (e : Word) : Nat :=
  let cq (p : Nat) := p * 2 ^ 18
  if !bit e 30 then cq (fld e 22 16)
  else if !d.reach.getLsbD (fld e 28 24) ∧ bit e 29 ∧ fld e 28 24 ≠ d.devId then cq (fld e 14 8)
  else 2 * 2 ^ 30 + fld e 28 24 * 2 ^ 25 + fld e 22 16 * 2 ^ 18 + 0x3FFFF

/-- Cellar memory of a port group in the F-die-only form, 1 MiB (R425). -/
def Dev.cellarMem (d : Dev) (g : Nat) : List Pkt := Tbl.get [] d.spr.cellarMem g
def Dev.setCellarMem (d : Dev) (g : Nat) (l : List Pkt) : Dev :=
  { d with spr := { d.spr with cellarMem := Tbl.set [] d.spr.cellarMem g l } }

/-- Put a frame into cellar memory; it is dropped at the tail when full (R425). -/
def Dev.cellarStore (d : Dev) (k : Pkt) (p : Nat) : Dev :=
  let l := d.cellarMem (p / 16)
  if 2 ^ 20 < (l.map (·.len)).foldl (· + ·) 0 + k.len then d.endHold k.uid
  else d.setCellarMem (p / 16) (l ++ [{ k with outPort := some p }])

/-- A received frame that the MAC passes, in cellar mode (R423 to R425): `k` is charged already. -/
def Dev.cellarReceive (d : Dev) (k : Pkt) : Dev :=
  let cfg := d.reg Reg.SPR_CELLAR_CFG
  let ptp : Bool := bit cfg 31 && isPtp k.frame
  let tc := if ptp then 7 else framePrio (d.reg (Reg.PG_FC_CFG k.port)) k.frame
  let e := d.reg (Reg.SPR_CELLAR_TBL k.port)
  if ptp ∧ fld (d.reg Reg.TIME_CTRL) 14 8 = k.port then d.endHold k.uid
  else if !ptp ∧ !d.cellarTc tc then (d.inc bankSpr 12).endHold k.uid
  else if !bit e 31 then (d.inc bankSpr 13).endHold k.uid
  else
    let k1 := { k with bus := cellarRec k.bus tc (d.cellarDest e), tc := tc, resolved := true, tag := 12 }
    if d.spr.fdieOnly then
      if !bit e 30 then d.cellarStore k1 (fld e 22 16)
      else if bit e 29 then d.cellarStore k1 (fld e 14 8)
      else (d.inc bankSpr 13).endHold k.uid
    else
      match sizeClass k1.len with
      | some c => { d with bpm := { d.bpm with waiting := d.bpm.waiting ++ [{ pool := c, tag := 12, pkt := k1 }] } }
      | none => d.countBadLen.endHold k.uid

end Sys2Proof.Machine
end

