-- ==== Sys2Proof/Machine/CellCore.lean ====
section
/-! DEFINITION. Cells: their layout, what fills a transmit slot, what a received cell meets, the interchange, and
reassembly (R274 to R279, R308 to R314). -/
namespace Sys2Proof.Machine

/-! ## Layout (Table 10.2) -/

/-- The header's bits above hdr_crc. -/
def Cell.hdrBits (c : Cell) (payCrc : Nat) : Nat :=
  c.src * 2 ^ 107 + c.dst * 2 ^ 102 + c.port * 2 ^ 95 + c.tc * 2 ^ 92 + c.seq * 2 ^ 76 + b2n c.valid * 2 ^ 75 +
    b2n c.first * 2 ^ 74 + b2n c.last * 2 ^ 73 + b2n c.abort * 2 ^ 72 + c.length % 512 * 2 ^ 63 + payCrc

/-- The 272 bytes of a cell. An idle cell has pay_crc 0 (R278). -/
def Cell.bytes (c : Cell) : Bytes :=
  let pay := padTo 256 c.payload
  let h := be 14 (c.hdrBits (if c.valid then (crc32c pay).toNat else 0))
  h ++ be 2 (crc16 h).toNat ++ pay

def idleCell : Cell := {}

/-- The cell that 272 bytes hold. -/
def Cell.ofBytes (bs : Bytes) (n : Nat) : Cell :=
  let h := unbe (slice bs 0 14)
  { src := h / 2 ^ 107 % 32, dst := h / 2 ^ 102 % 32, port := h / 2 ^ 95 % 128, tc := h / 2 ^ 92 % 8, seq := h / 2 ^ 76 % 65536,
    valid := h.testBit 75, first := h.testBit 74, last := h.testBit 73, abort := h.testBit 72, length := h / 2 ^ 63 % 512,
    payload := slice bs 16 256, link := n }

/-- Check 2 of R279 fails: hdr_crc, or a malformed header. -/
def Cell.malformed (c : Cell) (bs : Bytes) : Bool :=
  unbe (slice bs 14 2) ≠ (crc16 (slice bs 0 14)).toNat ||
  (if c.valid then c.length = 0 || (c.length < 256 && !c.last) || (c.abort && !c.last)
   else unbe (slice bs 0 14) / 2 ^ 32 ≠ 0)

/-- Check 3 of R279 fails. -/
def Cell.payBad (c : Cell) (bs : Bytes) : Bool := c.valid && unbe (slice bs 10 4) ≠ (crc32c c.payload).toNat

/-! ## Streams (R277, R308) -/

/-- The stream of a nominated packet: 8 × device + class. -/
def Pkt.stream (k : Pkt) : Nat := qIdx k.queue / 1024 * 8 + k.queue % 8

/-- What crosses a link for a packet: its record and its frame (R277). -/
def Pkt.wire (k : Pkt) : Bytes := Machine.slice k.bus 0 64 ++ k.frame

/-- The next cell of a packet is staged: its bytes have crossed, and while the tail has not arrived only the first cell,
which is not the last, may leave (R231). -/
def Pkt.cellStaged (k : Pkt) : Bool :=
  let total := 64 + k.len
  if k.headOnly then k.cutThrough && k.sent = 0 && 192 < k.frame.length && k.size - k.left = min k.size 256
  else (k.left = 0 || k.sent ≠ 0) && min total (k.sent + 256) ≤ k.size - k.left

/-- The first nominated packet of a stream, when its next cell is staged. -/
def Dev.streamHead (d : Dev) (s : Nat) : Option Pkt :=
  match (d.noms 8).find? fun k => k.stream = s with
  | some k => if k.cellStaged then some k else none
  | none => none

/-- The cell that packet `k` sends next under sequence number `q`. -/
def Pkt.nextCell (k : Pkt) (own q : Nat) : Cell :=
  let rest := k.wire.drop k.sent
  let last : Bool := !k.headOnly && rest.length ≤ 256
  { src := own, dst := k.stream / 8, port := qIdx k.queue / 8 % 128, tc := k.stream % 8, seq := q, valid := true,
    first := decide (k.sent = 0), last := last, abort := last && (k.bad || k.stomp), length := max 1 (min 256 rest.length),
    payload := rest.take 256 }

/-- A packet has sent its last cell: its buffers and holds end, and the frame counts in cellar mode (R424, Table 7.3). -/
def Dev.streamDone (d : Dev) (k : Pkt) (abort : Bool) : Dev :=
  let d1 := (d.setNoms 8 (removeSeq k.seq (d.noms 8))).release k
  let d2 := if abort then (d1.inc bankTmq 13).latchBit Reg.TMQ_STATUS 9 else d1
  if d2.spr.cellar then d2.inc bankSpr 11 else d2

/-- The bytes of a cell leave on link `n`, in its line code (R269, R274). -/
def Dev.cellOut (d : Dev) (n : Nat) (bs : Bytes) : Dev := (d.emit (.cell n bs)).lineOut n bs

/-- Link `n` sends the next cell of a packet. The packet is offered to its session at point 1 when it is first sent. -/
def Dev.sendCell (d : Dev) (n : Nat) (k : Pkt) : Dev :=
  let s := k.stream
  let q := Tbl.get 0 d.fab.seqs s
  let c := k.nextCell d.devId q
  let d1 := if k.sent = 0 then d.offer 1 false 0 k else d
  let d2 := { d1 with fab := { d1.fab with seqs := Tbl.set 0 d1.fab.seqs s ((q + 1) % 65536) } }
  let d3 := (d2.cellOut n c.bytes).inc (bankLink n) 2
  if c.last then d3.streamDone k c.abort
  else d3.setNoms 8 ((d3.noms 8).map fun j => if j.seq = k.seq then { j with sent := k.sent + 256 } else j)

/-- Link `n` sends an idle cell. -/
def Dev.sendIdle (d : Dev) (n : Nat) : Dev := (d.cellOut n idleCell.bytes).inc (bankLink n) 4

/-- glean(n, S) of R309: the streams from the pointer in rotating order. -/
def Dev.glean (d : Dev) (n : Nat) (devs : List Nat) : Dev :=
  if !bit (d.reg Reg.TRL_CAL_CTRL) 24 then d.sendIdle n
  else
    let gp := (d.link n).gp
    let found := ((List.range 256).map fun i => (gp + i) % 256).findSome? fun s =>
      if devs.contains (s / 8) then (d.streamHead s).map fun k => (s, k) else none
    match found with
    | some (s, k) => (((d.modLink n fun x => { x with gp := (s + 1) % 256 }).sendCell n k).inc bankTrl 3)
    | none => d.sendIdle n

/-- Type of a transmit entry: 1 DATA, 2 RELAY; 3 acts as 0 (Table 11.1). -/
def txType (e : Word) : Nat := if fld e 31 30 = 3 then 0 else fld e 31 30

/-- A DATA slot: the classes of the group, highest first, else gleaning for the destination and the peer. -/
def Dev.dataSlot (d : Dev) (n : Nat) (e : Word) : Dev :=
  let dst := fld e 28 24
  let cs := [7, 6, 5, 4, 3, 2, 1, 0].filter fun tc => d.classGroup tc = fld e 23 22
  match cs.findSome? fun tc => d.streamHead (8 * dst + tc) with
  | some k => d.sendCell n k
  | none => d.glean n (dst :: (d.peerOf n).toList)

/-- The cell of the interchange for (n, t) leaves. -/
def Dev.sendRelay (d : Dev) (n : Nat) (r : Relay) : Dev :=
  let d1 := { d with fab := { d.fab with relays := d.fab.relays.erase r } }
  ((d1.cellOut n r.bytes).inc (bankLink n) 2).inc bankTrl 0

/-- A cell slot of link `n` begins (R309); slots are numbered from 0 here, frames by the overhead slots sent. -/
def Dev.fillSlot (d : Dev) (n slot : Nat) : Dev :=
  let x := d.link n
  if !x.txOn ∨ x.txIdle ∨ x.txFrame = 0 then d
  else if d.sendsAis n then d.sendIdle n
  else
    let t := 64 * ((x.txFrame - 1) % 16) + slot
    let e := match x.txPage with
      | some p => d.connEntry n 0 p t
      | none => 0#32
    let relay := d.fab.relays.find? fun r => r.link = n && r.slot = t && r.ready ≤ d.time.tsc
    match txType e, relay with
    | 2, some r => d.sendRelay n r
    | 1, _ => d.dataSlot n e
    | _, _ => d.glean n (d.peerOf n).toList

/-! ## Cells lost on receive -/

/-- A dropped cell counts for its link and its second (R294, R295, Table 10.10). -/
def Dev.cellDropped (d : Dev) (n : Nat) : Dev :=
  (d.inc (bankLink n) 14).pmNote n fun s => { s with drops := s.drops + 1 }

/-- A cell of the frame in progress fails check 2 or 3, or a codeword of it is uncorrectable: the frame is errored, once, in the second of its FAW (R294). -/
def Dev.frameError (d : Dev) (n : Nat) : Dev :=
  let d1 := d.pmRoll n
  let x := d1.link n
  if x.frameErr then d1
  else
    let sec := match x.ttArr with
      | a :: _ => a.time.sec
      | [] => x.pmCur.sec
    let e (s : PmSec) : PmSec := if s.sec = sec then { s with errored := s.errored + 1 } else s
    d1.setLink n { x with frameErr := true, pmCur := e x.pmCur, pmPend := x.pmPend.map e }

/-! ## The interchange (R310, R311) -/

/-- Time from now to the next start of calendar slot `t` on link `n` that lies at least 200 ns ahead, in units of 10^-4 ns;
none on a link that has not begun to send. -/
def Dev.slotWait (d : Dev) (n t : Nat) : Option Nat :=
  let x := d.link n
  match x.ttDep with
  | [] => none
  | p :: _ =>
    if !x.txOn ∨ x.txIdle then none
    else
      let now := (d.time.now.units - p.2.units) * 10 ^ 4 / nsUnit + (x.txFrame - 1) % 16 * frameU
      let start := t / 64 * frameU + (t % 64 + 1) * 217600
      let cycle := 16 * frameU
      some (2000000 + (start + 2 * cycle - (now + 2000000) % cycle) % cycle)

/-- A relay cell is dropped (R310, R311). -/
def Dev.relayDrop (d : Dev) (n : Nat) : Dev := ((d.inc bankTrl 1).latchBit Reg.TRL_CAL_STATUS 11).cellDropped n

/-- A cell for another device in a RELAY slot (R310, R311). -/
def Dev.relayCell (d : Dev) (n out slot : Nat) (bs : Bytes) : Dev :=
  let outPage := (d.link out).txPage
  let outRelay : Bool := match outPage with
    | some p => txType (d.connEntry out 0 p slot) = 2
    | none => false
  if (d.link n).has dCalm then (d.inc (bankLink n) 15).relayDrop n
  else if !outRelay then d.relayDrop n
  else
    let late : Bool := match d.slotWait out slot with
      | some w => 10000 * fld (d.reg Reg.TRL_RELAY_CFG) 15 0 < w
      | none => true
    if late ∨ d.fab.relays.any fun r => r.link = out && r.slot = slot then d.relayDrop n
    else
      let r : Relay := { link := out, slot := slot, inLink := n, ready := d.time.tsc + 200, bytes := padTo 272 (bs.take 272) }
      { d with fab := { d.fab with relays := d.fab.relays ++ [r] } }

/-! ## Reassembly (R313, R314) -/

def ctxKey (src tc : Nat) : Nat := 8 * src + tc
def Dev.ctx (d : Dev) (k : Nat) : Ctx := Tbl.get {} d.fab.ctxs k
def Dev.setCtx (d : Dev) (k : Nat) (x : Ctx) : Dev := { d with fab := { d.fab with ctxs := Tbl.set {} d.fab.ctxs k x } }

/-- The buffer request of a packet in assembly, if it still waits, is withdrawn. -/
def Dev.cancelAsk (d : Dev) (uid : Nat) : Dev :=
  let mine (r : AllocReq) : Bool :=
    match r.use with
    | .reassemble _ _ => r.pkt.uid = uid
    | _ => false
  { d with bpm := { d.bpm with waiting := d.bpm.waiting.filter fun r => !mine r } }

/-- The packet in assembly is dropped; its remaining cells are discarded through its last. -/
def Dev.asmDrop (d : Dev) (key cnt : Nat) (skip : Bool) : Dev :=
  let x := d.ctx key
  let d1 := match x.pkt with
    | some k => (d.cancelAsk k.uid).release k
    | none => d
  (d1.setCtx key { x with pkt := none, bytes := [], skip := skip }).inc bankTrl cnt

/-- A packet of the fabric from the record in its first cell (Table 5.4). -/
def fabricPkt (uid : Nat) (rec' : Bytes) : Pkt :=
  let k : Pkt := { uid := uid, origin := .fabric, bus := rec', rxTs := timeAt rec' 0, input := 8, resolved := true }
  { k with port := k.recPort, injected := k.recInjected, vint := k.recVint, pass := k.recPass, len := k.recLen }

/-- A first cell starts a packet: it is counted in flight, and its request for a buffer of the length in its record joins those
that wait for the allocator, under tag TRX (R199, R314, Table 6.2). -/
def Dev.asmStart (d : Dev) (key : Nat) (c : Cell) : Dev :=
  let u := d.newUid
  let k := fabricPkt u.1 (Machine.slice c.payload 0 64)
  let d1 := (u.2.countVint u.1 k.vint).setCtx key { d.ctx key with pkt := some k, bytes := [], skip := false }
  let r : AllocReq := { pool := (sizeClass k.len).getD 0, tag := 9, pkt := k, use := .reassemble key c.port }
  { d1 with bpm := { d1.bpm with waiting := d1.bpm.waiting ++ [r] } }

/-- In cellar mode a frame is queued by its class without a lookup, or dropped outside the cellar set (R424). -/
def Dev.cellarFabric (d : Dev) (port tc : Nat) (k : Pkt) : Dev :=
  if !d.spr.cellar then { d with qm := { d.qm with arrived := d.qm.arrived ++ [k] } }
  else if !d.cellarTc tc then (d.inc bankSpr 12).release k
  else { d with qm := { d.qm with arrived := d.qm.arrived ++ [{ k with queue := qKey 0 (8 * port + tc) + 1 }] } }

/-- A whole packet with its buffer goes to admission (R314); one that carries abort is counted (R232). -/
def Dev.rsmDeliver (d : Dev) (port tc : Nat) (k : Pkt) : Dev :=
  let d1 := d.inc bankTrl 4
  (if k.stomp then (d1.inc bankTmq 14).latchBit Reg.TMQ_STATUS 9 else d1).cellarFabric port tc k

/-- The last cell completes a packet: its true length comes from its cells (R314, R232). One whose request still waits goes on when it
is served. -/
def Dev.asmEnd (d : Dev) (key : Nat) (c : Cell) (k : Pkt) (bytes : Bytes) : Dev :=
  let frame := bytes.drop 64
  let k1 := { k with frame := frame, len := frame.length, stomp := c.abort, bad := c.abort }
  let d1 := d.setCtx key { d.ctx key with pkt := none, bytes := [], skip := false }
  if k.handle.isSome then d1.rsmDeliver c.port c.tc k1
  else
    let whole (r : AllocReq) : AllocReq :=
      match r.use with
      | .reassemble _ _ => if r.pkt.uid = k.uid then { r with pkt := k1, use := .reassemble key c.port } else r
      | _ => r
    { d1 with bpm := { d1.bpm with waiting := d1.bpm.waiting.map whole } }

/-- A cell joins the packet in assembly. -/
def Dev.asmJoin (d : Dev) (key : Nat) (c : Cell) : Dev :=
  let x := d.ctx key
  match x.pkt with
  | none =>
    let d1 := if x.skip then (if c.last then d.setCtx key { x with skip := false } else d) else d.inc bankTrl 5
    d1.cellDropped c.link
  | some k =>
    let bytes := x.bytes ++ c.payload.take c.length
    if k.len + 64 < bytes.length then (d.asmDrop key 6 (!c.last)).cellDropped c.link
    else if c.last then d.asmEnd key c k bytes
    else d.setCtx key { x with bytes := bytes }

/-- Assemble a cell (R314). -/
def Dev.assemble (d : Dev) (key : Nat) (c : Cell) : Dev :=
  if c.first then
    let d1 := if (d.ctx key).pkt.isSome then d.asmDrop key 6 false else d
    (d1.asmStart key c).asmJoin key c
  else d.asmJoin key c

/-- Assemble the held cells in order from exp; the timer stops when none is held. -/
def Dev.drainHeld (d : Dev) (key : Nat) : (fuel : Nat) → Dev
  | 0 => d
  | n + 1 =>
    let x := d.ctx key
    match x.held.find? fun c => c.seq = x.exp with
    | none => if x.held = [] then d.setCtx key { x with gap := none } else d
    | some c =>
      ((d.setCtx key { x with held := x.held.erase c, exp := (x.exp + 1) % 65536 }).assemble key c).drainHeld key n

/-- Cells that one source holds in the reorder store. -/
def Dev.heldOf (d : Dev) (src : Nat) : Nat := ((List.range 8).map fun tc => (d.ctx (ctxKey src tc)).held.length).foldl (· + ·) 0

/-- Hold a cell: beyond the reserve of its source it is dropped (R313). -/
def Dev.holdCell (d : Dev) (key : Nat) (c : Cell) : Dev :=
  if 2048 ≤ d.heldOf c.src then (d.inc bankTrl 10).cellDropped c.link
  else
    let x := d.ctx key
    d.setCtx key { x with held := x.held ++ [c], gap := some (x.gap.getD d.time.tsc) }

/-- A data cell for this device (R313). -/
def Dev.rsmCell (d : Dev) (c : Cell) : Dev :=
  let key := ctxKey c.src c.tc
  let x := d.ctx key
  let δ := fwd 16 x.exp c.seq
  if !x.sync then d.holdCell key c
  else if δ = 0 then
    ((d.setCtx key { x with exp := (x.exp + 1) % 65536 }).assemble key c).drainHeld key (x.held.length + 1)
  else if δ < 32768 then d.holdCell key c
  else (d.inc bankTrl 9).cellDropped c.link

/-- The held cell that precedes every other. -/
def firstHeld : List Cell → Option Cell
  | [] => none
  | c :: cs => some (cs.foldl (fun a b => if fwd 16 a.seq b.seq < 32768 then a else b) c)

/-- The gap timer of a context expires (R313). -/
def Dev.gapExpires (d : Dev) (key : Nat) : Dev :=
  let x := d.ctx key
  match x.gap, firstHeld x.held with
  | some _, some c =>
    let d1 := if !x.sync then d else if x.pkt.isSome then d.asmDrop key 8 true else d
    let d2 := (d1.setCtx key { d1.ctx key with sync := true, exp := c.seq, gap := none }).drainHeld key (x.held.length + 1)
    if (d2.ctx key).held = [] then d2 else d2.setCtx key { d2.ctx key with gap := some d.time.tsc }
  | _, _ => d

/-- The idle time of a context passes (R313). -/
def Dev.ctxIdle (d : Dev) (key : Nat) : Dev :=
  let x := d.ctx key
  if x.held = [] then d.setCtx key { x with sync := false } else d

/-! ## A cell received (R279, R310) -/

/-- A data cell that passed R279 meets the receive connection memory; without the F-die there are no own ports (R425). -/
def Dev.routeCell (d : Dev) (n t : Nat) (c : Cell) (bs : Bytes) : Dev :=
  if c.dst = d.devId then (if d.spr.fdieOnly then d.cellDropped n else d.rsmCell c)
  else
    let e := match (d.link n).rxPage with
      | some p => d.connEntry n 1 p t
      | none => 0#32
    if fld e 31 30 = 1 then d.relayCell n (fld e 29 22) (fld e 21 12) bs
    else (d.inc bankTrl 2).cellDropped n

/-- A cell arrives in cell slot `slot` of the frame in progress (R279). -/
def Dev.cellAt (d : Dev) (n slot : Nat) (bs : Bytes) : Dev :=
  let x := d.link n
  let c := Cell.ofBytes bs n
  if x.align ≠ 4 then d
  else if x.down ∨ x.selfLoop d.devId then
    if c.valid then (d.inc (bankLink n) 7).cellDropped n else d
  else if c.malformed bs then ((d.inc (bankLink n) 5).frameError n).cellDropped n
  else if c.payBad bs then ((d.inc (bankLink n) 6).frameError n).cellDropped n
  else if c.valid then (d.inc (bankLink n) 0).routeCell n (64 * (x.rxMfi % 16) + slot) c bs
  else d

/-- A cell slot with the codewords that came with it; `bad` says that one that carries any of its bytes is uncorrectable (R294). -/
def Dev.cellIn (d : Dev) (n slot : Nat) (bs : Bytes) (cws : List Codeword) (bad : Bool) : Dev :=
  if d.hears n then
    let d1 := d.takeCws n cws
    (if bad ∧ (d1.link n).align = 4 then d1.frameError n else d1).cellAt n slot bs
  else d

end Sys2Proof.Machine
end

