-- ==== Sys2Proof/Machine/Bpm.lean ====
section
/-! DEFINITION. The commands of the buffer pool manager: allocator cycles, operations on a state entry, reserved minima,
revocation and the auditor (R193, R197 to R214, R224). -/
namespace Sys2Proof.Machine

/-! ## BUFFER_ALLOCATE -/

/-- The tag a request is made under: in cellar mode every one is made under RCVY (R208). -/
def Dev.reqTag (d : Dev) (r : AllocReq) : Nat := if d.spr.cellar then 12 else r.tag

/-- The requests that wait at a pool under a tag, oldest first. -/
def Dev.reqsOf (d : Dev) (k tag : Nat) : List AllocReq := d.bpm.waiting.filter fun r => r.pool = k && d.reqTag r = tag

/-- The tags served in a cycle: the first four in the order from the pointer (R199). -/
def Dev.servedTags (d : Dev) (k : Nat) : List Nat :=
  let p := Tbl.get 0 d.bpm.ptr k
  (((List.range 14).map fun i => (p + i) % 14).filter fun t => !((d.reqsOf k t) == [])).take 4

/-- The pointer after the cycle (R199). -/
def Dev.nextPtr (d : Dev) (k : Nat) : Nat :=
  match (d.servedTags k).getLast? with
  | some t => (t + 1) % 14
  | none => (Tbl.get 0 d.bpm.ptr k + 1) % 14

/-- The packet of an evacuation request still waits for its decision (R223). -/
def Dev.evacWanted (d : Dev) (k : Pkt) : Bool := (d.queue k.queue).pkts.any fun x => x.seq = k.seq && x.evacAsk

/-- One buffer of an evacuation request (R224): tokens of the write share first, then the DRAM pool. Answers SH. -/
def Dev.serveEvac (d : Dev) (r : AllocReq) (sh : Int) : Int × Dev :=
  let k := r.pkt
  let share := evacShare k.queue false
  if !d.evacWanted k then (sh, d)
  else if d.spr.cellar ∨ d.evacTokens share < evacCharge k.len then (sh, d.evacRefused k.queue k.seq)
  else
    let a := d.allocOne r.pool r.tag k.len sh
    match a.1 with
    | some h => (a.2.1, (a.2.2.takeTokens share (evacCharge k.len)).modInQueue k.queue k.seq fun x =>
        { x with evacTo := some h, evacAsk := false })
    | none => (a.2.1, a.2.2.evacRefused k.queue k.seq)

/-- One buffer of a hand-off request (R193): a granted packet goes to admission under the tag of its buffer, a failed one
is dropped. -/
def Dev.serveHandoff (d : Dev) (r : AllocReq) (sh : Int) : Int × Dev :=
  let a := d.allocOne r.pool (d.reqTag r) r.pkt.len sh
  match a.1 with
  | some h =>
    let d1 := a.2.2
    (a.2.1, { d1 with qm := { d1.qm with arrived := d1.qm.arrived ++ [{ r.pkt with handle := some h, tag := (d1.buf h).tag }] } })
  | none => (a.2.1, a.2.2.dropPkt r.pkt)

/-- The packet of a reassembly request is still in assembly. -/
def Dev.assembling (d : Dev) (key uid : Nat) : Bool :=
  match (d.ctx key).pkt with
  | some k => k.uid = uid
  | none => false

/-- The buffer of a reassembly is granted: its context takes it, or the whole packet goes to admission (R314). The length asked for is
that of the record. -/
def Dev.rsmGranted (d : Dev) (key port h : Nat) (k : Pkt) : Dev :=
  let give (j : Pkt) : Pkt := { j with handle := some h, tag := (d.buf h).tag }
  let x := d.ctx key
  if d.assembling key k.uid then d.setCtx key { x with pkt := x.pkt.map give } else d.rsmDeliver port (key % 8) (give k)

/-- The request of a reassembly fails: its packet is dropped, with its cells through the last (R314). -/
def Dev.rsmFailed (d : Dev) (key : Nat) (k : Pkt) : Dev :=
  let d1 := (d.release k).inc bankTrl 7
  if d.assembling key k.uid then d1.setCtx key { d1.ctx key with pkt := none, bytes := [], skip := true } else d1

/-- One buffer of a reassembly request (R193, R314). -/
def Dev.serveReassembly (d : Dev) (r : AllocReq) (key port : Nat) (sh : Int) : Int × Dev :=
  let a := d.allocOne r.pool (d.reqTag r) r.pkt.recLen sh
  match a.1 with
  | some h => (a.2.1, a.2.2.rsmGranted key port h r.pkt)
  | none => (a.2.1, a.2.2.rsmFailed key r.pkt)

/-- One buffer of a served request. -/
def Dev.serveReq (x : Int × Dev) (r : AllocReq) : Int × Dev :=
  match r.use with
  | .evacuate => x.2.serveEvac r x.1
  | .handoff => x.2.serveHandoff r x.1
  | .reassemble key port => x.2.serveReassembly r key port x.1

/-- Requests less those taken, one for one. -/
def removeReqs (taken l : List AllocReq) : List AllocReq := taken.foldl List.erase l

/-- One cycle of a pool's allocator (R199 to R201): up to four requests of up to 64 buffers, in the order of their tags,
each buffer in packet order. -/
def Dev.allocCycle (d : Dev) (k : Nat) : Dev :=
  let now := (d.servedTags k).flatMap fun t => (d.reqsOf k t).take 64
  let d1 : Dev := { d with bpm := { d.bpm with waiting := removeReqs now d.bpm.waiting, ptr := Tbl.set 0 d.bpm.ptr k (d.nextPtr k) } }
  (now.foldl Dev.serveReq (d1.sharedFree k, d1)).2

/-- The free buffers of a pool whose state entries the cycle reads and finds uncorrectable are retired, and not granted (R214). -/
def Dev.retireFree (d : Dev) (pool : Nat) (bad : List Word) : Dev :=
  d.stateEccs ((bad.map BitVec.toNat).filter fun h => d.poolKey h = pool && !(d.buf h).alloc)

/-- BUFFER_ALLOCATE (R193, R199, R200, R205, R208, R214, R224): `bad` are the handles whose state entries the cycle finds
uncorrectable. -/
def execBufferAllocate (pool : Fin 12) (bad : List Word) (s : State) : Host.Outcome State Fault Refusal :=
  actIn pllT (.bufferAllocate pool bad) s fun d => ((d.retireFree pool bad).allocCycle pool).settleInjections

/-! ## Operations on a state entry -/

/-- The read of a state entry before an operation: `eccBad` says that it is found uncorrectable (R214). -/
def Dev.readEntry (d : Dev) (h : Nat) (eccBad : Bool) : Dev := if eccBad then d.stateEccs [h] else d

/-- BUFFER_HAND_OVER (R197, R203, R214). -/
def execBufferHandOver (party : Fin 14) (handle : Word) (newTag : Fin 14) (eccBad : Bool) (s : State) : Host.Outcome State Fault Refusal :=
  actIn pllT (.bufferHandOver party handle newTag eccBad) s fun d =>
    (d.readEntry handle.toNat eccBad).bufHandOver party handle.toNat newTag

/-- BUFFER_SET_REFS (R197, R203, R214). -/
def execBufferSetRefs (party : Fin 14) (handle : Word) (count : Nat) (eccBad : Bool) (s : State) : Host.Outcome State Fault Refusal :=
  actIn pllT (.bufferSetRefs party handle count eccBad) s fun d =>
    (d.readEntry handle.toNat eccBad).bufSetRefs party handle.toNat count

/-- BUFFER_FREE (R197, R202, R203, R214). -/
def execBufferFree (party : Fin 14) (handle : Word) (eccBad : Bool) (s : State) : Host.Outcome State Fault Refusal :=
  actIn pllT (.bufferFree party handle eccBad) s fun d => (d.readEntry handle.toNat eccBad).bufFree party handle.toNat

/-! ## BPM_RSV -/

/-- The sum of a pool's minima with one of them replaced. -/
def Dev.rsvSum (d : Dev) (o t s x : Nat) : Nat :=
  ((List.range 14).map fun i => if i = o then x else fld (d.reg (Reg.BPM_RSV i t s)) 28 0).foldl (· + ·) 0

/-- The limit on a pool's minima (R198). -/
def Dev.rsvLimit (d : Dev) (t s : Nat) : Nat := if t = 0 then d.poolCount 0 s - d.recircCount s else d.poolCount 1 s

/-- A write of BPM_RSV (R198). -/
def Dev.rsvWrite (d : Dev) (o t s : Nat) (v : Word) : Dev :=
  if d.rsvSum o t s (fld v 28 0) ≤ d.rsvLimit t s then d.setReg (Reg.BPM_RSV o t s) (wd (fld v 28 0))
  else (d.latchBit Reg.BPM_STATUS 9).logBit 0x50 0 9 0 []

/-- BPM_RSV_WRITE (R198). -/
def execBpmRsvWrite (o : Fin 14) (tier : Fin 2) (cls : Fin 4) (v : Word) (s : State) : Host.Outcome State Fault Refusal :=
  actReg .bar0 (Reg.BPM_RSV o tier cls) (.bpmRsvWrite o tier cls v) s fun d => d.rsvWrite o tier cls v

/-! ## Revocation (R206, R208) -/

/-- drain_ms ends: the failed tag's operations are refused from now on, and the scan starts. -/
def Dev.drainEnds (d : Dev) (n : Nat) : Dev :=
  if d.tagState n = .draining then
    let d1 := d.setTag n .closed
    { d1 with bpm := { d1.bpm with scans := d1.bpm.scans ++ [n] } }
  else d

/-- REVOKE_DRAIN_EXPIRE (R206). -/
def execRevokeDrainExpire (n : Fin 9) (s : State) : Host.Outcome State Fault Refusal := actIn pllT (.revokeDrainExpire n) s fun d => d.drainEnds n

/-- The scan of a tag ends and its recovery window closes. -/
def Dev.scanEnds (d : Dev) (tag : Nat) : Dev :=
  if d.bpm.scans.contains tag then
    let d1 := d.revokeTag tag
    { d1 with bpm := { d1.bpm with scans := d1.bpm.scans.filter (· != tag), window := d1.bpm.window.filter fun w => w.1 != tag } }
  else d

/-- REVOCATION_SCAN_COMPLETE (R206, R208, R214): `bad` are the handles whose state entries the scan finds uncorrectable. -/
def execRevocationScanComplete (tag : Fin 14) (bad : List Word) (s : State) : Host.Outcome State Fault Refusal :=
  actIn pllT (.revocationScanComplete tag bad) s fun d =>
    (if d.bpm.scans.contains tag then d.stateEccs (bad.map BitVec.toNat) else d).scanEnds tag

/-! ## The auditor (R210 to R212) -/

/-- Handles of a packet. -/
def Pkt.handles (k : Pkt) : List Nat := k.handle.toList ++ k.dram.toList ++ k.evacTo.toList

/-- Handles on the queue lists of both tiers. -/
def Dev.queueHandles (d : Dev) : List Nat := d.qm.queues.flatMap fun x => x.2.pkts.flatMap Pkt.handles

/-- Handles that the units of R211 hold outside the lists. A party that is not live is not asked (R209). -/
def Dev.flightHandles (d : Dev) : List Nat :=
  let live (k : Pkt) : Bool := d.tagState k.tag = .live
  let slices := ((List.range 9).filter fun n => d.tagState n = .live).flatMap fun n => (d.slice n).held.flatMap Pkt.handles
  let noms := d.qm.noms.flatMap fun x => x.2.flatMap Pkt.handles
  let ctxs := d.fab.ctxs.flatMap fun x => x.2.pkt.toList.flatMap Pkt.handles
  let punt := match d.host.punt with
    | some (_, _, _, k) => k.handles
    | none => []
  slices ++ noms ++ ctxs ++ punt ++ (d.qm.arrived.filter live).flatMap Pkt.handles ++ (d.qm.repl.filter live).flatMap Pkt.handles

/-- A run of free buffers holds an index. -/
def Seg.has (s : Seg) (i : Nat) : Bool := s.start ≤ i && (i - s.start) % s.step = 0 && (i - s.start) / s.step < s.cnt

/-- A buffer is on its free list. -/
def Dev.onFreeList (d : Dev) (h : Nat) : Bool := (d.freeList (d.listKey h)).any fun s => s.has (hIdx h)

/-- The mark phase begins a pass: what the walk of the free lists and queue lists meets is marked (R210). -/
def Dev.auditStart (d : Dev) : Dev :=
  if d.bpm.auditing ∨ !bit (d.reg Reg.BPM_CTRL) 1 then d
  else
    let q := d.queueHandles
    { d with bpm := { d.bpm with auditing := true, sweeping := false, bufs := d.bpm.bufs.map fun p =>
        (p.1, { p.2 with marked := q.contains p.1 || d.onFreeList p.1 || !p.2.alloc }) } }

/-- AUDIT_PASS_START (R210). -/
def execAuditPassStart (s : State) : Host.Outcome State Fault Refusal := actIn pllT .auditPassStart s Dev.auditStart

/-- A list repair (R212): 1 put back, 2 taken off. -/
def Dev.repaired (d : Dev) (kind h : Nat) : Dev := (d.inc bankBpm 18).logNum 0x50 3 0 (le 1 kind ++ le 4 h)

/-- The sweep reads one state entry (R210, R212). -/
def Dev.sweepEntry (d : Dev) (flight : List Nat) (h : Nat) : Dev :=
  let b := d.buf h
  if d.onLostStack h ∧ !b.alloc then d
  else if !b.alloc then
    if d.onFreeList h then d
    else (d.setFreeList (d.listKey h) (d.freeList (d.listKey h) ++ [{ start := hIdx h, step := 1, cnt := 1 }])).repaired 1 h
  else
    let d0 := if d.onFreeList h then (d.unlist h).repaired 2 h else d
    if b.tag = 15 ∨ b.marked ∨ flight.contains h then d0.setBuf h { b with suspect := false }
    else if b.suspect then ((d0.forceFree h).inc bankBpm 17 |>.latchBit Reg.BPM_STATUS 12).logBit 0x50 0 12 0 (le 4 h ++ le 1 b.tag)
    else d0.setBuf h { b with suspect := true }

/-- The entries that the sweep finds suspect. -/
def Dev.suspects (d : Dev) (flight : List Nat) : Nat :=
  (d.bpm.bufs.filter fun p => p.2.alloc && p.2.tag ≠ 15 && !p.2.marked && !flight.contains p.1).length

/-- The sweep of a pass is done. -/
def Dev.auditEnd (d : Dev) : Dev :=
  if !d.bpm.auditing then d
  else
    let flight := d.queueHandles ++ d.flightHandles
    let n := d.suspects flight
    let d1 := (d.bpm.bufs.map (·.1)).foldl (fun d h => d.sweepEntry flight h) d
    ({ d1 with bpm := { d1.bpm with auditing := false, sweeping := false } }.setReg Reg.BPM_AUDIT_STATUS (wd (satN 24 n))).inc bankBpm 16

/-- AUDIT_PASS_COMPLETE (R210, R212, R214): `bad` are the handles whose state entries the sweep finds uncorrectable. -/
def execAuditPassComplete (bad : List Word) (s : State) : Host.Outcome State Fault Refusal :=
  actIn pllT (.auditPassComplete bad) s fun d => (if d.bpm.auditing then d.stateEccs (bad.map BitVec.toNat) else d).auditEnd

end Sys2Proof.Machine
end

