-- ==== Sys2Proof/Machine/Calendars.lean ====
section
/-! DEFINITION. The commands of calendars, cells and reassembly (R303 to R319, R325). -/
namespace Sys2Proof.Machine

/-! ## Cells -/

/-- CELL_SLOT_TRANSMIT (R309): cell slot `slot` of the frame being sent, numbered from 0. -/
def execCellSlotTransmit (n : Fin 256) (slot : Fin 64) (s : State) : Host.Outcome State Fault Refusal :=
  actIn pllFabric (.cellSlotTransmit n slot) s fun d => d.fillSlot n slot

/-- CELL_RECEIVE (R279, R294, R310): 272 bytes in cell slot `slot` of the frame being received, numbered from 0, with the codewords
that came since the last row of the link. -/
def execCellReceive (n : Fin 256) (slot : Fin 64) (bytes : Bytes) (cws : List Codeword) (bad : Bool) (s : State) :
    Host.Outcome State Fault Refusal :=
  actLive pllFabric s fun d => d.cellIn n slot bytes cws bad

/-- REORDER_GAP_TIMEOUT (R313). -/
def execReorderGapTimeout (src : Fin 32) (tc : Fin 8) (s : State) : Host.Outcome State Fault Refusal :=
  actIn pllFabric (.reorderGapTimeout src tc) s fun d => d.gapExpires (ctxKey src tc)

/-- CONTEXT_IDLE_TIMEOUT (R313). -/
def execContextIdleTimeout (src : Fin 32) (tc : Fin 8) (s : State) : Host.Outcome State Fault Refusal :=
  actIn pllFabric (.contextIdleTimeout src tc) s fun d => d.ctxIdle (ctxKey src tc)

/-! ## TRL_CAL_CMD (R304, R306, R325, R537) -/

/-- TRL_CAL_CMD ends with a result. -/
def Dev.calResult (d : Dev) (r : Nat) : Dev :=
  let d1 := d.setReg Reg.TRL_CAL_CMD (put r 28)
  if r = 0 then d1 else d1.latchBit Reg.TRL_CAL_STATUS 8

/-- The target is a header, and its direction: 0 transmit, 1 receive. -/
def calHeader (target : Nat) : Bool := 2 ≤ target
def calDir (target : Nat) : Nat := target % 2

/-- An entry that R306 refuses: a reserved field that is not 0, or a DATA entry for the device itself. -/
def Dev.badConn (d : Dev) (dir : Nat) (w : Word) : Bool :=
  if dir = 0 then fld w 29 29 ≠ 0 || fld w 21 0 ≠ 0 || (fld w 31 30 = 1 && fld w 28 24 = d.devId)
  else fld w 11 0 ≠ 0

/-- The check of a page write (R306): 0, or the result it ends with. -/
def Dev.pageWriteFails (d : Dev) (target n page : Nat) (w : Word) : Nat :=
  if !calHeader target ∧ d.badConn (calDir target) w then 2
  else if (d.link n).page (calDir target) = some page then 3
  else 0

/-- TRL_CAL_CMD op WRITE. -/
def Dev.calWrite (d : Dev) (target n page idx : Nat) : Dev :=
  let w := d.reg Reg.TRL_CAL_DATA
  if d.fab.obeyed ≠ 0 then d.calResult 4
  else if calHeader target ∧ idx ≠ 0 then d.calResult 1
  else match d.pageWriteFails target n page w with
    | 0 =>
      if calHeader target then (d.setGen n (calDir target) page (fld w 15 0)).calResult 0
      else ((d.setConn n (calDir target) page idx w).updateReach).calResult 0
    | r => d.calResult r

/-- TRL_CAL_CMD op READ. -/
def Dev.calRead (d : Dev) (target n page idx : Nat) : Dev :=
  if calHeader target ∧ idx ≠ 0 then d.calResult 1
  else
    let w := if calHeader target then wd (d.gen n (calDir target) page) else d.connEntry n (calDir target) page idx
    (d.setReg Reg.TRL_CAL_DATA w).calResult 0

/-- CAL_WRITE (R306). -/
def execCalWrite (target : BitVec 2) (link : BitVec 8) (page : Bool) (idx : BitVec 10) (s : State) :
    Host.Outcome State Fault Refusal :=
  actReg .bar0 Reg.TRL_CAL_CMD (.calWrite target link page idx) s fun d => d.calWrite target.toNat link.toNat (b2n page) idx.toNat

/-- CAL_READ (R325). -/
def execCalRead (target : BitVec 2) (link : BitVec 8) (page : Bool) (idx : BitVec 10) (s : State) :
    Host.Outcome State Fault Refusal :=
  actReg .bar0 Reg.TRL_CAL_CMD (.calRead target link page idx) s fun d => d.calRead target.toNat link.toNat (b2n page) idx.toNat

/-! ## Page switches (R316 to R319) -/

/-- A page switch takes effect. -/
def Dev.switched (d : Dev) : Dev := (d.inc bankTrl 11).latchBit Reg.TRL_CAL_STATUS 9

/-- A page switch fails. -/
def Dev.switchFails (d : Dev) (n : Nat) : Dev := ((d.inc bankTrl 12).latchBit Reg.TRL_CAL_STATUS 10).logBit 0x70 1 10 n []

/-- Cells that wait for a slot of link `n` that is no longer RELAY are dropped (R311). -/
def Dev.dropStaleRelays (d : Dev) (n : Nat) : Dev :=
  let keeps (r : Relay) : Bool := r.link ≠ n || (match (d.link n).txPage with
    | some p => txType (d.connEntry n 0 p r.slot) = 2
    | none => false)
  (d.fab.relays.filter fun r => !keeps r).foldl (fun d r => d.relayDrop r.inLink)
    { d with fab := { d.fab with relays := d.fab.relays.filter keeps } }

/-- A switch armed on the transmit side is due: a calendar cycle begins, and the boundary has come. -/
def Link.txDue (x : Link) : Option (Nat × Nat) := x.txArm.find? fun a => x.txFrame % 16 = 0 && a.2 ≤ x.txFrame

/-- The transmit side switches at the boundary (R316). -/
def Dev.txSwitch (d : Dev) (n : Nat) : Dev :=
  let x := d.link n
  match x.txDue with
  | none => d
  | some a =>
    let pg := x.standby 0
    let d1 := d.setLink n { x with txArm := x.txArm.erase a }
    if d.gen n 0 pg = 0 then d1.switchFails n
    else (((d1.modLink n fun x => { x with txPage := some pg }).switched).dropStaleRelays n).updateReach

/-- CAL_TX_PAGE_SWITCH (R316): before the overhead slot that begins the cycle is built. -/
def execCalTxPageSwitch (n : Fin 256) (s : State) : Host.Outcome State Fault Refusal :=
  actIn pllFabric (.calTxPageSwitch n) s fun d => d.txSwitch n

/-- The received boundary of the cycle that the persistent request names is here (R318). -/
def Link.rxBoundary (x : Link) : Bool :=
  match x.rxPersist with
  | none => false
  | some r => x.align = 4 && x.rxMfi % 16 = 0 && (16 * x.rxMfc + x.rxMfi / 16) % 2 ^ 28 = fld r 27 0

/-- The request suits the standby page: it includes transmit, and names its generation (R318). -/
def Dev.rxAgrees (d : Dev) (n : Nat) : Bool :=
  match (d.link n).rxPersist with
  | none => false
  | some r =>
    let g := d.gen n 1 ((d.link n).standby 1)
    (fld r 62 61 = 1 || fld r 62 61 = 3) && fld r 59 44 = g && g ≠ 0

/-- The receive side switches at the received boundary, no later than 23.6304 µs after the instant (R318). -/
def Dev.rxSwitch (d : Dev) (n : Nat) : Dev :=
  let x := d.link n
  match x.rxArm with
  | none => d
  | some t =>
    if !x.rxBoundary then d
    else
      let d1 := d.setLink n { x with rxArm := none }
      if d.rxAgrees n ∧ 10 * d.time.now.units ≤ (10 * t + 236304) * nsUnit then
        (d1.modLink n fun x => { x with rxPage := some (x.standby 1) }).switched
      else d1.switchFails n

/-- CAL_RX_PAGE_SWITCH (R318): at the overhead slot that begins the cycle. -/
def execCalRxPageSwitch (n : Fin 256) (s : State) : Host.Outcome State Fault Refusal :=
  actIn pllFabric (.calRxPageSwitch n) s fun d => d.rxSwitch n

/-- No boundary came in time (R318). -/
def Dev.rxGivesUp (d : Dev) (n : Nat) : Dev :=
  match (d.link n).rxArm with
  | none => d
  | some _ => (d.modLink n fun x => { x with rxArm := none }).switchFails n

/-- CAL_RX_SWITCH_TIMEOUT (R318). -/
def execCalRxSwitchTimeout (n : Fin 256) (s : State) : Host.Outcome State Fault Refusal :=
  actIn pllFabric (.calRxSwitchTimeout n) s fun d => d.rxGivesUp n

/-- A link's transmit side is armed at the instant of an entry (R316). -/
def Link.armTx (x : Link) (dir frame : Nat) : Link := { x with txArm := x.txArm ++ [(dir, frame)] }

/-- CALENDAR_SWITCH at its instant on one link (R316, R318). -/
def Dev.armSwitch (d : Dev) (n : Nat) (e : LEntry) : Dev :=
  let dir := e.arg % 4
  let d1 := if dir % 2 = 1 then d.modLink n fun x => x.armTx dir (d.boundaryFrame n e.instant) else d
  if 2 ≤ dir then d1.modLink n fun x => { x with rxArm := some e.instant } else d1

/-- CALENDAR_SWITCH at its instant: on one link, or on every enabled link. -/
def Dev.calendarSwitch (d : Dev) (e : LEntry) : Dev :=
  let ns := if e.target = 0xFFFFFFFF then (List.range 256).filter fun n => (d.link n).align ≠ 0 else [e.target % 256]
  ns.foldl (fun d n => d.armSwitch n e) d

end Sys2Proof.Machine
end

