-- ==== Sys2Proof/Machine/CntCore.lean ====
section
/-! DEFINITION. Counter banks, clears, harvests and per-meter counts (R506 to R519). -/
namespace Sys2Proof.Machine

/-- Counter sets: first bank, number of banks, words of a bank (Table 19.1). -/
def setInfo : List (Nat × Nat × Nat) :=
  [(0, 1, 32), (1, 128, 32), (129, 9, 16), (138, 9, 32), (147, 9, 14), (156, 1, 16), (157, 1, 32), (158, 1, 32), (159, 1, 114),
   (160, 1, 16), (161, 1, 16), (162, 1, 16), (163, 1, 192), (164, 8, 32), (172, 1, 32), (173, 256, 32), (429, 1, 32),
   (430, 1, 32), (431, 1, 32), (432, 1, 32)]

/-- The number of banks. -/
def bankCount : Nat := 433

/-- Sets whose counters lie on the F-die: ports and slices. -/
def setOnFdie (s : Nat) : Bool := 1 ≤ s && s ≤ 5

/-! ## Clears (R511) -/

/-- Every counter of a bank becomes 0. -/
def Dev.clearBank (d : Dev) (b : Nat) : Dev := { d with cnt := d.cnt.filter fun p => p.1 / 256 ≠ b }

/-- A CNT_CMD ends with a result (R519). -/
def Dev.cntResult (d : Dev) (r : Nat) : Dev :=
  let d1 := d.setReg Reg.CNT_CMD (put r 28)
  if r = 0 then d1.inc bankCnt 4 else d1.latchBit Reg.CNT_STATUS 8

def Dev.cntClearBank (d : Dev) (b : Nat) : Dev := if bankCount ≤ b then d.cntResult 1 else (d.clearBank b).cntResult 0

/-- The banks of set `s`. -/
def setBanks (s : Nat) : List Nat :=
  match setInfo[s]? with
  | some (b, n, _) => (List.range n).map (b + ·)
  | none => []

def Dev.cntClearSet (d : Dev) : Dev :=
  let mask := d.reg Reg.CNT_CMD_MASK
  let banks := ((List.range 20).filter fun s => bit mask s).flatMap setBanks
  (banks.foldl (fun d b => d.clearBank b) d).cntResult 0

/-- A write of CNT_CMD. -/
def Dev.cntCmd (d : Dev) (v : Word) : Dev :=
  match fld v 13 12 with
  | 1 => d.cntClearBank (fld v 8 0)
  | 2 => d.cntClearSet
  | _ => d

/-! ## Direct reads (R509, R510, R501) -/

/-- A read of counter `i` of bank `b` at offset `off` by a path with latch `p`: in clear-on-read mode it clears the counter,
a chained pair by its low word. -/
def Dev.readCounter (d : Dev) (p off b i : Nat) : Word × Dev :=
  let v := d.counter b i
  let rc : Bool := bit (d.reg (Reg.CNT_BANK_CFG b)) 31
  let clear (d : Dev) (i : Nat) : Dev := { d with cnt := Tbl.erase d.cnt (cntKey b i) }
  if d.chained b i then
    if i % 2 = 0 then
      let d1 := { d with latch := Tbl.set (0, 0#32) d.latch p (off + 4, d.counter b (i + 1)) }
      (v, if rc then clear (clear d1 i) (i + 1) else d1)
    else
      let l := Tbl.get (0, 0#32) d.latch p
      (if l.1 = off then l.2 else v, d)
  else (v, if rc then clear d i else d)

/-! ## Harvest (R513 to R515) -/

/-- A block a harvest has frozen: set, instance, bank, words, chain word, partial. -/
abbrev HvBlock := Nat × Nat × Nat × List Nat × Nat × Bool

/-- The frozen block of bank `b`, the `j`-th of set `s`. -/
def Dev.freezeBank (d : Dev) (s j b words : Nat) : HvBlock :=
  let cfg := d.reg (Reg.CNT_BANK_CFG b)
  (s, j, b, (List.range words).map fun i => (d.counter b i).toNat, fld cfg 15 0 + b2n (bit cfg 31) * 2 ^ 16, false)

/-- The blocks of one set of banks. -/
def Dev.freezeSet (d : Dev) (s : Nat) : List HvBlock :=
  match setInfo[s]? with
  | some (b, n, w) => (List.range n).map fun j => d.freezeBank s j (b + j) w
  | none => []

/-- The six words of a meter (R516): all ones when its line is on a lost stack. -/
def Dev.meterWords (d : Dev) (m : Nat) : List Nat :=
  if d.mtrLineLost m then List.replicate 6 0xFFFFFFFF
  else [0, 1, 2].flatMap fun c => [d.meterCount m c % 2 ^ 32, d.meterCount m c / 2 ^ 32 % 2 ^ 32]

/-- Block `k` of set 20: the meters 256k to 256k + 255. -/
def Dev.freezeMeters (d : Dev) (k : Nat) : HvBlock :=
  let ms := (List.range 256).map (256 * k + ·)
  (20, k, 0xFFFF, ms.flatMap d.meterWords, 0, ms.any d.mtrLineLost)

/-- The blocks of the sets in mask `t`, ascending; those of the F-die are missing once the Dukider link is lost (R514). -/
def Dev.freeze (d : Dev) (t : Nat) : List HvBlock :=
  ((List.range 20).filter fun s => t.testBit s && !(d.dukLost && setOnFdie s)).flatMap d.freezeSet ++
    (if t.testBit 20 then (List.range 512).map d.freezeMeters else [])

/-- Sets still streaming. -/
def Dev.hvPending (d : Dev) : Nat :=
  (List.range 21).foldl (fun m s => if d.harv.active.any fun h => h.blocks.any fun b => b.1 = s then m + 2 ^ s else m) 0

/-- A harvest is skipped (R513). -/
def Dev.harvestSkips (d : Dev) (e : LEntry) (sets : Nat) : Bool :=
  sets = 0 || (match d.harv.lastAt with
    | some t => decide ((e.sec * 10 ^ 9 + e.ns) < t + 100000)
    | none => false) || d.hvPending &&& sets ≠ 0

/-- A HARVEST action (R513, R514). -/
def Dev.harvest (d : Dev) (e : LEntry) (late : Bool) : Dev :=
  let sets := e.target % 2 ^ 21
  if d.harvestSkips e sets then
    ({ d with harv := { d.harv with skipped := satN 32 (d.harv.skipped + 1) } }.inc bankCnt 1).latchBit Reg.CNT_STATUS 10
  else
    let bs := d.freeze sets
    let seq := (d.harv.seq + 1) % 2 ^ 32
    let missing : Bool := d.dukLost && (List.range 20).any fun s => sets.testBit s && setOnFdie s
    let h : Harvest := { blocks := bs, dest := e.arg % 4, sec := e.sec, ns := e.ns, late := late, missing := missing, tag := e.tag,
                         seq := seq, skipped := d.harv.skipped, total := bs.length }
    ({ d with harv := { d.harv with seq := seq, skipped := 0, lastAt := some (e.sec * 10 ^ 9 + e.ns),
                                    active := d.harv.active ++ (if bs = [] then [] else [h]) } }).inc bankCnt 0

/-- A block is discarded (R515). -/
def Dev.hvLost (d : Dev) : Dev := (d.inc bankCnt 3).latchBit Reg.CNT_STATUS 11

/-- The bytes of a block: header of Table 19.2, words, padding to 64 bytes. -/
def Harvest.blockBytes (h : Harvest) (dev : Nat) (b : HvBlock) (last : Bool) : Bytes :=
  let words := b.2.2.2.1.flatMap fun w => le 4 w
  let flags := b2n h.late + 2 * b2n h.missing + 4 * b2n b.2.2.2.2.2 + 8 * b2n last
  let head := [90#8, 72#8, 86#8, 66#8] ++ le 4 h.seq ++ le 2 0 ++ le 4 h.ns ++ le 6 h.sec ++ le 1 b.1 ++ le 1 flags ++ le 2 b.2.1 ++
    le 2 b.2.2.1 ++ le 2 b.2.2.2.1.length ++ le 4 b.2.2.2.2.1 ++ le 4 h.skipped ++ le 2 h.tag ++ le 1 dev ++ [0#8] ++
    le 4 h.index ++ le 4 h.total ++ List.replicate 12 0#8
  let all := head ++ wordBytes (crc32c (head ++ words)) ++ words
  padTo (64 * ceilDiv all.length 64) all

/-- Write a block to the DRAM ring; `none` when it is discarded (R515, R516). -/
def Dev.hvRing (d : Dev) (bs : Bytes) : Option Dev :=
  let size := fld (d.reg Reg.CNT_HV_SIZE) 23 0
  let base := (d.reg Reg.CNT_HV_BASE).toNat
  let prod := fld (d.reg Reg.CNT_HV_PROD) 23 0
  let cons := fld (d.reg Reg.CNT_HV_CONS) 23 0
  let wrap : Bool := bit (d.reg Reg.CNT_HV_QCFG) 31
  let u := bs.length / 64
  let skip := if size < prod + u then size - prod else 0
  let start := if skip = 0 then prod else 0
  let room := if prod = cons then size else (cons + size - prod) % size
  if size = 0 ∨ size < u ∨ (!wrap ∧ room ≤ skip + u) ∨ base + start < 0xC000 then none
  else
    let d1 := d.dramWrite rCount (64 * (base + prod)) (List.replicate (64 * skip) 0#8)
    some ((d1.dramWrite rCount (64 * (base + start)) bs).setReg Reg.CNT_HV_PROD (wd ((start + u) % size)))

/-- A block goes to the DRAM ring: after one is discarded there without wrap, so is every later one of its harvest. -/
def Dev.hvToRing (d : Dev) (h : Harvest) (bs : Bytes) : Bool × Dev :=
  if h.stopped then (true, d.hvLost)
  else match d.hvRing bs with
    | some d1 => (false, d1.inc bankCnt 2)
    | none => (!bit (d.reg Reg.CNT_HV_QCFG) 31, d.hvLost)

/-- A block goes to the host queue as one punt item of kind 4. -/
def Dev.hvToQueue (d : Dev) (bs : Bytes) : Dev :=
  let hq := fld (d.reg Reg.CNT_HV_QCFG) 9 0
  match d.hostItem hq 4 bs with
  | some d1 => d1.inc bankCnt 2
  | none => d.hvLost.hqDrop hq

/-- One block of a harvest is sent to its destinations: answers whether its ring has stopped, and the device. -/
def Dev.hvSend (d : Dev) (h : Harvest) (bs : Bytes) : Bool × Dev :=
  match h.dest with
  | 1 => (h.stopped, d.hvToQueue bs)
  | 2 => let r := d.hvToRing h bs
         (r.1, r.2.hvToQueue bs)
  | _ => d.hvToRing h bs

/-- The harvest engine sends the next block (R514). -/
def Dev.hvNext (d : Dev) : Dev :=
  match d.harv.active with
  | [] => d
  | h :: hs =>
    match h.blocks with
    | [] => { d with harv := { d.harv with active := hs } }
    | b :: bs =>
      let r := d.hvSend h (h.blockBytes d.devId b (bs == []))
      let h1 := { h with blocks := bs, index := h.index + 1, stopped := r.1 }
      if bs = [] then ({ r.2 with harv := { r.2.harv with active := hs } }).latchBit Reg.CNT_STATUS 9
      else { r.2 with harv := { r.2.harv with active := h1 :: hs } }

/-- A harvest streams to the DRAM ring: its base, size and wrap bit ignore writes (R519). -/
def Dev.hvRingBusy (d : Dev) : Bool := d.harv.active.any fun h => h.dest ≠ 1

/-- A write of CNT_HV_BASE, CNT_HV_SIZE or CNT_HV_QCFG. -/
def Dev.hvCfgWrite (d : Dev) (key : Nat) (rw locked v : Word) : Dev :=
  if d.hvRingBusy then
    let d1 := d.writeRw key (rw &&& ~~~locked) v
    if (d.reg key ^^^ v) &&& locked = 0#32 ∧ locked ≠ rw then d1 else d1.latchBit Reg.CNT_STATUS 12
  else d.writeRw key rw v

/-- A write of CNT_MTR_SEL (R516). -/
def Dev.mtrSelect (d : Dev) (v : Word) : Dev :=
  let m := fld v 16 0
  { (d.setReg Reg.CNT_MTR_SEL (wd m)) with harv := { d.harv with mtrData := (d.meterWords m).map wd } }

end Sys2Proof.Machine
end

