-- ==== Sys2Proof/Machine/PlanCore.lean ====
section
/-! DEFINITION. Calendars from demand: the manager's computation, the PLAN message and its expansion into pages
(R320 to R322, R338; the layout of PLAN is log entry 22, DESIGN CHOICE). -/
namespace Sys2Proof.Machine

/-! ## Demand (R320, Table 11.4) -/

/-- Cells of the packets that wait in the VOQs of a device and class group. -/
def Dev.queuedCells (d : Dev) (dev g : Nat) : Nat :=
  ((d.busyQueues 2).filter fun i => i / 1024 = dev && d.classGroup (i % 8) = g).foldl (fun n i =>
    ((d.queue (qKey 2 i)).pkts).foldl (fun n k => n + ceilDiv (64 + k.len) 256) n) 0

/-- The demand figures of the device: 1,024 bytes. -/
def Dev.demandBytes (d : Dev) : Bytes :=
  (List.range 128).flatMap fun k =>
    be 8 (satN 24 (Tbl.get 0 d.fab.admitted k) * 2 ^ 40 + satN 24 (d.queuedCells (k / 4) (k % 4)) * 2 ^ 16)

/-- The link figures of the device: 1,024 bytes. -/
def Dev.linkBytes (d : Dev) : Bytes :=
  (List.range 256).flatMap fun n =>
    let x := d.link n
    be 4 (b2n x.works * 2 ^ 31 + b2n (x.has dCalm) * 2 ^ 30 + x.nbrDev * 2 ^ 24 + x.nbrLink * 2 ^ 16 + x.phase % 2 ^ 11)

/-- The vintages, zero flag and time link that end a REPORT (log entry 23, DESIGN CHOICE). -/
def Dev.reportTail (d : Dev) : Bytes :=
  let zero : Bool := match d.vint.old with
    | some o => d.inflight o = 0
    | none => true
  let tl := d.fab.timeLink
  let off := match tl with
    | some (n, _) => (d.link n).ttOffset.toNat
    | none => 0
  be 1 (d.vint.current * 16 + d.vint.old.getD 0) ++
    be 1 (b2n d.vint.old.isSome * 128 + b2n zero * 64 + b2n tl.isSome * 32 + b2n (tl.map (·.2) = some true) * 16) ++
    be 1 ((tl.map (·.1)).getD 0) ++ be 1 0 ++ be 4 off

/-- The serial number, 16 bytes (Table 16.6). -/
def serialAll : Bytes := (List.range 4).flatMap fun i => wordBytes (Config.factorySerial i)

/-- Bytes 0 to 7 of the serial number: the 2,064 bytes of a REPORT leave no room for 16 (log entry 23, DESIGN CHOICE). -/
def serialBytes : Bytes := serialAll.take 8

/-- The report of the device (Table 11.4, Table 12.4). -/
def Dev.report (d : Dev) : Report := { demand := d.demandBytes, links := d.linkBytes, serial := serialBytes, vints := d.reportTail }

def Report.bytes (r : Report) : Bytes := r.demand ++ r.links ++ r.serial ++ r.vints

def Report.ofBytes (bs : Bytes) : Report :=
  { demand := slice bs 0 1024, links := slice bs 1024 1024, serial := slice bs 2048 8, vints := slice bs 2056 8 }

def Report.admitted (bs : Bytes) (dev g : Nat) : Nat := unbe (slice bs (8 * (4 * dev + g)) 8) / 2 ^ 40
def Report.queued (bs : Bytes) (dev g : Nat) : Nat := unbe (slice bs (8 * (4 * dev + g)) 8) / 2 ^ 16 % 2 ^ 24

/-- Word of link `n` in a report. -/
def Report.link (r : Report) (n : Nat) : Nat := unbe (slice r.links (4 * n) 4)

/-! ## The PLAN message -/

/-- Offsets of its parts: generation and s, topology, shares, spread flags. -/
def planTopo : Nat := 8
def planShares : Nat := 8 + 32 * 256 * 2
def planFlags : Nat := 8 + 32 * 256 * 2 + 32 * 32 * 4 * 2
def planLen : Nat := 24712

/-- A plan as the procedures read it: link (device, lane) to peer device and lane, share (i, d, g), spread flag. A share is in
slots of the pair's own bundle, or, for a spread pair, in quarters of the slots of its direct share (log entry 22, DESIGN
CHOICE). -/
structure Plan where
  gen : Nat
  scale : Nat
  topo : List (Nat × Nat)
  shares : List (Nat × Nat)
  spread : List Nat
deriving DecidableEq, Repr

def Plan.topoAt (p : Plan) (i n : Nat) : Nat := Tbl.get 0 p.topo (256 * i + n)
def Plan.share (p : Plan) (i dv g : Nat) : Nat := Tbl.get 0 p.shares ((32 * i + dv) * 4 + g)
def Plan.isSpread (p : Plan) (i dv : Nat) : Bool := p.spread.contains (32 * i + dv)

/-- The half-word of topology entry `k`: valid in bit 15, two of the high bits of share k / 2 in [14:13], the peer in [12:8] and
its lane in [7:0]. -/
def Plan.topoHalf (p : Plan) (k : Nat) : Nat :=
  Tbl.get 0 p.topo k + Tbl.get 0 p.shares (k / 2) / 2 ^ (18 - 2 * (k % 2)) % 4 * 2 ^ 13

/-- The 24,712 bytes of a plan. -/
def Plan.bytes (p : Plan) : Bytes :=
  be 2 p.gen ++ be 2 0 ++ be 4 p.scale ++
  ((List.range 8192).flatMap fun k => be 2 (p.topoHalf k)) ++
  ((List.range 4096).flatMap fun k => be 2 (Tbl.get 0 p.shares k)) ++
  ((List.range 128).map fun b => BitVec.ofNat 8 (((List.range 8).map fun j => if p.spread.contains (8 * b + j) then 2 ^ j else 0).foldl (· + ·) 0))

/-- The table of the values of `n` fields that are not 0. -/
def fieldTable (n : Nat) (f : Nat → Nat) : List (Nat × Nat) :=
  (List.range n).filterMap fun k => if f k = 0 then none else some (k, f k)

/-- Read a plan. -/
def Plan.ofBytes (bs : Bytes) : Plan :=
  let topo := bs.drop planTopo
  let shares := bs.drop planShares
  let half (l : Bytes) (k : Nat) : Nat := unbe (slice l (2 * k) 2)
  let high (k : Nat) : Nat := half topo (2 * k) / 2 ^ 13 % 4 * 4 + half topo (2 * k + 1) / 2 ^ 13 % 4
  { gen := unbe (slice bs 0 2), scale := unbe (slice bs 4 4),
    topo := fieldTable 8192 fun k => half topo k / 2 ^ 15 * 2 ^ 15 + half topo k % 2 ^ 13,
    shares := fieldTable 4096 fun k => high k * 2 ^ 16 + half shares k,
    spread := (List.range 1024).filter fun k => (bs.getD (planFlags + k / 8) 0).getLsbD (k % 8) }

/-- The links of a bundle, by lane of the sender, ascending: (lane, peer lane). -/
def Plan.bundle (p : Plan) (i k : Nat) : List (Nat × Nat) :=
  (List.range 256).filterMap fun n =>
    let w := p.topoAt i n
    if w / 2 ^ 15 = 1 ∧ w / 2 ^ 8 % 32 = k then some (n, w % 256) else none

/-! ## Dividing shares (R321) -/

/-- The largest of a list of numbers, by position; the first of equals. -/
def largestAt (l : List Nat) : Nat := l.findIdx fun x => x = l.foldl max 0

/-- Take one from the largest, `n` times. -/
def trimLargest : Nat → List Nat → List Nat
  | 0, l => l
  | n + 1, l => trimLargest n (l.set (largestAt l) (l.getD (largestAt l) 0 - 1))

/-- Divide `m` slots in proportion to the weights, at least one to each that has any: what is left over goes to the
largest weight, what is too much comes from the largest share. -/
def splitShare (m : Nat) (ws : List Nat) : List Nat :=
  let total := ws.foldl (· + ·) 0
  if total = 0 then ws.set 0 m
  else
    let xs := ws.map fun w => max (m * w / total) (if w = 0 then 0 else 1)
    let sum := xs.foldl (· + ·) 0
    if sum ≤ m then xs.set (largestAt ws) (xs.getD (largestAt ws) 0 + (m - sum)) else trimLargest (sum - m) xs

/-- The four share fields of a pair. -/
def Plan.pair (p : Plan) (i dv : Nat) : List Nat := (List.range 4).map fun g => p.share i dv g

/-- An intermediate that can carry a pair. -/
def Plan.viaOk (p : Plan) (i k dv : Nat) : Bool := k ≠ i && k ≠ dv && p.bundle i k ≠ [] && p.bundle k dv ≠ []

/-- The devices that have links in the plan. -/
def Plan.devs (p : Plan) : List Nat := ((p.topo.filter fun e => e.2 / 2 ^ 15 = 1).map fun e => e.1 / 256).eraseDups

/-- A share of a pair: source, destination, the device that its first hop leads to (the destination itself for the direct
share), its slots, and how many of them the floor holds (R321, R322). -/
structure PlanShare where
  src : Nat
  dst : Nat
  hop : Nat
  slots : Nat
  least : Nat
deriving DecidableEq, Repr

/-- The shares of a pair before any gives way: direct, or D/16 direct and D/32 through each intermediate, in whole slots. The floor
is one slot: on the pair's own bundle, or for a pair without one through the lowest intermediate. -/
def Plan.pairShares (p : Plan) (i dv : Nat) : List PlanShare :=
  let f := (p.pair i dv).foldl (· + ·) 0
  let direct (m : Nat) : List PlanShare := if p.bundle i dv = [] then [] else [{ src := i, dst := dv, hop := dv, slots := max 1 m, least := 1 }]
  if !p.isSpread i dv then direct f
  else
    let vias := (p.devs.filter fun k => p.viaOk i k dv).map fun k =>
      ({ src := i, dst := dv, hop := k, slots := f / 8, least := 0 } : PlanShare)
    match direct (f / 4), vias with
    | [], v :: vs => { v with slots := max 1 v.slots, least := 1 } :: vs
    | l, vs => l ++ vs

/-- The share takes slots of the bundle from a to b: on its first hop, or on its second, where its cells are relayed. -/
def PlanShare.crosses (x : PlanShare) (a b : Nat) : Bool := (x.src = a && x.hop = b) || (x.hop = a && x.dst = b && x.hop ≠ x.dst)

/-- The order in which shares give way on a bundle: via shares, the largest first, then the direct one, each down to its floor; 0
for one that does not. -/
def PlanShare.gives (a b : Nat) (x : PlanShare) : Nat :=
  if x.crosses a b ∧ x.least < x.slots then (if x.hop = x.dst then x.slots else 2 ^ 20 + x.slots) else 0

/-- Take slots from the shares of a bundle, `n` times. -/
def trimBundle (a b : Nat) : Nat → List PlanShare → List PlanShare
  | 0, l => l
  | n + 1, l =>
    let ks := l.map (PlanShare.gives a b)
    if ks.all fun k => k = 0 then l
    else trimBundle a b n (l.modify (largestAt ks) fun x => { x with slots := x.slots - 1 })

/-- Slots that the shares take of a bundle. -/
def bundleLoad (l : List PlanShare) (a b : Nat) : Nat := ((l.filter fun x => x.crosses a b).map (·.slots)).foldl (· + ·) 0

/-- Every share of the system, so trimmed that DATA and relayed cells fit every bundle (R321; log entry 123). -/
def Plan.allShares (p : Plan) : List PlanShare :=
  let pairs := p.devs.flatMap fun i => (p.devs.filter fun k => k ≠ i).map fun k => (i, k)
  pairs.foldl (fun l x => trimBundle x.1 x.2 (bundleLoad l x.1 x.2 - 1024 * (p.bundle x.1 x.2).length) l)
    (pairs.flatMap fun x => p.pairShares x.1 x.2)

/-- What `m` slots take of the slots that the groups of a pair still have to get: in proportion, the rest one by one from the group
with most left. -/
def takeGroups (m : Nat) (left : List Nat) : List Nat :=
  let total := left.foldl (· + ·) 0
  let xs := left.map fun q => m * q / total
  (List.range (m - xs.foldl (· + ·) 0)).foldl (fun xs _ =>
    let g := largestAt ((left.zip xs).map fun y => y.1 - y.2)
    xs.modify g (· + 1)) xs

/-- The groups of each share of a pair. -/
def dealGroups : List PlanShare → List Nat → List (PlanShare × List Nat)
  | [], _ => []
  | x :: rest, left =>
    let gs := takeGroups x.slots left
    (x, gs) :: dealGroups rest ((left.zip gs).map fun y => y.1 - y.2)

/-- The shares that a device sends, with their slots divided among the groups: a pair's slots in all are divided in proportion to
its demands (R321). -/
def Plan.sharesOf (p : Plan) (all : List PlanShare) (i : Nat) : List (PlanShare × List Nat) :=
  p.devs.flatMap fun dv =>
    let mine := all.filter fun x => x.src = i && x.dst = dv
    dealGroups mine (splitShare ((mine.map (·.slots)).foldl (· + ·) 0) (p.pair i dv))

/-! ## Placing slots (R321) -/

/-- Slots in order of their distance from a / m, the lower first of those above and below that are as near. -/
def nearSlots (a m : Nat) : List Nat :=
  let t := a / m
  let up : Bool := m < 2 * (a % m)
  (List.range 1024).map fun i =>
    if up then (if i % 2 = 1 then (t + 1 + 1024 - (i + 1) / 2) % 1024 else (t + 1 + i / 2) % 1024)
    else (if i % 2 = 1 then (t + (i + 1) / 2) % 1024 else (t + 1024 - i / 2) % 1024)

/-- A slot taken: its number, destination and class group. -/
abbrev Placed := List (Nat × Nat × Nat)

/-- The slot nearest to a / m that is not taken. -/
def freeNear (l : Placed) (a m : Nat) : Option Nat := (nearSlots a m).find? fun s => !l.any fun x => x.1 = s

/-- Place a share on a link, slot by slot of the groups named, at the free slots nearest 1,024 × j / m. -/
def placeShare (l : Placed) (dv : Nat) (gs : List Nat) : Placed :=
  gs.zipIdx.foldl (fun l x =>
    match freeNear l (1024 * x.2) gs.length with
    | some s => l ++ [(s, dv, x.1)]
    | none => l) l

/-- The groups in the order in which their slots are dealt: the one with most left first. -/
def groupSeq : Nat → List Nat → List Nat
  | 0, _ => []
  | n + 1, r => largestAt r :: groupSeq n (r.modify (largestAt r) (· - 1))

/-- The DATA slots of link number `j` of a bundle of `links`: the slots of the shares go round the links. -/
def placeLink (links j : Nat) : List (PlanShare × List Nat) → (o : Nat) → Placed → Placed
  | [], _, l => l
  | (x, gs) :: rest, o, l =>
    let mine := (groupSeq x.slots gs).zipIdx.filterMap fun y => if (o + y.2) % links = j then some y.1 else none
    placeLink links j rest (o + x.slots) (placeShare l x.dst mine)

/-- The DATA slots that device `i` places on its lane `n` to `k`: the direct share first. -/
def Plan.dataSlots (p : Plan) (all : List PlanShare) (i k n : Nat) : Placed :=
  let b := p.bundle i k
  let mine := (p.sharesOf all i).filter fun x => x.1.hop = k
  placeLink b.length (b.findIdx fun x => x.1 = n)
    ((mine.filter fun x => x.1.dst = k) ++ mine.filter fun x => x.1.dst ≠ k) 0 []

/-! ## Relays (R311, R321) -/

/-- The own lanes to each peer. -/
def Plan.ownLanes (p : Plan) (own : Nat) : List (Nat × Nat) :=
  (List.range 256).filterMap fun n =>
    let w := p.topoAt own n
    if w / 2 ^ 15 = 1 then some (n, w / 2 ^ 8 % 32) else none

/-- Arrival of the last byte of received slot `t` of link `n` within the transmit cycle of the device, as seen by lane
`out`, in units of 10^-4 ns (R311, Table 11.6). -/
def Dev.arrivalAt (d : Dev) (n out t : Nat) : Nat :=
  let x := d.link n
  let f := match x.ttArr with
    | a :: _ => a.sent + 15 + 256 - a.mfi % 16
    | [] => 0
  let frame := f + t / 64 + 16 * (x.txFrame / 16 + 1) + (d.link out).txFrame - x.txFrame
  frame % 16 * frameU + x.phase * 10 ^ 4 + (t % 64 + 2) * 217600

/-- Start of calendar slot `t` within a cycle. -/
def slotStart (t : Nat) : Nat := t / 64 * frameU + (t % 64 + 1) * 217600

/-- Wait from an arrival to a slot, at least 200 ns (R311). -/
def waitFor (arr t : Nat) : Nat := (slotStart t + 2 * (16 * frameU) - (arr + 2000000) % (16 * frameU)) % (16 * frameU)

/-- The IDLE slot that a relay cell would leave in soonest, over the lanes of a bundle: (lane, slot). The shares leave one for every
relay; where none lies within a frame the wait is longer (log entry 123). -/
def Dev.relaySlot (d : Dev) (n t : Nat) (lanes : List (Nat × Placed)) (taken : List (Nat × Nat)) : Option (Nat × Nat) :=
  let cands : List (Nat × Nat × Nat) := lanes.flatMap fun o =>
    (List.range 1024).filterMap fun s =>
      if (o.2.any fun x => x.1 = s) || taken.contains (o.1, s) then none else some (waitFor (d.arrivalAt n o.1 t) s, o.1, s)
  match cands with
  | [] => none
  | c :: cs => some (cs.foldl (fun a b => if b.1 < a.1 then b else a) c).2

/-- Relays of the device: (received lane, slot, outgoing lane, slot). -/
def Dev.planRelays (d : Dev) (p : Plan) (all : List PlanShare) : List (Nat × Nat × Nat × Nat) :=
  let own := d.devId
  let vias := (p.ownLanes own).flatMap fun x =>
    let peerLane := p.topoAt own x.1 % 256
    ((p.dataSlots all x.2 own peerLane).filter fun y => y.2.1 ≠ own).map fun y => (x.1, y.1, y.2.1)
  vias.foldl (fun acc v =>
    let lanes := (p.bundle own v.2.2).map fun o => (o.1, p.dataSlots all own v.2.2 o.1)
    match d.relaySlot v.1 v.2.1 lanes (acc.map fun a => (a.2.2.1, a.2.2.2)) with
    | some (o, s) => acc ++ [(v.1, v.2.1, o, s)]
    | none => acc) []

/-! ## Writing the standby pages (R306, R338) -/

/-- An entry written to a page that R306 refuses. -/
def Dev.pageRefused (d : Dev) (n dir page : Nat) (es : List (Nat × Word)) : Bool :=
  (d.link n).page dir = some page || es.any fun e => d.badConn dir e.2

/-- Write a whole page, unless a write of it is refused (R306). -/
def Dev.writePage (d : Dev) (n dir page gen : Nat) (es : List (Nat × Word)) : Dev :=
  if d.pageRefused n dir page es then d
  else
    let lo := pageKey n dir page * 1024
    let rest := d.fab.conn.filter fun e => !(lo ≤ e.1 && e.1 < lo + 1024)
    ({ d with fab := { d.fab with conn := es.foldl (fun t (e : Nat × Word) => Tbl.set 0#32 t (lo + e.1) e.2) rest } }).setGen n dir page gen

/-- The transmit and receive pages of one lane. -/
def Dev.writeLane (d : Dev) (p : Plan) (all : List PlanShare) (relays : List (Nat × Nat × Nat × Nat)) (n peer : Nat) : Dev :=
  let data := (p.dataSlots all d.devId peer n).map fun x => (x.1, wd (2 ^ 30 + x.2.1 * 2 ^ 24 + x.2.2 * 2 ^ 22))
  let out := (relays.filter fun r => r.2.2.1 = n).map fun r => (r.2.2.2, wd (2 * 2 ^ 30))
  let inn := (relays.filter fun r => r.1 = n).map fun r => (r.2.1, wd (2 ^ 30 + r.2.2.1 * 2 ^ 22 + r.2.2.2 * 2 ^ 12))
  (d.writePage n 0 ((d.link n).standby 0) p.gen (data ++ out)).writePage n 1 ((d.link n).standby 1) p.gen inn

/-- A plan becomes standby pages of every lane that it names. -/
def Dev.expandPlan (d : Dev) (p : Plan) : Dev :=
  let all := p.allShares
  let relays := d.planRelays p all
  ((p.ownLanes d.devId).foldl (fun d x => d.writeLane p all relays x.1 x.2) d).updateReach

/-- Every page of a plan is written: the standby pages of its lanes hold its generation (R338). -/
def Dev.planWritten (d : Dev) (p : Plan) : Bool :=
  (p.ownLanes d.devId).all fun x => (d.gen x.1 0 ((d.link x.1).standby 0) == p.gen) && (d.gen x.1 1 ((d.link x.1).standby 1) == p.gen)

/-! ## The manager's computation (R321) -/

/-- Demand in units of 1 / (16 × recompute_mf) slots. -/
structure Demand where
  den : Nat
  num : List (Nat × Nat)
deriving DecidableEq, Repr

def Demand.at (m : Demand) (i dv g : Nat) : Nat := Tbl.get 0 m.num ((32 * i + dv) * 4 + g)
def Demand.pair (m : Demand) (i dv : Nat) : Nat := ((List.range 4).map fun g => m.at i dv g).foldl (· + ·) 0

/-- recompute_mf; 0 acts as 1. -/
def Dev.recomputeMf (d : Dev) : Nat := max 1 (fld (d.reg Reg.TRL_CAL_CTRL) 23 16)

/-- D[i,d,g] of one source: admitted over its last reports and queued in the latest, or the snapshot's history where it
has not reported (R335). -/
def Dev.demandOf (d : Dev) (den i dv g : Nat) : Nat :=
  match Tbl.get [] d.fab.history i with
  | [] => if d.fab.fromSnap then Tbl.get 0 d.fab.demandD ((32 * i + dv) * 4 + g) * den / 256 else 0
  | h :: hs => (h :: hs).foldl (fun n r => n + Report.admitted r dv g) (Report.queued h dv g)

/-- The devices of the system: the manager, the workers that have reported since the last computation, and right after a
takeover those of the snapshot's plan; duplicate IDs are left out (R341). -/
def Dev.systemDevs (d : Dev) : List Nat :=
  let old : List Nat := if d.fab.fromSnap then (Plan.ofBytes d.fab.plan).topo.map (fun (e : Nat × Nat) => e.1 / 256) else []
  (List.range 32).filter fun i =>
    (i = d.devId || Tbl.get [] d.fab.history i ≠ [] || old.contains i) && !d.fab.dupIds.contains i

/-- What the manager knows of link n of device i: (works, peer, peer lane). -/
def Dev.knownLink (d : Dev) (i n : Nat) : Option (Nat × Nat) :=
  if d.fab.fromSnap ∧ Tbl.get [] d.fab.history i = [] ∧ i ≠ d.devId then
    let w := (Plan.ofBytes d.fab.plan).topoAt i n
    if w / 2 ^ 15 = 1 then some (w / 2 ^ 8 % 32, w % 256) else none
  else
    let r : Report := if i = d.devId then d.report else Tbl.get {} d.fab.reports i
    let w := r.link n
    if w / 2 ^ 31 = 1 then some (w / 2 ^ 24 % 32, w / 2 ^ 16 % 256) else none

/-- The working links of the system: both ends work and name each other. -/
def Dev.systemTopo (d : Dev) (devs : List Nat) : List (Nat × Nat) :=
  devs.flatMap fun i => (List.range 256).filterMap fun n =>
    match d.knownLink i n with
    | some (k, m) => if devs.contains k ∧ k ≠ i ∧ d.knownLink k m = some (i, n) then some (256 * i + n, 2 ^ 15 + k * 256 + m) else none
    | none => none

/-- Numerator and denominator of s: it is 1, or the largest row or column sum over G. -/
def scaleOf (m : Demand) (devs : List Nat) (g : Nat) : Nat × Nat :=
  let rows := devs.map fun i => (devs.map fun k => m.pair i k).foldl (· + ·) 0
  let cols := devs.map fun k => (devs.map fun i => m.pair i k).foldl (· + ·) 0
  ((rows ++ cols).foldl max (m.den * g), m.den * g)

/-- The share fields of one pair from `m` slots, or quarters of slots: at least one, and for a spread pair one for each group
with demand. -/
def pairFields (m : Demand) (i dv : Nat) (q : Nat) (spread : Bool) : List (Nat × Nat) :=
  let ws := (List.range 4).map fun g => m.at i dv g
  let least := if spread then max 1 (ws.filter fun w => w ≠ 0).length else 1
  ((splitShare (max least q) ws).zipIdx.filter fun x => x.1 ≠ 0).map fun x => ((32 * i + dv) * 4 + x.2, satN 20 x.1)

/-- The calendars of the system as a plan (R321, R322). A pair without a working link does not fit a bundle of its own, and counts
in no minimum of B (log entry 123, DESIGN CHOICE). -/
def makePlan (gen : Nat) (devs : List Nat) (topo : List (Nat × Nat)) (m : Demand) : Plan :=
  let p : Plan := { gen := gen, scale := 2 ^ 16, topo := topo, shares := [], spread := [] }
  let pairs := devs.flatMap fun i => (devs.filter fun k => k ≠ i).map fun k => (i, k)
  let cap (x : Nat × Nat) : Nat := 1024 * (p.bundle x.1 x.2).length
  let fits (x : Nat × Nat) : Bool := m.pair x.1 x.2 + m.den ≤ cap x * m.den
  if pairs.all fits then
    { p with shares := pairs.flatMap fun x => pairFields m x.1 x.2 (m.pair x.1 x.2 / m.den) false }
  else
    let g := 16 * ((pairs.map cap).filter fun c => c ≠ 0).foldl min (2 ^ 18)
    let s := scaleOf m devs g
    { p with
      scale := satN 32 (ceilDiv (s.1 * 2 ^ 16) s.2)
      shares := pairs.flatMap fun x => pairFields m x.1 x.2 (m.pair x.1 x.2 * g / (4 * s.1)) true
      spread := pairs.map fun x => 32 * x.1 + x.2 }

/-- The generation after one, skipping 0. -/
def nextGen (g : Nat) : Nat := if (g + 1) % 65536 = 0 then 1 else (g + 1) % 65536

/-- The demand of a system. -/
def Dev.systemDemand (d : Dev) (devs : List Nat) : Demand :=
  let den := 16 * d.recomputeMf
  { den := den
    num := devs.flatMap fun i => devs.flatMap fun k => (List.range 4).filterMap fun g =>
      let n := d.demandOf den i k g
      if n = 0 ∨ i = k then none else some ((32 * i + k) * 4 + g, n) }

end Sys2Proof.Machine
end

