-- ==== Sys2Proof/Machine/Mc.lean ====
section
/-! DEFINITION. The commands of the memory controllers: line reads and writes, scrub, alerts, recovery, refresh,
power-down, retraining, the loss of a stack, and the partition (R346 to R369). -/
namespace Sys2Proof.Machine

/-- Source of the events of controller k (R448). -/
def srcMc (k : Nat) : Nat := 0x60 + k

/-! ## The loss of a stack (R366) -/

/-- The writes that the controller of a stack holds are discarded: the lines of the evacuations on their way to it (R223, R366). -/
def Dev.loseWrites (d : Dev) (k : Nat) : Dev :=
  ((d.qm.queues.flatMap fun x => x.2.pkts).filter fun p => match p.evacTo with
    | some h => decide (hIdx h % 8 = k)
    | none => false).foldl (fun d p => d.bump (bankMc k) 15 (ceilDiv p.len 64)) d

/-- What a lost stack keeps of a channel: whether it failed, and its last completed pause (Table 13.8). -/
def Chan.lost (c : Chan) : Chan := { failed := c.failed, lastRetrain := c.lastRetrain }

/-- Enter LOST (R366, Table 13.7): what the controller holds ends, the DRAM pools shrink, and a lost table region means cellar
mode once forwarding runs. -/
def Dev.loseStack (d : Dev) (k cause : Nat) : Dev :=
  if (d.mcOf k).st = .lost then d
  else
    let lose (m : Mc) : Mc := { m with
      st := .lost, cause := cause, chans := (m.chans.map fun p => (p.1, p.2.lost)).filter fun p => p.2 ≠ {} }
    let d0 := (d.loseLookups k).loseWrites k
    let d1 := ((d0.modMc k lose).latchBit (Reg.MC_STATUS k) 14).logBit (srcMc k) 0 14 k (le 1 cause)
    let d2 := d1.bpmStackLost k
    if d2.tableLost ∧ d2.vint.started ∧ !d2.spr.cellar then d2.enterCellar 3 else d2

/-- STACK_LOST (R366): a READY stack, or with cause 1 one that trains. -/
def execStackLost (k : Fin 8) (cause : Fin 16) (s : State) : Host.Outcome State Fault Refusal :=
  act s fun d =>
    if (d.mcOf k).st = .ready ∨ ((d.mcOf k).st = .training ∧ cause.val = 1) then d.loseStack k cause else d

/-! ## Reads (R350 to R357) -/

/-- The region that holds a stack line under the active partition; 0 where none does. -/
def Dev.regionOf (d : Dev) (n : Nat) : Nat :=
  ((List.range 4).find? fun r =>
    let p := d.part.getD r (0, 0)
    p.1 * 2 ^ 14 ≤ n && n < (p.1 + p.2) * 2 ^ 14).getD 0

/-- An uncorrectable read of a stack line (R356). -/
def Dev.noteUe (d : Dev) (k n : Nat) : Dev :=
  let a := lineAt n
  let w := wd (2 ^ 31 + d.regionOf n * 2 ^ 28 + a.channel * 2 ^ 24 + a.rank * 2 ^ 23 + a.bank * 2 ^ 17 + a.row * 2 ^ 4 + a.column)
  let d1 := (((d.inc (bankMc k) 5).latchBit (Reg.MC_STATUS k) 12).setReg (Reg.MC_LAST_UE k) w).logBit (srcMc k) 0 12 k
    (le 1 a.channel ++ le 1 a.bank ++ le 1 a.rank ++ le 1 a.column ++ le 2 a.row)
  let ues := d.time.tsc :: (d.mcOf k).ues.filter fun t => d.time.tsc < t + 10 ^ 9
  let limit := fld (d.reg (Reg.MC_CTRL k)) 31 24
  let d2 := d1.modMc k fun m => { m with ues := ues }
  if limit ≠ 0 ∧ limit ≤ ues.length then d2.loseStack k 3 else d2

/-- What ECC makes of a line (R354). -/
inductive EccFound where
  | clean | corrected | bad
deriving DecidableEq, Repr

/-- The outcome of a read by its erroneous symbols (R354): up to 3 are corrected, 4 and 5 and another row's line are
uncorrectable. What more than 5 come to is not stated: a free value picks it (log entry 116, DESIGN CHOICE). -/
def Dev.judge (d : Dev) (e : DramEcc) : EccFound × Dev :=
  match e with
  | .otherRow => (.bad, d)
  | .symbols n =>
    if n.val = 0 then (.clean, d)
    else if n.val ≤ 3 then (.corrected, d)
    else if n.val ≤ 5 then (.bad, d)
    else
      let f := d.takeFree
      (([EccFound.clean, .corrected, .bad][f.1 % 3]?).getD .bad, f.2)

/-- What ECC finds (R355, R356): a corrected line is written back. -/
def Dev.afterEcc (d : Dev) (k n : Nat) (e : EccFound) : Dev :=
  match e with
  | .clean => d
  | .corrected => (((d.inc (bankMc k) 4).latchBit (Reg.MC_STATUS k) 11).modChan k (lineAt n).channel (Chan.issue (.write n))).inc (bankMc k) 2
  | .bad => d.noteUe k n

/-- A controller reads a stack line: whether the data is good, and the device after it. -/
def Dev.readLine (d : Dev) (k n : Nat) (e : DramEcc) : Bool × Dev :=
  let r := (d.issueRead k n).judge e
  (decide (r.1 ≠ .bad), r.2.afterEcc k n r.1)

/-- The redirect of a read to copy `k` is counted (R352). -/
def Dev.countRedirect (d : Dev) (r m k : Nat) : Dev :=
  let first := (readOrder r m).headD k
  if first = k then d else d.inc (bankMc first) 11

/-- Row `c` reads a line of copy `k`: it waits while the channel takes no request, and a stack lost meanwhile gives nothing
(R350, R359, R363, R366). `f` takes whether the data is good. -/
def Dev.readCopy (d : Dev) (k n : Nat) (e : DramEcc) (c : Instr) (f : Dev → Bool → Dev) : Dev :=
  d.across [memDom k (lineAt n).channel] c fun d =>
    if d.stackLost k then f d false
    else
      let r := d.readLine k n e
      f r.2 r.1

/-- A line of a region is read (R352): behind a write of the same line that waits, from the copy that the rule names; one that
finds its copies unavailable returns uncorrectable. -/
def Dev.readRegion (d : Dev) (r m : Nat) (e : DramEcc) (c : Instr) : Dev :=
  if d.regionLines r ≤ m then d
  else match d.writeWaits r m with
    | some b => d.park b c
    | none => match d.copyFor r m with
      | some k => d.readCopy k (d.stackLine r m) e c fun d' _ => d'.countRedirect r m k
      | none => d

/-- DRAM_READ (R350, R352): logical line m of region r, and what the line has in errors. -/
def execDramRead (r : Fin 4) (m : Nat) (ecc : DramEcc) (s : State) : Host.Outcome State Fault Refusal :=
  act s fun d => d.readRegion r m ecc (.dramRead r m ecc)

/-- A stack can serve a line now. -/
def Dev.canServe (d : Dev) (k n : Nat) : Bool := (d.mcOf k).st = .ready && d.clocked (pllMclk k) && !(d.chan k (lineAt n).channel).busy

/-- The scrub's next line (R357). -/
def Dev.scrubNext (d : Dev) (k : Nat) (e : DramEcc) : Dev :=
  let n := (d.mcOf k).scrub
  if !bit (d.reg (Reg.MC_CTRL k)) 8 ∨ !d.canServe k n then d
  else
    let wraps : Bool := n + 1 = 2 ^ 28
    let d1 := d.modMc k fun m => { m with scrub := if wraps then 0 else n + 1 }
    ((if wraps then d1.inc (bankMc k) 13 else d1).readLine k n e).2

/-- SCRUB_READ (R357). -/
def execScrubRead (k : Fin 8) (ecc : DramEcc) (s : State) : Host.Outcome State Fault Refusal :=
  actIn (pllMclk k) (.scrubRead k ecc) s fun d => d.scrubNext k ecc

/-! ## Writes (R353, R366) -/

/-- A line of a region is written, to both copies of a mirrored one; it waits until every copy that is not lost can take it, so
that no read sees the copies differ (R350, R353). -/
def Dev.writeRegion (d : Dev) (r m : Nat) (line : Bytes) (c : Instr) : Dev :=
  if d.regionLines r ≤ m then d
  else d.across ((copiesOf r m).map fun k => memDom k (lineAt (d.stackLine r m)).channel) c fun d => d.dramWrite r (64 * m) (padTo 64 (line.take 64))

/-- DRAM_WRITE (R353): 64 bytes to logical line m of region r. -/
def execDramWrite (r : Fin 4) (m : Nat) (line : Bytes) (s : State) : Host.Outcome State Fault Refusal :=
  act s fun d => d.writeRegion r m line (.dramWrite r m line)

/-! ## Pauses (R363, R364) -/

/-- A pause on channel c of stack k has to wait: another channel of the stack, or the same channel of the partner, is
paused or in recovery, or the channel itself is paused or replays. -/
def Dev.pauseWaits (d : Dev) (k c : Nat) : Bool :=
  ((d.mcOf k).chans.any fun p => p.1 ≠ c && p.2.out) || (d.chan ((k + 4) % 8) c).out || (d.chan k c).busy

/-- A pause begins: both ranks are awake (R361). -/
def Dev.beginPause (d : Dev) (k c ns : Nat) : Dev := d.modChan k c fun x => { x with pause := some ns, pd := 0#2 }

/-- The first pause that waits and may begin now, in ascending stack and channel. -/
def Dev.nextPause (d : Dev) : Option (Nat × Nat) :=
  ((List.range 8).flatMap fun k => (d.mcOf k).chans.filterMap fun p => if p.2.waiting = [] then none else some (k, p.1)).find?
    fun x => (d.mcOf x.1).st = .ready && !d.pauseWaits x.1 x.2

/-- Begin the pauses that have waited. -/
def Dev.startPauses (d : Dev) : (fuel : Nat) → Dev
  | 0 => d
  | n + 1 =>
    match d.nextPause with
    | none => d
    | some (k, c) =>
      let ns := (d.chan k c).waiting.headD 0
      ((d.modChan k c fun x => { x with waiting := x.waiting.drop 1 }).beginPause k c ns).startPauses n

/-- A DRAM_RETRAIN acts (R364): at most 400 ns, 0 makes no pause, and none is made on a channel in recovery. -/
def Dev.retrain (d : Dev) (k c arg : Nat) : Dev :=
  let ns := min 400 (arg % 512)
  if ns = 0 ∨ (d.mcOf k).st ≠ .ready ∨ (d.chan k c).recovering then d
  else if d.pauseWaits k c then d.modChan k c fun x => { x with waiting := x.waiting ++ [ns] }
  else d.beginPause k c ns

/-- The refresh commands owed are issued, before anything else (R360): each wakes its rank (R361). -/
def Chan.payOwed (c : Chan) : Chan :=
  let bs := c.owed.flatMap fun p => List.replicate p.2 p.1
  bs.foldl (fun c b => { c with pd := c.pd &&& ~~~BitVec.ofNat 2 (2 ^ (b / 64)) }.issue (.refresh b)) { c with owed := [] }

/-- A pause ends and the channel returns to service; owed refreshes are issued (R360, R363). -/
def Dev.pauseEnds (d : Dev) (k c : Nat) : Dev :=
  if (d.chan k c).pause.isNone then d
  else ((d.modChan k c fun x => { x with pause := none, lastRetrain := d.time.tsc }.payOwed).inc (bankMc k) 9).startPauses 128

/-- RETRAIN_PAUSE_END (R363). -/
def execRetrainPauseEnd (k : Fin 8) (c : Fin 16) (s : State) : Host.Outcome State Fault Refusal :=
  actIn (pllMclk k) (.retrainPauseEnd k c) s fun d => d.pauseEnds k c

/-! ## Alerts and recovery (R358, R359) -/

/-- A channel needs recovery: a second one of its stack loses the stack. A refresh is not postponed in recovery, so the owed
ones are issued (R360). -/
def Dev.needRecovery (d : Dev) (k c : Nat) : Dev :=
  if (d.mcOf k).chans.any fun p => p.2.recovering then (d.modChan k c fun x => { x with failed := true }).loseStack k 2
  else (d.modChan k c fun x => { x with recovering := true, replaying := false, replays := 0 }.payOwed).latchBit (Reg.MC_STATUS k) 13

/-- A channel replays its retry buffer from the failed command on, which `after` younger ones follow (R358); `again` says that
the command that is being replayed first failed once more. -/
def Chan.replay (again : Bool) (after : Nat) (x : Chan) : Chan :=
  { x with replaying := true, replays := if again then x.replays + 1 else 0, retry := if again then x.retry else x.retry.take (after + 1) }

/-- An alert on a channel: `wr` a write CRC, else command parity; `failed` says that the replay under way raised it for the same
command. -/
def Dev.alert (d : Dev) (k c : Nat) (wr failed : Bool) (after : Nat) : Dev :=
  if (d.mcOf k).st ≠ .ready then d
  else
    let x := d.chan k c
    let again := failed && x.replaying
    let d1 := (d.inc (bankMc k) (if wr then 7 else 6)).latchBit (Reg.MC_STATUS k) 10
    if x.recovering then (d1.modChan k c fun x => { x with failed := true }).loseStack k 2
    else
      let d2 := if x.pause.isSome then
          (((d1.modChan k c fun x => { x with pause := none }).inc (bankMc k) 10).latchBit (Reg.MC_STATUS k) 9)
        else d1
      let d3 := if again ∧ 7 ≤ x.replays then d2.needRecovery k c else (d2.modChan k c (Chan.replay again after)).inc (bankMc k) 8
      d3.startPauses 128

/-- DRAM_ALERT (R358, R359). -/
def execDramAlert (k : Fin 8) (c : Fin 16) (wr failed : Bool) (after : Fin 32) (s : State) : Host.Outcome State Fault Refusal :=
  actIn (pllMclk k) (.dramAlert k c wr failed after) s fun d => d.alert k c wr failed after

/-- The commands of a channel complete, in the buffer's order: they leave it, a replay is over, and the refreshes that it
postponed are issued (R358, R360). -/
def Chan.complete (c : Chan) : Chan :=
  if c.out then c else if c.replaying then { { c with replaying := false, replays := 0 }.payOwed with retry := [] } else { c with retry := [] }

/-- What the channels have issued completes while nothing else happens (log entry 117, DESIGN CHOICE): replays end, and the
pauses that waited for them begin. -/
def Dev.memSettles (d : Dev) : Dev :=
  ((List.range 8).foldl (fun d k =>
    if (d.mcOf k).st = .ready ∧ d.clocked (pllMclk k) then
      d.modMc k fun m => { m with chans := (m.chans.map fun p => (p.1, p.2.complete)).filter fun p => p.2 ≠ {} }
    else d) d).startPauses 128

/-- The full retraining of a channel ends (R359). -/
def Dev.recovered (d : Dev) (k c : Nat) (ok : Bool) : Dev :=
  if !(d.chan k c).recovering then d
  else if ok then ((d.modChan k c fun x => { x with recovering := false }).inc (bankMc k) 14).startPauses 128
  else (d.modChan k c fun x => { x with failed := true }).loseStack k 2

/-- CHANNEL_RECOVERY_COMPLETE (R359). -/
def execChannelRecoveryComplete (k : Fin 8) (c : Fin 16) (ok : Bool) (s : State) : Host.Outcome State Fault Refusal :=
  actIn (pllMclk k) (.channelRecoveryComplete k c ok) s fun d => d.recovered k c ok

/-! ## Refresh and power-down (R360, R361) -/

/-- A refresh of a bank falls due (R360): it is postponed while the channel is paused or replays, by at most 8 commands, and
else issued, which wakes its rank. With 8 owed the ninth is issued: a refresh is never skipped (log entry 117). -/
def Dev.refresh (d : Dev) (k c bank : Nat) : Dev :=
  let x := d.chan k c
  if (d.mcOf k).st ≠ .ready then d
  else if (x.pause.isSome ∨ x.replaying) ∧ Tbl.get 0 x.owed bank < 8 then d.modChan k c fun x => { x with owed := Tbl.modify 0 x.owed bank (· + 1) }
  else d.modChan k c fun x => { x with pd := x.pd &&& ~~~BitVec.ofNat 2 (2 ^ (bank / 64)) }.issue (.refresh bank)

/-- REFRESH (R360): bank is 64 × rank + bank. -/
def execRefresh (k : Fin 8) (c : Fin 16) (bank : Fin 128) (s : State) : Host.Outcome State Fault Refusal :=
  actIn (pllMclk k) (.refresh k c bank) s fun d => d.refresh k c bank

/-- An idle rank enters power-down (R361). -/
def Dev.powerDown (d : Dev) (k c rank : Nat) : Dev :=
  let x := d.chan k c
  if !bit (d.reg (Reg.MC_CTRL k)) 4 ∨ (d.mcOf k).st ≠ .ready ∨ x.busy ∨ x.pd.getLsbD rank then d
  else (d.modChan k c fun x => { x with pd := x.pd ||| BitVec.ofNat 2 (2 ^ rank) }).inc (bankMc k) 12

/-- RANK_POWER_DOWN (R361). -/
def execRankPowerDown (k : Fin 8) (c : Fin 16) (rank : Fin 2) (s : State) : Host.Outcome State Fault Refusal :=
  actIn (pllMclk k) (.rankPowerDown k c rank) s fun d => d.powerDown k c rank

/-! ## The partition (R349) -/

/-- The staged base and size of a region, MiB. -/
def Dev.staged (d : Dev) (r : Nat) : Nat × Nat := (fld (d.reg (Reg.MC_PART_BASE r)) 13 0, fld (d.reg (Reg.MC_PART_SIZE r)) 14 0)

/-- The staged set fails the check of R349. -/
def Dev.badPart (d : Dev) : Bool :=
  let p := (List.range 4).map d.staged
  let apart (a b : Nat × Nat) : Bool := a.2 = 0 || b.2 = 0 || a.1 + a.2 ≤ b.1 || b.1 + b.2 ≤ a.1
  (p.any fun x => 16384 < x.1 + x.2) || (p.getD 1 (0, 0)).2 = 0 ||
  !((List.range 4).all fun i => (List.range 4).all fun j => i = j || apart (p.getD i (0, 0)) (p.getD j (0, 0))) ||
  (List.range 4).any fun s => d.poolCount 1 s ≠ 0 && (p.getD 0 (0, 0)).2 * 2 ^ 20 < (d.poolExtent 1 s).2

/-- MC_PART_CMD ends with a refusal: the staging registers return to the active partition (R349, R369). -/
def Dev.partRefused (d : Dev) (r : Nat) : Dev :=
  let d1 := (List.range 4).foldl (fun d i =>
    let p := d.part.getD i (0, 0)
    (d.setReg (Reg.MC_PART_BASE i) (wd p.1)).setReg (Reg.MC_PART_SIZE i) (wd p.2)) (d.setReg Reg.MC_PART_CMD (put r 28))
  ((List.range 8).foldl (fun d k => d.latchBit (Reg.MC_STATUS k) 8) d1).logBit 0x60 0 8 0xFFFF []

/-- A commit of the staged partition (R349, R537); it moves nothing: every byte stays where it lies in its stacks. -/
def Dev.partCommit (d : Dev) : Dev :=
  if d.vint.started then d.partRefused 2
  else if d.badPart then d.partRefused 1
  else
    let p := (List.range 4).map d.staged
    ({ d with part := p }).setReg Reg.MC_PART_CMD 0#32

/-- PARTITION_COMMIT (R349). -/
def execPartitionCommit (s : State) : Host.Outcome State Fault Refusal := actReg .bar0 Reg.MC_PART_CMD .partitionCommit s Dev.partCommit

end Sys2Proof.Machine
end

