-- ==== Sys2Proof/Machine/SliceCore.lean ====
section
/-! DEFINITION. The ingress pipeline of a slice: acceptance and parse, the match stages with their table reads, the
action resolver, learning requests and the hand-off; and the egress edit stages (R14 to R16, R102 to R121, R127 to
R159, R170, R175, R176, R517). -/
namespace Sys2Proof.Machine

/-- The source byte of slice `n`'s window (R448). -/
def sliceSrc (n : Nat) : Nat := 0x20 + 4 * n

/-- One issue slot of a slice in a class of the ledger (R517): 0 PARSED, 2 MAINT, 4 IDLE, 6 HELD_ORDER,
8 HELD_LOOKUP, 10 HELD_HANDOFF; two slots make a cycle. -/
def Dev.slot (d : Dev) (n i : Nat) : Dev :=
  let d1 := d.inc (bankSlot n) i
  let total := ([0, 2, 4, 6, 8, 10].map fun j => (d1.counter (bankSlot n) j).toNat).foldl (· + ·) 0
  if total % 2 = 0 then d1.inc (bankSlot n) 12 else d1

/-- The slice runs its ingress pipeline: ACTIVE, or DRAINING what it holds (R35, R416). -/
def Slice.runs (x : Slice) : Bool := x.st = .active || x.st = .draining

/-- A vintage is live (R164). -/
def Dev.isLive (d : Dev) (v : Nat) : Bool := d.liveVints.contains v

/-- A stale packet is counted (R170). -/
def Dev.countStale (d : Dev) : Dev := (d.inc bankVint 4).latchBit Reg.SL_VNT_STATUS 12

/-! ## Acceptance and parse -/

/-- Start values of a pass: state and key offsets (R117, R119). -/
def startFields (w : Word) : Nat × Nat × Nat := (fld w 31 24, fld w 23 18, fld w 17 12)

/-- The bytes of the parse window have arrived, or the tail has: the press waits for them (R102, log entry 106, DEDUCED). -/
def Pkt.windowReady (k : Pkt) : Bool := !k.headOnly || (if k.pass = 0 then 0 else k.recStart) + 256 ≤ k.frame.length

/-- The frame as the press sees it. The end of a frame whose tail has not arrived is that of the length of R194 (log entry 106,
DESIGN CHOICE): what lies beyond the window is not read. -/
def Pkt.pressFrame (k : Pkt) : Bytes := if k.headOnly then padTo k.len k.frame else k.frame

/-- Count a parse and its failure (Table 4.5, R114). -/
def Dev.countParse (d : Dev) (n : Nat) (k : Pkt) (r : Parse) : Dev :=
  let d1 := d.inc (bankPress n) 0
  let d2 := match statusCounter r.status with
    | some i => d1.inc (bankPress n) i
    | none => d1
  let d3 := if k.pass = 0 then d2 else d2.inc (bankPress n) 8
  if r.status = 0 then d3
  else (d3.setReg (Reg.SL_PRS_LAST_FAIL n) (lastFail r k.port)).latchBit (Reg.SL_PRS_STATUS n) 9

/-- A parity error in the matched entry (R114): the packet is dropped and the entry is to be reloaded. -/
def Dev.parityDrop (d : Dev) (n : Nat) (k : Pkt) (r : Parse) : Dev :=
  let d1 := ((d.inc (bankPress n) 10).latchBit (Reg.SL_PRS_STATUS n) 11).logBit (sliceSrc n) 1 11 0 (le 1 n ++ le 2 r.entry)
  (d1.modSlice n fun s => { s with pressReload := if s.pressReload.contains r.entry then s.pressReload else r.entry :: s.pressReload }).endHold
    k.uid

/-- The parse of one pass of a packet by slice `n`. -/
def Dev.parsePkt (d : Dev) (n : Nat) (k : Pkt) (bad : List Nat) : Parse :=
  let s := startFields (if k.pass = 0 then d.reg (Reg.SL_PRS_PORT_CFG k.port) else d.reg (Reg.SL_PRS_RECIRC_EP k.recEntry))
  parse d.prog.press (bad ++ (d.slice n).pressReload) k.pressFrame (if k.pass = 0 then 0 else k.recStart) s.1 s.2.1 s.2.2 k.vint

/-- The packet as the press hands it to the stages: vector, bus and parse default (R112, R115, R134). -/
def Dev.parsed (d : Dev) (k : Pkt) (r : Parse) : Pkt :=
  { k with
    vec := headerVector r k.pass k.vint k.port k.injected (if k.pass = 0 then 0 else k.recStart) (if k.pass = 0 then 0 else k.recTag)
    bus := busInit k.rxTs k.pass k.len k.port k.injected k.vint r.status
    dflt := parseDefault (d.reg (Reg.SL_PRS_PORT_CFG k.port)) r.status
    stage := 0, lookups := [], begun := none, resolved := false, copyQueue := none, recirc := false }

/-- A packet enters the press of slice `n` (R103, R110, R114, R169). -/
def Dev.enterPress (d : Dev) (n : Nat) (k : Pkt) (bad : List Nat) : Dev :=
  let k1 := if k.pass = 0 then { k with vint := d.vint.current } else k
  let d1 := if k.pass = 0 then d.countVint k.uid k1.vint else d
  let r := d1.parsePkt n k1 bad
  let d2 := d1.countParse n k1 r
  if r.status = 5 then d2.parityDrop n k1 r
  else d2.modSlice n fun s => { s with order := s.order ++ [d2.parsed k1 r], accepted := true,
                                       lastOut := if s.order = [] then d2.time.tsc else s.lastOut }

/-- The lookup share of the control channel holds back a request or a response of this packet (R20, R517). -/
def Pkt.shareHeld (k : Pkt) : Bool := k.lookups.any fun l => l.done.isNone && (!l.asked || l.held.isSome)

/-- The class of a slot in which an offered packet cannot enter (R16, R517): 10 HELD_HANDOFF, 8 HELD_LOOKUP, 6 HELD_ORDER. -/
def Slice.heldClass (x : Slice) : Nat :=
  if !chanRoom x.up then 10
  else match x.order with
    | k :: _ => if k.shareHeld then 8 else 6
    | [] => 6

/-- One issue slot of the ingress pipeline (R15, R16, R517): the ingress port takes the next packet into it, unless the
order buffer is full. -/
def Dev.ingressAccept (d : Dev) (n : Nat) (bad : List Nat) : Dev :=
  let x := d.slice n
  match x.runs, x.ingress with
  | true, k :: rest =>
    if !k.windowReady then d.slot n 4
    else if 512 ≤ x.order.length then d.slot n x.heldClass
    else
      let d1 := (d.slot n 0).modSlice n fun s => { s with ingress := rest }
      if k.pass ≠ 0 ∧ !d.isLive k.vint then d1.countStale.endHold k.uid
      else d1.enterPress n k bad
  | _, _ => d.slot n 4

/-! ## Table reads (R130, R137 to R141) -/

/-- The address bits of a family, and the parts of an LPM key (Table 5.3). -/
def lpmBits (dsc : BitVec 256) : Nat := if descIpv6 dsc then 128 else 32
def lpmVrf (dsc : BitVec 256) (key : Nat) : Nat := key / 2 ^ lpmBits dsc
def lpmAddr (dsc : BitVec 256) (key : Nat) : Nat := key % 2 ^ lpmBits dsc

/-- The LPM table that a descriptor names: where it lies, its size and its family. Routes belong to it, whatever descriptor
names it (R538). -/
def lpmTable (dsc : BitVec 256) : Nat × Nat × Nat × Bool := (descBase dsc, fld dsc 159 128, descLog2 dsc, descIpv6 dsc)

/-- The routes of a table. -/
def Dev.routesOf (d : Dev) (dsc : BitVec 256) : List Route := d.vint.routes.filter fun r => r.table = lpmTable dsc

/-- Lines of the table region that a lookup reads in DRAM (R137 to R139); an LPM walk reads one line of the node pool
for each level. -/
def Dev.linesFor (d : Dev) (dsc : BitVec 256) (key w : Nat) : List Nat :=
  match descKind dsc with
  | 1 => if descDram dsc ∧ key < 2 ^ descLog2 dsc then [descBase dsc + key * descEsize dsc / 64] else []
  | 2 => if descDram dsc then
           let b := hashBuckets dsc (keyBytes key w)
           if b.1 = b.2 then [descBase dsc + b.1] else [descBase dsc + b.1, descBase dsc + b.2]
         else []
  | 3 => (List.range (lpmReads (d.routesOf dsc) (descIpv6 dsc) (lpmVrf dsc key) (lpmAddr dsc key))).map fun i =>
           fld dsc 159 128 + i
  | _ => []

/-- Lines of stage memory that a lookup reads. Which entry of an LPM top table it reads is not stated: the model takes the one
that the top log2_entries address bits name, whatever the VRF (log entry 109, DESIGN CHOICE). -/
def stageLines (dsc : BitVec 256) (key w : Nat) : List Nat :=
  match descKind dsc with
  | 1 => if !descDram dsc ∧ key < 2 ^ descLog2 dsc then [descBase dsc + key * descEsize dsc / 64] else []
  | 2 => if descDram dsc then [] else
           let b := hashBuckets dsc (keyBytes key w)
           if b.1 = b.2 then [descBase dsc + b.1] else [descBase dsc + b.1, descBase dsc + b.2]
  | 3 => [descBase dsc + lpmAddr dsc key / 2 ^ (lpmBits dsc - descLog2 dsc) * 8 / 64]
  | _ => []

/-- A miss on a memory error (R140, R141). -/
def Dev.tableError (d : Dev) (n : Nat) (values : Bytes) : Dev :=
  ((d.inc (bankStage n) 20).latchBit (Reg.SL_MS_STATUS n) 9).logBit (sliceSrc n) 2 9 0 values

/-! ## One stage (R127 to R148, R538) -/

/-- What a lookup found: the 64 result bytes of a hit, with the device after it. -/
def Dev.lookupHit (d : Dev) (n s : Nat) (f : ResolveFault) (k : Pkt) (dsc : BitVec 256) (key w : Nat) :
    Option Bytes × Dev :=
  match descKind dsc with
  | 1 =>
    if 2 ^ descLog2 dsc ≤ key then (none, d)
    else
      let e := d.tblRead n dsc (key * descEsize dsc) (descEsize dsc)
      (if entryValid e then some (res64 e) else none, d)
  | 2 =>
    match hashFind (d.tblRead n dsc) dsc (keyBytes key w) with
    | [] => (none, d)
    | p :: rest => (some (res64 p.2), if rest = [] then d else d.inc (bankStage n) 19)
  | 3 =>
    match lpmBest (d.routesOf dsc) (descIpv6 dsc) (lpmVrf dsc key) (lpmAddr dsc key) with
    | none => (none, d)
    | some r => (some (res64 (be 8 r.result.toNat ++ le 1 r.plen)), d)
  | _ =>
    let hits := assocHits d.prog.assoc (descFirst dsc) (descCount dsc) (d.slice n).assocReload (assocKey key w) k.vint
    match assocBest hits with
    | none => (none, d)
    | some h =>
      if f.verify.any fun v => v.val = s then
        let d1 := ((d.inc (bankStage n) 18).latchBit (Reg.SL_MS_STATUS n) 10).logBit (sliceSrc n) 2 10 0 (le 1 n ++ le 1 s ++ le 2 h.1)
        (none, d1.modSlice n fun x => { x with assocReload := h.1 :: x.assocReload })
      else
        let m := assocMulti hits h.2
        (some (res64 (be 8 (Tbl.get {} d.prog.assoc h.1).act.toNat ++ be 2 h.1 ++ be 2 h.2 ++ [BitVec.ofNat 8 (b2n m)])),
         if m then d.inc (bankStage n) 17 else d)

/-- The stage is over: the next one is due. -/
def Pkt.advance (k : Pkt) (bus : Bytes) : Pkt := { k with bus := bus, stage := k.stage + 1, lookups := [], begun := none }

/-- A miss: with miss_mode 1 the writes run on the miss result (R135). -/
def Pkt.missed (k : Pkt) (r dsc : BitVec 256) : Pkt :=
  k.advance (if bit r 230 then resultWrites r (res64 (be 8 (descMiss dsc).toNat)) k.bus else k.bus)

/-- A stage whose record and descriptor fit runs its lookup with the key it built when it began, or begins its DRAM reads (R132). -/
def Dev.lookupStage (d : Dev) (n : Nat) (f : ResolveFault) (k : Pkt) (r dsc : BitVec 256) (key : Nat) : Pkt × Dev :=
  let s := k.stage
  let w := keyWidth (recSegs r)
  let lines := d.linesFor dsc key w
  let smem := stageLines dsc key w
  if lines ≠ [] ∧ k.lookups = [] then
    ({ k with lookups := lines.map fun l => { stage := s, line := l }, begun := some (r, dsc, key) }, d.bump (bankStage n) 16 lines.length)
  else if k.lookups.any fun l => l.done = some false then (k.missed r dsc, d)
  else if smem ≠ [] ∧ ((f.smem.any fun v => v.val = s) ∨ smem.any fun l => (d.slice n).badLines.contains l) then
    let l := (smem.find? fun l => (d.slice n).badLines.contains l).getD (smem.headD 0)
    (k.missed r dsc, (d.tableError n []).modSlice n fun x =>
      { x with badLines := if x.badLines.contains l then x.badLines else l :: x.badLines })
  else
    let h := d.lookupHit n s f k dsc key w
    match h.1 with
    | none => (k.missed r dsc, h.2)
    | some res => (k.advance (resultWrites r res (setHit k.bus s)), h.2.inc (bankStage n) s)

/-- A stage begins: it takes the record of the packet's vintage, the record's descriptor as it stands, and its key (R127, R131,
R132, R135, R538). -/
def Dev.stageBegins (d : Dev) (n : Nat) (f : ResolveFault) (k : Pkt) (r : BitVec 256) : Pkt × Dev :=
  let dsc := Tbl.get 0#256 d.prog.descs (recDesc r)
  if !predHolds (bit r 243) (bit r 242) (fld r 241 238) (bit r 237) k.vec k.bus then (k.advance k.bus, d)
  else if recKind r = 0 then (k.advance (resultWrites r (res64 []) k.bus), d)
  else if !fitOk r dsc then (k.missed r dsc, d.inc (bankStage n) 31)
  else d.lookupStage n f k r dsc (buildKey (recSegs r) k.vec k.bus)

/-- One stage of a packet: it begins, or goes on with what it took when it began (R127, R132, R538). -/
def Dev.stageStep (d : Dev) (n : Nat) (f : ResolveFault) (k : Pkt) : Pkt × Dev :=
  match k.begun with
  | some (r, dsc, key) => d.lookupStage n f k r dsc key
  | none => match stageRecord d.prog.records k.stage k.vint with
    | none => (k.advance k.bus, d)
    | some r => d.stageBegins n f k r

/-- A packet has a DRAM read out. -/
def Pkt.waits (k : Pkt) : Bool := k.lookups.any fun l => l.done.isNone

/-- Run the stages of a packet until they are done or a DRAM read is out; a parse default skips them (R115). -/
def Dev.runStages (d : Dev) (n : Nat) (f : ResolveFault) : Nat → Pkt → Pkt × Dev
  | 0, k => (k, d)
  | fuel + 1, k =>
    if 16 ≤ k.stage ∨ k.dflt ≠ 0 then ({ k with stage := 16 }, d)
    else
      let r := d.stageStep n f k
      if r.1.waits then r else r.2.runStages n f fuel r.1

/-! ## Learning requests (R174 to R176) -/

def Dev.lrnCtrl (d : Dev) (j : Nat) : Word := d.reg (Reg.SL_LRN_PROF_CTRL j)
def Dev.lrnDesc (d : Dev) (j : Nat) : BitVec 256 := Tbl.get 0#256 d.prog.descs (fld (d.lrnCtrl j) 23 18)
def Dev.lrnSegs (d : Dev) (j : Nat) : List Nat := (List.range 4).map fun i => fld (d.reg (Reg.SL_LRN_PROF_SEG j i)) 18 0
def Dev.lrnLen (d : Dev) (j : Nat) : Nat := fld (d.reg (Reg.SL_LRN_PROF_DATA j)) 5 0 + 1

/-- The profile is enabled and not treated as disabled (R174). -/
def Dev.lrnOn (d : Dev) (j : Nat) : Bool :=
  let dsc := d.lrnDesc j
  let w := keyWidth (d.lrnSegs j)
  bit (d.lrnCtrl j) 31 && descValid dsc && descKind dsc = 2 && widthOk 2 false w && (d.lrnSegs j).all segInside &&
  2 + ceilDiv w 8 + d.lrnLen j ≤ descEsize dsc

/-- The item that profile `j` makes of a packet, if any (R175). Learn data that runs past the last metadata byte reads 0 there
(log entry 111, DESIGN CHOICE). -/
def Dev.learnItem (d : Dev) (n j : Nat) (k : Pkt) : Option LearnItem :=
  let c := d.lrnCtrl j
  if !d.lrnOn j ∨ !predHolds (bit c 30) (bit c 29) (fld c 28 25) (bit c 24) k.vec k.bus then none
  else
    let w := keyWidth (d.lrnSegs j)
    let key := keyBytes (buildKey (d.lrnSegs j) k.vec k.bus) w
    let data := padTo (d.lrnLen j) (Machine.slice k.bus (fld (d.reg (Reg.SL_LRN_PROF_DATA j)) 13 8) (d.lrnLen j))
    let item : LearnItem := { slice := n, prof := j, desc := fld c 23 18, key := key, data := data }
    if !busHit k.bus (fld c 17 14) then some item
    else match hashFind (d.tblRead n (d.lrnDesc j)) (d.lrnDesc j) key with
      | [] => some item
      | p :: _ =>
        if entryLock p.2 then none
        else if Machine.slice p.2 (2 + key.length) data.length ≠ data ∨ entryStamp p.2 ≠ d.vint.epoch then some item else none

/-- Push an item to the engine's FIFO of 4,096 (R176). -/
def Dev.pushLearn (d : Dev) (it : LearnItem) : Dev :=
  let d1 := d.inc bankVint 5
  if 4096 ≤ d1.vint.learn.length then d1.inc bankVint 11
  else { d1 with vint := { d1.vint with learn := d1.vint.learn ++ [it] } }

/-- The learning request of a resolved packet (R154, R175, R184). -/
def Dev.learnFrom (d : Dev) (n : Nat) (k : Pkt) : Dev :=
  if k.noLearn ∨ k.recStatus ≠ 0 ∨ k.dflt ≠ 0 ∨ d.spr.cellar then d
  else (List.range 4).foldl (fun e j => match d.learnItem n j k with
    | some it => e.pushLearn it
    | none => e) d

/-! ## Resolution (R149 to R155) -/

/-- The local form of a destination that names this device (R149). -/
def localForm (dev x : Nat) : Nat :=
  if x / 2 ^ 30 = 2 ∧ x / 2 ^ 25 % 32 = dev then
    if x % 2 ^ 18 = 0x3FFFF then x % 2 ^ 25 else 2 ^ 30 + x % 2 ^ 25
  else x

/-- A verdict: act, destination and drop reason, and the counter it counts in: (0 press or 1 stage bank, index). -/
structure Verdict where
  act : Nat
  dest : Nat
  reason : Nat := 0
  count : Option (Nat × Nat) := none
deriving DecidableEq, Repr

/-- The verdict of R150 and R151 for a packet of pass `pass`. -/
def verdictOf (dflt act dest pass punt : Nat) (res : Word) : Verdict :=
  if dflt = 1 then { act := 2, dest := dest, reason := 4, count := some (0, 6) }
  else if dflt = 2 then { act := 3, dest := punt, count := some (0, 7) }
  else match act with
    | 0 => match fld res 1 0 with
      | 1 => { act := 3, dest := fld res 13 4, count := some (1, 23) }
      | 2 => { act := 5, dest := fld res 31 14, count := some (1, 24) }
      | _ => { act := 2, dest := dest, reason := 2, count := some (1, 22) }
    | 1 => if dest / 2 ^ 30 = 3 then { act := 2, dest := dest, reason := 3, count := some (1, 26) } else { act := 1, dest := dest }
    | 3 => { act := 3, dest := dest }
    | 4 => if pass = 3 then { act := 2, dest := dest, reason := 5, count := some (0, 9) } else { act := 4, dest := dest }
    | 5 => { act := 5, dest := dest }
    | _ => { act := 2, dest := dest, reason := 1, count := some (1, 25) }

/-- The record after resolution. -/
def Verdict.record (v : Verdict) (dev : Nat) (k : Pkt) : Bytes :=
  let dest := if v.act = 1 then localForm dev v.dest else v.dest
  overwrite (overwrite (setVerdict k.bus v.act k.recTc k.recColour) 19 (be 4 dest)) 30 [BitVec.ofNat 8 v.reason]

/-- The edit program of a packet for its vintage has no SET_LEN op; a program that is not valid for the vintage (R156)
is no program of it (R231). -/
def Dev.cutCapable (d : Dev) (k : Pkt) : Bool :=
  let prog := Tbl.get 0#256 d.prog.edits k.editNo
  k.editNo = 0 || !editValid prog k.vint || !(List.range 8).any fun j => fld prog (30 * j + 29) (30 * j) / 2 ^ 27 = 7

/-- The packet after resolution: record, copy to the host, next pass (R119, R150, R152). -/
def Dev.resolvedPkt (d : Dev) (k : Pkt) (v : Verdict) : Pkt :=
  let k1 := { k with bus := v.record d.devId k, resolved := true }
  { k1 with
    copyQueue := if k.copyHost ∧ k.dflt = 0 then some k.copyQ else none
    capable := d.cutCapable k1
    recirc := v.act = 4, recEntry := v.dest / 2 ^ 28, recStart := v.dest / 2 ^ 20 % 256, recTag := v.dest % 256 }

/-- Count a verdict (Tables 4.5, 5.8, 5.12). -/
def Dev.countVerdict (d : Dev) (n : Nat) (v : Verdict) : Dev :=
  let d1 := match v.count with
    | some (0, i) => d.inc (bankPress n) i
    | some (_, i) => d.inc (bankStage n) i
    | none => d
  if v.reason = 5 then d1.latchBit (Reg.SL_PRS_STATUS n) 10 else d1

/-- A verdict miscompare (R155): SL_MS_LAST_MISCMP holds whether only the other outputs differed, the first differing
byte, the port and the vintage. With no record byte that differs, byte is 0 (log entry 110, DESIGN CHOICE). -/
def Dev.miscompare (d : Dev) (n : Nat) (k : Pkt) (byte : Nat) (learnOnly : Bool) : Dev :=
  let w := wd (b2n learnOnly * 2 ^ 31 + (if learnOnly then 0 else byte) * 2 ^ 25 + k.port * 2 ^ 18 + k.vint)
  let d1 := ((d.inc (bankStage n) 21).setReg (Reg.SL_MS_LAST_MISCMP n) w).latchBit (Reg.SL_MS_STATUS n) 11
  ((d1.logBit (sliceSrc n) 2 11 0 (le 1 n ++ le 1 k.port)).endHold k.uid).noteMiscompare n

/-- Replace a packet of the order buffer, or take it out. -/
def Dev.putOrder (d : Dev) (n : Nat) (k : Pkt) : Dev :=
  d.modSlice n fun s => { s with order := s.order.map fun j => if j.uid = k.uid then k else j }
def Dev.takeOrder (d : Dev) (n uid : Nat) : Dev :=
  d.modSlice n fun s => { s with order := s.order.filter fun j => j.uid ≠ uid, lastOut := d.time.tsc }

/-! ## Table reads over the control channel (R20, R140, R142, R413) -/

/-- The slice next in turn from `ptr` for which `p` holds: those that hold a port group first (R142). -/
def Dev.nextInTurn (d : Dev) (ptr : Nat) (p : Slice → Bool) : Option Nat :=
  let turn := (List.range 9).map fun i => (ptr + i) % 9
  let holds (n : Nat) : Bool := (List.range 8).any fun g => d.holder g = some n
  match turn.find? fun n => holds n && p (d.slice n) with
  | some n => some n
  | none => turn.find? fun n => p (d.slice n)

/-- A packet of the order buffer has such a lookup. -/
def Slice.hasLookup (p : Lookup → Bool) (x : Slice) : Bool := x.order.any fun k => k.lookups.any p

/-- Requests cross while the control channel toward the T-die has bytes: 16 each (R20). -/
def Dev.sendAsksFor : Nat → Dev → Dev
  | 0, d => d
  | fuel + 1, d =>
    if d.dukUp.ctl ≤ 0 then d
    else match d.nextInTurn d.dukUp.lptr (Slice.hasLookup Lookup.toAsk) with
      | none => d
      | some n =>
        let ask (k : Pkt) : Pkt := { k with lookups := mapFirst Lookup.toAsk (fun l => { l with asked := true }) k.lookups }
        Dev.sendAsksFor fuel ({ d with dukUp := { d.dukUp with ctl := d.dukUp.ctl - 16, lptr := (n + 1) % 9 } }.modSlice n fun s =>
          { s with order := mapFirst (fun k => k.lookups.any Lookup.toAsk) ask s.order })

/-- At most 224 bytes cross in one cycle, so 14 requests. -/
def Dev.sendAsks (d : Dev) : Dev := Dev.sendAsksFor 14 d

/-- A response reaches its stage: good data; an uncorrectable read is asked for once more on the other copy; after that the
stage misses, counted once for the lookup (R140, R162). -/
def Dev.lookupAnswered (d : Dev) (n : Nat) (k : Pkt) (l : Lookup) : Dev :=
  let upd (f : Lookup → Lookup) : Dev := d.putOrder n { k with lookups := mapFirst Lookup.toGive f k.lookups }
  if l.held = some true then upd fun l => { l with held := none, done := some true }
  else if !l.repeated then (upd fun l => { l with held := none, asked := false, repeated := true }).inc (bankStage n) 16
  else
    let d1 := upd fun l => { l with held := none, done := some false }
    if k.lookups.any fun l => l.done = some false then d1 else d1.tableError n (le 1 n ++ le 1 l.stage ++ le 4 l.line)

/-- Responses cross while the control channel toward the F-die has bytes: 72 each (R20). -/
def Dev.giveHeldFor : Nat → Dev → Dev
  | 0, d => d
  | fuel + 1, d =>
    if d.dukDown.ctl ≤ 0 then d
    else match d.nextInTurn d.dukDown.lptr (Slice.hasLookup Lookup.toGive) with
      | none => d
      | some n =>
        let d1 := { d with dukDown := { d.dukDown with ctl := d.dukDown.ctl - 72, lptr := (n + 1) % 9 } }
        Dev.giveHeldFor fuel (match (d1.slice n).order.find? fun k => k.lookups.any Lookup.toGive with
          | some k => match k.lookups.find? Lookup.toGive with
            | some l => d1.lookupAnswered n k l
            | none => d1
          | none => d1)

/-- At most four responses begin in one cycle. -/
def Dev.giveHeld (d : Dev) : Dev := (Dev.giveHeldFor 4 d).sendAsks

/-- The oldest DRAM read that slice `n` has out. -/
def Dev.lookupOut (d : Dev) (n : Nat) : Option Lookup := (d.slice n).order.findSome? fun k => k.lookups.find? Lookup.out

/-- Data returns for the oldest DRAM read that slice `n` has out, read at copy `at'`, if any; it crosses when the control channel
carries it (R20). -/
def Dev.holdLookup (d : Dev) (n : Nat) (good : Bool) (at' : Option Nat) : Dev :=
  let got (l : Lookup) : Lookup := { l.hold good with readAt := if l.readAt.isNone then at' else l.readAt }
  let take (k : Pkt) : Pkt := { k with lookups := mapFirst Lookup.out got k.lookups }
  (d.modSlice n fun s =>
    { s with order := mapFirst (fun k => k.lookups.any Lookup.out) take s.order }).giveHeld

/-- Row `c` performs the oldest DRAM read that slice `n` has out (R140, R350, R352): behind a write of its line that waits, at the
copy that R352 names, or at the one not yet read when it is repeated; with none to read it returns uncorrectable. -/
def Dev.lookupResponse (d : Dev) (n : Nat) (e : DramEcc) (c : Instr) : Dev :=
  match d.lookupOut n with
  | none => d
  | some l => match d.writeWaits rTable l.line with
    | some b => d.park b c
    | none => match d.lookupCopy l with
      | none => d.holdLookup n false none
      | some k => d.readCopy k (d.stackLine rTable l.line) e c fun d good =>
          (if l.repeated then d else d.countRedirect rTable l.line k).holdLookup n good (some k)

/-- Resolve a packet whose stages are done (R150 to R155). -/
def Dev.resolve (d : Dev) (n : Nat) (f : ResolveFault) (k : Pkt) : Dev :=
  match f.miscompare with
  | some (b, learnOnly) => (d.takeOrder n k.uid).miscompare n k b learnOnly
  | none =>
    let v := verdictOf k.dflt k.act k.dest k.pass (fld (d.reg (Reg.SL_PRS_PORT_PUNT k.port)) 9 0) (d.reg (Reg.SL_RES_PORT_CFG k.port))
    let k1 := d.resolvedPkt k v
    let d1 := (d.countVerdict n v).learnFrom n k
    let d2 := if k1.copyQueue.isSome then d1.inc (bankStage n) 27 else d1
    if v.act = 2 ∧ k1.copyQueue.isNone then (d2.takeOrder n k.uid).endHold k.uid else d2.putOrder n k1

/-- The next packet that the stages can work on: the first that is not resolved and has no read out. -/
def Slice.nextStage (x : Slice) : Option Pkt := x.order.find? fun k => !k.resolved && !k.waits

/-- Run the stages and the resolver for the next packet of a slice. -/
def Dev.actionResolve (d : Dev) (n : Nat) (f : ResolveFault) : Dev :=
  match (d.slice n).runs, (d.slice n).nextStage with
  | true, some k =>
    let r := d.runStages n f 17 k
    if r.1.waits then (r.2.putOrder n r.1).sendAsks else (r.2.putOrder n r.1).resolve n f r.1
  | _, _ => d

/-! ## Hand-off (R16, R19, R152, R193, R205) -/

/-- The first resolved packet with no earlier packet of its port before it. -/
def handoffNext : List Pkt → List Nat → Option Pkt
  | [], _ => none
  | k :: ks, held => if held.contains k.port then handoffNext ks held else if k.resolved then some k else handoffNext ks (k.port :: held)

/-- Ask for a buffer for a packet that has crossed the Dukider link (R193, R205). -/
def Dev.askBuffer (d : Dev) (pool tag : Nat) (k : Pkt) : Dev :=
  { d with bpm := { d.bpm with waiting := d.bpm.waiting ++ [{ pool := pool, tag := tag, pkt := { k with tag := tag } }] } }

/-- The host copy of a packet (R152): it goes to copy_queue with a buffer of its own. -/
def Pkt.hostCopy (k : Pkt) (hq : Nat) : Pkt :=
  { k with origin := .hostCopy, recirc := false, copyQueue := none, queue := qKey 3 hq + 1, itemKind := 1, colour := 0 }

/-- The crossbar input of a packet that slice `n` hands off (R13, R226): the recirculation side for one that comes back to a
slice, and the handoff of the slice's port group otherwise; an injection through a slice without one keeps the host's
(log entry 97). -/
def Dev.inputOf (d : Dev) (n : Nat) (k : Pkt) : Nat :=
  if k.recirc then 9
  else match (d.slice n).pg with
    | some g => g
    | none => if k.injected then 9 else k.port / 16

/-- Hand a packet off: it goes into the slice's channel toward the T-die (R16, R19). -/
def Dev.handOff (d : Dev) (n : Nat) (k : Pkt) : Dev :=
  (d.takeOrder n k.uid).modSlice n fun s => { s with up := s.up ++ [{ k with flits := k.flitForm, input := d.inputOf n k }] }

/-- A packet has crossed the link toward the T-die: the packet, unless it is dropped, and its host copy each wait for a buffer
(R152, R193, R205); one found bad on the way is dropped. -/
def Dev.arriveUp (n : Nat) (d : Dev) (k : Pkt) : Dev :=
  let c := (sizeClass k.len).getD 3
  let main (e : Dev) : Dev :=
    if k.act = 2 then e
    else e.askBuffer (if k.recirc then 4 + c else c) n { k with pass := if k.recirc then k.pass + 1 else k.pass, itemKind := 1, copyQueue := none }
  if k.bad then d.endHold k.uid
  else match k.copyQueue with
    | none => main d
    | some hq => (main (if k.act = 2 then d else d.shareHold k.uid 1)).askBuffer c n (k.hostCopy hq)

/-- DUKIDER_HANDOFF: the next packet in order, once the channel has credit (R16, R19, R30). -/
def Dev.dukHandoff (d : Dev) (n : Nat) : Dev :=
  if !(d.slice n).runs ∨ d.dukLost ∨ d.spr.cellar ∨ !chanRoom (d.slice n).up then d
  else match handoffNext (d.slice n).order [] with
    | none => d
    | some k => if k.bad then (d.takeOrder n k.uid).endHold k.uid else d.handOff n k

/-! ## Egress edit (R156 to R159, R170, R403, R406) -/

/-- The edited frame of a packet, padded, and whether padding was added; none when it is dropped (R156 to R158). One found bad after
its head left is sent stomped, whatever its length (R232). -/
def Dev.edited (d : Dev) (p : Nat) (k : Pkt) : Option (Bytes × Bool) :=
  let prog := Tbl.get 0#256 d.prog.edits k.editNo
  if k.editNo ≠ 0 ∧ !editValid prog k.recVint then none
  else
    let data := be 64 (Tbl.get 0#512 d.prog.editData k.editDataNo).toNat
    match (if k.editNo = 0 then some k.frame else runEdits prog data k.bus k.frame) with
    | none => none
    | some f => if d.maxFrame p < f.length + 4 ∧ !(k.cutThrough && k.stomp) then none
                else if f.length < 60 then some (padTo 60 f, true) else some (f, false)

/-- The output stage (R403, R405): only the holder's frames pass to the MAC, and none to a port that is neither UP nor HOLDOFF,
which would send it on its next link (R92, R100; that such a frame is not counted is log entry 105, DESIGN CHOICE). -/
def Dev.outputStage (d : Dev) (n p : Nat) (k : Pkt) (frame : Bytes) : Dev :=
  let d1 := d.release k
  if d.holder (p / 16) = some n ∧ !d.portLive p then d1
  else if d.holder (p / 16) = some n then
    d1.modPort p fun x => { x with txFifo := x.txFifo ++ [{ k with frame := frame, handle := none, len := frame.length }] }
  else d1.inc bankSpr 8

/-- Edit the packet that slice `n` received (R156, R158, R170, R406). -/
def Dev.editPkt (d : Dev) (n : Nat) (k : Pkt) : Dev :=
  let p := k.outPort.getD 0
  if !(d.slice n).runs then (d.inc bankSpr 15).dropPkt k
  else if !d.isLive k.recVint then d.countStale.dropPkt k
  else match d.edited p k with
    | none => (d.inc (bankStage n) 28).dropPkt k
    | some (frame, padded) => (if padded then d.inc (bankStage n) 29 else d).outputStage n p k frame

/-- The next packet of the edit stages; a packet whose tail has not arrived waits for it. -/
def Dev.egressEdit (d : Dev) (n : Nat) : Dev :=
  match (d.slice n).egress with
  | [] => d
  | k :: rest => if k.headOnly then d else (d.modSlice n fun s => { s with egress := rest }).editPkt n k

end Sys2Proof.Machine
end

