-- ==== Sys2Proof/Machine/Vintages.lean ====
section
/-! DEFINITION. Vintages: commits, reclaim and the drain limit; the table-access engine with learning and ageing
(R163 to R184). -/
namespace Sys2Proof.Machine

/-! ## Commits and reclaim (R166 to R173) -/

/-- A vintage is retired by force (Table 6.1, R173). -/
def Dev.forceOld (d : Dev) : Dev :=
  match d.vint.old with
  | none => d
  | some _ => ((({ d with vint := { d.vint with old := none } }).inc bankVint 3).latchBit Reg.SL_VNT_STATUS 10).logBit 0x20 0 10 0xFFFF []

/-- The row of Table 6.1 that refuses a commit of `n` by an entry of origin `o`, counted from 1; 0 when none does. -/
def Dev.commitRefused (d : Dev) (n o : Nat) : Nat :=
  if !d.vint.started then 1
  else if o ≠ 2 ∧ d.exchanges then 2
  else if d.isLive n then 3
  else if d.inflight n ≠ 0 then 4
  else 0

/-- The old vintage is reclaimed as soon as nothing carries it, on a device that stands alone (R171). -/
def Dev.reclaimAlone (d : Dev) : Dev :=
  match d.vint.old with
  | none => d
  | some o => if d.alone ∧ d.inflight o = 0 then d.reclaimOld else d

/-- VINTAGE_COMMIT of `n` acts (R166, R167, R171). -/
def Dev.commit (d : Dev) (n o : Nat) : Dev :=
  match d.commitRefused n o with
  | 0 =>
    let d1 := d.forceOld
    let d2 := { d1 with vint := { d1.vint with old := some d1.vint.current, current := n, oldSince := d1.time.tsc },
                        fab := { d1.fab with zeros := [] } }
    ((d2.inc bankVint 0).latchBit Reg.SL_VNT_STATUS 8).reclaimAlone
  | r => ((d.inc bankVint 1).latchBit Reg.SL_VNT_STATUS 11).logBit 0x20 0 11 0xFFFF (le 1 n ++ le 1 r)

/-- VINTAGE_RECLAIM (R171). -/
def execVintageReclaim (s : State) : Host.Outcome State Fault Refusal := actIn pllT .vintageReclaim s Dev.reclaimAlone

/-- The old vintage has stayed old for the drain limit as the register stands, in TSCLK cycles (R173). -/
def Dev.drainDue (d : Dev) : Bool :=
  let ms := fld (d.reg Reg.SL_VNT_CTRL) 31 16
  ms ≠ 0 && decide (d.vint.oldSince + ms * 10 ^ 6 ≤ d.time.tsc)

/-- The old vintage is retired once the drain limit has passed, which is tested at every moment (R173). -/
def Dev.drainCheck (d : Dev) : Dev := if d.drainDue then d.forceOld else d

/-- DRAIN_LIMIT_EXPIRE (R173). -/
def execDrainLimitExpire (s : State) : Host.Outcome State Fault Refusal := actIn pllT .drainLimitExpire s Dev.drainCheck

/-! ## The turn of the table-access engine (R179) -/

/-- A host command waits for the engine: a TABLE entry at the front of a command ring, or the register mailbox's table request. -/
def Dev.hostWaits (d : Dev) : Bool :=
  (d.host.sqs.any fun p => d.sqKind p.1 = 2 && d.sqRuns p.1 && (match d.frontEnt p.1 with
    | some e => e.op = 0x10
    | none => false)) || (d.mgmt.serving && d.mgmt.mbxBusy && d.mgmt.mbxReq = 0x10)

/-- A source of the engine waits: 0 host command, 1 learning item, 2 ager. -/
def Dev.engWaits (d : Dev) (s : Nat) : Bool :=
  match s with
  | 0 => d.hostWaits
  | 1 => !(d.vint.learn == [])
  | _ => !(d.vint.sweep == [])

/-- The engine serves source `s` next: none that waits comes before it in the rotation (R179). -/
def Dev.engServes (d : Dev) (s : Nat) : Bool :=
  ((List.range 3).map fun i => (d.vint.turn + i) % 3).takeWhile (· ≠ s) |>.all fun x => !d.engWaits x

/-- The engine has served source `s`: the next in the rotation has its turn. -/
def Dev.engDone (d : Dev) (s : Nat) : Dev := { d with vint := { d.vint with turn := (s + 1) % 3 } }

/-- An operation of source `s`, in its turn; a row that comes before its turn finds the engine at another source, and what it
names stays where it waits (log entry 120, DESIGN CHOICE). -/
def Dev.engOp (d : Dev) (s : Nat) (f : Dev → Dev) : Dev := if !d.engServes s then d else if d.engWaits s then (f d).engDone s else f d

/-! ## Entries of hash-exact tables (R177) -/

/-- Control byte 0 of an entry. -/
def ctlByte (lock learned : Bool) (prof : Nat) : Byte := BitVec.ofNat 8 (128 + b2n lock * 64 + b2n learned * 32 + prof * 8)

/-- An entry with its valid bit cleared. -/
def invalidated (e : Bytes) : Bytes := overwrite e 0 [e.getD 0 0 &&& 0x7F#8]

/-- The descriptor is a valid hash-exact one. -/
def isHash (dsc : BitVec 256) : Bool := descValid dsc && descKind dsc = 2

/-- The first slot with valid 0 in the order of R138. -/
def Dev.freeSlot (d : Dev) (dsc : BitVec 256) (key : Bytes) : Option Nat :=
  (keySlots dsc key).find? fun o => !entryValid (d.engRead dsc o (descEsize dsc))

/-! ## Notifications (R182) -/

/-- The record of Table 6.5. -/
def notifyRec (t : DevTime) (kind desc prof k : Nat) (entry : Bytes) : Bytes :=
  [BitVec.ofNat 8 kind, BitVec.ofNat 8 desc, BitVec.ofNat 8 prof, BitVec.ofNat 8 k] ++ le 4 t.ns ++ le 4 t.sec ++ le 4 0 ++
    slice entry 2 48

/-- Send a notification when the profile asks for it; a queue that cannot accept it loses it, counted. -/
def Dev.notify (d : Dev) (kind desc prof k : Nat) (entry : Bytes) : Dev :=
  let c := d.lrnCtrl prof
  if !bit c 12 then d
  else match d.hostItem (fld c 9 0) 2 (notifyRec d.time.now kind desc prof k entry) with
    | some d1 => d1
    | none => (d.inc bankVint 13).hqDrop (fld c 9 0)

/-! ## Learning (R178) -/

/-- The item found its key in the slot at `o`. -/
def Dev.learnFound (d : Dev) (it : LearnItem) (dsc : BitVec 256) (o : Nat) (e : Bytes) : Dev :=
  let k := it.key.length
  if entryLock e then d.inc bankVint 9
  else if Machine.slice e (2 + k) it.data.length ≠ it.data then
    let e1 := overwrite (overwrite e 0 [ctlByte false true it.prof, BitVec.ofNat 8 d.vint.epoch]) (2 + k) it.data
    ((d.tblWrite dsc o e1).inc bankVint 8).notify 2 it.desc it.prof k e1
  else
    let d1 := if entryStamp e = d.vint.epoch then d else d.tblWrite dsc o (overwrite e 1 [BitVec.ofNat 8 d.vint.epoch])
    d1.inc bankVint 7

/-- The item's key is new. -/
def Dev.learnNew (d : Dev) (it : LearnItem) (dsc : BitVec 256) : Dev :=
  match d.freeSlot dsc it.key with
  | none => d.inc bankVint 10
  | some o =>
    let e := padTo (descEsize dsc) ([ctlByte false true it.prof, BitVec.ofNat 8 d.vint.epoch] ++ it.key ++ it.data)
    ((d.tblWrite dsc o e).inc bankVint 6).notify 1 it.desc it.prof it.key.length e

/-- The engine reads the buckets of a key (R138, R370). -/
def Dev.readBuckets (d : Dev) (dsc : BitVec 256) (key : Bytes) : Dev :=
  let b := hashBuckets dsc key
  (if b.1 = b.2 then [b.1] else [b.1, b.2]).foldl (fun d b => d.engCount dsc (64 * b) 64) d

/-- The engine performs the oldest item (R178); an item whose descriptor no longer is a hash-exact one that holds it does
nothing. In cellar mode learning has stopped, and what waits in the FIFO is discarded uncounted, an item for each row (R184, R422;
log entry 112, DESIGN CHOICE). -/
def Dev.learnNext (d : Dev) : Dev :=
  match d.vint.learn with
  | [] => d
  | it :: rest =>
    let d1 := { d with vint := { d.vint with learn := rest } }
    let dsc := Tbl.get 0#256 d.prog.descs it.desc
    if !isHash dsc ∨ descEsize dsc < 2 + it.key.length + it.data.length ∨ d.spr.cellar then d1
    else match hashFind (d1.engRead dsc) dsc it.key with
      | [] => (d1.readBuckets dsc it.key).learnNew it dsc
      | p :: _ => (d1.readBuckets dsc it.key).learnFound it dsc p.1 p.2

/-- LEARN_ITEM_PROCESS (R178). -/
def execLearnItemProcess (s : State) : Host.Outcome State Fault Refusal := actIn pllT .learnItemProcess s fun d => d.engOp 1 Dev.learnNext

/-! ## Ageing (R181, R184) -/

/-- max_age, with values above 254 as 254. -/
def Dev.maxAge (d : Dev) : Nat := min 254 (fld (d.reg Reg.SL_LRN_AGE_CFG) 7 0)

/-- The first profile that has a table aged. -/
def Dev.agingProf (d : Dev) (desc : Nat) : Option Nat :=
  (List.range 4).find? fun j => d.lrnOn j && bit (d.lrnCtrl j) 13 && fld (d.lrnCtrl j) 23 18 = desc

/-- The tables a sweep reads, each once: those of the enabled profiles with age_en. -/
def Dev.sweepTables (d : Dev) : List Nat :=
  (((List.range 4).filter fun j => d.lrnOn j && bit (d.lrnCtrl j) 13).map fun j => fld (d.lrnCtrl j) 23 18).eraseDups

/-- The epoch advances, and a sweep begins (R181, R184). -/
def Dev.epochStep (d : Dev) : Dev :=
  let sw := if d.spr.cellar ∨ d.maxAge = 0 then [] else d.sweepTables.map fun t => (t, 0)
  { d with vint := { d.vint with epoch := (d.vint.epoch + 1) % 256, sweep := sw, epochDue := false } }

/-- An epoch ends (R181, R184): the counter waits for a sweep that runs, except in cellar mode, where none does. -/
def Dev.epochNext (d : Dev) : Dev :=
  if d.vint.sweep ≠ [] ∧ !d.spr.cellar then { d with vint := { d.vint with epochDue := true } } else d.epochStep

/-- A sweep that has finished lets the counter advance that waited for it. -/
def Dev.sweepOver (d : Dev) : Dev := if d.vint.sweep = [] ∧ d.vint.epochDue then d.epochStep else d

/-- EPOCH_ADVANCE (R181). -/
def execEpochAdvance (s : State) : Host.Outcome State Fault Refusal := actIn pllT .epochAdvance s Dev.epochNext

/-- The ager looks at one entry. -/
def Dev.ageSlot (d : Dev) (desc prof : Nat) (dsc : BitVec 256) (o : Nat) : Dev :=
  let e := d.engRead dsc o (descEsize dsc)
  if entryValid e ∧ !entryLock e ∧ d.maxAge < fwd 8 (entryStamp e) d.vint.epoch then
    let k := ceilDiv (keyWidth (d.lrnSegs prof)) 8
    ((d.tblWrite dsc o (invalidated e)).inc bankVint 12).notify 3 desc prof k e
  else d

/-- One bucket of the sweep. -/
def Dev.ageBucket (d : Dev) : Dev :=
  match d.vint.sweep with
  | [] => d
  | (desc, b) :: rest =>
    let dsc := Tbl.get 0#256 d.prog.descs desc
    match d.agingProf desc with
    | none => { d with vint := { d.vint with sweep := rest } }
    | some j =>
      let d1 := { d with vint := { d.vint with sweep := if b + 1 < descBuckets dsc then (desc, b + 1) :: rest else rest } }
      (bucketSlots dsc b).foldl (fun e o => e.ageSlot desc j dsc o) (d1.engCount dsc (64 * b) 64)

/-- AGER_SWEEP_OPERATION (R181): a max_age of 0 stops ageing, and in cellar mode the ager stops (R184). -/
def execAgerSweepOperation (s : State) : Host.Outcome State Fault Refusal :=
  actIn pllT .agerSweepOperation s fun d => d.engOp 2 fun d =>
    (if d.spr.cellar ∨ d.maxAge = 0 then { d with vint := { d.vint with sweep := [] } } else d.ageBucket).sweepOver

end Sys2Proof.Machine
end

