-- ==== Sys2Proof/Machine/ManagerCore.lean ====
section
/-! DEFINITION. The manager's and workers' protocols: distributed launches, reports, reclaim, plans, snapshots, election
and loss (R77 to R80, R172, R320, R330 to R341). -/
namespace Sys2Proof.Machine

/-- Take the first message of a type, from a source where one is named, out of the inbox. -/
def Dev.takeInbox (d : Dev) (typ : Nat) (src : Option Nat) : Option (Nat × Bytes) × Dev :=
  match d.fab.inbox.find? fun m => m.1 = typ && (src.isNone || src = some m.2.1) with
  | none => (none, d)
  | some m => (some m.2, { d with fab := { d.fab with inbox := d.fab.inbox.erase m } })

/-- The workers of a manager: the peers and those that have reported, which a message reaches. -/
def Dev.workers (d : Dev) : List Nat :=
  ((d.peers ++ d.fab.reports.map (·.1)).eraseDups).filter fun v => v ≠ d.devId && (d.linkFor v).isSome

/-! ## Distributed launches (R77 to R80) -/

/-- The 32 bytes of an ARM message: the entry, with its index in the low 16 bits (log entry 24, DEDUCED). -/
def armBytes (i : Nat) (e : LEntry) : Bytes := be 32 (({ e with skipped := 0 } : LEntry).bits + i)

/-- Every worker has answered ACK: the entry is ARMED and confirmed (R79). -/
def Dev.confirmEntry (d : Dev) (i : Nat) : Dev :=
  d.modEntry i fun e => if e.st = .held ∧ e.waiting = [] ∧ !e.nacked then { e with st := .armed, confirmed := true } else e

/-- The manager sends ARM of a HELD entry to the workers (R77). -/
def Dev.distribute (d : Dev) (i : Nat) : Dev :=
  if !d.isManager then d
  else
  let ws := d.workers
  let d1 := d.modEntry i fun e => { e with waiting := ws, claim := d.fab.claim }
  let bs := armBytes i (d1.entry i)
  (ws.foldl (fun d w => d.sendMsg 1 w bs) d1).confirmEntry i

/-- The manager's entry with an index is HELD and waits for answers. -/
def Dev.awaits (d : Dev) (i : Nat) : Bool := d.isManager && 3584 ≤ i && (d.entry i).st = .held && (d.entry i).claim = d.fab.claim

/-- The payload of an ANSWER (Table 12.4). -/
def answerBytes (ok : Bool) (plan : Bool) (x reason : Nat) : Bytes :=
  be 1 (if ok then 1 else 2) ++ be 1 (b2n plan) ++ be 2 x ++ be 1 reason

/-- Why a worker answers NACK to an ARM (R78, Table 12.4); 0 when it does not. -/
def Dev.armRefused (d : Dev) (i : Nat) : Nat :=
  if !d.timeValid then 1
  else if i < 3584 ∨ 4096 ≤ i ∨ !(d.entry i).armable then 2
  else if d.src ≠ 3 then 3
  else 0

/-- A worker receives ARM: from the manager that it obeys now (R78, R331, R338). -/
def Dev.armReceived (d : Dev) (src : Nat) (bs : Bytes) : Dev :=
  let x := unbe (Machine.slice bs 0 32)
  let i := x % 2 ^ 16
  let old := d.entry i
  if !d.fromManager src then d.foreignMsg
  else if 3584 ≤ i ∧ i < 4096 ∧ old.st = .held ∧ old.claim = d.fab.obeyed then d.sendMsg 2 src (answerBytes true false i 0)
  else match d.armRefused i with
    | 0 => (d.setEntry i { LEntry.ofBits x with st := .held, origin := 2, claim := d.fab.obeyed }).sendMsg 2 src (answerBytes true false i 0)
    | r => d.sendMsg 2 src (answerBytes false false i r)

/-- A free distributed index, the lowest. -/
def Dev.freeDistributed (d : Dev) : Option Nat := ((List.range 512).map fun i => 3584 + i).find? fun i => (d.entry i).armable

/-- The manager arms the CALENDAR_SWITCH of a plan that every worker has acknowledged, at least 250 µs ahead; how far
beyond is free (R321, R338). -/
def Dev.armPlan (d : Dev) : Dev :=
  if !d.isManager ∨ d.fab.planWait ≠ [] ∨ d.fab.planNack ∨ d.fab.plan = [] then d
  else match d.freeDistributed with
    | none => d
    | some i =>
      let f := d.takeFree
      let t := d.time.now.nsTotal + 250000 + f.1
      let e : LEntry := { sec := t / 10 ^ 9 % 2 ^ 48, ns := t % 10 ^ 9, kind := 2, st := .held, origin := 2, target := 0xFFFFFFFF, arg := 3 }
      (f.2.setEntry i e).distribute i

/-- The manager receives an ANSWER (R79, R338). -/
def Dev.answerReceived (d : Dev) (src : Nat) (bs : Bytes) : Dev :=
  let ok : Bool := (bs.getD 0 0).toNat = 1
  let x := unbe (Machine.slice bs 2 2)
  if (bs.getD 1 0).toNat = 1 then
    if !d.isManager ∨ x ≠ d.fab.planGen ∨ !d.fab.planWait.contains src then d
    else
      let f := { d.fab with planWait := d.fab.planWait.filter (· ≠ src), planNack := d.fab.planNack || !ok }
      (d.setFab f).armPlan
  else if d.awaits x then
    (d.modEntry x fun e => { e with waiting := e.waiting.filter (· ≠ src), nacked := e.nacked || !ok }).confirmEntry x
  else d

/-- ARM is repeated to the workers that have not answered (Table 12.4). -/
def Dev.repeatArms (d : Dev) : Dev :=
  let held := d.lnch.entries.filter fun p => d.awaits p.1 && p.2.waiting ≠ []
  held.foldl (fun d p => p.2.waiting.foldl (fun d w => d.sendMsg 1 w (armBytes p.1 p.2)) d) d

/-- CONFIRM in the beacon of link `n` (R79, R331, R337). -/
def Dev.confirmReceived (d : Dev) (n : Nat) : Dev :=
  let x := d.link n
  if !x.bConfirm then d
  else if x.bRole = 2 ∧ d.fromManager x.nbrDev ∧ x.bClaim = d.fab.obeyed then
    (List.range 32).foldl (fun d b =>
      let i := 3584 + 32 * x.bGroup + b
      if x.bMask.testBit b ∧ (d.entry i).st = .held ∧ (d.entry i).origin = 2 then d.modEntry i fun e => { e with st := .armed, confirmed := true }
      else d) d
  else d.foreignMsg

/-- The instant minus 20 µs of a distributed entry passes without confirmation (R79). -/
def Dev.confirmDeadline (d : Dev) (i : Nat) : Dev :=
  let e := d.entry i
  if i < 3584 ∨ e.st ≠ .held ∨ e.origin ≠ 2 ∨ d.time.now.nsTotal + 20000 < e.instant then d
  else if d.awaits i then (d.modEntry i fun e => { e with st := .cancelled }).latchBit Reg.LNCH_STATUS 5
  else (d.discardEntry i).latchBit Reg.LNCH_STATUS 6

/-! ## Reports and reclaim (R172, R320, R341) -/

/-- The multiframe count of the device's own framing. -/
def Dev.ownMfc (d : Dev) : Nat := ((d.fab.links.map fun p => p.2.txFrame / 256).foldl max 0) % 2 ^ 24

/-- The run of multiframes in which a device has reported count 0, and the last of them by the device's own framing. -/
def Dev.zeroRun (d : Dev) (key : Nat) : Nat × Nat := Tbl.get (0, 0) d.fab.zeros key

/-- A report with count 0 goes on a run if it comes in the multiframe after the last one's, and begins a new run otherwise; any
other report ends it (R172). -/
def Dev.noteZero (d : Dev) (key : Nat) (zero : Bool) : Dev :=
  let z := d.zeroRun key
  let next : Bool := z.1 ≠ 0 && (d.ownMfc + 2 ^ 24 - z.2) % 2 ^ 24 ≤ 1
  { d with fab := { d.fab with
      zeros := Tbl.set (0, 0) d.fab.zeros key (if zero then (if next then z.1 + 1 else 1, d.ownMfc) else (0, 0)) } }

/-- Every worker has reported count 0 in two consecutive multiframes, and the device's own count was 0 throughout them: it has
stood at 0 at their three ends, with no packet of the vintage between (R172). -/
def Dev.allZero (d : Dev) : Bool := (d.workers.all fun w => 2 ≤ (d.zeroRun w).1) && 3 ≤ (d.zeroRun ownZero).1

/-- A report shows no packet of the manager's old vintage: its count for it is 0, or it is no longer old there (R172,
R173). -/
def Dev.reportZero (d : Dev) (r : Report) : Bool :=
  let v := (r.vints.getD 0 0).toNat
  let f := r.vints.getD 1 0
  match d.vint.old with
  | none => false
  | some o => if v / 16 ≠ d.vint.current then false else if f.getLsbD 7 ∧ v % 16 = o then f.getLsbD 6 else true

/-- The history of a source's demand, the last recompute_mf reports, newest first. -/
def Dev.noteDemand (d : Dev) (src : Nat) (r : Report) : Dev :=
  let h := (r.demand :: Tbl.get [] d.fab.history src).take d.recomputeMf
  { d with fab := { d.fab with history := Tbl.set [] d.fab.history src h, reports := Tbl.set {} d.fab.reports src r } }

/-- Each multiframe: a worker reports, a manager takes its own figures; the admitted cells are counted afresh. -/
def Dev.sendReport (d : Dev) : Dev :=
  let r := d.report
  let d1 := { d with fab := { d.fab with admitted := [] } }
  if d.isManager then (d1.noteDemand d.devId r).noteZero ownZero (match d.vint.old with
    | some o => d.inflight o = 0
    | none => false)
  else if d.fab.obeyed ≠ 0 then d1.sendMsg 4 (claimDev d.fab.obeyed) r.bytes
  else d1

/-- The manager records a REPORT; different serial numbers under one ID leave that ID out of every plan (R341). -/
def Dev.reportReceived (d : Dev) (src : Nat) (bs : Bytes) : Dev :=
  if !d.isManager then d
  else
    let r := Report.ofBytes bs
    let old : Report := Tbl.get {} d.fab.reports src
    let clash : Bool := old.serial ≠ [] && old.serial ≠ r.serial && !d.fab.dupIds.contains src
    let d1 := (d.noteDemand src r).noteZero src (d.reportZero r)
    if clash then
      ((d1.setFab { d1.fab with dupIds := src :: d1.fab.dupIds }).latchBit Reg.TRL_MGR_STATUS 11).logBit 0x70 2 11 0 []
    else d1

/-- The manager reclaims its old vintage and starts to flash RECLAIM for one multiframe (R172, R337). -/
def Dev.reclaimSend (d : Dev) : Dev :=
  match d.vint.old with
  | none => d
  | some o =>
    if d.isManager ∧ d.allZero ∧ d.inflight o = 0 then
      let d1 := d.reclaimOld
      (d1.fab.links.map (·.1)).foldl (fun d n => d.modLink n fun x => { x with flash := 256 })
        (d1.setFab { d1.fab with reclaim := some o, zeros := [] })
    else d

/-- RECLAIM in the beacon of link `n` (R172, R331). -/
def Dev.reclaimReceived (d : Dev) (n : Nat) : Dev :=
  let x := d.link n
  match x.bReclaim with
  | none => d
  | some v =>
    if x.bRole = 2 ∧ d.fromManager x.nbrDev ∧ x.bClaim = d.fab.obeyed then
      if d.vint.old = some v then d.reclaimOld else d
    else d.foreignMsg

/-! ## Plans (R321, R338) -/

/-- The devices that must acknowledge a plan: those that have reported; one known from a snapshot alone may be gone (R335,
R338). -/
def Dev.answering (d : Dev) (devs : List Nat) : List Nat := devs.filter fun i => i ≠ d.devId && Tbl.get [] d.fab.history i ≠ []

/-- The manager computes calendars, broadcasts the plan and writes its own pages; with no device to wait for, it arms the switch
(R321, R338). -/
def Dev.recompute (d : Dev) : Dev :=
  let devs := d.systemDevs
  if !d.isManager ∨ devs.length < 2 then d
  else
    let m := d.systemDemand devs
    let p := makePlan (nextGen d.fab.planGen) devs (d.systemTopo devs) m
    let dd := m.num.map fun x => (x.1, satN 32 (x.2 * 256 / m.den))
    let d1 := d.setFab { d.fab with
      planGen := p.gen, plan := p.bytes, planWait := d.answering devs, planNack := false,
      demandD := dd.filter fun x => x.2 ≠ 0, fromSnap := false, history := [] }
    ((d1.expandPlan p).broadcast 3 p.bytes).armPlan

/-- A worker expands a plan and answers: ACK once every page is written, and NACK otherwise (R338). -/
def Dev.planReceived (d : Dev) (src : Nat) (bs : Bytes) : Dev :=
  let p := Plan.ofBytes bs
  if !d.fromManager src then d.foreignMsg
  else if bs.length = planLen ∧ p.gen ≠ 0 then
    let d1 := d.expandPlan p
    d1.sendMsg 2 src (answerBytes (d1.planWritten p) true p.gen 0)
  else d.sendMsg 2 src (answerBytes false true p.gen 0)

/-! ## Snapshots (R335, R336) -/

def snapLen : Nat := 41688

/-- What a snapshot says of one device, 18 bytes. -/
def Dev.snapDev (d : Dev) (i : Nat) : Bytes :=
  let r : Report := if i = d.devId then d.report else Tbl.get {} d.fab.reports i
  padTo 18 (Machine.slice r.vints 0 8)

/-- The 41,688 bytes of a snapshot (log entry 22, DESIGN CHOICE). -/
def Dev.snapBytes (d : Dev) : Bytes :=
  serialAll ++ padTo planLen (d.fab.plan.take planLen) ++
    ((List.range 4096).flatMap fun k => be 4 (Tbl.get 0 d.fab.demandD k)) ++ (List.range 32).flatMap d.snapDev

/-- The manager broadcasts a snapshot. -/
def Dev.snapSend (d : Dev) : Dev := if d.isManager then d.broadcast 5 d.snapBytes else d

/-- Region 3 of a partition is the racking region (Table 13.3). -/
def rackRegion : Nat := 3

/-- The multiframe count at which a snapshot from `src` was sent: snapshots leave at multiples of snap_mf, so it is the multiple before
the count that the sender's frames carry now; free where no link leads to the sender (log entry 124, DEDUCED). -/
def Dev.sentAt (d : Dev) (src : Nat) : Nat × Dev :=
  match d.linkToPeer src with
  | some n => let s := max 1 (fld (d.reg Reg.TRL_MGR_CFG) 7 0); ((d.link n).rxMfc / s * s, d)
  | none => let f := d.takeFree; (f.1 % 2 ^ 24, f.2)

/-- A standby candidate stores a complete snapshot in its racking region (R336); at its first line (log entry 124, DESIGN
CHOICE). -/
def Dev.snapReceived (d : Dev) (src : Nat) (bs : Bytes) : Dev :=
  if d.candidate ∧ d.fab.role = 1 ∧ bs.length = snapLen ∧ !d.tableLost then
    let m := d.sentAt src
    (((m.2.dramWrite rackRegion 0 bs).setFab { m.2.fab with snapshot := some m.1 }).inc bankTrl 20).latchBit Reg.TRL_MGR_STATUS 9
  else d

/-- The plan, demand and vintage states of a snapshot become the manager's own (R335). -/
def Fabric.loadSnap (f : Fabric) (bs : Bytes) : Fabric :=
  let plan := Machine.slice bs 16 planLen
  let dd := (List.range 4096).filterMap fun k =>
    let v := unbe (Machine.slice bs (16 + planLen + 4 * k) 4)
    if v = 0 then none else some (k, v)
  let rs := (List.range 32).filterMap fun i =>
    let r : Report := { vints := Machine.slice bs (16 + planLen + 16384 + 18 * i) 8 }
    if (plan.getD (planTopo + 512 * i) 0) = 0#8 ∧ unle r.vints = 0 then none else some (i, r)
  { f with plan := plan, planGen := unbe (slice plan 0 2), demandD := dd, reports := rs, fromSnap := true }

/-- The greatest generation of the device's active transmit pages. -/
def Dev.ownGen (d : Dev) : Nat := (d.fab.links.map fun p => d.activeGen p.1 0).foldl max 0

/-! ## Election and loss (R330 to R335) -/

/-- A candidate reaches ACTIVE (R335): it obeys itself. -/
def Dev.becomeActive (d : Dev) : Dev :=
  let f0 := { d.fab with history := [], zeros := [], planWait := [], planNack := false, timeLink := none, reports := [] }
  let f1 := match d.heldSnap with
    | some _ => f0.loadSnap (d.dramRead rackRegion 0 snapLen)
    | none => { f0 with planGen := d.ownGen, plan := [], demandD := [], fromSnap := false }
  let d1 := (((d.setFab f1).noteIndirect).setRole 2).setObeyed d.ownClaim
  let src := fld (d.reg Reg.TRL_MGR_CFG) 18 16
  if 3 ≤ src then d1
  else if d1.mgmt.serving then d1.ctrlWrite (setFld (d1.reg Reg.TIME_CTRL) 2 0 src)
  else { d1 with fab := { d1.fab with rootPend := some src } }

/-- elect_mf multiframes pass in ELECTING (Table 12.1); they are counted once forwarding has started (R330). -/
def Dev.elected (d : Dev) : Dev := if d.candidate ∧ d.vint.started ∧ d.fab.role = 0 then d.becomeActive else d

/-- The manager is lost (R333, R334): nothing is obeyed, a standby candidate claims, and time goes into holdover. -/
def Dev.managerLost (d : Dev) : Dev :=
  if d.fab.obeyed = 0 ∨ d.isManager then d
  else
    let e := claimEpoch d.fab.obeyed
    let cand : Bool := d.candidate && d.fab.role = 1
    let f := { d.fab with obeyed := 0, timeLink := none, role := if cand then 0 else d.fab.role,
                          roleOn := cand || d.fab.roleOn
                          claim := if cand then (e + 1) % 2048 * 32 + d.devId else d.fab.claim }
    let d1 := (((d.setFab f).inc bankTrl 19).latchBit Reg.TRL_MGR_STATUS 8).logBit 0x70 2 8 0 []
    d1.setTimeLink none |> fun d2 => if d2.src = 3 then d2.ifServing Dev.sourceLoss else d2

end Sys2Proof.Machine
end

