-- ==== Sys2Proof/Machine/LaunchOps.lean ====
section
/-! DEFINITION. Arming, cancelling and reading launch entries by any path, and steps of device time with all that follows
them (R43, R59 to R64, R72, R73, R249, R298, R389, R537). -/
namespace Sys2Proof.Machine

/-! ## LNCH_CMD (R62 to R64) -/

/-- An index that the caller may not arm or cancel (R59, R64); `fw` says that firmware asks. -/
def Dev.lnchIndexBad (d : Dev) (i : Nat) (fw : Bool) : Bool :=
  match idxClass i with
  | 0 => false
  | 1 => !fw
  | _ => !d.isManager

/-- A distributed instant less than 250 µs ahead (R64, R77). -/
def Dev.tooNear (d : Dev) (e : LEntry) : Bool := decide (e.instant * nsUnit < d.time.now.units + 250000 * nsUnit)

/-- The result of an ARM before it changes anything, in the order of R537. -/
def Dev.armFails (d : Dev) (i : Nat) (e : LEntry) (fw : Bool) : Nat :=
  if d.lnchIndexBad i fw then 2
  else if !(d.entry i).armable then 1
  else if !kindOk e.kind then 3
  else if 10 ^ 9 ≤ e.ns ∨ (3584 ≤ i ∧ d.tooNear e) then 4
  else 0

/-- Write an entry: HELD and sent to the workers when it is distributed (R77), else ARMED. -/
def Dev.armEntry (d : Dev) (i : Nat) (e : LEntry) (fw : Bool) : Dev :=
  if 3584 ≤ i then (d.setEntry i { e with st := .held, origin := 2 }).distribute i
  else d.setEntry i { e with st := .armed, origin := b2n fw }

/-- ARM with the 256 bits `x`. -/
def Dev.lnchArm (d : Dev) (i x : Nat) (fw : Bool) : Nat × Dev :=
  let e := LEntry.ofBits x
  match d.armFails i e fw with
  | 0 => (0, d.armEntry i e fw)
  | r => (r, d)

/-- The result of a CANCEL (R64, R537). -/
def Dev.cancelFails (d : Dev) (i : Nat) (fw : Bool) : Nat :=
  let e := d.entry i
  if d.lnchIndexBad i fw then 2
  else match e.st with
    | .free => 6
    | .discarded => 6
    | .cancelled => 6
    | .dispatched => 5
    | .done => 5
    | .doneLate => 5
    | _ => if e.confirmed then 5 else 0

/-- CANCEL. -/
def Dev.lnchCancel (d : Dev) (i : Nat) (fw : Bool) : Nat × Dev :=
  match d.cancelFails i fw with
  | 0 => (0, d.modEntry i fun e => { e with st := .cancelled, due := false })
  | r => (r, d)

/-- A write of LNCH_CMD: op 1 ARM, 2 CANCEL, 3 READ (Table 2.10); the management cores ask for firmware (R59). -/
def Dev.lnchCmd (d : Dev) (p : Path) (op i : Nat) : Dev :=
  match op with
  | 1 => let r := d.lnchArm i d.lnchStage (p == .mgmt); r.2.lnchResult r.1
  | 2 => let r := d.lnchCancel i (p == .mgmt); r.2.lnchResult r.1
  | 3 => (d.setLnchStage (d.entry i).bits).lnchResult 0
  | _ => d

/-! ## LAUNCH entries of command rings (R389) -/

def SqEnt.lop (e : SqEnt) : Nat := (e.bytes.getD 8 0).toNat
def SqEnt.lidx (e : SqEnt) : Nat := unle (Machine.slice e.bytes 10 2)

/-- A LAUNCH entry that Table 14.4 or R389 does not allow. -/
def SqEnt.lbad (e : SqEnt) : Bool := e.lop = 0 || 3 < e.lop || (if e.lop = 1 then e.units ≠ 2 else e.units ≠ 1)

/-- The lowest command ring whose front entry is a LAUNCH of this operation and index; an entry that is bad, or names an
index beyond the list, is met by any row. -/
def Dev.launchEnt (d : Dev) (op i : Nat) : Option (Nat × SqEnt) :=
  d.host.sqs.findSome? fun p =>
    if d.sqKind p.1 ≠ 2 || !d.sqRuns p.1 then none
    else match d.frontEnt p.1 with
      | some e => if e.op = 0x12 && (e.lbad || 4096 ≤ e.lidx || (e.lop = op && e.lidx = i)) then some (p.1, e) else none
      | none => none

/-- A LAUNCH ends: its result code is in the completion, and one other than OK sets cmd_refused. -/
def Dev.launchEnds (d : Dev) (q : Nat) (e : SqEnt) (r : Nat) : Dev :=
  (if r = 0 then d else d.latchBit Reg.LNCH_STATUS 1).endEnt q e 0 0 r false

/-- A LAUNCH entry is handed to the launch engine. -/
def Dev.launchRun (d : Dev) (q : Nat) (e : SqEnt) : Dev :=
  if e.lbad then d.endEnt q e 4 0 0 false
  else if 4096 ≤ e.lidx then d.launchEnds q e 2
  else match e.lop with
    | 1 => let r := d.lnchArm e.lidx (unle (Machine.slice e.bytes 32 32)) false; r.2.launchEnds q e r.1
    | 2 => let r := d.lnchCancel e.lidx false; r.2.launchEnds q e r.1
    | _ => (d.dmaOut (unle (Machine.slice e.bytes 16 8)) (le 32 (d.entry e.lidx).bits)).launchEnds q e 0

/-- The form of the three operations: a LAUNCH entry of a command ring, or a write of LNCH_CMD by another path. -/
def actLaunch (p : Path) (op i : Nat) (c : Instr) (s : State) : Host.Outcome State Fault Refusal :=
  if p = .ring then
    act s fun d => d.across [pllHost, pllTime] c fun d =>
      match d.launchEnt op i with
      | some (q, e) => d.launchRun q e
      | none => d
  else actReg p Reg.LNCH_CMD c s fun d => d.lnchCmd p op i

/-! ## Steps of device time (R43, R72, R73, R249, R298) -/

/-- TIME_STEP_CMD op 1 or 2: device time, its validity with the gates, and the links. -/
def Dev.stepTime (d : Dev) (add : Bool) : Dev :=
  let d1 := Dev.validFollow d.timeValid (d.timeStep add)
  match d.stepTarget add with
  | none => d1
  | some t => d1.linksStepped ((t.units : Int) - d.time.now.units)

/-- A write of TIME_STEP_CMD. -/
def Dev.stepCmd (d : Dev) (v : Word) : Dev :=
  match fld v 1 0 with
  | 1 => d.stepTime false
  | 2 => d.stepTime true
  | _ => d

end Sys2Proof.Machine
end

