-- ==== Sys2Proof/Machine/Crypto.lean ====
section
/-! DEFINITION. The functions that authorise a clear of the event recorder (R453): SHA-384 of FIPS 180-4, and the verification
of an ECDSA signature over P-384 of FIPS 186-4, which the spec names (log entry 129, PRESUMED). -/
namespace Sys2Proof.Machine

/-! ## SHA-384 -/

/-- Constants of the rounds, first half and second half. -/
def shaK1 : List (BitVec 64) :=
  [0x428a2f98d728ae22, 0x7137449123ef65cd, 0xb5c0fbcfec4d3b2f, 0xe9b5dba58189dbbc, 0x3956c25bf348b538,
   0x59f111f1b605d019, 0x923f82a4af194f9b, 0xab1c5ed5da6d8118, 0xd807aa98a3030242, 0x12835b0145706fbe,
   0x243185be4ee4b28c, 0x550c7dc3d5ffb4e2, 0x72be5d74f27b896f, 0x80deb1fe3b1696b1, 0x9bdc06a725c71235,
   0xc19bf174cf692694, 0xe49b69c19ef14ad2, 0xefbe4786384f25e3, 0x0fc19dc68b8cd5b5, 0x240ca1cc77ac9c65,
   0x2de92c6f592b0275, 0x4a7484aa6ea6e483, 0x5cb0a9dcbd41fbd4, 0x76f988da831153b5, 0x983e5152ee66dfab,
   0xa831c66d2db43210, 0xb00327c898fb213f, 0xbf597fc7beef0ee4, 0xc6e00bf33da88fc2, 0xd5a79147930aa725,
   0x06ca6351e003826f, 0x142929670a0e6e70, 0x27b70a8546d22ffc, 0x2e1b21385c26c926, 0x4d2c6dfc5ac42aed,
   0x53380d139d95b3df, 0x650a73548baf63de, 0x766a0abb3c77b2a8, 0x81c2c92e47edaee6, 0x92722c851482353b]

def shaK2 : List (BitVec 64) :=
  [0xa2bfe8a14cf10364, 0xa81a664bbc423001, 0xc24b8b70d0f89791, 0xc76c51a30654be30, 0xd192e819d6ef5218,
   0xd69906245565a910, 0xf40e35855771202a, 0x106aa07032bbd1b8, 0x19a4c116b8d2d0c8, 0x1e376c085141ab53,
   0x2748774cdf8eeb99, 0x34b0bcb5e19b48a8, 0x391c0cb3c5c95a63, 0x4ed8aa4ae3418acb, 0x5b9cca4f7763e373,
   0x682e6ff3d6b2b8a3, 0x748f82ee5defb2fc, 0x78a5636f43172f60, 0x84c87814a1f0ab72, 0x8cc702081a6439ec,
   0x90befffa23631e28, 0xa4506cebde82bde9, 0xbef9a3f7b2c67915, 0xc67178f2e372532b, 0xca273eceea26619c,
   0xd186b8c721c0c207, 0xeada7dd6cde0eb1e, 0xf57d4f7fee6ed178, 0x06f067aa72176fba, 0x0a637dc5a2c898a6,
   0x113f9804bef90dae, 0x1b710b35131c471b, 0x28db77f523047d84, 0x32caab7b40c72493, 0x3c9ebe0a15c9bebc,
   0x431d67c49c100d4c, 0x4cc5d4becb3e42b6, 0x597f299cfc657e2a, 0x5fcb6fab3ad6faec, 0x6c44198c4a475817]

/-- The eight working words. -/
structure Sha where
  a : BitVec 64
  b : BitVec 64
  c : BitVec 64
  d : BitVec 64
  e : BitVec 64
  f : BitVec 64
  g : BitVec 64
  h : BitVec 64
deriving DecidableEq, Repr

/-- The initial value of SHA-384. -/
def shaInit : Sha :=
  { a := 0xcbbb9d5dc1059ed8, b := 0x629a292a367cd507, c := 0x9159015a3070dd17, d := 0x152fecd8f70e5939,
    e := 0x67332667ffc00b31, f := 0x8eb44a8768581511, g := 0xdb0c2e0d64f98fa7, h := 0x47b5481dbefa4fa4 }

/-- The next word of a schedule, of which the newest stands first. -/
def shaNext (ws : List (BitVec 64)) : List (BitVec 64) :=
  let x := ws.getD 14 0
  let y := ws.getD 1 0
  let s0 := x.rotateRight 1 ^^^ x.rotateRight 8 ^^^ (x >>> 7)
  let s1 := y.rotateRight 19 ^^^ y.rotateRight 61 ^^^ (y >>> 6)
  (s1 + ws.getD 6 0 + s0 + ws.getD 15 0) :: ws

/-- A schedule with `n` more words. -/
def shaExtend : Nat → List (BitVec 64) → List (BitVec 64)
  | 0, ws => ws
  | n + 1, ws => shaExtend n (shaNext ws)

/-- One round. -/
def Sha.round (s : Sha) (kw : BitVec 64 × BitVec 64) : Sha :=
  let s1 := s.e.rotateRight 14 ^^^ s.e.rotateRight 18 ^^^ s.e.rotateRight 41
  let ch := (s.e &&& s.f) ^^^ (~~~s.e &&& s.g)
  let t1 := s.h + s1 + ch + kw.1 + kw.2
  let s0 := s.a.rotateRight 28 ^^^ s.a.rotateRight 34 ^^^ s.a.rotateRight 39
  let maj := (s.a &&& s.b) ^^^ (s.a &&& s.c) ^^^ (s.b &&& s.c)
  { a := t1 + (s0 + maj), b := s.a, c := s.b, d := s.c, e := s.d + t1, f := s.e, g := s.f, h := s.g }

/-- The 64-bit words of bytes, most significant byte first. -/
def shaWords (n : Nat) (bs : Bytes) : List (BitVec 64) := (List.range n).map fun i => BitVec.ofNat 64 (unbe (Machine.slice bs (8 * i) 8))

/-- One block of 128 bytes. -/
def Sha.block (s : Sha) (bs : Bytes) : Sha :=
  let w := (shaExtend 64 (shaWords 16 bs).reverse).reverse
  let r := ((shaK1 ++ shaK2).zip w).foldl Sha.round s
  { a := s.a + r.a, b := s.b + r.b, c := s.c + r.c, d := s.d + r.d, e := s.e + r.e, f := s.f + r.f, g := s.g + r.g, h := s.h + r.h }

/-- SHA-384 of a message: 48 bytes. -/
def sha384 (m : Bytes) : Bytes :=
  let zeros := (239 - m.length % 128) % 128
  let x := m ++ [0x80#8] ++ List.replicate zeros 0#8 ++ be 16 (8 * m.length)
  let r := ((List.range (x.length / 128)).map fun i => Machine.slice x (128 * i) 128).foldl Sha.block shaInit
  [r.a, r.b, r.c, r.d, r.e, r.f].flatMap fun v => be 8 v.toNat

/-! ## ECDSA over P-384 -/

/-- The prime, the coefficient b, the order and the base point of the curve y² = x³ − 3x + b. -/
def ecP : Nat := 2 ^ 384 - 2 ^ 128 - 2 ^ 96 + 2 ^ 32 - 1
def ecB : Nat := 0xb3312fa7e23ee7e4988e056be3f82d19181d9c6efe8141120314088f5013875ac656398d8a2ed19d2a85c8edd3ec2aef
def ecN : Nat := 0xffffffffffffffffffffffffffffffffffffffffffffffffc7634d81f4372ddf581a0db248b0a77aecec196accc52973
def ecG : Nat × Nat :=
  (0xaa87ca22be8b05378eb1c71ef320ad746e1d3b628ba79b9859f741e082542a385502f25dbf55296c3a545e3872760ab7,
   0x3617de4a96262c6f5d9e98bf9292dc29f8f41dbd289a147ce9da3113b5f0b8c00a60b1ce1d7e819d7a431d7c90ea0e5f)

/-- `b` to the power that the low `k` bits of `e` spell, modulo `m`. -/
def powMod (m b : Nat) : (k e : Nat) → Nat
  | 0, _ => 1 % m
  | k + 1, e =>
    let h := powMod m b k (e / 2)
    if e % 2 = 1 then h * h % m * b % m else h * h % m

/-- The inverse modulo a prime below 2³⁸⁴. -/
def invMod (m x : Nat) : Nat := powMod m x 384 (m - 2)

/-- The sum of two points; the point at infinity is none. -/
def ecAdd (p q : Option (Nat × Nat)) : Option (Nat × Nat) :=
  match p, q with
  | none, _ => q
  | _, none => p
  | some (x1, y1), some (x2, y2) =>
    if x1 = x2 ∧ (y1 + y2) % ecP = 0 then none
    else
      let l := if x1 = x2 then (3 * x1 * x1 + ecP - 3) * invMod ecP (2 * y1) % ecP
        else (y2 + ecP - y1) * invMod ecP (x2 + ecP - x1) % ecP
      let x3 := (l * l + 2 * ecP - x1 - x2) % ecP
      some (x3, (l * (x1 + ecP - x3) + ecP - y1) % ecP)

/-- A point taken as many times as the low `k` bits of `e` spell. -/
def ecMul (p : Nat × Nat) : (k e : Nat) → Option (Nat × Nat)
  | 0, _ => none
  | k + 1, e =>
    let h := ecMul p k (e / 2)
    if e % 2 = 1 then ecAdd (ecAdd h h) (some p) else ecAdd h h

/-- A public key of 97 bytes, an uncompressed SEC1 point, that lies on the curve. -/
def ecKey (bs : Bytes) : Option (Nat × Nat) :=
  let x := unbe (Machine.slice bs 1 48)
  let y := unbe (Machine.slice bs 49 48)
  if bs.getD 0 0 = 4#8 ∧ x < ecP ∧ y < ecP ∧ y * y % ecP = (x * x * x + (ecP - 3) * x + ecB) % ecP then some (x, y) else none

/-- The signature r‖s of 96 bytes over a message holds under a key. -/
def ecdsaHolds (key sig msg : Bytes) : Bool :=
  let r := unbe (Machine.slice sig 0 48)
  let s := unbe (Machine.slice sig 48 48)
  match ecKey key with
  | none => false
  | some q =>
    if r = 0 ∨ ecN ≤ r ∨ s = 0 ∨ ecN ≤ s then false
    else
      let w := invMod ecN s
      let z := unbe (sha384 msg)
      match ecAdd (ecMul ecG 384 (z * w % ecN)) (ecMul q 384 (r * w % ecN)) with
      | none => false
      | some x => x.1 % ecN == r

end Sys2Proof.Machine
end

