-- ==== Sys2Proof/Machine/Nvm.lean ====
section
/-! DEFINITION. The NVM flash: reads, erases and programs, the boot header ring, the event log, and the operating-time
store (R446 to R451, R474, R475, R487, R488). -/
namespace Sys2Proof.Machine

/-! ## The flash (R474) -/

def nvSlot (s : Nat) : Nat := 0x00010000 + 0x02000000 * s
def nvHalf (h : Nat) : Nat := 0x04010000 + 0x04000000 * h
def nvCal : Nat := 0x0C010000
def nvEvents : Nat := 0x0C110000
def nvOptime : Nat := 0x0C910000
/-- The device neither reads nor writes flash above this address. -/
def nvEnd : Nat := 0x0C920000

/-- `n` bytes of the flash. -/
def Dev.nvRead (d : Dev) (a n : Nat) : Bytes := Tbl.getRun 0xFF#8 d.nvm a n

/-- Erase `n` bytes: they read 0xFF. -/
def Dev.nvErase (d : Dev) (a n : Nat) : Dev := { d with nvm := d.nvm.filter fun c => c.1 < a || a + n ≤ c.1 }

/-- Program bytes: a program clears bits and sets none. -/
def Dev.nvProgram (d : Dev) (a : Nat) (bs : Bytes) : Dev :=
  let new := (bs.zip (d.nvRead a bs.length)).map fun p => p.1 &&& p.2
  { d with nvm := Tbl.setRun 0xFF#8 d.nvm a new }

/-- Bytes that an erase or program that failed leaves: free values. -/
def Dev.nvSpoil (d : Dev) (a n : Nat) : Dev :=
  let f := d.takeFree
  { f.2 with nvm := Tbl.setRun 0xFF#8 f.2.nvm a (le n f.1) }

/-! ## The boot header (R475) -/

/-- The magic of a boot header record. -/
def hdrMagic : Bytes := [90#8, 66#8, 72#8, 82#8]

/-- The record in slot `i`, when it is valid. -/
def Dev.hdrAt (d : Dev) (i : Nat) : Option Bytes :=
  let r := d.nvRead (256 * i) 256
  if Machine.slice r 0 4 = hdrMagic ∧ Machine.slice r 252 4 = wordBytes (crc32c (r.take 252)) then some r else none

def hdrSeq (r : Bytes) : Nat := unle (Machine.slice r 4 4)

/-- The newest valid record and its slot. -/
def Dev.hdrNewest (d : Dev) : Option (Nat × Bytes) :=
  (List.range 256).foldl (fun best i =>
    match d.hdrAt i, best with
    | none, _ => best
    | some r, none => some (i, r)
    | some r, some b => if hdrSeq b.2 < hdrSeq r then some (i, r) else best) none

/-- What holds while no slot has a valid record: slot A active and committed, slot B empty, half 0 (R472). -/
def hdrBlank : Bytes := hdrMagic ++ List.replicate 5 0#8 ++ [1#8] ++ List.replicate 246 0#8

def hdrActive (r : Bytes) : Nat := (r.getD 8 0).toNat % 2
def hdrState (r : Bytes) (s : Nat) : Nat := (r.getD (9 + s) 0).toNat
def hdrCfg (r : Bytes) : Nat := (r.getD 11 0).toNat % 2
def hdrVersion (r : Bytes) (s : Nat) : Nat := unle (Machine.slice r (16 + 8 * s) 8)

def Dev.hdr (d : Dev) : Bytes :=
  match d.hdrNewest with
  | some p => p.2
  | none => hdrBlank

/-- The slot that the next record goes to. -/
def Dev.hdrNext (d : Dev) : Nat :=
  match d.hdrNewest with
  | some p => (p.1 + 1) % 256
  | none => 0

/-- Firmware writes a record: the newest one with its changes, its seq one above (R475). -/
def Dev.hdrWrite (d : Dev) (f : Bytes → Bytes) : Dev :=
  let i := d.hdrNext
  let r := overwrite (f d.hdr) 4 (le 4 (hdrSeq d.hdr + 1))
  let whole := r.take 252 ++ wordBytes (crc32c (r.take 252))
  let d1 := if i % 16 = 0 then d.nvErase (256 * i) 4096 else d
  d1.nvProgram (256 * i) whole

/-- Change of a record: slot `s` is active. -/
def hdrSetActive (s : Nat) (r : Bytes) : Bytes := overwrite r 8 [BitVec.ofNat 8 s]
/-- Change of a record: the state of slot `s`: 0 EMPTY, 1 COMMITTED, 2 TRIAL. -/
def hdrSetState (s x : Nat) (r : Bytes) : Bytes := overwrite r (9 + s) [BitVec.ofNat 8 x]
/-- Change of a record: the version of the image in slot `s`. -/
def hdrSetVersion (s v : Nat) (r : Bytes) : Bytes := overwrite r (16 + 8 * s) (le 8 v)
/-- Change of a record: the selected configuration half. -/
def hdrSetCfg (h : Nat) (r : Bytes) : Bytes := overwrite r 11 [BitVec.ofNat 8 h]

/-! ## Operating time (R487, R488) -/

/-- GLB_OPTIME: the store's part and the AONCLK counter, once firmware has added them. -/
def Dev.optime (d : Dev) : Nat := satN 32 (d.mgmt.opBase + d.mgmt.opSecs)

/-- Record `i` of the store, when it is valid. -/
def Dev.opAt (d : Dev) (i : Nat) : Option Bytes :=
  let r := d.nvRead (nvOptime + 16 * i) 16
  if Machine.slice r 12 4 = wordBytes (crc32c (r.take 12)) then some r else none

/-- The newest valid record of the store and its slot. -/
def Dev.opNewest (d : Dev) : Option (Nat × Bytes) :=
  (List.range 4096).foldl (fun best i =>
    match d.opAt i, best with
    | none, _ => best
    | some r, none => some (i, r)
    | some r, some b => if unle (b.2.take 4) < unle (r.take 4) then some (i, r) else best) none

/-- The slot of the next record. -/
def Dev.opNext (d : Dev) : Nat :=
  match d.opNewest with
  | some p => (p.1 + 1) % 4096
  | none => 0

/-- The sequence number of the next record: the first of an empty store is 1. -/
def Dev.opSeq (d : Dev) : Nat :=
  match d.opNewest with
  | some p => unle (p.2.take 4) + 1
  | none => 1

/-- Firmware writes an operating-time record; the first of a power-on is marked so. -/
def Dev.opWrite (d : Dev) : Dev :=
  let a := nvOptime + 16 * d.opNext
  let r := le 4 d.opSeq ++ le 4 d.optime ++ le 3 d.mgmt.pcc ++ le 1 (b2n !d.mgmt.opRecord)
  let d1 := if d.opNext % 256 = 0 then d.nvErase a 4096 else d
  let d2 := d1.nvProgram a (r ++ wordBytes (crc32c r))
  { d2 with mgmt := { d2.mgmt with opRecord := true } }

/-! ## The event log (R446 to R451) -/

/-- Slots of the recorder. -/
def eventSlots : Nat := 131072

/-- An event record (Table 16.3). -/
def Dev.eventRecord (d : Dev) (k : Nat) (e : Event) : Bytes :=
  let head := le 4 k ++ le 4 d.optime ++ le 3 d.mgmt.pcc ++ le 1 e.src ++ le 2 e.code
  let rest := le 4 e.ns ++ le 4 e.sec ++ (padTo 40 e.data).take 40
  head ++ le 2 (crc16 (head ++ rest)).toNat ++ rest

/-- Write one event as the next record; a full recorder discards it, which counts as an event lost in the register too (R450,
Table 16.6; log entry 128, DEDUCED). -/
def Dev.eventStore (d : Dev) (e : Event) : Dev :=
  if d.mgmt.full then (d.setReg Reg.MGMT_EVT_LOST (d.reg Reg.MGMT_EVT_LOST + 1#32)).inc bankMgmt 1
  else
    let k := d.mgmt.nextSlot
    let d1 := (d.nvProgram (nvEvents + 64 * k) (d.eventRecord k e)).inc bankMgmt 0
    let full : Bool := k == eventSlots - 1
    let d2 := { d1 with mgmt := { d1.mgmt with nextSlot := k + 1, full := full } }
    if full then d2.latchBit Reg.MGMT_STATUS 12 else d2

/-- The record in slot `k`, as read. -/
def Dev.eventAt (d : Dev) (k : Nat) : Bytes := d.nvRead (nvEvents + 64 * k) 64

/-- A slot holds a torn record: not erased, and its crc fails. -/
def tornRecord (r : Bytes) : Bool :=
  r.any (· != 0xFF#8) && unle (Machine.slice r 14 2) != (crc16 (r.take 14 ++ r.drop 16)).toNat

/-- One past the last slot that is not erased: the highest listed byte of the region gives it. -/
def Dev.eventEnd (d : Dev) : Nat :=
  (d.nvm.filter fun c => nvEvents ≤ c.1 && c.1 < nvEvents + 64 * eventSlots).foldl (fun m c => max m ((c.1 - nvEvents) / 64 + 1)) 0

/-- At start-up the firmware finds the next slot and counts the torn ones (R449). -/
def Dev.eventScan (d : Dev) : Dev :=
  let n := d.eventEnd
  let torn := ((List.range n).filter fun k => tornRecord (d.eventAt k)).length
  let d1 := d.bump bankMgmt 2 torn
  { d1 with mgmt := { d1.mgmt with nextSlot := n, full := n == eventSlots } }

/-- Source of the management window's events (R448). -/
def srcMgmt : Nat := 0xA0

/-- An event of MGMT_STATUS written as a record at once. -/
def Dev.mgmtRecord (d : Dev) (b : Nat) (data : Bytes) : Dev :=
  d.eventStore { src := srcMgmt, code := b, sec := d.time.now.sec, ns := d.time.now.ns, data := le 2 0 ++ data }

/-- A clear that was interrupted has not taken effect: firmware appends after the last slot that is not erased, and records
that slot (R455). -/
def Dev.clearCut (d : Dev) : Dev :=
  match d.mgmt.clearing with
  | none => d
  | some _ =>
    let f := d.takeFree
    let keep := 64 * (f.1 % (64 * eventSlots / 4096) + 1)
    let d1 := f.2.nvErase (nvEvents + 64 * keep) (64 * eventSlots - 64 * keep)
    let n := d1.eventEnd
    let d2 := { d1 with mgmt := { d1.mgmt with clearing := none, nextSlot := n, full := n == eventSlots } }
    (d2.latchBit Reg.MGMT_STATUS 17).mgmtRecord 17 (le 4 (n - 1))

end Sys2Proof.Machine
end

