-- ==== Sys2Proof/Machine/MgmtCore.lean ====
section
/-! DEFINITION. The management subsystem: mailbox requests and their ends, restarts and trials, and the registers that show
its state (R433 to R465). -/
namespace Sys2Proof.Machine

/-! ## Registers that show typed state (Table 16.6) -/

def Dev.fwStateWord (d : Dev) : Word :=
  let f := d.mgmt.fw
  let left := if f.state = 3 then 600 - min 600 ((d.time.tsc - f.trialSince) / 10 ^ 9) else 0
  wd (f.active * 2 ^ 31 + f.state * 2 ^ 28 + f.lastResult * 2 ^ 24 + f.block * 2 ^ 15 + left)

def Dev.fuseWord (d : Dev) : Word := wd (b2n d.mgmt.ownerHash.isSome * 2 ^ 31 + d.mgmt.fuseCount)

def Dev.evtInfoWord (d : Dev) : Word :=
  wd (b2n d.mgmt.full * 2 ^ 31 + b2n d.mgmt.clearing.isSome * 2 ^ 30 + d.mgmt.nextSlot)

def Dev.tempWord (d : Dev) (i : Nat) : Word :=
  wd (b2n d.mgmt.sampled * 2 ^ 31 + b2n d.mgmt.trimmed * 2 ^ 30 + (Tbl.get 0#12 d.mgmt.temps i).toNat)

def Dev.rail (d : Dev) (r : Nat) : Rail := Tbl.get {} d.mgmt.rails r

def Dev.vmonWord (d : Dev) (r : Nat) : Word :=
  let x := d.rail r
  wd (b2n x.low * 2 ^ 17 + b2n x.high * 2 ^ 16 + x.mv % 2 ^ 16)

def Dev.mbxCmdWord (d : Dev) : Word := wd (b2n d.mgmt.mbxBusy * 2 ^ 31 + d.mgmt.mbxResult * 2 ^ 24)

def Dev.mbxLenWord (d : Dev) : Word := setFld (d.reg Reg.MGMT_MBX_LEN) 28 16 d.mgmt.respLen

/-! ## The mailbox (R436 to R438) -/

/-- Result codes of Table 16.2. -/
def mOk : Nat := 0
def mBadReq : Nat := 1
def mBadArg : Nat := 2
def mBusy : Nat := 3
def mLocked : Nat := 4
def mNoOwner : Nat := 5
def mAuthFail : Nat := 6
def mNoCard : Nat := 7
def mNoFile : Nat := 8
def mFsError : Nat := 9
def mBadImage : Nat := 10
def mBlockCrc : Nat := 11
def mSignature : Nat := 12
def mRollback : Nat := 13
def mNvmError : Nat := 14
def mRestarted : Nat := 15

/-- A source as a number: registers, console, SMBus, then the command rings. -/
def srcCode : MbxSrc → Nat
  | .regs => 0
  | .console => 1
  | .smbus => 2
  | .ring q => 3 + q

/-- Requests that a source may make (R445). -/
def mbxAllowed (src req : Nat) : Bool :=
  match src with
  | 1 => [1, 2, 3, 6].contains req
  | 2 => req = 1 || req = 2
  | _ => (1 ≤ req && req ≤ 10) || req = 0x10

/-- The MGMT entry at the front of a command ring that waits for service. -/
def Dev.mgmtEnt (d : Dev) (q : Nat) : Option SqEnt :=
  if d.sqKind q ≠ 2 ∨ !d.sqRuns q then none
  else match d.frontEnt q with
    | some e => if e.op = 0x13 then some e else none
    | none => none

def SqEnt.mgmtReq (e : SqEnt) : Nat := unle (Machine.slice e.bytes 16 2)
def SqEnt.respAddr (e : SqEnt) : Nat := unle (Machine.slice e.bytes 8 8)
def SqEnt.respMax (e : SqEnt) : Nat := unle (Machine.slice e.bytes 20 4)

/-- The request of the register mailbox is served in the background, as a staging or a clear. -/
def Dev.regsTaken (d : Dev) : Bool :=
  (match d.mgmt.fw.job with | some j => j.src = 0 | none => false) || d.mgmt.fw.owed = some 0 ||
  (match d.mgmt.clearing with | some c => c.1 = 0 | none => false)

/-- The bytes in MGMT_MBX_DATA. -/
def Dev.mbxData (d : Dev) : Bytes := (List.range 1024).flatMap fun i => wordBytes (d.reg (Reg.MGMT_MBX_DATA i))

/-- The code of the request that waits at a source: for console and SMBus, `given`, which arrives with the command. -/
def Dev.mbxReqOf (d : Dev) (src given : Nat) : Option Nat :=
  if src = 0 then (if d.mgmt.mbxBusy && !d.regsTaken then some d.mgmt.mbxReq else none)
  else if src < 3 then some given
  else (d.mgmtEnt (src - 3)).map SqEnt.mgmtReq

/-- The payload of the request that waits at a source. -/
def Dev.mbxPayload (d : Dev) (src : Nat) (given : Bytes) : Bytes :=
  if src = 0 then d.mbxData.take (min 4096 (fld (d.reg Reg.MGMT_MBX_LEN) 12 0))
  else if src < 3 then given
  else match d.mgmtEnt (src - 3) with
    | some e => e.bytes.drop 32
    | none => []

/-- The most a source takes as a response. -/
def Dev.mbxRoom (d : Dev) (src : Nat) : Option Nat :=
  if src = 0 then some 4096
  else if src < 3 then none
  else ((d.sq (src - 3)).ents.find? fun e => e.op = 0x13 && (e.st = .ready || e.st = .engine)).map SqEnt.respMax

/-- Put a response into MGMT_MBX_DATA. -/
def Dev.setMbxData (d : Dev) (bs : Bytes) : Dev :=
  let ws := toWords (ceilDiv bs.length 4) bs
  ((List.range ws.length).zip ws).foldl (fun d p => d.setReg (Reg.MGMT_MBX_DATA p.1) p.2) d

/-- The register mailbox shows an end. -/
def Dev.regsEnd (d : Dev) (result : Nat) (resp : Bytes) : Dev :=
  let d1 := d.setMbxData resp
  { d1 with mgmt := { d1.mgmt with mbxBusy := false, mbxResult := result, respLen := resp.length } }

/-- A command ring's MGMT entry ends. -/
def Dev.ringEnds (d : Dev) (q result : Nat) (resp : Bytes) : Dev :=
  match (d.sq q).ents.find? fun e => e.op = 0x13 && (e.st = .ready || e.st = .engine) with
  | none => d
  | some e => (if resp = [] then d else d.dmaOut e.respAddr resp).endEnt q e 0 resp.length result false

/-- The outcome of a request reaches its source. -/
def Dev.mbxGive (d : Dev) (src result : Nat) (resp : Bytes) : Dev :=
  if src = 0 then d.regsEnd result resp
  else if src < 3 then d.emit (.mbxResponse (src + 1) result resp)
  else d.ringEnds (src - 3) result resp

/-- A request that was served ends; a response its source cannot take is not given (R437, R438). -/
def Dev.mbxEnd (d : Dev) (src result : Nat) (resp : Bytes) : Dev :=
  let fits : Bool := match d.mbxRoom src with
    | some n => decide (resp.length ≤ n)
    | none => true
  let r := if fits then result else mBadArg
  let d1 := d.inc bankMgmt 3
  let d2 := if r = 0 then d1 else d1.inc bankMgmt 4
  d2.mbxGive src r (if fits then resp else [])

/-- When the request that waits at a source arrived; none where none waits. One of the console or of SMBus arrives with its row,
and its service is that row's moment (log entry 127). -/
def Dev.mbxArrival (d : Dev) (src : Nat) : Option Nat :=
  if src = 0 then (if d.mgmt.mbxBusy && !d.regsTaken then some d.mgmt.mbxStamp else none)
  else if src < 3 then none
  else (d.mgmtEnt (src - 3)).map SqEnt.id

/-- No request that waits has arrived before that of source `src`: the requests are served in order of arrival (R436). -/
def Dev.mbxFirst (d : Dev) (src : Nat) : Bool :=
  match d.mbxArrival src with
  | none => true
  | some t => (0 :: d.host.sqs.map (3 + ·.1)).all fun x => match d.mbxArrival x with
    | some u => t ≤ u
    | none => true

/-- A payload longer than the register mailbox holds (R438, Table 16.2). -/
def Dev.mbxTooLong (d : Dev) (src : Nat) : Bool := src = 0 && decide (4096 < fld (d.reg Reg.MGMT_MBX_LEN) 12 0)

/-- The firmware serves the request that waits at a source when it has the code (R436, R445). -/
def Dev.serve (d : Dev) (s : MbxSrc) (req : Nat) (given : Bytes) (f : Dev → Nat → Bytes → Dev) : Dev :=
  let src := srcCode s
  if !d.mgmt.serving ∨ d.mbxReqOf src req ≠ some req ∨ !d.mbxFirst src then d
  else if !mbxAllowed src req then d.mbxEnd src mBadReq []
  else if d.mbxTooLong src then d.mbxEnd src mBadArg []
  else f d src (d.mbxPayload src given)

/-- A request is worked on in the background: the entry of a command ring stands with its engine. -/
def Dev.mbxHold (d : Dev) (src : Nat) : Dev :=
  if src < 3 then d
  else match d.mgmtEnt (src - 3) with
    | some e => d.putEnt (src - 3) { e with st := .engine }
    | none => d

/-! ## Restarts and trials (R434, R435, R460 to R462) -/

/-- A card that accepts the switch of its signalling voltage has SD_VSEL driven high (R523). -/
def Dev.cardVolts (d : Dev) (file : CardFile) (uhs : Bool) : Dev :=
  if uhs ∧ file ≠ .noCard then ({ d with mgmt := { d.mgmt with sdVsel := true } }).emit (.pin pinSdVsel true) else d

def Dev.setFw (d : Dev) (f : FwState → FwState) : Dev := { d with mgmt := { d.mgmt with fw := f d.mgmt.fw } }

/-- A staging ends without success: the slot is left empty (R435, R459). -/
def Dev.stagingEnds (d : Dev) (result : Nat) : Dev :=
  match d.mgmt.fw.job with
  | none => d
  | some j =>
    let d1 := d.setFw fun f => { f with job := none, state := 0, lastResult := result, block := 0 }
    d1.mbxEnd j.src result []

/-- Every request that waits at a source, or is worked on, ends RESTARTED (R435). -/
def Dev.requestsRestarted (d : Dev) : Dev :=
  let d1 := d.stagingEnds mRestarted
  let d2 := match d1.mgmt.clearing with
    | some c => d1.mbxEnd c.1 mRestarted []
    | none => d1
  let d3 := if d2.mgmt.mbxBusy ∧ !d2.regsTaken then d2.mbxEnd 0 mRestarted [] else d2
  (d3.host.sqs.map (·.1)).foldl (fun d q => if (d.mgmtEnt q).isSome then d.mbxEnd (3 + q) mRestarted [] else d) d3

/-- A row is an access by the management cores, over CX17 and CX18. -/
def viaMgmt : Instr → Bool
  | .timeNowRead p => p = .mgmt
  | .ppsCaptRead p => p = .mgmt
  | .txtsData0Read p => p = .mgmt
  | .launchArm p _ => p = .mgmt
  | .launchCancel p _ => p = .mgmt
  | .launchRead p _ => p = .mgmt
  | .qstatRead p => p = .mgmt
  | .shpCredRead p => p = .mgmt
  | .mtrBktRead p => p = .mgmt
  | .ttOffsetRead p _ => p = .mgmt
  | .pmBinRead p _ _ => p = .mgmt
  | .registerWrite p _ _ _ => p = .mgmt
  | .sqcWrite p _ _ => p = .mgmt
  | .lowWordRead p _ => p = .mgmt
  | .rcCounterRead p _ => p = .mgmt
  | _ => false

/-- CX17 and CX18 are emptied (R33, R435). -/
def Dev.coresEmptied (d : Dev) : Dev := { d with parked := d.parked.filter fun p => !viaMgmt p.2 }

/-- The management cores restart (R434, R435); the causes are 1 activation, 2 fall-back, 3 watchdog, 4 request. -/
def Dev.mgmtRestart (d : Dev) (cause : Nat) : Dev :=
  let d1 := d.requestsRestarted.coresEmptied
  let d2 := { d1 with mgmt := { d1.mgmt with serving := false, restartCause := cause, nonce := none } }
  ((d2.inc bankMgmt 7).latchBit Reg.MGMT_STATUS 14).revokeTag 11

/-- The boot header after a fall-back from slot `s` (R462). -/
def hdrFallBack (s : Nat) (r : Bytes) : Bytes := hdrSetActive (1 - s) (hdrSetState s 0 r)

/-- A trial falls back (R461, R462). -/
def Dev.fallBack (d : Dev) : Dev :=
  let s := d.mgmt.fw.active
  let v := hdrVersion d.hdr s
  let d1 := (d.hdrWrite (hdrFallBack s)).setFw fun f => { f with active := 1 - s, state := 0, block := 0 }
  let d2 := match d1.mgmt.fw.owed with
    | some src => (d1.setFw fun f => { f with owed := none, lastResult := mRestarted }).mbxEnd src mRestarted []
    | none => d1
  (((d2.inc bankMgmt 6).latchBit Reg.MGMT_STATUS 15).logBit srcMgmt 0 15 0 (le 8 v)).mgmtRestart 2

/-- The image of a trial has run for 600 s (R461). -/
def Dev.trialOver (d : Dev) : Bool := decide (d.mgmt.fw.trialSince + 600 * 10 ^ 9 ≤ d.time.tsc)

/-- A trial ends committed (R461). -/
def Dev.trialCommit (d : Dev) : Dev :=
  let s := d.mgmt.fw.active
  let epoch := hdrVersion d.hdr s / 2 ^ 56
  let d1 := (d.hdrWrite (hdrSetState s 1)).setFw fun f => { f with state := 0 }
  ({ d1 with mgmt := { d1.mgmt with fuseCount := max d1.mgmt.fuseCount (min 64 epoch) } }).latchBit Reg.MGMT_STATUS 16

/-- A restart for another cause, which in a trial is a fall-back until its 600 s end (R461). -/
def Dev.restartOrFall (d : Dev) (cause : Nat) : Dev :=
  if d.mgmt.fw.state = 3 then (if d.trialOver then d.trialCommit.mgmtRestart cause else d.fallBack) else d.mgmtRestart cause

/-- Firmware serves again (R434, R460): the first event records the cause, an interrupted clear is seen to, and the
completion of an update that activated this image is written; a root source that waited is selected (R335). -/
def Dev.fwReady (d : Dev) : Dev :=
  let d0 := { d with mgmt := { d.mgmt with serving := true } }
  let d1 := match d0.fab.rootPend with
    | some src => ({ d0 with fab := { d0.fab with rootPend := none } }).ctrlWrite (setFld (d0.reg Reg.TIME_CTRL) 2 0 src)
    | none => d0
  let d2 := (d1.logBit srcMgmt 0 14 0 (le 1 d.mgmt.restartCause)).clearCut
  let d3 := if d2.mgmt.fw.state = 3 then d2.setFw fun f => { f with trialSince := d2.time.tsc } else d2
  match d3.mgmt.fw.owed with
  | some src => ((d3.setFw fun f => { f with owed := none, lastResult := 0 }).mbxEnd src mOk []).inc bankMgmt 5
  | none => d3

/-! ## Firmware images (R458 to R461) -/

/-- Bytes of a firmware header and of a block. -/
def fwHeader : Nat := 4096
def fwBlock : Nat := 65536

def imgVersion (f : Bytes) : Nat := unle (Machine.slice f 8 8)
def imgEpoch (f : Bytes) : Nat := imgVersion f / 2 ^ 56
def imgLength (f : Bytes) : Nat := unle (Machine.slice f 16 4)
def imgBlocks (f : Bytes) : Nat := unle (Machine.slice f 20 2)

/-- The header obeys R458; `len` is the file length, when there is a file. -/
def imgHeaderOk (f : Bytes) (len : Option Nat) : Bool :=
  (match len with
   | some n => n = fwHeader + imgLength f
   | none => true) &&
  Machine.slice f 0 4 == [90#8, 70#8, 87#8, 73#8] && unle (Machine.slice f 4 2) = 1 && unle (Machine.slice f 6 2) = 0x9128 &&
  imgBlocks f = ceilDiv (imgLength f) fwBlock && imgBlocks f ≠ 0 && decide (imgBlocks f ≤ 511)

/-- Block `i` of the payload. -/
def imgBlock (f : Bytes) (i : Nat) : Bytes := (f.drop (fwHeader + fwBlock * i)).take fwBlock

/-- The CRC of block `i` holds. -/
def imgBlockOk (f : Bytes) (i : Nat) : Bool := unle (Machine.slice f (128 + 4 * i) 4) = (crc32c (imgBlock f i)).toNat

/-- The first block whose CRC fails. -/
def imgBadBlock (f : Bytes) : Option Nat := (List.range (imgBlocks f)).find? fun i => !imgBlockOk f i

/-- The inactive slot. -/
def Dev.spareSlot (d : Dev) : Nat := 1 - d.mgmt.fw.active

/-- The code that the read-back of a staged image gives from what its checks find (R460). -/
def FwJob.readBack (j : FwJob) : Nat :=
  match j.nvm with
  | .good => mOk
  | .error => mNvmError
  | .blockCrc => mBlockCrc
  | .signature => mSignature

/-- Erase the sectors an image needs in a slot. -/
def Dev.slotErase (d : Dev) (s n : Nat) : Dev := d.nvErase (nvSlot s) (fwBlock * ceilDiv n fwBlock)

/-- A block of the image is read, checked and programmed; after the last one the signature is verified (R459). -/
def Dev.stageBlock (d : Dev) (j : FwJob) : Dev :=
  let b := d.mgmt.fw.block
  if b < imgBlocks j.file then
    if !imgBlockOk j.file b then d.stagingEnds mBlockCrc
    else
      let a := nvSlot d.spareSlot
      let d1 := if b = 0 then d.nvProgram a (j.file.take fwHeader) else d
      (d1.nvProgram (a + fwHeader + fwBlock * b) (imgBlock j.file b)).setFw fun f => { f with block := b + 1 }
  else if !j.sigOk then d.stagingEnds mSignature
  else d.setFw fun f => { f with state := 2, block := 0 }

/-- The image read back from the flash is good: its slot is active in trial, and the cores restart (R460). -/
def Dev.activateImage (d : Dev) (j : FwJob) : Dev :=
  let s := d.spareSlot
  let d1 := d.hdrWrite fun r => hdrSetActive s (hdrSetState s 2 (hdrSetVersion s (imgVersion j.file) r))
  let d2 := d1.setFw fun f => { f with job := none, active := s, state := 3, block := 0, owed := some j.src }
  d2.mgmtRestart 1

/-- A staging goes on by one step (R459, R460): a block, the signature, or the read-back; a failure leaves the slot empty. -/
def Dev.stagingStep (d : Dev) : Dev :=
  match d.mgmt.fw.job with
  | none => d
  | some j =>
    if d.mgmt.fw.state = 1 then d.stageBlock j
    else if j.readBack = mOk then d.activateImage j
    else d.stagingEnds j.readBack

/-- What the device does on its own while no command waits: the channels complete what they have issued, the auditor's mark phase
gives way to its sweep, the PCIe link goes to rest, and a staging in progress goes on by one step (log entry 1, DESIGN
CHOICE). -/
def Dev.idle (d : Dev) : Dev :=
  let d1 := d.memSettles.auditTurns.linkRests
  if d.up then d.keepNvm (if d.mgmt.serving then d1.stagingStep else d1) else d

end Sys2Proof.Machine
end

