-- ==== Sys2Proof/Machine/Ports.lean ====
section
/-! DEFINITION. The commands of the line ports: bring-up and link state, receive and transmit, flow control and its
watchdog, PTP timestamps of transmitted frames (R53 to R56, R82 to R101). -/
namespace Sys2Proof.Machine

/-! ## Link state (R87 to R92, R99, R100) -/

/-- FEC allowed for a mode (Table 3.2). -/
def fecOk (mode fec : Nat) : Bool :=
  match mode with
  | 1 => fec ≤ 1
  | 2 => fec ≤ 2
  | _ => fec = 3

/-- The port's enable holds its lanes. -/
def PState.holdsLanes : PState → Bool
  | .disabled => false
  | .refused => false
  | _ => true

/-- A lane of the port belongs to a port that is already enabled (R88). -/
def Dev.laneConflict (d : Dev) (p lanes : Nat) : Bool :=
  (List.range 128).any fun q => q ≠ p && (d.port q).st.holdsLanes && q < p + lanes && p < q + modeLanes (d.port q).mode

/-- The reason an enable is refused with: 1 mode, fec or an_enable, 3 misaligned lane, 2 lane conflict; 0 none (R88). -/
def Dev.refuseReason (d : Dev) (p : Nat) : Nat :=
  let cfg := d.reg (Reg.PG_PORT_CFG p)
  let mode := fld cfg 3 0
  if mode = 0 ∨ 6 < mode ∨ !fecOk mode (fld cfg 11 10) ∨ (bit cfg 9 ∧ mode ≠ 4) then 1
  else if p % modeLanes mode ≠ 0 then 3
  else if d.laneConflict p (modeLanes mode) then 2
  else 0

/-- The register block of a port: source and status register index of its events (R448). -/
def Dev.logPort (d : Dev) (p b : Nat) : Dev := d.logBit (0x10 + p / 16) (p % 16) b p []

/-- enable changes from 0 to 1 (R87, R88). -/
def Dev.portEnable (d : Dev) (p : Nat) : Dev :=
  let cfg := d.reg (Reg.PG_PORT_CFG p)
  let fc := fld (d.reg (Reg.PG_FC_CFG p)) 17 16
  match d.refuseReason p with
  | 0 => d.modPort p fun x => { x with
      st := .signalWait, cfg := cfg, mode := fld cfg 3 0, fec := fld cfg 11 10, anEn := bit cfg 9, fcMode := if fc = 3 then 0 else fc }
  | r => (d.modPort p fun x => { x with st := .refused, reason := r }).latchBit (Reg.PG_PORT_STATE p) 8

/-- Leaving UP (R94, R98): the frame in serialisation is cut off, and received pause and the watchdog are cleared. -/
def Dev.leaveUp (d : Dev) (p : Nat) : Dev :=
  let x := d.port p
  let d1 := d.setPort p { x with paused := List.replicate 8 false, wdog := List.replicate 8 false, txFifo := x.txFifo.drop 1 }
  if x.txFifo = [] then d1 else (d1.inc (bankPort p) 25).emit (.frameCut p)

/-- The port is declared down: it counts, its queues are flushed and what its MAC still holds is gone (R92, R99). -/
def Dev.declareDown (d : Dev) (p : Nat) (st : PState) : Dev :=
  let d1 := ((d.inc (bankPort p) 28).latchBit (Reg.PG_PORT_STATE p) 12).flushPort p
  d1.modPort p fun x => { x with st := st, flushing := true, txFifo := [], fcOwed := [] }

/-- enable changes from 1 to 0 (R90). -/
def Dev.portDisable (d : Dev) (p : Nat) : Dev :=
  match (d.port p).st with
  | .up => (d.leaveUp p).declareDown p .disabled
  | .holdoff => d.declareDown p .disabled
  | .down => (d.flushPort p).modPort p fun x => { x with st := .disabled, flushing := true }
  | _ => d.modPort p fun x => { x with st := .disabled }

/-- The base page that a port sends (R91). -/
def ownPage : BasePage := { kr1 := true, cr1 := true, rsFec := true, nextPage := false }

/-- What the transmitter sends in a state (R90 to R92). -/
def PState.tx : PState → TxSignal
  | .disabled => .electricalIdle
  | .refused => .electricalIdle
  | .an => .basePage ownPage
  | .up => .frames
  | .holdoff => .idles
  | _ => .remoteFault

/-- The transmitter of a port follows its state. -/
def Dev.lineFollow (d : Dev) (p : Nat) : Dev :=
  let x := d.port p
  if x.tx = x.st.tx then d else (d.setPort p { x with tx := x.st.tx }).emit (.line p x.st.tx)

/-- A write of PG_PORT_CTRL (Table 3.5). -/
def Dev.writePortCtrl (d : Dev) (p : Nat) (v : Word) : Dev :=
  let old := bit (d.reg (Reg.PG_PORT_CTRL p)) 0
  let d1 := d.writeRw (Reg.PG_PORT_CTRL p) 0xFFFFFF01#32 v
  if !old ∧ bit v 0 then ((d1.portEnable p).lineFollow p).syncEFollowAll
  else if old ∧ !bit v 0 then (d1.portDisable p).lineFollow p
  else d1

/-- PORT_ENABLE (R87, R88): enable is written to 1, the other fields as they are. -/
def execPortEnable (p : Fin 128) (s : State) : Host.Outcome State Fault Refusal :=
  actReg .bar0 (Reg.PG_PORT_CTRL p) (.portEnable p) s fun d => d.writePortCtrl p (d.reg (Reg.PG_PORT_CTRL p) ||| 1#32)

/-- PORT_DISABLE (R90): enable is written to 0. -/
def execPortDisable (p : Fin 128) (s : State) : Host.Outcome State Fault Refusal :=
  actReg .bar0 (Reg.PG_PORT_CTRL p) (.portDisable p) s fun d => d.writePortCtrl p (d.reg (Reg.PG_PORT_CTRL p) &&& ~~~1#32)

/-- Move a port from a state to another. -/
def Dev.portMove (d : Dev) (p : Nat) (a b : PState) : Dev :=
  if (d.port p).st = a then (d.modPort p fun x => { x with st := b }).lineFollow p else d

/-- Signal on every lane (Table 3.7, R100): a port whose flush runs waits in SIGNAL_WAIT, and so does every port until
forwarding starts (R469). -/
def Dev.portSignal (d : Dev) (p : Nat) : Dev :=
  let x := d.port p
  if x.st ≠ .signalWait ∧ x.st ≠ .down then d
  else if x.flushing || !d.vint.started then d.setPort p { x with st := .signalWait }
  else (d.setPort p { x with st := if x.anEn then .an else .lockWait }).lineFollow p

def execPortSignalDetect (p : Fin 128) (s : State) : Host.Outcome State Fault Refusal := actIn pllLine (.portSignalDetect p) s fun d => d.portSignal p

/-- AN_FAIL (R91). -/
def Dev.anFail (d : Dev) (p : Nat) : Dev :=
  if (d.port p).st = .an then ((d.portMove p .an .signalWait).latchBit (Reg.PG_PORT_STATE p) 9).inc (bankPort p) 31 else d

/-- The partner's base page lets the port go on: it shares an ability, and does not withhold the acknowledgement of a page
without next pages while its own next-page bit is set (R91). -/
def pageFits (pg : BasePage) (ack : Bool) : Bool := (pg.kr1 || pg.cr1) && (ack || !pg.nextPage)

/-- The base pages are exchanged (R91). -/
def Dev.anResolve (d : Dev) (p : Nat) (pg : BasePage) (ack : Bool) : Dev :=
  if pageFits pg ack then d.portMove p .an .lockWait else d.anFail p

/-- AN_RESOLVED (R91): the partner's page, and whether it acknowledges the port's own. -/
def execAnResolved (p : Fin 128) (page : BasePage) (ack : Bool) (s : State) : Host.Outcome State Fault Refusal :=
  actIn pllLine (.anResolved p page ack) s fun d => d.anResolve p page ack

def execAnFail (p : Fin 128) (s : State) : Host.Outcome State Fault Refusal := actIn pllLine (.anFail p) s fun d => d.anFail p

/-- A lane of a port has a transmit PLL out of lock (R34). -/
def Dev.portLaneOut (d : Dev) (p : Nat) : Bool :=
  (List.range (modeLanes (d.port p).mode)).any fun i => d.boot.lanesOut.contains (p + i)

/-- The lanes of a port, lowest first: the order in which they transmit (R89). -/
def Dev.portLanes (d : Dev) (p : Nat) : List Nat := (List.range (modeLanes (d.port p).mode)).map (p + ·)

/-- PG_LANE_CFG.tx_invert and rx_invert of a lane (R89). -/
def Dev.txInvert (d : Dev) (lane : Nat) : Bool := bit (d.reg (Reg.PG_LANE_CFG lane)) 0
def Dev.rxInvert (d : Dev) (lane : Nat) : Bool := bit (d.reg (Reg.PG_LANE_CFG lane)) 1

/-- The PCS sees every lane in its true polarity: rx_invert is set for those whose pair is swapped, by bit of `sw` (R89; log
entry 103, DEDUCED). -/
def Dev.polarityOk (d : Dev) (p : Nat) (sw : BitVec 4) : Bool :=
  (d.portLanes p).all fun l => d.rxInvert l == sw.getLsbD (l - p)

/-- Every lane locks (Table 3.7): not while the PLL of a lane is out of lock (R34), nor with a lane of the wrong polarity (R89).
The receive lanes may come in any order. -/
def Dev.lockAcquired (d : Dev) (p : Nat) (sw : BitVec 4) : Dev :=
  if d.portLaneOut p ∨ !d.polarityOk p sw then d
  else if (d.port p).st = .lockWait then (d.modPort p fun x => { x with swapped := sw }).portMove p .lockWait .debounce
  else d

/-- PORT_LOCK_ACQUIRED (Table 3.7): `swapped` tells the lanes of the port whose receive pair is swapped. -/
def execPortLockAcquired (p : Fin 128) (swapped : BitVec 4) (s : State) : Host.Outcome State Fault Refusal :=
  actIn pllLine (.portLockAcquired p swapped) s fun d => d.lockAcquired p swapped

/-- PORT_LOCK_TIMEOUT (Table 3.7). -/
def execPortLockTimeout (p : Fin 128) (s : State) : Host.Outcome State Fault Refusal :=
  actIn pllLine (.portLockTimeout p) s fun d => d.portMove p .lockWait .signalWait

/-- up_debounce_ms of lock in DEBOUNCE or HOLDOFF: the port enters UP (Table 3.7). -/
def Dev.debounced (d : Dev) (p : Nat) : Dev :=
  let x := d.port p
  if x.st = .debounce ∨ x.st = .holdoff then (d.setPort p { x with st := .up }).latchBit (Reg.PG_PORT_STATE p) 11 |>.lineFollow p else d

/-- PORT_DEBOUNCE_EXPIRE (Table 3.7). -/
def execPortDebounceExpire (p : Fin 128) (s : State) : Host.Outcome State Fault Refusal := actIn pllLine (.portDebounceExpire p) s fun d => d.debounced p

/-- Signal or lock lost, or fault ordered sets received (R92, R94, Table 3.7). -/
def Dev.lockLoss (d : Dev) (p : Nat) (fault : Bool) : Dev :=
  let seen (d : Dev) : Dev := if fault then d.latchBit (Reg.PG_PORT_STATE p) 13 else d
  match (d.port p).st with
  | .up => ((seen (d.leaveUp p)).modPort p fun x => { x with st := .holdoff }).lineFollow p
  | .debounce => ((seen d).modPort p fun x => { x with st := .lockWait }).lineFollow p
  | .lockWait => seen d
  | .holdoff => seen d
  | _ => d

/-- PORT_LOCK_LOSS (R92, R94). -/
def execPortLockLoss (p : Fin 128) (fault : Bool) (s : State) : Host.Outcome State Fault Refusal :=
  actIn pllLine (.portLockLoss p fault) s fun d => d.lockLoss p fault

/-- holdoff_ms ends: the port enters DOWN, its flush starts, and with that it leaves DOWN for SIGNAL_WAIT (R92, R99, Table
3.7). -/
def Dev.holdoffEnds (d : Dev) (p : Nat) : Dev :=
  if (d.port p).st = .holdoff then ((d.declareDown p .down).portMove p .down .signalWait).lineFollow p else d

/-- PORT_HOLDOFF_EXPIRE (R92, R99). -/
def execPortHoldoffExpire (p : Fin 128) (s : State) : Host.Outcome State Fault Refusal :=
  actIn pllLine (.portHoldoffExpire p) s fun d => d.holdoffEnds p

/-- Packets for a port are still between its queues and its MAC: nominated, dispatched, or in the edit stages. -/
def Dev.portHas (d : Dev) (p : Nat) : Bool :=
  (d.qm.noms.flatMap (fun x => x.2) ++ (List.range 9).flatMap fun n => (d.slice n).down ++ (d.slice n).egress).any
    fun k => qKind k.queue ≠ 4 && k.outPort == some p

/-- The flush of a port completes, once no packet of the previous link is left on the way to the port (R100). -/
def Dev.flushDone (d : Dev) (p : Nat) : Dev :=
  if d.portHas p then d else d.modPort p fun x => { x with flushing := false }

def execPortFlushComplete (p : Fin 128) (s : State) : Host.Outcome State Fault Refusal := actIn pllLine (.portFlushComplete p) s fun d => d.flushDone p

/-! ## Flow control (R95 to R98) -/

/-- A PAUSE frame or a PFC frame of IEEE 802.3 Clause 31: EtherType 0x8808 with opcode 0x0001 or 0x0101. -/
def isPause (frame : Bytes) : Bool := winWord frame 12 = 0x8808 && winWord frame 14 = 0x0001
def isPfc (frame : Bytes) : Bool := winWord frame 12 = 0x8808 && winWord frame 14 = 0x0101

/-- Priorities a flow-control frame is honoured for (R96, R98). -/
def Dev.honours (d : Dev) (p : Nat) (frame : Bytes) (n : Nat) : Bool :=
  let x := d.port p
  if isPause frame then x.fcMode = 1 && !x.wdog.getD n false
  else x.fcMode = 2 && bit (d.reg (Reg.PG_FC_CFG p)) (24 + n) && (winWord frame 16).testBit n && !x.wdog.getD n false

/-- The quanta that the frame names for a priority. -/
def quantaFor (frame : Bytes) (n : Nat) : Nat := if isPause frame then winWord frame 16 else winWord frame (18 + 2 * n)

/-- A flow-control frame (R96): it sets the pause of the priorities it is honoured for, and is consumed. -/
def Dev.pauseFrame (d : Dev) (p : Nat) (frame : Bytes) : Dev :=
  let x := d.port p
  let hon := (List.range 8).map fun n => d.honours p frame n
  let now (n : Nat) : Bool := if hon.getD n false then decide (quantaFor frame n ≠ 0) else x.paused.getD n false
  let d1 := d.setPort p { x with paused := (List.range 8).map now }
  let d2 := d1.inc (bankPort p) (if isPause frame then 10 else 11)
  if hon.any id then d2 else d2.inc (bankPort p) 12

/-- PAUSE_FRAME_RECEIVE (R96). -/
def execPauseFrameReceive (p : Fin 128) (frame : Bytes) (s : State) : Host.Outcome State Fault Refusal :=
  actLive pllLine s fun d => if (d.port p).st = .up ∧ (isPause frame ∨ isPfc frame) then d.pauseFrame p frame else d

/-- Set one priority, or all eight with PAUSE (R95). -/
def setPrio (fcMode : Nat) (l : List Bool) (n : Nat) (b : Bool) : List Bool :=
  if fcMode = 1 then List.replicate 8 b else l.set n b

/-- PAUSE_QUANTA_EXPIRE (R96). -/
def execPauseQuantaExpire (p : Fin 128) (prio : Fin 8) (s : State) : Host.Outcome State Fault Refusal :=
  actIn pllLine (.pauseQuantaExpire p prio) s fun d => d.modPort p fun x => { x with paused := setPrio x.fcMode x.paused prio false }

/-- The pause watchdog trips (R98). -/
def Dev.wdogTrip (d : Dev) (p n : Nat) : Dev :=
  let x := d.port p
  if x.paused.getD n false ∧ !x.wdog.getD n false ∧ fld (d.reg (Reg.PG_FC_WDOG p)) 15 0 ≠ 0 then
    let d1 := d.setPort p { x with paused := setPrio x.fcMode x.paused n false, wdog := setPrio x.fcMode x.wdog n true }
    ((d1.latchBit (Reg.PG_PORT_STATE p) 10).inc (bankPort p) 29).logPort p 10
  else d

def execPauseWdogTrip (p : Fin 128) (prio : Fin 8) (s : State) : Host.Outcome State Fault Refusal :=
  actIn pllLine (.pauseWdogTrip p prio) s fun d => d.wdogTrip p prio

/-- PAUSE_WDOG_RECOVER (R98). -/
def execPauseWdogRecover (p : Fin 128) (prio : Fin 8) (s : State) : Host.Outcome State Fault Refusal :=
  actIn pllLine (.pauseWdogRecover p prio) s fun d => d.modPort p fun x => { x with wdog := setPrio x.fcMode x.wdog prio false }

/-- A flow-control frame that is owed leaves, unless xoff has become 0, which disables sending (R97): TX_FRAMES, TX_OCTETS and TX_MCAST count it with TX_PAUSE or TX_PFC. -/
def Dev.fcSend (d : Dev) (p : Nat) : Dev :=
  let x := d.port p
  match x.st, x.fcOwed with
  | .up, (n, xo) :: rest =>
    let q := if xo then fld (d.reg (Reg.PG_FC_CFG p)) 15 0 else 0
    let d1 := d.setPort p { x with fcOwed := rest }
    if fld (d.reg (Reg.PG_FC_THR p n)) 31 16 = 0 then d1 else
    let d2 := (((d1.inc (bankPort p) 16).bump (bankPort p) 18 64).inc (bankPort p) 20).inc (bankPort p) (if x.fcMode = 1 then 22 else 23)
    d2.emit (.fcFrame p (if x.fcMode = 1 then 0 else 2 ^ n) q)
  | _, _ => d

/-- FC_FRAME_SEND (R97). -/
def execFcFrameSend (p : Fin 128) (s : State) : Host.Outcome State Fault Refusal := actIn pllLine (.fcFrameSend p) s fun d => d.fcSend p

/-- Half of tx_quanta has elapsed with the occupancy above xon: XOFF is owed again (R97). -/
def Dev.xoffRepeat (d : Dev) (p n : Nat) : Dev :=
  let x := d.port p
  if x.xoff.getD n false ∧ fld (d.reg (Reg.PG_FC_THR p n)) 31 16 ≠ 0 ∧ (fcClass x.fcMode (d.reg (Reg.PG_FC_CFG p)) n).isSome ∧ fld (d.reg (Reg.PG_FC_CFG p)) 15 0 ≠ 0 ∧
      256 * fld (d.reg (Reg.PG_FC_THR p n)) 15 0 < fcOcc x.fcMode x.occ n then
    d.setPort p { x with fcOwed := x.fcOwed ++ [(n, true)] }
  else d

/-- FC_XOFF_REPEAT (R97). -/
def execFcXoffRepeat (p : Fin 128) (prio : Fin 8) (s : State) : Host.Outcome State Fault Refusal :=
  actIn pllLine (.fcXoffRepeat p prio) s fun d => d.xoffRepeat p prio

/-! ## Receive (R53, R93, R97, R405) -/

/-- The receive timestamp (R53): TIME_PORT_CORR[15:0] in 2^-4 ns is added. -/
def Dev.rxStamp (d : Dev) (p : Nat) : DevTime :=
  d.time.now.shift (signed 16 (fld (d.reg (Reg.TIME_PORT_CORR p)) 15 0) * 2 ^ 44)

/-- Count a frame received without error and passed on (Table 3.9). -/
def Dev.countRx (d : Dev) (p : Nat) (frame : Bytes) : Dev :=
  let d1 := (d.inc (bankPort p) 0).bump (bankPort p) 2 (frame.length + 4)
  if frame.take 6 = List.replicate 6 0xFF#8 then d1.inc (bankPort p) 5
  else if (frame.getD 0 0).getLsbD 0 then d1.inc (bankPort p) 4
  else d1

/-- A frame that the MAC passes enters the slice that holds its port group, or cellar forwarding; without a holder it
is dropped (R405, R423). Its length is charged (R97). -/
def Dev.steer (d : Dev) (p : Nat) (frame : Bytes) (headOnly : Bool) : Dev :=
  let len := if headOnly then min 10240 (d.maxFrame p - 4) else frame.length
  let u := d.newUid
  let ts := d.rxStamp p
  let k : Pkt := { uid := u.1, frame := frame, len := len, headOnly := headOnly, port := p, rxTs := ts, input := p / 16,
                   vint := d.vint.current, bus := busInit ts 0 len p false d.vint.current 0 }
  let charged := u.2.charge u.1 p (framePrio (d.reg (Reg.PG_FC_CFG p)) frame) len
  if d.spr.cellar then charged.cellarReceive k
  else match d.holder (p / 16) with
    | none => d.inc (bankPort p) 13
    | some n => charged.modSlice n fun s => { s with ingress := s.ingress ++ [{ k with slice := n }] }

/-- A frame of a port is open: its head has been received. -/
def Dev.openFrame (d : Dev) (p : Nat) (h : Option (Option Nat)) : Dev := d.modPort p fun x => { x with rxOpen := h }

/-- The head of a frame is received: it is passed on, but for a flow-control frame, which waits in the MAC for its tail, and for
a frame that finds no slice (R93, R405). -/
def Dev.headReceive (d : Dev) (p : Nat) (frame : Bytes) : Dev :=
  if (d.port p).rxOpen.isSome ∨ d.spr.cellar then d
  else if isPause frame ∨ isPfc frame then d.openFrame p (some none)
  else if (d.holder (p / 16)).isNone then (d.inc (bankPort p) 13).openFrame p (some none)
  else (d.steer p frame true).openFrame p (some (some d.newUid.1))

/-- The MAC receives a frame (R93); `frame` is without its FCS. With `headOnly` only the head has come. -/
def Dev.lineReceive (d : Dev) (p : Nat) (frame : Bytes) (fcsOk headOnly : Bool) : Dev :=
  if (d.port p).st ≠ .up ∨ !d.polarityOk p (d.port p).swapped then d
  else if headOnly then d.headReceive p frame
  else
    let n := frame.length + 4
    if n < 64 then d.inc (bankPort p) (if fcsOk then 7 else 9)
    else if d.maxFrame p < n then
      let d1 := d.inc (bankPort p) 8
      if fcsOk then d1 else d1.inc (bankPort p) 6
    else if !fcsOk then d.inc (bankPort p) 6
    else if isPause frame ∨ isPfc frame then d.pauseFrame p frame
    else if (d.holder (p / 16)).isNone ∧ !d.spr.cellar then d.inc (bankPort p) 13
    else (d.countRx p frame).steer p frame false

/-- Count the FEC codewords corrected and not correctable, and the errored blocks, that the lanes of a port have met since
its last frame (Table 3.9). -/
def Dev.pcsCount (d : Dev) (p corrected bad blockErr : Nat) : Dev :=
  ((d.bump (bankPort p) 14 corrected).bump (bankPort p) 15 bad).bump (bankPort p) 30 blockErr

/-- LINE_FRAME_RECEIVE (R93). -/
def execLineFrameReceive (p : Fin 128) (frame : Bytes) (fcsOk headOnly : Bool) (corrected bad blockErr : Nat) (s : State) :
    Host.Outcome State Fault Refusal :=
  actLive pllLine s fun d => (d.pcsCount p corrected bad blockErr).lineReceive p frame fcsOk headOnly

/-- CELLAR_FRAME_RECEIVE (R423): a good frame received in cellar mode. -/
def execCellarFrameReceive (p : Fin 128) (frame : Bytes) (s : State) : Host.Outcome State Fault Refusal :=
  actLive pllLine s fun d => if d.spr.cellar then d.lineReceive p frame true false else d

/-! ## Transmit (R53 to R56, R94) -/

/-- The transmit timestamp (R53). -/
def Dev.txStamp (d : Dev) (p : Nat) : DevTime :=
  d.time.now.shift (signed 16 (fld (d.reg (Reg.TIME_PORT_CORR p)) 31 16) * 2 ^ 44)

/-- The receive timestamp that the record carries (Table 5.4). -/
def recTime (bus : Bytes) : DevTime :=
  { sec := unbe (slice bus 0 6), ns := unbe (slice bus 6 4), frac := unbe (slice bus 10 2) * 2 ^ 32 }

/-- One-step handling (R55) of the PTP message at offset `o`: a Sync takes the transmit timestamp as originTimestamp,
another event message adds its residence time to correctionField. A UDP checksum is left as it is: R55 gives one-step over
UDP/IPv4 for a checksum of zero, and does not say what a frame with another one becomes (log entry 104, DESIGN CHOICE). -/
def oneStep (frame : Bytes) (o : Nat) (rx tx : DevTime) : Bytes :=
  let typ := (frame.getD o 0).toNat % 16
  if typ = 0 then overwrite frame (o + 34) (be 6 tx.sec ++ be 4 tx.ns)
  else if typ ≤ 3 then
    let res : Int := ((tx.units / 2 ^ 32 : Nat) : Int) - ((rx.units / 2 ^ 32 : Nat) : Int)
    overwrite frame (o + 8) (be 8 (((unbe (slice frame (o + 8) 8) : Int) + res) % 2 ^ 64).toNat)
  else frame

/-- The two-step record of a frame (R56). -/
def txRecord (frame : Bytes) (o : Nat) (tx : DevTime) : TxTs :=
  { msgType := (frame.getD o 0).toNat % 16, domain := (frame.getD (o + 4) 0).toNat, seqId := winWord frame (o + 30),
    time := tx }

/-- One-step over UDP/IPv6 is treated as two-step (R55). -/
def ptpStep (k : Pkt) : Nat := if k.ptp = 1 ∧ winWord k.frame (etherOff k.frame) = 0x86DD then 2 else k.ptp

/-- A frame leaves on the line: it is timestamped, handled by its PTP mark and counted (R53, R55, R56, R94). -/
def Dev.sendLine (d : Dev) (p : Nat) (k : Pkt) : Dev :=
  let tx := d.txStamp p
  let step := ptpStep k
  let frame := if step = 1 then oneStep k.frame k.ptpOff (recTime k.bus) tx else k.frame
  let d1 := if step = 2 then d.pushTxTs p (txRecord k.frame k.ptpOff tx) else d
  let d2 := (d1.inc (bankPort p) 16).bump (bankPort p) 18 (frame.length + 4)
  let d3 :=
    if frame.take 6 = List.replicate 6 0xFF#8 then d2.inc (bankPort p) 21
    else if (frame.getD 0 0).getLsbD 0 then d2.inc (bankPort p) 20
    else d2
  let d4 := if k.stomp then (d3.inc (bankPort p) 24).inc bankTmq 12 else d3
  (if d.spr.cellar then d4.inc bankSpr 11 else d4).emit (.frame p frame k.stomp ((d.portLanes p).map fun l => (l, d.txInvert l)))

/-- The first frame of the MAC's FIFO that may start serialisation: its class is not paused and its tail has come. -/
def Port.nextTx (x : Port) : Option Pkt := x.txFifo.find? fun k => !x.paused.getD k.tc false && !k.headOnly

/-- The frame of cellar memory that a port sends next: the highest class first (R425). -/
def Dev.cellarNext (d : Dev) (p : Nat) : Option Pkt :=
  let mine := (d.cellarMem (p / 16)).filter fun k => k.outPort == some p && !(d.port p).paused.getD k.tc false
  [7, 6, 5, 4, 3, 2, 1, 0].findSome? fun tc => mine.find? fun k => k.tc = tc

/-- The MAC serialises its next frame (R94, R96). -/
def Dev.lineTransmit (d : Dev) (p : Nat) : Dev :=
  let x := d.port p
  if x.st ≠ .up then d
  else match x.nextTx with
    | some k => (d.setPort p { x with txFifo := x.txFifo.filter fun j => j.seq ≠ k.seq }).sendLine p k
    | none =>
      if !d.spr.fdieOnly then d
      else match d.cellarNext p with
        | some k => (((d.setCellarMem (p / 16) ((d.cellarMem (p / 16)).filter fun j => j.uid ≠ k.uid)).endHold k.uid)).sendLine p k
        | none => d

/-- LINE_FRAME_TRANSMIT (R94). -/
def execLineFrameTransmit (p : Fin 128) (s : State) : Host.Outcome State Fault Refusal := actIn pllLine (.lineFrameTransmit p) s fun d => d.lineTransmit p

end Sys2Proof.Machine
end

