-- ==== Sys2Proof/Machine/Queueing.lean ====
section
/-! DEFINITION. The commands of the queue manager, the crossbar scheduler and replication: admission, evacuation,
nomination, the crossbar, dispatch, cut-through tails, head drops, and the command registers TMQ_CMD and REPL_CMD
(R221 to R240, R323, R537). -/
namespace Sys2Proof.Machine

/-! ## Admission and evacuation -/

/-- ADMISSION (R221, R222): one cycle of admission, its inputs taken in order from `start`. -/
def execAdmission (start : Fin 10) (s : State) : Host.Outcome State Fault Refusal :=
  actIn pllT (.admission start) s fun d => (d.admitCycle start).settleInjections

/-- The oldest evacuation write of a queue completes (R223), once the packet is all there. -/
def Dev.evacDone (d : Dev) (q : Nat) : Dev :=
  match (d.queue q).pkts.find? fun k => k.evacTo.isSome && !k.headOnly with
  | some k => d.evacWritten q k
  | none => d

/-- EVACUATION_WRITE_COMPLETE (R223): `q` is a queue by kind × 2^18 + index. -/
def execEvacuationWriteComplete (q : Nat) (s : State) : Host.Outcome State Fault Refusal := actIn pllT (.evacuationWriteComplete q) s fun d => d.evacDone q

/-- The read of a nominated DRAM-resident packet returns (R224, R225): it waits for read tokens; uncorrectable data, or a
stack lost meanwhile, drops the packet. -/
def Dev.evacReadBack (d : Dev) (o : Nat) (good : Bool) : Dev :=
  match (d.noms o).find? fun k => k.reading with
  | none => d
  | some k =>
    let share := evacShare k.queue true
    if d.evacTokens share < evacCharge k.len then d
    else
      let d1 := (d.takeTokens share (evacCharge k.len)).countLines k.dram 0 k.len
      if good ∧ !k.onLost d then
        (d1.setNoms o ((d1.noms o).map fun j => if j.seq = k.seq then { j with reading := false } else j)).inc bankTmq 7
      else (((d1.setNoms o (removeSeq k.seq (d1.noms o))).inc bankTmq 9).latchBit Reg.TMQ_STATUS 11).dropPkt k

/-- EVAC_READ_COMPLETE (R225). -/
def execEvacReadComplete (o : Fin 10) (good : Bool) (s : State) : Host.Outcome State Fault Refusal :=
  actIn pllT (.evacReadComplete o good) s fun d => d.evacReadBack o good

/-! ## Nomination -/

/-- The punt ring a host queue is bound to, when that ring is ACTIVE (R387). -/
def Dev.hqRing (d : Dev) (hq : Nat) : Option Nat :=
  let b := d.reg (Reg.HOST_HQ_BIND hq)
  if bit b 31 ∧ (d.sq (fld b 13 0)).st = .active ∧ d.sqKind (fld b 13 0) = 1 then some (fld b 13 0) else none

/-- The ring holds a fetched, unfilled buffer (R387). -/
def Dev.ringOffers (d : Dev) (r : Nat) : Bool := (d.sq r).ents.any fun e => e.st = .posted

/-- A host queue that has no ring drops its packets at the head (R387). -/
def Dev.dropUnbound (d : Dev) (hq : Nat) : Dev :=
  if (d.hqRing hq).isSome then d
  else
    let q := qKey 3 hq
    ((d.queue q).pkts).foldl (fun d k => ((d.inc bankHost 8).hqDrop hq).dropPkt k) (d.setQueue q {})

/-- Output 9 nominates (R227, R387): the host queues in rotating order, those whose ring offers no buffer passed over. -/
def Dev.nominateHost (d : Dev) : Dev :=
  let d1 := (d.busyQueues 3).foldl (fun d hq => d.dropUnbound hq) d
  let busy := d1.busyQueues 3
  let order := busy.filter (fun i => d1.qm.hqPtr ≤ i) ++ busy.filter (fun i => i < d1.qm.hqPtr)
  let pick := order.findSome? fun hq =>
    match d1.hqRing hq, d1.headOf (qKey 3 hq) with
    | some r, some k => if d1.ringOffers r then some (hq, k) else none
    | _, _ => none
  match pick with
  | none => d1
  | some (hq, k) =>
    if d1.nomRoom 9 k then { d1 with qm := { d1.qm with hqPtr := (hq + 1) % 1024 } }.nominate 9 (qKey 3 hq) k else d1

/-- An output's scheduler nominates a packet (R227, R229). -/
def Dev.nominateOut (d : Dev) (o : Nat) (credit : Nat → Bool) : Dev :=
  if o < 8 then d.nominatePg o credit else if o = 8 then d.nominateTrellis else d.nominateHost

/-- NOMINATE (R227, R229, R255): bit p of `credit` says that the transmit FIFO of port p has credit. -/
def execNominate (o : Fin 10) (credit : BitVec 128) (s : State) : Host.Outcome State Fault Refusal :=
  actIn pllT (.nominate o credit) s fun d => d.nominateOut o fun p => credit.getLsbD p

/-- CROSSBAR_CELL_TIME (R226, R228, R518). -/
def execCrossbarCellTime (s : State) : Host.Outcome State Fault Refusal := actIn pllT .crossbarCellTime s Dev.cellTime

/-! ## Dispatch and cut-through -/

/-- Targets 0 to 7 are the outputs of the port groups, 8 + n the spare's share for slice n (R19, R220); nothing crosses
a lost Dukider link (R22). -/
def Dev.dispatchTo (d : Dev) (target : Nat) : Dev :=
  if d.dukLost then d else if target < 8 then d.dispatchOut target else d.dispatchSpare (target - 8)

/-- DISPATCH (R225, R230, R245, R247). -/
def execDispatch (target : Fin 17) (s : State) : Host.Outcome State Fault Refusal := actIn pllT (.dispatch target) s fun d => d.dispatchTo target

/-- The flow-control charge of a packet is corrected to its true length (R97). -/
def Dev.correctCharge (d : Dev) (uid len : Nat) : Dev :=
  let h := d.hold uid
  if h.charged = 0 then d
  else (d.setHold uid { h with charged := len }).changeOcc h.port h.prio fun o => o - h.charged + len

/-- The counters of a frame whose tail comes bad (R93): oversize, and a failed FCS; a frame cut off because its port
left UP counts neither. -/
def Dev.countBadTail (d : Dev) (p : Nat) (frame : Bytes) (good : Bool) : Dev :=
  if (d.port p).st ≠ .up then d
  else
    let d1 := if d.maxFrame p < frame.length + 4 then d.inc (bankPort p) 8 else d
    if good then d1 else d1.inc (bankPort p) 6

/-- A frame whose tail has come: `good` says that its FCS passes and the port is still UP, and it is not too long. -/
def Dev.tailFits (d : Dev) (p : Nat) (frame : Bytes) (good : Bool) : Bool :=
  good && (d.port p).st = .up && frame.length + 4 ≤ d.maxFrame p

/-- The tail of a frame arrives (R93, R101, R231, R232): the MAC counts the frame whatever became of its head, which the device
may have dropped; a flow-control frame acts. -/
def Dev.tailArrives (d : Dev) (p : Nat) (frame : Bytes) (good : Bool) : Dev :=
  let d1 := d.openFrame p none
  match (d.port p).rxOpen with
  | none => d
  | some none =>
    if !d.tailFits p frame good then d1.countBadTail p frame good
    else if isPause frame ∨ isPfc frame then d1.pauseFrame p frame
    else d1
  | some (some uid) =>
    if d.tailFits p frame good then ((d1.countRx p frame).goodTail uid frame).correctCharge uid frame.length
    else ((d1.countBadTail p frame good).badTail uid frame).correctCharge uid frame.length

/-- CUT_THROUGH_TAIL (R231, R232). -/
def execCutThroughTail (p : Fin 128) (frame : Bytes) (good : Bool) (s : State) : Host.Outcome State Fault Refusal :=
  actIn pllLine (.cutThroughTail p frame good) s fun d => d.tailArrives p frame good

/-- REPLICATE (R233, R234). -/
def execReplicate (s : State) : Host.Outcome State Fault Refusal := actIn pllT .replicate s Dev.replicate

/-- The VOQs of a device that has stayed unreachable drop their packets at the head (R323). -/
def Dev.unreachDrop (d : Dev) (dev : Nat) : Dev :=
  if d.reach.getLsbD dev then d
  else ((d.busyQueues 2).filter fun i => i / 1024 = dev).foldl (fun d i =>
    ((d.queue (qKey 2 i)).pkts).foldl (fun d k => (d.inc bankTrl 13).dropPkt k) (d.setQueue (qKey 2 i) {})) d

/-- UNREACH_HEAD_DROP (R323): unreach_ms has passed for the device. -/
def execUnreachHeadDrop (dev : Fin 32) (s : State) : Host.Outcome State Fault Refusal := actIn pllT (.unreachHeadDrop dev) s fun d => d.unreachDrop dev

/-! ## TMQ_CMD (R240) -/

def tmqLimit (target : Nat) : Nat := [262144, 16384, 1024, 1024].getD target 0

/-- The bits of an entry that Table 8.10 does not list. -/
def tmqReserved (target : Nat) : BitVec 64 :=
  match target with
  | 0 => 0x4000000000000000#64
  | 1 => 0xFFFFFFFF00001FFF#64
  | 2 => 0x0000070000000000#64
  | _ => 0xFFFFFFFFFFF00000#64

/-- The queues of an endpoint group that hold packets. -/
def Dev.groupBusy (d : Dev) (g : Nat) : Bool := (d.busyQueues 1).any fun n => d.eqGroup n = g

/-- The write would change what packets are queued under (R240). -/
def Dev.tmqInUse (d : Dev) (target idx : Nat) (x : BitVec 64) : Bool :=
  match target with
  | 0 => fld x 61 48 ≠ d.eqGroup idx && !((d.queue (qKey 1 idx)).pkts == [])
  | 1 => fld x 30 21 ≠ fld (d.egEntry idx) 30 21 && d.groupBusy idx
  | _ => false

def Dev.tmqSet (d : Dev) (target idx : Nat) (x : BitVec 64) : Dev :=
  match target with
  | 0 => { d with qm := { d.qm with eq := Tbl.set 0#64 d.qm.eq idx (x ^^^ eqReset) } }
  | 1 => { d with qm := { d.qm with eg := Tbl.set 0#64 d.qm.eg idx (x ^^^ egReset) } }
  | 2 => { d with qm := { d.qm with node := Tbl.set 0#64 d.qm.node idx (x ^^^ nodeReset) } }
  | _ => { d with qm := { d.qm with ilimit := Tbl.set 0#64 d.qm.ilimit idx (x ^^^ ilimitReset) } }

def Dev.tmqGet (d : Dev) (target idx : Nat) : BitVec 64 :=
  match target with
  | 0 => d.eqEntry idx
  | 1 => d.egEntry idx
  | 2 => d.nodeEntry idx
  | _ => d.ilimitEntry idx

/-- TMQ_CMD ends with a result. -/
def Dev.tmqResult (d : Dev) (r : Nat) : Dev :=
  let d1 := d.setReg Reg.TMQ_CMD (put r 28)
  if r = 0 then d1 else d1.latchBit Reg.TMQ_STATUS 8

/-- TMQ_CMD op WRITE. -/
def Dev.tmqWrite (d : Dev) (target idx : Nat) : Dev :=
  let x := BitVec.ofNat 64 (d.dataWords Reg.TMQ_DATA 2)
  if tmqLimit target ≤ idx then d.tmqResult 1
  else if x &&& tmqReserved target ≠ 0#64 then d.tmqResult 2
  else if d.tmqInUse target idx x then d.tmqResult 3
  else (d.tmqSet target idx x).tmqResult 0

/-- TMQ_CMD op READ. -/
def Dev.tmqRead (d : Dev) (target idx : Nat) : Dev :=
  if tmqLimit target ≤ idx then d.tmqResult 1
  else (d.setDataWords Reg.TMQ_DATA 2 (d.tmqGet target idx).toNat).tmqResult 0

/-- TMQ_WRITE (R240). -/
def execTmqWrite (target : BitVec 2) (idx : BitVec 18) (s : State) : Host.Outcome State Fault Refusal :=
  actReg .bar0 Reg.TMQ_CMD (.tmqWrite target idx) s fun d => d.tmqWrite target.toNat idx.toNat

/-- TMQ_READ (R240). -/
def execTmqRead (target : BitVec 2) (idx : BitVec 18) (s : State) : Host.Outcome State Fault Refusal :=
  actReg .bar0 Reg.TMQ_CMD (.tmqRead target idx) s fun d => d.tmqRead target.toNat idx.toNat

/-! ## REPL_CMD (R240) -/

def replLimit (target : Nat) : Nat := if target = 0 then 65536 else 262144

/-- REPL_CMD ends with a result. -/
def Dev.replResult (d : Dev) (r : Nat) : Dev :=
  let d1 := d.setReg Reg.REPL_CMD (put r 28)
  if r = 0 then d1 else d1.latchBit Reg.REPL_STATUS 8

/-- The bits of an entry that Table 8.5 reserves, and those of a copy's target above its port or its device. -/
def replReserved (target : Nat) (x : BitVec 64) : BitVec 64 :=
  if target = 0 then 0x7FFC0000#64
  else match fld x 62 61 with
    | 0 => 0x000003FF80700000#64
    | 2 => 0x000003F000700000#64
    | _ => 0x0000000000700000#64

/-- REPL_CMD op WRITE: a group is the first word alone, a copy entry both (Table 8.5). -/
def Dev.replWrite (d : Dev) (target idx : Nat) : Dev :=
  let x := BitVec.ofNat 64 (d.dataWords Reg.REPL_DATA (if target = 0 then 1 else 2))
  if replLimit target ≤ idx then d.replResult 1
  else if x &&& replReserved target x ≠ 0#64 then d.replResult 2
  else if target = 0 then ({ d with qm := { d.qm with groups := Tbl.set 0#64 d.qm.groups idx x } }).replResult 0
  else ({ d with qm := { d.qm with copies := Tbl.set 0#64 d.qm.copies idx x } }).replResult 0

/-- REPL_CMD op READ. -/
def Dev.replRead (d : Dev) (target idx : Nat) : Dev :=
  if replLimit target ≤ idx then d.replResult 1
  else if target = 0 then (d.setDataWords Reg.REPL_DATA 1 (Tbl.get 0#64 d.qm.groups idx).toNat).replResult 0
  else (d.setDataWords Reg.REPL_DATA 2 (Tbl.get 0#64 d.qm.copies idx).toNat).replResult 0

/-- REPL_WRITE (R240). -/
def execReplWrite (target : Fin 2) (idx : BitVec 18) (s : State) : Host.Outcome State Fault Refusal :=
  actReg .bar0 Reg.REPL_CMD (.replWrite target idx) s fun d => d.replWrite target idx.toNat

/-- REPL_READ (R240). -/
def execReplRead (target : Fin 2) (idx : BitVec 18) (s : State) : Host.Outcome State Fault Refusal :=
  actReg .bar0 Reg.REPL_CMD (.replRead target idx) s fun d => d.replRead target idx.toNat

/-! ## TMQ_QSTAT -/

/-- A read of TMQ_QSTAT_BYTES latches TMQ_QSTAT_PKTS. -/
def Dev.readQstat (d : Dev) : Word × Dev :=
  let s := d.reg Reg.TMQ_QSTAT_SEL
  let x := d.queue (qKey (fld s 20 18) (fld s 17 0))
  (wd x.depth, { d with qm := { d.qm with qstat := wd (b2n x.evac * 2 ^ 31 + satN 24 x.pkts.length) } })

/-- QSTAT_READ (R240). -/
def execQstatRead (path : Path) (s : State) : Host.Outcome State Fault Refusal := actRead path Reg.TMQ_QSTAT_BYTES (.qstatRead path) s Dev.readQstat

end Sys2Proof.Machine
end

