-- ==== Sys2Proof/Machine/Spares.lean ====
section
/-! DEFINITION. The commands of the claim sequencer: hangs, racking, claims, draining, tasting, and SPR_FORCE (R403 to
R419, R428 to R431, R537). -/
namespace Sys2Proof.Machine

/-! ## Hang (R407, cause 2) -/

/-- A slice has accepted packets and has handed off or dropped none for hang_us. -/
def Dev.hung (d : Dev) (n : Nat) : Bool :=
  let t := fld (d.reg Reg.SPR_HANG) 15 0
  let x := d.slice n
  t ≠ 0 && x.st = .active && x.order ≠ [] && decide (x.lastOut + 1000 * t ≤ d.time.tsc)

/-- SLICE_HANG_TIMEOUT (R407). -/
def execSliceHangTimeout (n : Fin 9) (s : State) : Host.Outcome State Fault Refusal :=
  actIn pllF (.sliceHangTimeout n) s fun d => if d.hung n then d.declare n 2 else d

/-! ## Racking (R410 to R416) -/

/-- The spare's tasting has stopped: it enters RACKING (R410). -/
def Dev.rackBegins (d : Dev) : Dev :=
  match d.spr.rack with
  | none => d
  | some r =>
    if r.begun then d
    else
      let d1 := { d with spr := { d.spr with rack := some { r with begun := true }, tasting := false } }
      d1.modSlice r.spare fun x => { x with st := .racking, pg := some r.pg }

/-- RACKING_START (R410). -/
def execRackingStart (s : State) : Host.Outcome State Fault Refusal := actIn pllF .rackingStart s Dev.rackBegins

/-- Racking ends (R414): `ok` says that every line could be read; a lost racking region lets none. -/
def Dev.rackEnds (d : Dev) (ok : Bool) : Dev :=
  match d.spr.rack with
  | none => d
  | some r => if !r.begun then d else if ok ∧ !d.tableLost then d.claimWritten r else d.rackFail r

/-- RACKING_COMPLETE (R414). -/
def execRackingComplete (ok : Bool) (s : State) : Host.Outcome State Fault Refusal := actIn pllF (.rackingComplete ok) s fun d => d.rackEnds ok

/-- No claim has been written 2 ms after the declaration (R414). -/
def Dev.rackOverruns (d : Dev) : Dev :=
  match d.spr.rack with
  | none => d
  | some r => if r.since + 2 * 10 ^ 6 ≤ d.time.tsc then d.rackFail r else d

/-- RACKING_TIMEOUT (R414). -/
def execRackingTimeout (s : State) : Host.Outcome State Fault Refusal := actIn pllF .rackingTimeout s Dev.rackOverruns

/-- The sequencer enables a claim write of slice `n` for port group `g` (R403). -/
def Dev.claimEnabled (d : Dev) (n g : Nat) : Bool :=
  match d.spr.rack with
  | none => false
  | some r => r.begun && r.spare = n && r.pg = g

/-- CLAIM_WRITE_REFUSED (R403). -/
def execClaimWriteRefused (n : Fin 9) (g : Fin 8) (s : State) : Host.Outcome State Fault Refusal :=
  actIn pllF (.claimWriteRefused n g) s fun d => if d.claimEnabled n g then d else d.inc bankSpr 16

/-! ## Draining (R415, R416) -/

/-- A DRAINING slice holds no buffer, and no transfer of it is in flight. -/
def Dev.drained (d : Dev) (n : Nat) : Bool :=
  let x := d.slice n
  x.st = .draining && x.ingress == [] && x.order == [] && x.up == [] && x.down == [] && x.egress == [] &&
  !(d.bpm.bufs.any fun p => p.2.alloc && p.2.tag = n) && !(d.bpm.waiting.any fun r => r.tag = n)

/-- It becomes the spare, fit from entry (R419). -/
def Dev.drainDone (d : Dev) (n : Nat) : Dev :=
  if d.spr.cellar ∨ !d.drained n then d
  else
    let d1 := d.setSlice n { st := .spare, pg := none, srch := (d.slice n).srch }
    { d1 with spr := { d1.spr with fit := true, tasting := false, health := n, last := 0, rounds := 0 } }

/-- SLICE_DRAIN_COMPLETE (R415). -/
def execSliceDrainComplete (n : Fin 9) (s : State) : Host.Outcome State Fault Refusal := actIn pllF (.sliceDrainComplete n) s fun d => d.drainDone n

/-! ## Tasting (R417 to R419) -/

/-- A tasting round may begin. -/
def Dev.mayTaste (d : Dev) : Bool :=
  bit (d.reg Reg.SPR_CTRL) 0 && d.vint.started && !d.spr.cellar && !d.spr.tasting && d.fitSpare.isSome

/-- TASTING_ROUND_START (R417). -/
def execTastingRoundStart (s : State) : Host.Outcome State Fault Refusal :=
  actIn pllF .tastingRoundStart s fun d => if d.mayTaste then { d with spr := { d.spr with tasting := true } } else d

/-- Kind of a failure, with golden packet, byte and memory (Table 15.6). -/
def tasteCode : Taste → Nat × Nat × Nat × Nat
  | .pass => (1, 0, 0, 0)
  | .bist m => (2, 0, 0, m.toNat)
  | .mismatch p b => (3, p, b, 0)
  | .miscompare p => (4, p, 0, 0)

/-- A round fails: no spare is left (R419). -/
def Dev.tasteFails (d : Dev) (n : Nat) (c : Nat × Nat × Nat × Nat) : Dev :=
  let w := wd (c.1 * 2 ^ 28 + c.2.1 * 2 ^ 22 + c.2.2.1 * 2 ^ 16 + c.2.2.2)
  let d1 := { d with spr := { d.spr with last := c.1 } }
  let d2 := ((((d1.inc bankSpr 5).inc bankSpr 6).setReg Reg.SPR_TASTE_FAIL w).latchBit Reg.SPR_STATUS 8).spareUnfit n 4
  d2.logBit 0xC0 0 11 0 []

/-- A round ends (R418); one of a spare that a takeover has chosen is being stopped, and is not counted (R410). -/
def Dev.tasteEnds (d : Dev) (c : Nat × Nat × Nat × Nat) : Dev :=
  match d.spareSlice with
  | none => d
  | some n =>
    if !d.spr.tasting ∨ d.spr.rack.isSome then d
    else if c.1 = 1 then
      ({ d with spr := { d.spr with tasting := false, last := 1, rounds := satN 20 (d.spr.rounds + 1) } }).inc bankSpr 5
    else d.tasteFails n c

/-- TASTING_ROUND_END (R418, R419). -/
def execTastingRoundEnd (res : Taste) (s : State) : Host.Outcome State Fault Refusal :=
  actIn pllF (.tastingRoundEnd res) s fun d => d.tasteEnds (tasteCode res)

/-- TASTING_ROUND_TIMEOUT (R418). -/
def execTastingRoundTimeout (s : State) : Host.Outcome State Fault Refusal :=
  actIn pllF .tastingRoundTimeout s fun d => d.tasteEnds (5, 0, 0, 0)

/-! ## SPR_FORCE (R416, R429 to R431, R537) -/

/-- The register reads back what was written, with the result. -/
def Dev.forceResult (d : Dev) (v : Word) (r : Nat) : Dev :=
  d.setReg Reg.SPR_FORCE (setFld (v &&& 0xF0000F07#32) 27 24 r)

/-- op FAIL; before forwarding starts no slice is declared failed, and the op ends OK (R428; log entry 73). -/
def Dev.forceFail (d : Dev) (v : Word) (n : Nat) : Dev :=
  if d.spr.cellar then d.forceResult v 3
  else if 9 ≤ n then d.forceResult v 2
  else match (d.slice n).st with
    | .failed => d.forceResult v 5
    | .unfit => d.forceResult v 5
    | .racking =>
      let d1 := (d.setRack none).modSlice n fun x => { x with st := .unfit, cause := 3, pg := none }
      (((d1.inc bankSpr 7).latchBit Reg.SPR_STATUS 13).enterCellar 5).forceResult v 0
    | _ => (d.declare n 3).forceResult v 0

/-- The holder gives its port group up, to be moved (R416). -/
def Dev.beginMove (d : Dev) (k h g : Nat) : Dev :=
  let d1 := (d.fence h g).modSlice h fun x => { x with st := .draining, pg := none }
  d1.setRack (some { spare := k, pg := g, old := h, move := true, begun := false, since := d.time.tsc })

/-- op MOVE. -/
def Dev.forceMove (d : Dev) (v : Word) (g : Nat) : Dev :=
  if d.spr.cellar then d.forceResult v 3
  else match d.fitSpare, d.holder g with
    | some k, some h =>
      if 0xFFF0 ≤ d.spr.claims.getD g 0 then d.forceResult v 4
      else (d.beginMove k h g).forceResult v 0
    | _, _ => d.forceResult v 1

/-- op CELLAR. -/
def Dev.forceCellar (d : Dev) (v : Word) : Dev :=
  if d.spr.cellar then d.forceResult v 3
  else (d.enterCellar 5).forceResult v 0

/-- A move is still acting: a further force is ignored (R429). -/
def Dev.forceActs (d : Dev) : Bool :=
  match d.spr.rack with
  | some r => r.move
  | none => false

/-- A write of SPR_FORCE; one that is ignored (R429) still reads back (R431), with the result as it was. -/
def Dev.forceWrite (d : Dev) (v : Word) : Dev :=
  if d.forceActs then (d.inc bankSpr 17).forceResult v (fld (d.reg Reg.SPR_FORCE) 27 24)
  else match fld v 31 28 with
    | 1 => d.forceFail v (fld v 11 8)
    | 2 => d.forceMove v (fld v 2 0)
    | 3 => d.forceCellar v
    | _ => d.forceResult v (fld (d.reg Reg.SPR_FORCE) 27 24)

/-- SPR_FORCE_FAIL (R430). -/
def execSprForceFail (n : BitVec 4) (s : State) : Host.Outcome State Fault Refusal :=
  actLocked .bar0 Reg.SPR_FORCE 2 (.sprForceFail n) s fun d => d.forceWrite (wd (1 * 2 ^ 28 + n.toNat * 2 ^ 8))

/-- SPR_FORCE_MOVE (R416). -/
def execSprForceMove (g : Fin 8) (s : State) : Host.Outcome State Fault Refusal :=
  actLocked .bar0 Reg.SPR_FORCE 2 (.sprForceMove g) s fun d => d.forceWrite (wd (2 * 2 ^ 28 + g))

/-- SPR_FORCE_CELLAR (R421). -/
def execSprForceCellar (s : State) : Host.Outcome State Fault Refusal :=
  actLocked .bar0 Reg.SPR_FORCE 2 .sprForceCellar s fun d => d.forceWrite 0x30000000#32

end Sys2Proof.Machine
end

