-- ==== Sys2Proof/Machine/BusRead.lean ====
section
/-! DEFINITION. What a read of each register returns: the registers that show typed state, block by block, the reads with
side effects, and the 64-bit latch of each path (R44, R300, R301, R470, R489, R490 to R495, R501, R504, R510). -/
namespace Sys2Proof.Machine

/-- The number that a list of bits spells, the first lowest. -/
def bitsOf : List Bool → Nat
  | [] => 0
  | b :: bs => b2n b + 2 * bitsOf bs

/-! ## Registers that show typed state -/

/-- GLB_BOOT (Table 17.11). -/
def Dev.bootWord (d : Dev) : Word :=
  let b := d.boot
  let hi := b.step * 2 ^ 28 + b2n b.tdieReady * 2 ^ 27 + b2n b.fdieReady * 2 ^ 26 + b2n b.hostWait * 2 ^ 25 + b2n b.cfgAbsent * 2 ^ 24
  let lo := b2n b.recovery * 2 ^ 23 + b2n b.fallback * 2 ^ 22 + b.slot * 2 ^ 21 + b.calValid.toNat * 2 ^ 16 + b.fail * 2 ^ 8
  wd (hi + lo + b2n b.early * 2 + b2n d.vint.started)

/-- GLB_CFG_END (Table 17.11). -/
def Dev.cfgEndWord (d : Dev) : Word :=
  wd (d.boot.endCause * 2 ^ 29 + d.boot.half * 2 ^ 28 + d.boot.selected * 2 ^ 27 + d.boot.endOff % 2 ^ 26)

/-- GLB registers (Tables 17.11 and 18.5). -/
def Dev.liveGlb (d : Dev) (off : Nat) : Option Word :=
  match off with
  | 0x08 => some (d.lock.zeroExtend 32)
  | 0x14 => some d.bootWord
  | 0x1C => some d.cfgEndWord
  | 0x2C => some (wd d.optime)
  | 0x30 => some (wd d.mgmt.pcc)
  | 0x48 => some (d.boot.plls.zeroExtend 32)
  | _ => none

/-- TIME registers (Table 2.1). -/
def Dev.liveTime (d : Dev) (off i : Nat) : Option Word :=
  match off with
  | 0x04 =>
    some (setFld (d.reg Reg.TIME_STATUS) 4 0 (b2n d.time.indirect * 16 + b2n d.timeValid * 8 + d.time.state.code))
  | 0x0C => some (slewRead d.time.slewRem)
  | 0x14 => some d.time.nowSecLo
  | 0x18 => some d.time.nowHi
  | 0x4C => some d.time.ppsCaptSec
  | 0x104 => some (d.time.txtsLatch.getD (i - 1) 0#32)
  | _ => none

/-- PG_FC_STATUS (Table 3.3). -/
def Port.fcWord (x : Port) : Word := wd (bitsOf x.paused * 2 ^ 24 + bitsOf x.wdog * 2 ^ 16 + bitsOf (if x.fcMode = 1 then List.replicate 8 (x.xoff.getD 0 false) else x.xoff) * 2 ^ 8)

/-- PG registers of port `p` (Table 3.3). -/
def Dev.livePg (d : Dev) (off p : Nat) : Option Word :=
  match off with
  | 0x1008 => some (setFld (d.reg (Reg.PG_PORT_STATE p)) 7 0 ((d.port p).reason * 16 + (d.port p).st.code))
  | 0x1014 => some (d.port p).fcWord
  | _ => none

/-- SL_VNT_STATE (Table 6.9). -/
def Dev.vntWord (d : Dev) : Word :=
  let v := d.vint
  wd (b2n v.started * 2 ^ 31 + b2n v.old.isSome * 2 ^ 8 + v.old.getD 0 * 2 ^ 4 + v.current)

/-- Slice registers that show typed state. -/
def Dev.liveSlice (d : Dev) (off i : Nat) : Option Word :=
  match off with
  | 0x3004 => some d.vntWord
  | 0x3040 => some (wd (d.inflight i))
  | 0x3184 => some (wd d.vint.epoch)
  | _ => none

/-- BPM registers (Table 7.6). -/
def Dev.liveBpm (d : Dev) (off i j k : Nat) : Option Word :=
  match off with
  | 0x10 =>
    some (if d.bpm.auditing then setFld (d.reg Reg.BPM_AUDIT_STATUS) 31 30 (2 + b2n d.bpm.sweeping) else d.reg Reg.BPM_AUDIT_STATUS)
  | 0x108 => some (wd (b2n (Tbl.get false d.bpm.ready (4 * i + j)) * 2 ^ 31 + d.poolFree (if i = 0 then j else 8 + j)))
  | 0x10C => some (wd (Tbl.get 0 d.bpm.retired (4 * i + j)))
  | 0x210 => some (wd (d.poolFree (4 + i)))
  | 0x1400 => some (wd (d.heldReg i j k))
  | _ => none

/-- SHP_GATE_STATE (Table 9.9). -/
def Dev.gateWord (d : Dev) (p : Nat) : Word :=
  wd (b2n d.timeValid * 2 ^ 31 + d.gateBank p * 2 ^ 30 + d.gateMask p * 2 ^ 16 + d.gateEntryNow p % 1024)

/-- Registers of the queue manager, the scheduler, shapers and meters. -/
def Dev.liveQueueing (d : Dev) (b : Block) (off i : Nat) : Option Word :=
  match b, off with
  | .tmq, 0x38 => some d.qm.qstat
  | .schd, 0x10 => some (wd (Tbl.get 0 d.qm.grant i * 16 + Tbl.get 0 d.qm.accept i))
  | .shp, 0x400 => some (d.gateWord i)
  | .mtr, 0x38 => some d.gsm.bktP
  | _, _ => none

/-- MC_CHAN (Table 13.8). -/
def Dev.chanWord (d : Dev) (k c : Nat) : Word :=
  let x := d.chan k c
  wd (b2n x.failed * 2 ^ 31 + b2n x.out * 2 ^ 30 + x.pd.toNat * 2 ^ 28 + satN 16 ((d.time.tsc - x.lastRetrain) / 100000))

/-- MC_STATE (Table 13.8). -/
def Dev.mcWord (d : Dev) (k : Nat) : Word :=
  let m := d.mcOf k
  wd (m.st.code * 2 ^ 28 + m.cause * 2 ^ 24 + bitsOf ((List.range 16).map fun c => (m.chan c).failed))

/-- Registers of memory controller `k`. -/
def Dev.liveMc (d : Dev) (off k i : Nat) : Option Word :=
  match off with
  | 0x08 => some (d.mcWord k)
  | 0x40 => some (d.chanWord k i)
  | _ => none

/-- TRL_DEFECT_SUM (Table 10.7): OFF, or a defect of rank 1 to 8. Every link is OFF after reset, where the register holds 0; it
holds it until the configuration image has been loaded (R11, R469; log entry 130, DESIGN CHOICE). -/
def Dev.defectSum (d : Dev) (w : Nat) : Word :=
  if d.boot.step < 6 then 0#32
  else wd (bitsOf ((List.range 32).map fun k => let x := d.link (32 * w + k); x.align = 0 || fld x.defects 9 1 ≠ 0))

/-- TRL_MGR_STATE (Table 12.5). -/
def Dev.mgrWord (d : Dev) : Word :=
  let f := d.fab
  wd (b2n d.candidate * 2 ^ 30 + (if d.candidate then f.role else 0) * 2 ^ 28 + b2n (f.obeyed ≠ 0) * 2 ^ 27 + claimDev f.obeyed * 2 ^ 16 + f.obeyed)

/-- TRL_MGR_SNAP and TRL_MGR_TIME_LINK (Table 12.5). -/
def Dev.snapWord (d : Dev) : Word :=
  match d.heldSnap with
  | some mfc => wd (2 ^ 31 + mfc % 2 ^ 24)
  | none => 0#32

def Dev.timeLinkWord (d : Dev) : Word :=
  match d.fab.timeLink with
  | some t => wd (2 ^ 31 + b2n t.2 * 2 ^ 30 + t.1)
  | none => 0#32

/-- TRL registers. -/
def Dev.liveTrl (d : Dev) (off i : Nat) : Option Word :=
  match off with
  | 0x10 => some (d.defectSum i)
  | 0x11C => some d.reach
  | 0x208 => some d.mgrWord
  | 0x20C => some d.snapWord
  | 0x210 => some d.timeLinkWord
  | _ => none

/-- A 64-bit count of a bin, by word offset (Table 10.9). -/
def PmBin.wide (b : PmBin) (off : Nat) : Option Nat :=
  match off / 8 with
  | 3 => some b.bbe
  | 4 => some b.corr
  | 5 => some b.uncorr
  | 6 => some b.drops
  | _ => none

/-- A word of a bin (Table 10.9). -/
def PmBin.word (b : PmBin) (off : Nat) : Word :=
  match off with
  | 0x00 => wd b.start
  | 0x04 => wd (b2n b.exists_ * 2 ^ 31 + b2n b.suspect * 2 ^ 30 + b.secs)
  | 0x08 => wd b.es
  | 0x0C => wd b.ses
  | 0x10 => wd b.uas
  | _ => match b.wide off with
    | some x => if off % 8 = 0 then wd x else wd (x / 2 ^ 32)
    | none => 0#32

/-- The bin that a read of bin `i` sees: bins 0 and 17 as their start word latched them (R301). -/
def Link.binSeen (x : Link) (i : Nat) : PmBin :=
  if i = 0 then x.binLatch.1 else if i = 17 then x.binLatch.2 else x.pmBins.getD i {}

/-- TRL_LINK_CAL_TX and TRL_LINK_CAL_RX (Table 11.6). -/
def Dev.pageWord (d : Dev) (n dir : Nat) : Word :=
  match (d.link n).page dir with
  | some p => wd (2 ^ 31 + p * 2 ^ 30 + d.gen n dir p)
  | none => 0#32

/-- TRL_LINK_CAL_REQ (Table 11.6). -/
def Link.reqWord (x : Link) : Word :=
  match x.rxPersist with
  | some r => wd (2 ^ 31 + fld r 62 61 * 2 ^ 29 + fld r 60 60 * 2 ^ 28 + fld r 27 0)
  | none => 0#32

/-- TRL_LINK_NBR (Table 10.8). -/
def Link.nbrWord (x : Link) : Word := wd (b2n x.nbrValid * 2 ^ 31 + x.nbrDev * 2 ^ 24 + x.nbrLink * 2 ^ 16 + x.nbrGen)

/-- Registers of link `n`. -/
def Dev.liveLink (d : Dev) (off n : Nat) : Option Word :=
  let x := d.link n
  match off with
  | 0x08 => some (wd (x.align * 2 ^ 28 + x.defects.toNat))
  | 0x0C => some x.nbrWord
  | 0x24 => some x.ttLatch.1
  | 0x28 => some x.ttLatch.2
  | 0x30 => some (d.pageWord n 0)
  | 0x34 => some (d.pageWord n 1)
  | 0x38 => some x.reqWord
  | 0x3C => some (wd x.phase)
  | _ => none

/-- HOST_PCIE_STATE (Table 14.12). -/
def HostIf.pcieWord (h : HostIf) : Word :=
  wd (h.speed * 2 ^ 28 + h.width * 2 ^ 23 + h.link * 2 ^ 20 + (if h.d3 then 3 else 0) * 2 ^ 18 + b2n h.bme * 2 ^ 16)

/-- HOST_CQ_STATE (Table 14.12). -/
def Cq.stateWord (x : Cq) : Word := wd (b2n x.phase * 2 ^ 30 + satN 13 x.held.length * 2 ^ 16 + x.tail)

/-- HOST_SQ_STATE (Table 14.12). -/
def Sq.stateWord (x : Sq) : Word := wd (b2n (x.st = .disabled) * 2 ^ 31 + x.st.code * 2 ^ 28 + b2n x.phase * 2 ^ 27 + x.head)

/-- HOST_VEC_STATE (Table 14.12). -/
def Vec.stateWord (x : Vec) : Word := wd (b2n (x.unsig ≠ 0) * 2 ^ 31 + satN 16 x.unsig)

/-- HOST registers. -/
def Dev.liveHost (d : Dev) (off i : Nat) : Option Word :=
  match off with
  | 0x08 => some d.host.pcieWord
  | 0x0C => some (wd (d.inflightAll * 2 ^ 16 + d.heldAll))
  | 0x10010 => some (d.cq i).stateWord
  | 0x10014 => some (wd (d.cq i).head)
  | 0x40004 => some (d.vec i).stateWord
  | 0x80010 => some (d.sq i).stateWord
  | 0x80014 => some (wd ((d.sq i).lastErr * 2 ^ 24 + (d.sq i).tailSeen))
  | _ => none

/-- MGMT registers (Table 16.6). -/
def Dev.liveMgmt (d : Dev) (off i : Nat) : Option Word :=
  match off with
  | 0x08 => some d.fwStateWord
  | 0x0C => some d.fuseWord
  | 0x10 => some (Config.factorySerial i)
  | 0x20 => some d.evtInfoWord
  | 0x28 => some (wd d.mgmt.power)
  | 0x2C => some d.mgmt.trip
  | 0x40 => some d.mbxCmdWord
  | 0x44 => some d.mbxLenWord
  | 0x100 => some (d.tempWord i)
  | 0x200 => some (d.vmonWord i)
  | _ => none

/-- CNT registers (Table 19.6). -/
def Dev.liveCnt (d : Dev) (off i : Nat) : Option Word :=
  match off with
  | 0x10 => some (wd (b2n (d.harv.active ≠ []) * 2 ^ 31 + d.hvPending))
  | 0x14 => some (wd d.harv.seq)
  | 0x44 => some (d.harv.mtrData.getD i 0#32)
  | _ => none

/-- Code of Table 15.3. -/
def SState.code : SState → Nat
  | .active => 0 | .spare => 1 | .racking => 2 | .failed => 3 | .unfit => 4 | .draining => 5

/-- SPR_SLICE (Table 15.6). -/
def Dev.sliceWord (d : Dev) (n : Nat) : Word :=
  let x := d.slice n
  wd (x.st.code * 2 ^ 28 + b2n (x.pg.any fun g => d.holder g == some n) * 2 ^ 27 + x.pg.getD 0 * 2 ^ 24 + x.cause * 2 ^ 16 + satN 8 (d.miscompares n))

/-- SPR_PG (Table 15.6). -/
def Dev.pgWord (d : Dev) (g : Nat) : Word :=
  let h := d.holder g
  wd (b2n h.isSome * 2 ^ 31 + h.getD (d.spr.lastHolder.getD g 0) * 2 ^ 16 + d.spr.claims.getD g 0)

/-- SPR registers. -/
def Dev.liveSpr (d : Dev) (off i : Nat) : Option Word :=
  let s := d.spr
  match off with
  | 0x08 =>
    let sp := d.spareSlice
    some (wd (b2n s.cellar * 2 ^ 31 + s.cellarCause * 2 ^ 28 + b2n (!(s.fit && sp.isSome)) * 2 ^ 27 + sp.getD 15))
  | 0x10 => some (wd (b2n s.fit * 2 ^ 31 + b2n s.tasting * 2 ^ 30 + s.health * 2 ^ 24 + s.last * 2 ^ 20 + s.rounds))
  | 0x100 => some (d.sliceWord i)
  | 0x200 => some (d.pgWord i)
  | _ => none

/-- The value of a register that shows typed state. -/
def Dev.live (d : Dev) (h : RegHit) : Option Word :=
  let i := h.idx.getD 0 0
  match h.block with
  | .glb => d.liveGlb h.row.off
  | .time => d.liveTime h.row.off i
  | .lnch => if h.row.off = 0x0C then some (wd d.lnchFree) else none
  | .pg => d.livePg h.row.off (16 * h.inst + i)
  | .slice => d.liveSlice h.row.off i
  | .bpm => d.liveBpm h.row.off i (h.idx.getD 1 0) (h.idx.getD 2 0)
  | .tmq => d.liveQueueing .tmq h.row.off i
  | .schd => d.liveQueueing .schd h.row.off i
  | .shp => d.liveQueueing .shp h.row.off i
  | .mtr => d.liveQueueing .mtr h.row.off i
  | .repl => none
  | .mc => d.liveMc h.row.off h.inst i
  | .trl => d.liveTrl h.row.off i
  | .link => d.liveLink h.row.off h.inst
  | .host => d.liveHost h.row.off i
  | .mgmt => d.liveMgmt h.row.off i
  | .cnt => d.liveCnt h.row.off i
  | .spr => d.liveSpr h.row.off i

/-- The word a register holds or shows now, without what reading it does. -/
def Dev.peek (d : Dev) (h : RegHit) : Word := (d.live h).getD (d.reg h.key)

/-! ## 64-bit values (R501) -/

/-- Load a path's latch with the high word at `key`. -/
def Dev.loadLatch (d : Dev) (p : Path) (key : Nat) (v : Word) : Dev :=
  { d with latch := Tbl.set (0, 0#32) d.latch (pathCode p) (key, v) }

/-- A high word as a path reads it: its latch when that holds this value's high word, else the live one. -/
def Dev.highWord (d : Dev) (p : Path) (key : Nat) (v : Word) : Word :=
  let l := Tbl.get (0, 0#32) d.latch (pathCode p)
  if l.1 = key then l.2 else v

/-- The half of a plain 64-bit value a register is: 1 the low word, 2 the high word, 0 neither. -/
def pairHalf (h : RegHit) : Nat :=
  match h.block, h.row.off with
  | .host, 0x10000 => 1
  | .host, 0x10004 => 2
  | .host, 0x80000 => 1
  | .host, 0x80004 => 2
  | .host, 0x80018 => 1
  | .host, 0x8001C => 2
  | .slice, 0x6020 => 1 + h.idx.getD 0 0 % 2
  | .cnt, 0x44 => 1 + h.idx.getD 0 0 % 2
  | _, _ => 0

/-- A read of a plain register or of a 64-bit value's half. -/
def Dev.readPlain (d : Dev) (p : Path) (h : RegHit) : Word × Dev :=
  let v := d.peek h
  match pairHalf h with
  | 1 =>
    let high := match decodeReg (h.key + 4) with
      | some g => d.peek g
      | none => 0#32
    (v, d.loadLatch p (h.key + 4) high)
  | 2 => (d.highWord p h.key v, d)
  | _ => (v, d)

/-- A read of word `w` of bin `i` of link `n` at offset `key` (R301). -/
def Dev.readBinWord (d : Dev) (p : Path) (n i w key : Nat) : Word × Dev :=
  if w = 0 ∧ (i = 0 ∨ i = 17) then d.readBin n (i = 17)
  else
    let b := (d.link n).binSeen i
    match b.wide (4 * w) with
    | some x => if w % 2 = 0 then (wd x, d.loadLatch p (key + 4) (wd (x / 2 ^ 32))) else (d.highWord p key (wd (x / 2 ^ 32)), d)
    | none => (b.word (4 * w), d)

/-- The bank and index of a counter register. -/
def counterOf (h : RegHit) : Option (Nat × Nat) :=
  match h.row.bank with
  | some f => some (f h.inst h.idx, h.idx.getLastD 0)
  | none =>
    match h.block, h.row.off with
    | .repl, 0x1018 => some (bankSess, h.idx.getD 0 0)
    | .repl, 0x4000 => some (bankSess, 64 + h.idx.getD 0 0)
    | _, _ => none

/-- A read of a register that is no counter. -/
def Dev.readReg (d : Dev) (p : Path) (h : RegHit) : Word × Dev :=
  match h.block, h.row.off with
  | .time, 0x10 => d.readNow
  | .time, 0x48 => d.readCapt
  | .time, 0x104 => if h.idx.getD 0 0 = 0 then d.readTxTs else d.readPlain p h
  | .tmq, 0x34 => d.readQstat
  | .shp, 0x34 => d.readCred
  | .mtr, 0x34 => d.readBkt
  | .link, 0x20 => d.readTtOffset h.inst
  | .link, 0x800 => d.readBinWord p h.inst (h.idx.getD 0 0) (h.idx.getD 1 0) h.key
  | _, _ => d.readPlain p h

/-- An access used ignored offset bits (R494). -/
def Dev.noteAlias (d : Dev) (h : RegHit) : Dev := if h.alias_ then (d.inc bankGlb 2).latchBit Reg.GLB_STATUS 11 else d

/-- A register is read. -/
def Dev.readHit (d : Dev) (p : Path) (h : RegHit) : Word × Dev :=
  match counterOf h with
  | some (b, i) => d.readCounter (pathCode p) h.key b i
  | none => d.readReg p h

/-- One read access (R490 to R495). -/
def Dev.busRead (d : Dev) (p : Path) (off : Nat) : Word × Dev :=
  if d.silent off then (0xFFFFFFFF#32, d)
  else if fdieOffset off ∧ !d.fdieUp then (0xFFFFFFFF#32, d.fdieRefuse p off)
  else match decodeReg off with
    | none => (0#32, d.noRegister p off)
    | some h =>
      let r := d.readHit p h
      (r.1, r.2.noteAlias h)

end Sys2Proof.Machine
end

