-- ==== Sys2Proof/Machine/Slices.lean ====
section
/-! DEFINITION. The commands of the slices: the ingress pipeline, reloads, and the command registers SL_PRS_CMD,
SL_MS_CMD and SL_AS_CMD (R16, R19, R114, R123 to R125, R140, R141, R146 to R148, R150, R158 to R161, R537). -/
namespace Sys2Proof.Machine

/-! ## The pipeline -/

/-- INGRESS_ACCEPT (R16, R103, R110): `parityBad` names the transition entries whose parity fails in this slice. -/
def execIngressAccept (n : Fin 9) (parityBad : List (Fin 512)) (s : State) : Host.Outcome State Fault Refusal :=
  actIn pllF (.ingressAccept n parityBad) s fun d => d.ingressAccept n (parityBad.map fun e => e.val)

/-- The entry is reloaded from the golden copy in one ingress slot, counted as SLOT_MAINT (R114). -/
def Dev.pressReloaded (d : Dev) (n e : Nat) : Dev :=
  if (d.slice n).pressReload.contains e then
    (d.modSlice n fun x => { x with pressReload := x.pressReload.filter (· != e) }).slot n 2
  else d

/-- PRESS_ENTRY_RELOAD (R114). -/
def execPressEntryReload (n : Fin 9) (e : Fin 512) (s : State) : Host.Outcome State Fault Refusal :=
  actIn pllF (.pressEntryReload n e) s fun d => d.pressReloaded n e

/-- DRAM_LOOKUP_RESPONSE (R140, R350 to R356): `ecc` is what the line has in errors. -/
def execDramLookupResponse (n : Fin 9) (ecc : DramEcc) (s : State) : Host.Outcome State Fault Refusal :=
  actIn pllF (.dramLookupResponse n ecc) s fun d => d.lookupResponse n ecc (.dramLookupResponse n ecc)

/-- A line of a slice's stage memory is read again from its DRAM master, which takes no ingress slot (R141). -/
def Dev.refetch (d : Dev) (n line : Nat) : Dev :=
  if (d.slice n).badLines.contains line ∧ d.lineAlive rTable line then
    let d1 := d.modSlice n fun x => { x with badLines := x.badLines.filter (· != line) }
    { d1 with smem := Tbl.setRun 0#8 d1.smem (smemKey n (64 * line)) (d1.dramRead rTable (64 * line) 64) }.countReads rTable (64 * line) 64
  else d

/-- STAGE_MEMORY_REFETCH (R141). -/
def execStageMemoryRefetch (n : Fin 9) (line : Nat) (s : State) : Host.Outcome State Fault Refusal :=
  actIn pllF (.stageMemoryRefetch n line) s fun d => d.refetch n line

/-- An ingress slot taken by R146, R147 or R148. -/
def Dev.steal (d : Dev) (n : Nat) : Dev := (d.slot n 2).inc (bankStage n) 30

/-- The associative entry is reloaded from the golden copy (R146). -/
def Dev.assocReloaded (d : Dev) (n e : Nat) : Dev :=
  if (d.slice n).assocReload.contains e then
    (d.modSlice n fun x => { x with assocReload := x.assocReload.filter (· != e) }).steal n
  else d

/-- ASSOC_ENTRY_RELOAD (R146). -/
def execAssocEntryReload (n : Fin 9) (e : Fin 32768) (s : State) : Host.Outcome State Fault Refusal :=
  actIn pllF (.assocEntryReload n e) s fun d => d.assocReloaded n e

/-- ACTION_RESOLVE (R150, R155): `fault` is what the hardware of the stages and the resolver did wrong, if anything. -/
def execActionResolve (n : Fin 9) (fault : ResolveFault) (s : State) : Host.Outcome State Fault Refusal :=
  actIn pllF (.actionResolve n fault) s fun d => d.actionResolve n fault

/-- DUKIDER_HANDOFF (R16, R19, R152). -/
def execDukiderHandoff (n : Fin 9) (s : State) : Host.Outcome State Fault Refusal := actIn pllF (.dukiderHandoff n) s fun d => d.dukHandoff n

/-- EGRESS_EDIT (R156 to R158, R170, R406). -/
def execEgressEdit (n : Fin 9) (s : State) : Host.Outcome State Fault Refusal := actIn pllF (.egressEdit n) s fun d => d.egressEdit n

/-! ## SL_PRS_CMD (R123, R124) -/

/-- The offset of a register of window S0 as seen through window `n`. -/
def viaSlice (key n : Nat) : Nat := key + 0x40000 * n

/-- End a command with a result (R537): one other than OK sets cmd_refused in the status register `st`. -/
def Dev.cmdResult (d : Dev) (cmd st r : Nat) : Dev :=
  let d1 := d.setReg cmd (put r 28)
  if r = 0 then d1 else d1.latchBit st 8

/-- The mask of a transition entry's vint fields. -/
def pressVints : BitVec 256 := itemMask 183 176

/-- SL_PRS_CMD op WRITE through window `n`. -/
def Dev.prsWrite (d : Dev) (n idx : Nat) : Dev :=
  let x := d.stage256 Reg.SL_PRS_STAGE
  let fin (d : Dev) (r : Nat) := d.cmdResult Reg.SL_PRS_CMD (Reg.SL_PRS_STATUS n) r
  if 512 ≤ idx then fin d 1
  else if pressBad x then fin d 2
  else if !seesSame d.liveVints pressVints pressValid (Tbl.get 0#256 d.prog.press idx) x then fin d 3
  else fin { d with prog := { d.prog with press := Tbl.set 0#256 d.prog.press idx x } } 0

/-- SL_PRS_CMD op READ. -/
def Dev.prsRead (d : Dev) (n idx : Nat) : Dev :=
  let fin (d : Dev) (r : Nat) := d.cmdResult Reg.SL_PRS_CMD (Reg.SL_PRS_STATUS n) r
  if 512 ≤ idx then fin d 1 else fin (d.setStage256 Reg.SL_PRS_STAGE (Tbl.get 0#256 d.prog.press idx)) 0

/-- PRS_WRITE (R123). -/
def execPrsWrite (n : Fin 9) (idx : BitVec 10) (s : State) : Host.Outcome State Fault Refusal :=
  actReg .bar0 (viaSlice Reg.SL_PRS_CMD n) (.prsWrite n idx) s fun d => d.prsWrite n idx.toNat

/-- PRS_READ (R123). -/
def execPrsRead (n : Fin 9) (idx : BitVec 10) (s : State) : Host.Outcome State Fault Refusal :=
  actReg .bar0 (viaSlice Reg.SL_PRS_CMD n) (.prsRead n idx) s fun d => d.prsRead n idx.toNat

/-! ## SL_MS_CMD (R159 to R161) -/

/-- Items of a target: stage records, descriptors, edit programs, edit data. -/
def msLimit (target : Nat) : Nat := [32, 64, 256, 4096].getD target 0

/-- BAD_INDEX of SL_MS_CMD (R161): edit program 0 cannot be named. -/
def msBadIndex (target idx : Nat) : Bool := msLimit target ≤ idx || (target = 2 && idx = 0)

/-- A record valid for a live vintage uses a descriptor (R161). -/
def Dev.descInUse (d : Dev) (desc : Nat) : Bool :=
  d.prog.records.any fun p => recKind p.2 ≠ 0 && recDesc p.2 = desc && d.liveVints.any fun v => recValid p.2 v

/-- The 64 staged bytes of an edit data entry, byte 0 first (Table 5.11). -/
def Dev.stagedEditData (d : Dev) : Bytes := (List.range 16).flatMap fun j => wordBytes (d.reg (Reg.SL_MS_STAGE j))

/-- The result of a WRITE and the program after it. -/
def Dev.msWriteItem (d : Dev) (target idx : Nat) : Nat × Program :=
  let x := d.stage256 Reg.SL_MS_STAGE
  let p := d.prog
  match target with
  | 0 =>
    if recBad p idx x then (2, p)
    else if !seesSame d.liveVints (itemMask 252 245) recValid (Tbl.get 0#256 p.records idx) x then (3, p)
    else (0, { p with records := Tbl.set 0#256 p.records idx x })
  | 1 =>
    if descBad p.descs idx (d.regionLines rTable) x then (2, p)
    else if d.descInUse idx then (5, p)
    else (0, { p with descs := Tbl.set 0#256 p.descs idx x })
  | 2 =>
    if editBad x then (2, p)
    else if !seesSame d.liveVints (itemMask 255 248) editValid (Tbl.get 0#256 p.edits idx) x then (3, p)
    else (0, { p with edits := Tbl.set 0#256 p.edits idx x })
  | _ => (0, { p with editData := Tbl.set 0#512 p.editData idx (BitVec.ofNat 512 (unbe d.stagedEditData)) })

/-- SL_MS_CMD op WRITE through window `n`. -/
def Dev.msWrite (d : Dev) (n target idx : Nat) : Dev :=
  if msBadIndex target idx then d.cmdResult Reg.SL_MS_CMD (Reg.SL_MS_STATUS n) 1
  else
    let r := d.msWriteItem target idx
    { d with prog := r.2 }.cmdResult Reg.SL_MS_CMD (Reg.SL_MS_STATUS n) r.1

/-- Sixteen staging words from 64 bytes. -/
def Dev.setStagedEditData (d : Dev) (bs : Bytes) : Dev :=
  (List.range 16).foldl (fun d j => d.setReg (Reg.SL_MS_STAGE j) (wd (unle (Machine.slice bs (4 * j) 4)))) d

/-- SL_MS_CMD op READ. -/
def Dev.msRead (d : Dev) (n target idx : Nat) : Dev :=
  if msBadIndex target idx then d.cmdResult Reg.SL_MS_CMD (Reg.SL_MS_STATUS n) 1
  else
    let d1 := match target with
      | 0 => d.setStage256 Reg.SL_MS_STAGE (Tbl.get 0#256 d.prog.records idx)
      | 1 => d.setStage256 Reg.SL_MS_STAGE (Tbl.get 0#256 d.prog.descs idx)
      | 2 => d.setStage256 Reg.SL_MS_STAGE (Tbl.get 0#256 d.prog.edits idx)
      | _ => d.setStagedEditData (be 64 (Tbl.get 0#512 d.prog.editData idx).toNat)
    d1.cmdResult Reg.SL_MS_CMD (Reg.SL_MS_STATUS n) 0

/-- MS_WRITE (R161). -/
def execMsWrite (n : Fin 9) (target : BitVec 2) (idx : BitVec 12) (s : State) : Host.Outcome State Fault Refusal :=
  actReg .bar0 (viaSlice Reg.SL_MS_CMD n) (.msWrite n target idx) s fun d => d.msWrite n target.toNat idx.toNat

/-- MS_READ (R161). -/
def execMsRead (n : Fin 9) (target : BitVec 2) (idx : BitVec 12) (s : State) : Host.Outcome State Fault Refusal :=
  actReg .bar0 (viaSlice Reg.SL_MS_CMD n) (.msRead n target idx) s fun d => d.msRead n target.toNat idx.toNat

/-! ## SL_AS_CMD (R143, R147, R148, R161) -/

/-- Staged words as one number, little-endian. -/
def Dev.stagedNat (d : Dev) (base : Nat → Nat) (n : Nat) : Nat :=
  (List.range n).foldr (fun j acc => (d.reg (base j)).toNat + 2 ^ 32 * acc) 0

/-- The staged associative entry. -/
def Dev.stagedAssoc (d : Dev) : AssocEntry :=
  let c := d.reg Reg.SL_AS_ENT_CTRL
  { key := BitVec.ofNat 320 (d.stagedNat Reg.SL_AS_KEY 10), mask := BitVec.ofNat 320 (d.stagedNat Reg.SL_AS_MASK 10),
    act := BitVec.ofNat 64 (d.stagedNat Reg.SL_AS_ACT 2), valid := bit c 31, vFirst := fld c 7 4, vLast := fld c 3 0 }

/-- Put an entry into the staging registers. -/
def Dev.setStagedAssoc (d : Dev) (e : AssocEntry) : Dev :=
  let put' (d : Dev) (base : Nat → Nat) (n x : Nat) : Dev :=
    (List.range n).foldl (fun d j => d.setReg (base j) (wd (x >>> (32 * j)))) d
  let d1 := put' (put' (put' d Reg.SL_AS_KEY 10 e.key.toNat) Reg.SL_AS_MASK 10 e.mask.toNat) Reg.SL_AS_ACT 2 e.act.toNat
  d1.setReg Reg.SL_AS_ENT_CTRL (wd (b2n e.valid * 2 ^ 31 + e.vFirst * 16 + e.vLast))

/-- An associative entry is valid for a vintage (R144). -/
def AssocEntry.validFor (e : AssocEntry) (v : Nat) : Bool := e.valid && vintIn v e.vFirst e.vLast

/-- The test of R124 on two associative entries (R147). -/
def assocSame (live : List Nat) (a b : AssocEntry) : Bool :=
  live.all fun v => (!a.validFor v && !b.validFor v) ||
    (a.validFor v && b.validFor v && a.key == b.key && a.mask == b.mask && a.act == b.act)

/-- Install an entry: golden copy first, then every serving slice in one ingress slot each (R147). -/
def Dev.installAssoc (d : Dev) (idx : Nat) (e : AssocEntry) : Dev :=
  let d1 : Dev := { d with prog := { d.prog with assoc := Tbl.set {} d.prog.assoc idx e } }
  (List.range 9).foldl (fun d k => if (d.slice k).serving then d.steal k else d) d1

def Dev.asResult (d : Dev) (n r : Nat) : Dev := d.cmdResult Reg.SL_AS_CMD (Reg.SL_MS_STATUS n) r

/-- SL_AS_CMD op WRITE. -/
def Dev.asWrite (d : Dev) (n idx : Nat) : Dev :=
  let e := d.stagedAssoc
  if e.valid ∧ e.key &&& e.mask ≠ e.key then d.asResult n 2
  else if !assocSame d.liveVints (Tbl.get {} d.prog.assoc idx) e then d.asResult n 3
  else (d.installAssoc idx e).asResult n 0

/-- SL_AS_CMD op INVALIDATE. -/
def Dev.asInvalidate (d : Dev) (n idx : Nat) : Dev :=
  let old := Tbl.get {} d.prog.assoc idx
  let e := { old with valid := false }
  if !assocSame d.liveVints old e then d.asResult n 3 else (d.installAssoc idx e).asResult n 0

/-- SL_AS_CMD op READ. -/
def Dev.asRead (d : Dev) (n idx : Nat) : Dev := (d.setStagedAssoc (Tbl.get {} d.prog.assoc idx)).asResult n 0

/-- A position stands before another in the stepping order (R148). -/
def afterPos (pos : Option (Nat × Nat)) (h : Nat × Nat) : Bool :=
  match pos with
  | none => true
  | some p => assocBefore (p.2, p.1) h

/-- SL_AS_RESULT for a match (Table 5.11). -/
def asWord (h : Nat × Nat) (multi : Bool) : Word := wd (2 ^ 31 + b2n multi * 2 ^ 30 + h.2 * 2 ^ 16 + h.1)

/-- NEXT_MATCH in a serving slice with context `c` (R148). -/
def Dev.nextMatchIn (d : Dev) (n : Nat) (c : SearchCtx) : Dev :=
  let hits := assocHits d.prog.assoc c.first c.count (d.slice n).assocReload c.key c.vint
  match assocBest (hits.filter (afterPos c.pos)) with
  | none => (d.modSlice n fun x => { x with srch := some c }).setReg (Reg.SL_AS_RESULT n) 0#32
  | some h => (d.modSlice n fun x => { x with srch := some { c with pos := some (h.2, h.1) } }).setReg (Reg.SL_AS_RESULT n)
      (asWord h (assocMulti hits h.2))

/-- NEXT_MATCH with a context: what the block of a slice that does not serve holds is not stated (R417), and neither is
what a search finds there: a free value (log entry 10, DESIGN CHOICE). -/
def Dev.nextMatchWith (d : Dev) (n : Nat) (c : SearchCtx) : Dev :=
  let d1 := d.steal n
  if (d.slice n).serving then d1.nextMatchIn n c
  else
    let f := d1.takeFree
    let w : Word := wd f.1 &&& 0xC1FF7FFF#32
    let pos := if bit w 31 then some (fld w 24 16, fld w 14 0) else c.pos
    (f.2.modSlice n fun x => { x with srch := some { c with pos := pos } }).setReg (Reg.SL_AS_RESULT n) w

/-- SL_AS_CMD op SEARCH. -/
def Dev.asSearch (d : Dev) (n : Nat) : Dev :=
  let r := d.reg Reg.SL_AS_SRCH
  let first := fld r 31 25
  let count := fld r 24 17
  if count = 0 ∨ 128 < first + count then d.asResult n 2
  else (d.nextMatchWith n { key := BitVec.ofNat 320 (d.stagedNat Reg.SL_AS_KEY 10), first := first, count := count,
                            vint := fld r 3 0, pos := none }).asResult n 0

/-- SL_AS_CMD op NEXT_MATCH. -/
def Dev.asNext (d : Dev) (n : Nat) : Dev :=
  match (d.slice n).srch with
  | none => d.asResult n 5
  | some c => (d.nextMatchWith n c).asResult n 0

/-- AS_WRITE (R147). -/
def execAsWrite (n : Fin 9) (idx : BitVec 15) (s : State) : Host.Outcome State Fault Refusal :=
  actReg .bar0 (viaSlice Reg.SL_AS_CMD n) (.asWrite n idx) s fun d => d.asWrite n idx.toNat

/-- AS_READ (R161). -/
def execAsRead (n : Fin 9) (idx : BitVec 15) (s : State) : Host.Outcome State Fault Refusal :=
  actReg .bar0 (viaSlice Reg.SL_AS_CMD n) (.asRead n idx) s fun d => d.asRead n idx.toNat

/-- AS_INVALIDATE (R147). -/
def execAsInvalidate (n : Fin 9) (idx : BitVec 15) (s : State) : Host.Outcome State Fault Refusal :=
  actReg .bar0 (viaSlice Reg.SL_AS_CMD n) (.asInvalidate n idx) s fun d => d.asInvalidate n idx.toNat

/-- AS_SEARCH (R148). -/
def execAsSearch (n : Fin 9) (s : State) : Host.Outcome State Fault Refusal := actReg .bar0 (viaSlice Reg.SL_AS_CMD n) (.asSearch n) s fun d => d.asSearch n

/-- AS_NEXT_MATCH (R148). -/
def execAsNextMatch (n : Fin 9) (s : State) : Host.Outcome State Fault Refusal := actReg .bar0 (viaSlice Reg.SL_AS_CMD n) (.asNextMatch n) s fun d => d.asNext n

end Sys2Proof.Machine
end

