-- ==== Sys2Proof/Machine/BusWrite.lean ====
section
/-! DEFINITION. What a write of each register does, by any path: plain registers, sequence-clear status, locks, command
registers, and read-modify-writes (R490 to R499, R71, R480). -/
namespace Sys2Proof.Machine

/-- A plain register takes the bits of its writable mask (R9, R10). -/
def Dev.writePlain (d : Dev) (h : RegHit) (v : Word) : Dev := d.writeRw h.key h.row.rw v

/-- The replicas of the slices take the contents of the masters (R130). -/
def Dev.fillReplicas (d : Dev) : Dev :=
  (List.range 9).foldl (fun d n => d.fillSlice n) d

/-- The on-die free lists are built, and their pools are ready (R215, R469). -/
def Dev.buildLists (d : Dev) : Dev :=
  (List.range 4).foldl (fun d s =>
    let e := d.buildOnDie s
    { e with bpm := { e.bpm with ready := Tbl.set false e.bpm.ready s true } }) d

/-- The end of step 5: the replicas are filled and the lists built; step 6 begins (R469, R471). -/
def Dev.configEnds (d : Dev) : Dev :=
  let e := d.fillReplicas.buildLists
  { e with boot := { e.boot with hostWait := false, step := 6 } }

/-- GLB_BOOT_CMD.start ends host_wait (R471). -/
def Dev.startCmd (d : Dev) (v : Word) : Dev := if bit v 0 ∧ d.boot.hostWait then d.configEnds else d

/-- What CLK_OBS gives by GLB_CLK_CTRL (Table 18.5). -/
def clkObsOf (v : Word) : Option (Nat × Nat) :=
  if bit v 0 ∧ fld v 20 16 ≤ 18 then some (fld v 20 16, 2 ^ (fld v 11 8 + 1)) else none

/-- GLB registers but GLB_LOCK. -/
def Dev.writeGlb (d : Dev) (h : RegHit) (v : Word) : Dev :=
  match h.row.off with
  | 0x18 => d.startCmd v
  | 0x44 => (d.writePlain h v).emit (.clkObs (clkObsOf v))
  | _ => d.writePlain h v

/-- TIME registers (Table 2.1) but TIME_STEP_CMD. -/
def Dev.writeTime (d : Dev) (h : RegHit) (v : Word) : Dev :=
  match h.row.off with
  | 0x00 => d.ctrlWrite v
  | 0x08 => d.writeFreqAdj v
  | 0x0C => d.writeSlew v
  | 0x50 => d.pmRollAll.writePlain h v
  | 0x60 => (d.writePlain h v).syncEFollowAll
  | _ => d.writePlain h v

/-- LNCH registers (Table 2.10). -/
def Dev.writeLnch (d : Dev) (p : Path) (h : RegHit) (v : Word) : Dev :=
  match h.row.off with
  | 0x08 => d.lnchCmd p (fld v 15 14) (fld v 11 0)
  | _ => d.writePlain h v

/-- PG registers (Table 3.3). -/
def Dev.writePg (d : Dev) (h : RegHit) (v : Word) : Dev :=
  match h.row.off with
  | 0x1004 => d.writePortCtrl (16 * h.inst + h.idx.getD 0 0) v
  | _ => d.writePlain h v

/-- SL_PRS_CMD. -/
def Dev.prsCmd (d : Dev) (n : Nat) (v : Word) : Dev :=
  match fld v 15 14 with
  | 1 => d.prsWrite n (fld v 9 0)
  | 2 => d.prsRead n (fld v 9 0)
  | _ => d

/-- SL_MS_CMD. -/
def Dev.msCmd (d : Dev) (n : Nat) (v : Word) : Dev :=
  match fld v 15 14 with
  | 1 => d.msWrite n (fld v 13 12) (fld v 11 0)
  | 2 => d.msRead n (fld v 13 12) (fld v 11 0)
  | _ => d

/-- SL_AS_CMD. -/
def Dev.asCmd (d : Dev) (n : Nat) (v : Word) : Dev :=
  match fld v 18 16 with
  | 1 => d.asWrite n (fld v 14 0)
  | 2 => d.asRead n (fld v 14 0)
  | 3 => d.asInvalidate n (fld v 14 0)
  | 4 => d.asSearch n
  | 5 => d.asNext n
  | _ => d

/-- Slice registers: a command reports in the window it is written through (R122, R160). -/
def Dev.writeSlice (d : Dev) (h : RegHit) (v : Word) : Dev :=
  match h.row.off with
  | 0x4008 => d.prsCmd h.win v
  | 0x5004 => d.msCmd h.win v
  | 0x6004 => d.asCmd h.win v
  | 0x3008 => (d.writePlain h v).drainCheck
  | _ => d.writePlain h v

/-- A write of a pool's place, size or recirculation buffers (R215). -/
def Dev.poolWrite (d : Dev) (h : RegHit) (v : Word) : Dev :=
  if d.vint.started then d.latchBit Reg.BPM_STATUS 9 else d.writePlain h v

/-- BPM registers (Table 7.6). -/
def Dev.writeBpm (d : Dev) (h : RegHit) (v : Word) : Dev :=
  match h.row.off with
  | 0x100 => d.poolWrite h v
  | 0x104 => d.poolWrite h v
  | 0x200 => d.poolWrite h v
  | 0x1000 => d.rsvWrite (h.idx.getD 0 0) (h.idx.getD 1 0) (h.idx.getD 2 0) v
  | _ => d.writePlain h v

/-- TMQ_CMD. -/
def Dev.tmqCmd (d : Dev) (v : Word) : Dev :=
  match fld v 23 22 with
  | 1 => d.tmqWrite (fld v 21 20) (fld v 17 0)
  | 2 => d.tmqRead (fld v 21 20) (fld v 17 0)
  | _ => d

def Dev.writeTmq (d : Dev) (h : RegHit) (v : Word) : Dev := if h.row.off = 0x08 then d.tmqCmd v else d.writePlain h v

/-- REPL_CMD. -/
def Dev.replCmd (d : Dev) (v : Word) : Dev :=
  match fld v 23 22 with
  | 1 => d.replWrite (fld v 20 20) (fld v 17 0)
  | 2 => d.replRead (fld v 20 20) (fld v 17 0)
  | _ => d

/-- REPL_SESS_CTRL: a session begins when active rises (R236). -/
def Dev.sessWrite (d : Dev) (h : RegHit) (v : Word) : Dev :=
  let d1 := d.writePlain h v
  if bit v 31 ∧ !bit (d.reg h.key) 31 then d1.startSession (h.idx.getD 0 0) else d1

def Dev.writeRepl (d : Dev) (h : RegHit) (v : Word) : Dev :=
  match h.row.off with
  | 0x08 => d.replCmd v
  | 0x1000 => d.sessWrite h v
  | _ => d.writePlain h v

/-- SHP_CMD and MTR_CMD. -/
def Dev.shpCmd (d : Dev) (v : Word) : Dev :=
  match fld v 23 22 with
  | 1 => d.shpWrite (fld v 21 20) (fld v 19 0)
  | 2 => d.shpRead (fld v 21 20) (fld v 19 0)
  | _ => d

def Dev.mtrCmd (d : Dev) (v : Word) : Dev :=
  match fld v 23 22 with
  | 1 => d.mtrWrite (fld v 20 20) (fld v 16 0)
  | 2 => d.mtrRead (fld v 20 20) (fld v 16 0)
  | _ => d

def Dev.writeShp (d : Dev) (h : RegHit) (v : Word) : Dev := if h.row.off = 0x08 then d.shpCmd v else d.writePlain h v
def Dev.writeMtr (d : Dev) (h : RegHit) (v : Word) : Dev := if h.row.off = 0x08 then d.mtrCmd v else d.writePlain h v

/-- MC registers: the commit of the staged partition (R349). -/
def Dev.writeMc (d : Dev) (h : RegHit) (v : Word) : Dev :=
  if h.row.off = 0x120 then if bit v 0 then d.partCommit else d else d.writePlain h v

/-- TRL_CAL_CMD. -/
def Dev.calCmd (d : Dev) (v : Word) : Dev :=
  match fld v 27 26 with
  | 1 => d.calWrite (fld v 25 24) (fld v 23 16) (fld v 10 10) (fld v 9 0)
  | 2 => d.calRead (fld v 25 24) (fld v 23 16) (fld v 10 10) (fld v 9 0)
  | _ => d

/-- TRL_CTRL: a change of pm_en breaks the second in progress of every link (R297). -/
def Dev.trlCtrlWrite (d : Dev) (h : RegHit) (v : Word) : Dev :=
  if fld (v ^^^ d.reg h.key) 0 0 = 0 then d.pmRollAll.writePlain h v
  else (d.fab.links.foldl (fun d p => d.pmBreak p.1) d).writePlain h v

def Dev.writeTrl (d : Dev) (h : RegHit) (v : Word) : Dev :=
  match h.row.off with
  | 0x00 => d.trlCtrlWrite h v
  | 0x108 => d.calCmd v
  | _ => d.writePlain h v

def Dev.writeLink (d : Dev) (h : RegHit) (v : Word) : Dev := if h.row.off = 0 then d.linkCtrlWrite h.inst v else d.writePlain h v

/-- HOST registers (Table 14.12). -/
def Dev.writeHost (d : Dev) (h : RegHit) (v : Word) : Dev :=
  let i := h.idx.getD 0 0
  match h.row.off with
  | 0x1000C => d.cqCtrlWrite i v
  | 0x80000 => d.sqCfgWrite i h.key h.row.rw v
  | 0x80004 => d.sqCfgWrite i h.key h.row.rw v
  | 0x80008 => d.sqCfgWrite i h.key h.row.rw v
  | 0x80018 => d.sqCfgWrite i h.key h.row.rw v
  | 0x8001C => d.sqCfgWrite i h.key h.row.rw v
  | 0x8000C => d.sqCtrlWrite i v
  | _ => d.writePlain h v

/-- MGMT_MBX_CMD: a request starts unless one is busy (R437). -/
def Dev.mbxWrite (d : Dev) (v : Word) : Dev :=
  if d.mgmt.mbxBusy then d
  else
    let u := d.newUid
    { u.2 with mgmt := { u.2.mgmt with mbxBusy := true, mbxReq := fld v 15 0, mbxStamp := u.1 } }

def Dev.writeMgmt (d : Dev) (h : RegHit) (v : Word) : Dev := if h.row.off = 0x40 then d.mbxWrite v else d.writePlain h v

/-- CNT registers (Table 19.6). -/
def Dev.writeCnt (d : Dev) (h : RegHit) (v : Word) : Dev :=
  match h.row.off with
  | 0x08 => d.cntCmd v
  | 0x20 => d.hvCfgWrite h.key h.row.rw h.row.rw v
  | 0x24 => d.hvCfgWrite h.key h.row.rw h.row.rw v
  | 0x30 => d.hvCfgWrite h.key h.row.rw 0x80000000#32 v
  | 0x40 => d.mtrSelect v
  | _ => d.writePlain h v

def Dev.writeSpr (d : Dev) (h : RegHit) (v : Word) : Dev := if h.row.off = 0x18 then d.forceWrite v else d.writePlain h v

/-- A write that reaches a register that is no sequence-clear one, no GLB_LOCK and no TIME_STEP_CMD. -/
def Dev.writeUnit (d : Dev) (p : Path) (h : RegHit) (v : Word) : Dev :=
  match h.block with
  | .glb => d.writeGlb h v
  | .time => d.writeTime h v
  | .lnch => d.writeLnch p h v
  | .pg => d.writePg h v
  | .slice => d.writeSlice h v
  | .bpm => d.writeBpm h v
  | .tmq => d.writeTmq h v
  | .schd => d.writePlain h v
  | .repl => d.writeRepl h v
  | .shp => d.writeShp h v
  | .mtr => d.writeMtr h v
  | .mc => d.writeMc h v
  | .trl => d.writeTrl h v
  | .link => d.writeLink h v
  | .host => d.writeHost h v
  | .mgmt => d.writeMgmt h v
  | .cnt => d.writeCnt h v
  | .spr => d.writeSpr h v

/-- A write that reaches a register that is no sequence-clear one. GLB_LOCK is write-one-to-set (R499), and TIME_STEP_CMD
steps device time (R43); a write of any other register leaves both as they are. -/
def Dev.writeReg (d : Dev) (p : Path) (h : RegHit) (v : Word) : Dev :=
  match h.block, h.row.off with
  | .glb, 0x08 => { d with lock := d.lock ||| v.truncate 5 }
  | .time, 0x2C => d.stepCmd v
  | _, _ => d.keep (d.writeUnit p h v)

/-- A write of a sequence-clear register (R497). -/
def Dev.writeSqc (d : Dev) (h : RegHit) (v : Word) : Dev :=
  if fld v 31 24 = fld (d.reg h.key) 31 24 then (d.writePlain h v).clearSqc h.key h.row.sqc v else d.inc bankGlb 0

/-- A write that reaches a register (R494, R497, R499); the alias is counted with the access. -/
def Dev.writeHit (d : Dev) (p : Path) (h : RegHit) (v : Word) : Dev :=
  (if h.row.sqc ≠ 0#32 then d.writeSqc h v else d.writeReg p h v).noteAlias h

/-- The bits of a written command register that start a command, and its result field (R480); none where a register has no
result. -/
def cmdFields (b : Block) (off : Nat) : Option ((Nat × Nat) × (Nat × Nat)) :=
  match b, off with
  | .lnch, 0x08 => some ((15, 14), (30, 28))
  | .slice, 0x4008 => some ((15, 14), (30, 28))
  | .slice, 0x5004 => some ((15, 14), (30, 28))
  | .slice, 0x6004 => some ((18, 16), (30, 28))
  | .tmq, 0x08 => some ((23, 22), (30, 28))
  | .repl, 0x08 => some ((23, 22), (30, 28))
  | .shp, 0x08 => some ((23, 22), (30, 28))
  | .mtr, 0x08 => some ((23, 22), (30, 28))
  | .trl, 0x108 => some ((27, 26), (30, 28))
  | .mc, 0x120 => some ((0, 0), (30, 28))
  | .cnt, 0x08 => some ((13, 12), (30, 28))
  | .spr, 0x18 => some ((31, 28), (27, 24))
  | _, _ => none

/-- The result of the command that writing `v` started, as the command register shows it; 0 when it starts none. -/
def Dev.cmdCode (d : Dev) (h : RegHit) (v : Word) : Nat :=
  match cmdFields h.block h.row.off with
  | some (op, res) => if fld v op.1 op.2 = 0 then 0 else fld (d.reg h.key) res.1 res.2
  | none => 0

/-- What stops a write before it reaches its register: the result of R480 and the device after the refusal. -/
def Dev.refuse (d : Dev) (p : Path) (off : Nat) : Option (Nat × Dev) :=
  if d.silent off then some (0, d)
  else if fdieOffset off ∧ !d.fdieUp then some (4, d.fdieRefuse p off)
  else match decodeReg off with
    | none => some (0, d.noRegister p off)
    | some h => match h.row.lock with
      | some dom => if d.locked dom then some (0xFF, (d.lockedWrite p off).noteAlias h) else none
      | none => none

/-- One write access (R490 to R499), with the result that a configuration record sees (R480). -/
def Dev.busWrite (d : Dev) (p : Path) (off : Nat) (v : Word) : Nat × Dev :=
  match d.refuse p off, decodeReg off with
  | some r, _ => r
  | none, some h => let d1 := d.writeHit p h v; (d1.cmdCode h v, d1)
  | none, none => (0, d)

/-- The word that a read-modify-write writes (R498): a sequence-clear register's count as it is, and 0 for the status bits
outside the mask. -/
def Dev.rmwWord (d : Dev) (h : RegHit) (mask v : Word) : Word :=
  let kept := d.peek h &&& ~~~h.row.sqc
  (kept &&& ~~~mask) ||| (v &&& mask)

/-- A read-modify-write in one access (R71, R478, R498). -/
def Dev.busRmw (d : Dev) (p : Path) (off : Nat) (mask v : Word) : Nat × Dev :=
  match d.refuse p off, decodeReg off with
  | some r, _ => r
  | none, some h => let w := d.rmwWord h mask v; let d1 := d.writeHit p h w; (d1.cmdCode h w, d1)
  | none, none => (0, d)

end Sys2Proof.Machine
end

