-- ==== Sys2Proof/Machine/LaunchActs.lean ====
section
/-! DEFINITION. The launch engine: dispatch, the actions of Table 2.11, late entries, and the rows that arm, cancel, read,
dispatch, act and step (R59 to R76). -/
namespace Sys2Proof.Machine

/-! ## Targets (R65, R74) -/

/-- The clock of an entry's target. -/
def LEntry.pll (e : LEntry) : Nat :=
  match e.fifo with
  | .fdie => pllF
  | .tclk => pllT
  | .xclk => pllFabric
  | .mc k => pllMclk k
  | .none => pllTime

/-- The target of an entry takes its action: its clock runs, and for a REG_WRITE so do those on the way to its register (R34,
R71). -/
def Dev.takes (d : Dev) (e : LEntry) : Bool :=
  d.clocked e.pll && (e.kind ≠ 0x0A || d.busFlows .launch (e.target % 2 ^ 26))

/-- An entry's target cannot receive it (R74). -/
def Dev.unreceivable (d : Dev) (e : LEntry) : Bool :=
  match e.fifo with
  | .fdie => d.dukLost
  | .mc k => (d.mcOf k).st = .lost
  | _ => false

/-- The launch FIFO of an entry's target is full (R65). -/
def Dev.fifoFull (d : Dev) (e : LEntry) : Bool := e.fifo != .none && decide (32 ≤ d.fifoCount e.fifo)

/-! ## Actions (Table 2.11) -/

/-- MIRROR_START and MIRROR_STOP (R236). -/
def Dev.mirror (d : Dev) (s : Nat) (on_ : Bool) : Dev :=
  let key := Reg.REPL_SESS_CTRL s
  let was := bit (d.reg key) 31
  let d1 := d.setRegFld key 31 31 (b2n on_)
  if on_ ∧ !was then d1.startSession s else d1

/-- The effect of an action other than REG_WRITE. -/
def Dev.unitAction (d : Dev) (e : LEntry) (late : Bool) : Dev :=
  match e.kind with
  | 0x01 => d.commit (e.target % 16) e.origin
  | 0x02 => d.calendarSwitch e
  | 0x03 => d.gateSwap (e.target % 128) (e.arg % 2)
  | 0x04 => d.harvest e late
  | 0x05 => d.mtrBind (e.target % 2 ^ 17) (e.arg % 2 ^ 16)
  | 0x06 => d.shaperProfile (e.target % 2 ^ 20) (e.arg % 2 ^ 16)
  | 0x07 => d.retrain (nfld e.target 6 4) (e.target % 16) e.arg
  | 0x08 => d.mirror (e.target % 64) true
  | 0x09 => d.mirror (e.target % 64) false
  | 0x0F => d.latchBit Reg.LNCH_STATUS 7
  | _ => d

/-- The effect of an action; only a REG_WRITE may reach GLB_LOCK or TIME_STEP_CMD (R71). -/
def Dev.performAction (d : Dev) (e : LEntry) (late : Bool) : Dev :=
  if e.kind = 0x0A then (d.busRmw .launch (e.target % 2 ^ 26) (wd (e.arg / 2 ^ 32)) (wd e.arg)).2
  else d.keep (d.unitAction e late)

/-- Entry `i` acts, on time or late (R67, R69, R72), or is discarded when its target cannot receive it (R74). -/
def Dev.actEntry (d : Dev) (i : Nat) (late : Bool) : Dev :=
  if d.unreceivable (d.entry i) then d.discardEntry i
  else
    let now := d.time.now.nsTotal
    let d1 := d.modEntry i fun e => { e with st := .dispatched }
    let d2 := if late then d1.noteLate i else d1
    let e := d2.entry i
    (d2.performAction e late).setEntry i (afterAct late now e)

/-! ## Entries that a step of device time passes over (R72) -/

/-- An entry that may act now: dispatched with its instant reached, or due after a step; its target's clock runs. -/
def Dev.mayAct (d : Dev) (e : LEntry) : Bool :=
  d.takes e &&
  ((e.st = .dispatched && decide (e.instant ≤ d.time.now.nsTotal)) ||
    (e.st = .armed && e.due && bit (d.reg Reg.LNCH_CTRL) 0))

/-- It acts late: a step passed over it, or its target took it after its instant (R67, R72). -/
def LEntry.isLate (e : LEntry) : Bool := e.due || e.tardy

/-- An entry is due at once. -/
def Dev.dueNow (d : Dev) (e : LEntry) : Bool := e.due && d.mayAct e

/-- Act on every entry that is due at once, and on the dispatched ones that precede it, in the order of R68. -/
def Dev.settle (d : Dev) : (fuel : Nat) → Dev
  | 0 => d
  | n + 1 =>
    if (d.firstEntry d.dueNow).isNone then d
    else match d.firstEntry d.mayAct with
      | some i => (d.actEntry i (d.entry i).isLate).settle n
      | none => d

/-- All that a step of device time made due acts. -/
def Dev.settleDue (d : Dev) : Dev := d.settle (2 * d.lnch.entries.length)

/-- Act on the dispatched entries that precede key `k` and whose instant is reached (R68). -/
def Dev.actBefore (d : Dev) (k : Nat) : (fuel : Nat) → Dev
  | 0 => d
  | n + 1 =>
    match d.firstEntry d.mayAct with
    | some i => if orderKey i (d.entry i) < k then (d.actEntry i (d.entry i).isLate).actBefore k n else d
    | none => d

/-! ## Dispatch (R65, R67) -/

/-- Eligible: ARMED, and within 1.000 µs of its instant. -/
def Dev.eligible (d : Dev) (e : LEntry) : Bool := e.st = .armed && decide (e.instant ≤ d.time.now.nsTotal + 1000)

/-- Dispatch entry `i`: sent to its target, where it waits for its instant, or acting at once when that has been reached; a
target that stands still takes it late (R34, R65, R67). -/
def Dev.dispatchEntry (d : Dev) (i : Nat) : Dev :=
  let e := d.entry i
  if d.unreceivable e then d.discardEntry i
  else if e.instant ≤ d.time.now.nsTotal then
    if d.takes e then (d.actBefore (orderKey i e) d.lnch.entries.length).actEntry i true
    else d.modEntry i fun e => { e with st := .dispatched, tardy := true }
  else d.modEntry i fun e => { e with st := .dispatched }

/-- One cycle of the engine: the first eligible entry whose target can take it. -/
def Dev.dispatchOne (d : Dev) : Dev :=
  if !bit (d.reg Reg.LNCH_CTRL) 0 ∨ !d.clocked pllTime ∨ !d.time.running then d
  else
    let d1 := if (d.firstEntry fun e => d.eligible e && d.fifoFull e).isSome then d.latchBit Reg.LNCH_STATUS 3 else d
    match d1.firstEntry fun e => d.eligible e && !d.fifoFull e with
    | some i => (d1.dispatchEntry i).settleDue
    | none => d1

/-- LAUNCH_DISPATCH (R65). -/
def execLaunchDispatch (s : State) : Host.Outcome State Fault Refusal := actBus s Dev.dispatchOne

/-- The action of entry `i` of a kind at its instant: it is the first in order among the dispatched ones (R66, R68). -/
def Dev.actKind (d : Dev) (kind i : Nat) : Dev :=
  if (d.entry i).kind = kind ∧ d.firstEntry d.mayAct = some i ∧ (d.entry i).st = .dispatched then
    (d.actEntry i (d.entry i).isLate).settleDue
  else d

/-- VINTAGE_COMMIT (R166). -/
def execVintageCommit (idx : BitVec 12) (s : State) : Host.Outcome State Fault Refusal := actBus s fun d => d.actKind 0x01 idx.toNat
/-- CALENDAR_SWITCH (R316). -/
def execCalendarSwitch (idx : BitVec 12) (s : State) : Host.Outcome State Fault Refusal := actBus s fun d => d.actKind 0x02 idx.toNat
/-- GATE_SWAP (R250). -/
def execGateSwap (idx : BitVec 12) (s : State) : Host.Outcome State Fault Refusal := actBus s fun d => d.actKind 0x03 idx.toNat
/-- HARVEST (R513). -/
def execHarvest (idx : BitVec 12) (s : State) : Host.Outcome State Fault Refusal := actBus s fun d => d.actKind 0x04 idx.toNat
/-- METER_PROFILE (R262). -/
def execMeterProfile (idx : BitVec 12) (s : State) : Host.Outcome State Fault Refusal := actBus s fun d => d.actKind 0x05 idx.toNat
/-- SHAPER_PROFILE (R256). -/
def execShaperProfile (idx : BitVec 12) (s : State) : Host.Outcome State Fault Refusal := actBus s fun d => d.actKind 0x06 idx.toNat
/-- DRAM_RETRAIN (R364). -/
def execDramRetrain (idx : BitVec 12) (s : State) : Host.Outcome State Fault Refusal := actBus s fun d => d.actKind 0x07 idx.toNat
/-- MIRROR_START (R236). -/
def execMirrorStart (idx : BitVec 12) (s : State) : Host.Outcome State Fault Refusal := actBus s fun d => d.actKind 0x08 idx.toNat
/-- MIRROR_STOP (R236). -/
def execMirrorStop (idx : BitVec 12) (s : State) : Host.Outcome State Fault Refusal := actBus s fun d => d.actKind 0x09 idx.toNat
/-- REG_WRITE (R71). -/
def execRegWrite (idx : BitVec 12) (s : State) : Host.Outcome State Fault Refusal := actBus s fun d => d.actKind 0x0A idx.toNat
/-- MARK (R65). -/
def execMark (idx : BitVec 12) (s : State) : Host.Outcome State Fault Refusal := actBus s fun d => d.actKind 0x0F idx.toNat

/-! ## Arming, relative instants, enable, steps (R43, R62 to R64, R72, R73) -/

/-- LAUNCH_ARM (R62). -/
def execLaunchArm (path : Path) (idx : BitVec 12) (s : State) : Host.Outcome State Fault Refusal :=
  actLaunch path 1 idx.toNat (.launchArm path idx) s
/-- LAUNCH_CANCEL (R62). -/
def execLaunchCancel (path : Path) (idx : BitVec 12) (s : State) : Host.Outcome State Fault Refusal :=
  actLaunch path 2 idx.toNat (.launchCancel path idx) s
/-- LAUNCH_READ (R62). -/
def execLaunchRead (path : Path) (idx : BitVec 12) (s : State) : Host.Outcome State Fault Refusal :=
  actLaunch path 3 idx.toNat (.launchRead path idx) s

/-- LNCH_ENABLE_WRITE (Table 2.10). -/
def execLnchEnableWrite (v : Word) (s : State) : Host.Outcome State Fault Refusal :=
  actReg .bar0 Reg.LNCH_CTRL (.lnchEnableWrite v) s fun d => d.writeRw Reg.LNCH_CTRL 1#32 v

/-- A relative entry receives its instant (R63): the first whole second after `t`, plus its nanoseconds. -/
def LEntry.release (t : DevTime) (e : LEntry) : LEntry :=
  if e.relative ∧ e.st = .held then { e with sec := (t.sec + 1) % 2 ^ 48, st := .armed, relative := false } else e

/-- LAUNCH_RELATIVE_RELEASE (R63). -/
def Dev.releaseRelative (d : Dev) : Dev :=
  match d.time.firstValid with
  | none => d
  | some t => { d with lnch := { d.lnch with entries := d.lnch.entries.map fun (p : Nat × LEntry) => (p.1, p.2.release t) } }

def execLaunchRelativeRelease (s : State) : Host.Outcome State Fault Refusal :=
  actIn pllTime .launchRelativeRelease s Dev.releaseRelative

/-- TIME_STEP_SET (R43). -/
def execTimeStepSet (s : State) : Host.Outcome State Fault Refusal :=
  actBusReg .bar0 Reg.TIME_STEP_CMD .timeStepSet s fun d => (d.stepTime false).settleDue
/-- TIME_STEP_ADD (R43). -/
def execTimeStepAdd (s : State) : Host.Outcome State Fault Refusal :=
  actBusReg .bar0 Reg.TIME_STEP_CMD .timeStepAdd s fun d => (d.stepTime true).settleDue

end Sys2Proof.Machine
end

