-- ==== Sys2Proof/Machine/Dukider.lean ====
section
/-! DEFINITION. The commands of the Dukider link (R18 to R24). -/
namespace Sys2Proof.Machine

/-- One direction of the link: toward the T-die or toward the F-die. -/
def Dev.duk (d : Dev) (toT : Bool) : DukDir := if toT then d.dukUp else d.dukDown
def Dev.setDuk (d : Dev) (toT : Bool) (x : DukDir) : Dev := if toT then { d with dukUp := x } else { d with dukDown := x }

/-- Cause codes of Table 16.9. -/
def dukCode : DukCause → Nat
  | .replays => 1 | .clock => 2 | .untrained => 3

/-- The link is declared lost (R22, R421, R425, R428): it logs an event; once forwarding has started the device is in
cellar mode, in the form that the F-die carries alone. -/
def Dev.linkLost (d : Dev) (c : DukCause) : Dev :=
  if d.dukLost then d
  else
    let d1 := ({ d with dukLost := true }).logNum 0x00 3 0 (le 1 (dukCode c))
    if d1.vint.started then
      let d2 := d1.enterCellar 4
      { d2 with spr := { d2.spr with fdieOnly := true } }
    else d1

/-- Flits that wait in slice `n`'s channel of a direction. -/
def Dev.chanFlits (d : Dev) (toT : Bool) (n : Nat) : Nat := flitsIn (if toT then (d.slice n).up else (d.slice n).down)

/-- The 56 flits of a cycle (R19): up to 7 for each slice that holds a port group, and the rest by the rotating pointer, which
moves on by one channel each cycle (log entry 96). -/
def Dev.dukCycle (d : Dev) (toT : Bool) : List (Nat × Nat) :=
  let sure (n : Nat) : Nat := if (List.range 8).any fun g => d.holder g = some n then min 7 (d.chanFlits toT n) else 0
  let spare := 56 - ((List.range 9).map sure).foldl (· + ·) 0
  let turn := (List.range 9).map fun i => ((d.duk toT).ptr + i) % 9
  (turn.foldl (fun (x : Nat × List (Nat × Nat)) n =>
    let more := min x.1 (d.chanFlits toT n - sure n)
    (x.1 - more, x.2 ++ [(n, sure n + more)])) (spare, [])).2

/-- `m` flits leave a channel in order: the packets that have crossed whole, and those that remain. -/
def crossFlits : List Pkt → Nat → List Pkt × List Pkt
  | [], _ => ([], [])
  | k :: ks, m =>
    if k.flits ≤ m then
      let r := crossFlits ks (m - k.flits)
      ({ k with flits := 0 } :: r.1, r.2)
    else ([], { k with flits := k.flits - m } :: ks)

/-- The flits of one channel in a cycle are delivered. -/
def Dev.deliverFlits (toT : Bool) (d : Dev) (x : Nat × Nat) : Dev :=
  if toT then
    let r := crossFlits (d.slice x.1).up x.2
    r.1.foldl (Dev.arriveUp x.1) (d.modSlice x.1 fun s => { s with up := r.2 })
  else
    let r := crossFlits (d.slice x.1).down x.2
    r.1.foldl (Dev.arriveDown x.1) (d.modSlice x.1 fun s => { s with down := r.2 })

/-- Bytes of the control channel that a cycle gives to lookups: racking takes 12 GB/s of those toward the F-die (R413). -/
def Dev.ctlBytes (d : Dev) (toT : Bool) : Int :=
  match toT, d.spr.rack with
  | false, some r => if r.begun then 218 else 224
  | _, _ => 224

/-- A good cycle is delivered, in order and once (R21): its flits, then the lookups that its control channel carries (R20). -/
def Dev.dukDeliver (d : Dev) (toT : Bool) (c : List (Nat × Nat)) : Dev :=
  let d1 := c.foldl (Dev.deliverFlits toT) d
  let x := d1.duk toT
  let d2 := d1.setDuk toT { x with failing := none, replays := 0, next := x.next + 1, ctl := min 224 (x.ctl + d1.ctlBytes toT) }
  if toT then d2.sendAsks else d2.giveHeld

/-- The receiver takes a cycle (R21): `crc` holds one bit for each bundle whose CRC-32 passes. A good cycle is delivered; a bad
one is asked for again, and a transfer that fails its 16th replay takes the link down (R22). -/
def Dev.dukReceive (d : Dev) (toT : Bool) (crc : BitVec 8) : Dev :=
  let x := d.duk toT
  let good : Bool := crc == 0xFF#8
  match x.failing with
  | none =>
    let c := d.dukCycle toT
    let d1 := d.setDuk toT { x with sent := x.sent + 1, ptr := (x.ptr + 1) % 9, kept := ((x.next, c) :: x.kept).take 64 }
    if good then d1.dukDeliver toT c
    else d1.setDuk toT { d1.duk toT with failing := some x.next, replays := 0 }
  | some f =>
    if good then if x.replays = 0 then d else d.dukDeliver toT ((x.kept.find? fun p => p.1 = f).map (·.2) |>.getD [])
    else if 16 ≤ x.replays then d.linkLost .replays else d

/-- The link carries traffic: trained, its clocks locked and not lost (R22, R34). -/
def Dev.dukRuns (d : Dev) : Bool := d.boot.dukTrained && !d.dukLost && d.clocked 2 && d.clocked 3

/-- The domain that a cycle's content goes into: the T-die's queue manager, or the slices. -/
def dukInto (toT : Bool) : Nat := if toT then pllT else pllF

/-- DUKIDER_CYCLE_RECEIVE (R21, R22). -/
def execDukiderCycleReceive (toT : Bool) (crc : BitVec 8) (s : State) : Host.Outcome State Fault Refusal :=
  actIn (dukInto toT) (.dukiderCycleReceive toT crc) s fun d => if d.dukRuns then d.dukReceive toT crc else d

/-- The sender replays the failed cycle from its buffer of the last 64 (R21). -/
def Dev.dukReplay (d : Dev) (toT : Bool) : Dev :=
  let x := d.duk toT
  match x.failing with
  | none => d
  | some _ => if x.replays < 16 then d.setDuk toT { x with replays := x.replays + 1 } else d

/-- DUKIDER_REPLAY (R21). -/
def execDukiderReplay (toT : Bool) (s : State) : Host.Outcome State Fault Refusal :=
  act s fun d => if d.dukRuns then d.dukReplay toT else d

/-- DUKIDER_LINK_LOST (R22). -/
def execDukiderLinkLost (cause : DukCause) (s : State) : Host.Outcome State Fault Refusal := act s fun d => d.linkLost cause

end Sys2Proof.Machine
end

