-- ==== Sys2Proof/Machine/Mgmt.lean ====
section
/-! DEFINITION. The commands of the management subsystem: mailbox requests, firmware update and trial, the event recorder,
sensors and voltage monitors (R433 to R465, R482, R529). -/
namespace Sys2Proof.Machine

/-- Bit of GLB_LOCK of the NVM write domain and of the fuse domain (Table 18.3). -/
def lockNvm : Nat := 3
def lockFuse : Nat := 4

/-- A mailbox row: the management PLL runs and firmware serves. -/
def actMgmt (i : Instr) (src : MbxSrc) (req : Nat) (given : Bytes) (s : State) (f : Dev → Nat → Bytes → Dev) :
    Host.Outcome State Fault Refusal :=
  actIn pllMgmt i s fun d => d.serve src req given f

/-- The same for a request that may write the flash. -/
def actMgmtNvm (i : Instr) (src : MbxSrc) (req : Nat) (given : Bytes) (s : State) (f : Dev → Nat → Bytes → Dev) :
    Host.Outcome State Fault Refusal :=
  actNvmIn pllMgmt i s fun d => d.serve src req given f

/-! ## INFO and SENSORS -/

/-- The INFO response (Table 16.8). -/
def Dev.infoBytes (d : Dev) : Bytes :=
  let h := d.hdr
  let ver (s : Nat) : Nat := if hdrState h s = 0 then 0 else hdrVersion h s
  ((List.range 4).flatMap fun i => wordBytes (Config.factorySerial i)) ++ le 8 (ver 0) ++ le 8 (ver 1) ++
    le 1 d.mgmt.fw.active ++ le 1 (fld d.fwStateWord 31 24) ++ le 1 d.mgmt.fuseCount ++ le 1 (b2n d.mgmt.ownerHash.isSome) ++
    le 4 d.optime ++ le 3 d.mgmt.pcc ++ le 1 (fld (d.reg Reg.GLB_STRAP) 1 0) ++ wordBytes (d.reg Reg.GLB_CHIP_ID)

/-- MBX_INFO (R439). -/
def execMbxInfo (src : MbxSrc) (s : State) : Host.Outcome State Fault Refusal :=
  actMgmt (.mbxInfo src) src 1 [] s fun d c _ => d.mbxEnd c mOk d.infoBytes

/-- The SENSORS response. -/
def Dev.sensorBytes (d : Dev) : Bytes :=
  ((List.range 40).flatMap fun i => wordBytes (d.tempWord i)) ++ ((List.range 12).flatMap fun r => wordBytes (d.vmonWord r)) ++
    le 4 d.mgmt.power

/-- MBX_SENSORS (R440, R444, R445). -/
def execMbxSensors (src : MbxSrc) (s : State) : Host.Outcome State Fault Refusal :=
  actMgmt (.mbxSensors src) src 2 [] s fun d c _ => d.mbxEnd c mOk d.sensorBytes

/-! ## The event recorder -/

/-- EVT_READ: records first to first + count − 1, clipped at next_slot (R451). -/
def Dev.evtRead (d : Dev) (c : Nat) (p : Bytes) : Dev :=
  let first := unle (Machine.slice p 0 4)
  let count := unle (Machine.slice p 4 4)
  if p.length < 8 ∨ count = 0 ∨ 1024 < count ∨ d.mgmt.nextSlot ≤ first then d.mbxEnd c mBadArg []
  else
    let n := min count (d.mgmt.nextSlot - first)
    d.mbxEnd c mOk ((List.range n).flatMap fun i => d.eventAt (first + i))

/-- EVT_READ (R451). -/
def execEvtRead (src : MbxSrc) (payload : Bytes) (s : State) : Host.Outcome State Fault Refusal :=
  actMgmt (.evtRead src payload) src 3 payload s fun d c p => d.evtRead c p

/-- EVT_NONCE: 32 bytes of the random number generator, a free value (R452). -/
def Dev.evtNonce (d : Dev) (c : Nat) : Dev :=
  let f := d.takeFree
  let n := le 32 f.1
  ({ f.2 with mgmt := { f.2.mgmt with nonce := some (n, f.2.time.tsc) } }).mbxEnd c mOk n

/-- EVT_NONCE (R452). -/
def execEvtNonce (src : MbxSrc) (s : State) : Host.Outcome State Fault Refusal :=
  actMgmt (.evtNonce src) src 4 [] s fun d c _ => d.evtNonce c

def Dev.noNonce (d : Dev) : Dev := { d with mgmt := { d.mgmt with nonce := none } }

/-- A clear is not authorised (R453). -/
def Dev.authFail (d : Dev) (c : Nat) : Dev :=
  ((((d.noNonce).inc bankMgmt 10).latchBit Reg.MGMT_STATUS 19).logBit srcMgmt 0 19 0 []).mbxEnd c mAuthFail []

/-- A staging or a trial is in progress (R459, R463). -/
def Dev.updating (d : Dev) : Bool := d.mgmt.fw.state ≠ 0

/-- The number of the last record before a clear; with none it is a free value. -/
def Dev.lastRecord (d : Dev) : Nat × Dev :=
  if d.mgmt.nextSlot = 0 then let f := d.takeFree
                              (f.1 % 2 ^ 32, f.2)
  else (d.mgmt.nextSlot - 1, d)

/-- The checks of R453 pass: the erase begins. -/
def Dev.clearStarts (d : Dev) (c : Nat) (hash nonce : Bytes) : Dev :=
  let l := d.lastRecord
  let d1 := l.2.mbxHold c
  { d1 with mgmt := { d1.mgmt with nonce := none, clearing := some (c, l.1, hash.take 8, nonce.take 8) } }

/-- The nonce that is valid: it was issued less than 300 s ago (R452). -/
def Dev.liveNonce (d : Dev) : Option Bytes :=
  match d.mgmt.nonce with
  | some n => if d.time.tsc < n.2 + 300 * 10 ^ 9 then some n.1 else none
  | none => none

/-- The message that an EVT_CLEAR signs (R453). -/
def clearMsg (nonce : Bytes) : Bytes :=
  [90#8, 67#8, 76#8, 82#8] ++ ((List.range 4).flatMap fun i => wordBytes (Config.factorySerial i)) ++ nonce ++ le 4 1

/-- Checks 3 to 5 of R453 pass, for the owner key hash, with the nonce: the key has the hash, and its signature holds. -/
def clearAuthorised (hash nonce p : Bytes) : Bool :=
  sha384 (p.take 97) == hash && ecdsaHolds (p.take 97) (Machine.slice p 97 96) (clearMsg nonce)

/-- EVT_CLEAR: the checks in the order of R453 (log entry 129). -/
def Dev.evtClear (d : Dev) (c : Nat) (p : Bytes) : Dev :=
  if d.updating ∨ d.mgmt.clearing.isSome then d.mbxEnd c mBusy []
  else if d.locked lockNvm then d.mbxEnd c mLocked []
  else match d.mgmt.ownerHash with
    | none => d.mbxEnd c mNoOwner []
    | some h =>
      if p.length < 193 then d.mbxEnd c mBadArg []
      else match d.liveNonce with
        | none => d.authFail c
        | some n => if clearAuthorised h n p then d.clearStarts c h n else d.authFail c

/-- EVT_CLEAR (R453, R454, R463). -/
def execEvtClear (src : MbxSrc) (s : State) : Host.Outcome State Fault Refusal :=
  actMgmt (.evtClear src) src 5 [] s fun d c p => d.evtClear c p

/-- The erase of a clear ends: record 0 is the clear record (R454). -/
def Dev.eraseEnds (d : Dev) : Dev :=
  match d.mgmt.clearing with
  | none => d
  | some (c, last, hash, nonce) =>
    if !d.mgmt.serving then d
    else
      let d1 := d.nvErase nvEvents (64 * eventSlots)
      let d2 := { d1 with mgmt := { d1.mgmt with clearing := none, nextSlot := 0, full := false } }
      ((d2.latchBit Reg.MGMT_STATUS 18).mgmtRecord 18 (le 4 last ++ hash ++ nonce)).mbxEnd c mOk []

/-- EVT_CLEAR_ERASE_COMPLETE (R454). -/
def execEvtClearEraseComplete (s : State) : Host.Outcome State Fault Refusal := actNvmIn pllMgmt .evtClearEraseComplete s Dev.eraseEnds

/-- The oldest event in the FIFO becomes a record, except while a clear erases (R446, R454). -/
def Dev.eventNext (d : Dev) : Dev :=
  match d.events with
  | [] => d
  | e :: es => if !d.mgmt.serving ∨ d.mgmt.clearing.isSome then d else ({ d with events := es }).eventStore e

/-- EVENT_RECORD_WRITE (R446, R447, R450). -/
def execEventRecordWrite (s : State) : Host.Outcome State Fault Refusal := actNvmIn pllMgmt .eventRecordWrite s Dev.eventNext

/-- NONCE_EXPIRE (R452): a nonce whose 300 s have passed is void. -/
def execNonceExpire (s : State) : Host.Outcome State Fault Refusal :=
  actIn pllMgmt .nonceExpire s fun d => if d.liveNonce.isNone then d.noNonce else d

/-! ## Firmware update -/

/-- An update ends before its staging begins. -/
def Dev.updateRefused (d : Dev) (c result : Nat) : Dev := (d.setFw fun f => { f with lastResult := result }).mbxEnd c result []

/-- The checks of the card and its file, in the order of R459; then the sectors are erased and staging begins. -/
def Dev.fwStage (d : Dev) (c : Nat) (file : CardFile) (sigOk : Bool) (nvm : NvmCheck) : Dev :=
  match file with
    | .noCard => d.updateRefused c mNoCard
    | .noFile => d.updateRefused c mNoFile
    | .fsError => d.updateRefused c mFsError
    | .file f =>
      if !imgHeaderOk f (some f.length) then d.updateRefused c mBadImage
      else if imgEpoch f < d.mgmt.fuseCount ∨ 64 < imgEpoch f then d.updateRefused c mRollback
      else
        let s := d.spareSlot
        let d1 := (d.slotErase s f.length).hdrWrite (hdrSetState s 0)
        (d1.mbxHold c).setFw fun x => { x with state := 1, block := 0, job := some { src := c, file := f, sigOk := sigOk, nvm := nvm } }

/-- FW_UPDATE, first of all the refusals that do not look at the card (R459). -/
def Dev.fwUpdate (d : Dev) (c : Nat) (file : CardFile) (sigOk : Bool) (nvm : NvmCheck) (uhs : Bool) : Dev :=
  if d.updating ∨ d.mgmt.clearing.isSome then d.mbxEnd c mBusy []
  else if d.locked lockNvm then d.mbxEnd c mLocked []
  else (d.cardVolts file uhs).fwStage c file sigOk nvm

/-- FW_UPDATE (R457 to R460); with `uhs` the card has accepted 1.80 V signalling (R523). -/
def execFwUpdate (src : MbxSrc) (file : CardFile) (sigOk : Bool) (nvm : NvmCheck) (uhs : Bool) (s : State) :
    Host.Outcome State Fault Refusal :=
  actMgmtNvm (.fwUpdate src file sigOk nvm uhs) src 6 [] s fun d c _ => d.fwUpdate c file sigOk nvm uhs

/-- The card is removed while an update reads it: NO_CARD or FS_ERROR, which of them the spec leaves open (R463). -/
def Dev.cardGone (d : Dev) : Dev :=
  if d.mgmt.fw.job.isSome then
    let f := d.takeFree
    f.2.stagingEnds (if f.1 % 2 = 0 then mNoCard else mFsError)
  else d

/-- CARD_REMOVED (R463). -/
def execCardRemoved (s : State) : Host.Outcome State Fault Refusal := actIn pllMgmt .cardRemoved s fun d => d.ifServing Dev.cardGone

/-- MBX_RESTART (R434): the completion, then the restart. -/
def execMbxRestart (src : MbxSrc) (s : State) : Host.Outcome State Fault Refusal :=
  actMgmtNvm (.mbxRestart src) src 7 [] s fun d c _ => (d.mbxEnd c mOk []).restartOrFall 4

/-- The cores run firmware: from start-up step 3 on. -/
def Dev.coresRun (d : Dev) : Bool := 4 ≤ d.boot.step

/-- MGMT_WDOG_EXPIRE (R434, R461). -/
def execMgmtWdogExpire (s : State) : Host.Outcome State Fault Refusal :=
  actNvmIn pllMgmt .mgmtWdogExpire s fun d => if d.coresRun then d.restartOrFall 3 else d

/-- MGMT_FW_READY (R434, R435, R460). -/
def execMgmtFwReady (s : State) : Host.Outcome State Fault Refusal :=
  actNvmIn pllMgmt .mgmtFwReady s fun d => if d.coresRun ∧ !d.mgmt.serving then d.fwReady else d

/-- TRIAL_COMMIT (R461): when the image has run for 600 s. -/
def execTrialCommit (s : State) : Host.Outcome State Fault Refusal :=
  actNvmIn pllMgmt .trialCommit s fun d => d.ifServing fun d => if d.mgmt.fw.state = 3 ∧ d.trialOver then d.trialCommit else d

/-! ## Fuses and the NVM -/

/-- OWNER_FUSE: the hash is fused once. -/
def Dev.ownerFuse (d : Dev) (c : Nat) (p : Bytes) : Dev :=
  if d.locked lockFuse then d.mbxEnd c mLocked []
  else if d.mgmt.ownerHash.isSome ∨ p.length < 48 then d.mbxEnd c mBadArg []
  else ({ d with mgmt := { d.mgmt with ownerHash := some (p.take 48) } }).mbxEnd c mOk []

/-- OWNER_FUSE (R456). -/
def execOwnerFuse (src : MbxSrc) (s : State) : Host.Outcome State Fault Refusal :=
  actMgmt (.ownerFuse src) src 8 [] s fun d c p => d.ownerFuse c p

/-- NVM_READ: 1 to 4,096 bytes of the flash the device uses. -/
def Dev.nvmRead (d : Dev) (c : Nat) (p : Bytes) : Dev :=
  let a := unle (Machine.slice p 0 4)
  let n := unle (Machine.slice p 4 4)
  if p.length < 8 ∨ n = 0 ∨ 4096 < n ∨ nvEnd < a + n then d.mbxEnd c mBadArg [] else d.mbxEnd c mOk (d.nvRead a n)

/-- NVM_READ (R436, R474). -/
def execNvmRead (src : MbxSrc) (s : State) : Host.Outcome State Fault Refusal :=
  actMgmt (.nvmRead src) src 9 [] s fun d c p => d.nvmRead c p

/-- What every NVM_WRITE passes first (R463, R482); a region code of no row ends BAD_ARG whichever row meets it. -/
def Dev.nvmGate (d : Dev) (c : Nat) (p : Bytes) (codes : List Nat) (f : Dev → Nat → Nat → Bytes → Dev) : Dev :=
  let code := (p.getD 0 0).toNat
  if p.length ≠ 0 ∧ code ≤ 3 ∧ !codes.contains code then d
  else if d.updating ∨ d.mgmt.clearing.isSome then d.mbxEnd c mBusy []
  else if d.locked lockNvm then d.mbxEnd c mLocked []
  else if p.length < 5 ∨ 3 < code then d.mbxEnd c mBadArg []
  else f d code (unle (Machine.slice p 1 4)) (p.drop 5)

/-- CFG_SELECT: a boot header record with the half selected; it carries no data, which the padding of a ring entry's last unit is
not counted as (log entry 128). -/
def Dev.cfgSelect (d : Dev) (c half : Nat) (data : Bytes) (ok : Bool) : Dev :=
  if 1 < half ∨ (c < 3 ∧ data ≠ []) then d.mbxEnd c mBadArg []
  else if ok then
    let d1 := d.hdrWrite (hdrSetCfg half)
    ({ d1 with boot := { d1.boot with selected := half } }).mbxEnd c mOk []
  else (d.nvSpoil (256 * d.hdrNext) 256).mbxEnd c mNvmError []

/-- NVM_CFG_SELECT (R482, R483). -/
def execNvmCfgSelect (src : MbxSrc) (nvm : NvmCheck) (s : State) : Host.Outcome State Fault Refusal :=
  actMgmtNvm (.nvmCfgSelect src nvm) src 10 [] s fun d c p => d.nvmGate c p [0] fun d _ off data => d.cfgSelect c off data (nvm == .good)

/-- Write data into a region of `size` bytes at `base`: empty data erases the whole region, and a write that begins a 64 KiB
sector erases it first; bytes that do not read back as written end NVM_ERROR. -/
def Dev.regionWrite (d : Dev) (c base size off : Nat) (data : Bytes) (ok : Bool) : Dev :=
  if size < off + data.length then d.mbxEnd c mBadArg []
  else if !ok then (if data = [] then d.nvSpoil base size else d.nvSpoil (base + off) data.length).mbxEnd c mNvmError []
  else if data = [] then (d.nvErase base size).mbxEnd c mOk []
  else
    let d1 := if off % 65536 = 0 then d.nvErase (base + off) 65536 else d
    let d2 := d1.nvProgram (base + off) data
    d2.mbxEnd c (if d2.nvRead (base + off) data.length = data then mOk else mNvmError) []

/-- The half of a configuration region code: writing the selected one ends BAD_ARG. -/
def Dev.halfWrite (d : Dev) (c code off : Nat) (data : Bytes) (ok : Bool) : Dev :=
  if hdrCfg d.hdr = code - 1 then d.mbxEnd c mBadArg [] else d.regionWrite c (nvHalf (code - 1)) 0x04000000 off data ok

/-- NVM_WRITE_CONFIG_HALF (R482). -/
def execNvmWriteConfigHalf (src : MbxSrc) (nvm : NvmCheck) (s : State) : Host.Outcome State Fault Refusal :=
  actMgmtNvm (.nvmWriteConfigHalf src nvm) src 10 [] s fun d c p => d.nvmGate c p [1, 2] fun d code off data => d.halfWrite c code off data (nvm == .good)

/-- NVM_WRITE_CALIBRATION (R482, R484, R486). -/
def execNvmWriteCalibration (src : MbxSrc) (nvm : NvmCheck) (s : State) : Host.Outcome State Fault Refusal :=
  actMgmtNvm (.nvmWriteCalibration src nvm) src 10 [] s fun d c p => d.nvmGate c p [3] fun d _ off data => d.regionWrite c nvCal 0x00100000 off data (nvm == .good)

/-! ## Requests that are not served -/

/-- A request of no row of Table 16.1, or not allowed from its source, ends BAD_REQ, in the order of arrival. -/
def Dev.badReq (d : Dev) (src given : Nat) : Dev :=
  match d.mbxReqOf src given with
  | none => d
  | some r => if mbxAllowed src r ∨ !d.mbxFirst src then d else d.mbxEnd src mBadReq []

/-- MBX_BAD_REQ (R438, R445). -/
def execMbxBadReq (src : MbxSrc) (req : BitVec 16) (s : State) : Host.Outcome State Fault Refusal :=
  actIn pllMgmt (.mbxBadReq src req) s fun d => d.ifServing fun d => d.badReq (srcCode src) req.toNat

/-- A request that has waited more than 10 s ends BUSY. -/
def Dev.waitEnds (d : Dev) (src : Nat) : Dev :=
  if (d.mbxReqOf src 0).isSome then (d.inc bankMgmt 4).mbxGive src mBusy [] else d

/-- MBX_WAIT_TIMEOUT (R436). -/
def execMbxWaitTimeout (src : MbxSrc) (s : State) : Host.Outcome State Fault Refusal :=
  actIn pllMgmt (.mbxWaitTimeout src) s fun d => d.ifServing fun d => d.waitEnds (srcCode src)

/-! ## Operating time, sensors, rails -/

/-- OPTIME_RECORD_WRITE (R488). -/
def execOptimeRecordWrite (s : State) : Host.Outcome State Fault Refusal := actNvmIn pllMgmt .optimeRecordWrite s fun d => d.ifServing Dev.opWrite

/-- A reading in units of 0.25 °C is at least `c` °C. -/
def hotAt (x : BitVec 12) (c : Nat) : Bool := 4 * (c : Int) ≤ x.toInt

/-- Sensors of the dies and the package: warning and trip (R441, R443). -/
def dieSensor (i : Nat) : Bool := i < 28 || (36 ≤ i && i < 40)

/-- Add to the run of a sensor, or end it. -/
def runStep (t : List (Nat × Nat)) (i : Nat) (hit : Bool) : List (Nat × Nat) :=
  Tbl.set 0 t i (if hit then Tbl.get 0 t i + 1 else 0)

def runsStep (t : List (Nat × Nat)) (sel hit : Nat → Bool) : List (Nat × Nat) :=
  ((List.range 40).filter sel).foldl (fun t i => runStep t i (hit i)) t

/-- The first sensor whose run has reached `n`. -/
def runAt (t : List (Nat × Nat)) (n : Nat) : Option Nat := (t.find? fun p => n ≤ p.2).map (·.1)

/-- The thermal trip acts (R443): THERMTRIP_N, reset of every domain but AONCLK, and the latch. -/
def Dev.tripped (d : Dev) (i : Nat) : Dev :=
  let x := Tbl.get 0#12 d.mgmt.temps i
  (({ d with inReset := true, mgmt := { d.mgmt with thermtripN := true, tripNew := true, trip := wd (2 ^ 31 + i * 2 ^ 16 + x.toNat) } }).emit
    (.pin pinThermtripN false)).emit .pinsRelease

/-- The trip's part of a sample. -/
def Dev.tripSample (d : Dev) : Dev :=
  let runs := runsStep d.mgmt.tripRun dieSensor fun i => hotAt (Tbl.get 0#12 d.mgmt.temps i) 118
  let d1 := { d with mgmt := { d.mgmt with tripRun := runs } }
  match runAt runs 3 with
  | some i => if d1.mgmt.thermtripN then d1 else d1.tripped i
  | none => d1

/-- The warning's part of a sample (R441). -/
def Dev.warnSample (d : Dev) : Dev :=
  let c := fld (d.reg Reg.MGMT_CTRL) 15 8
  let t (i : Nat) : BitVec 12 := Tbl.get 0#12 d.mgmt.temps i
  let runs := runsStep d.mgmt.warnRun dieSensor fun i => hotAt (t i) c
  let cool : Bool := (List.range 40).all fun i => !dieSensor i || decide ((t i).toInt ≤ 4 * (c : Int) - 12)
  let d1 := { d with mgmt := { d.mgmt with warnRun := runs, coolRun := if cool then d.mgmt.coolRun + 1 else 0 } }
  match runAt runs 3 with
  | some i =>
    if d1.mgmt.warned then d1
    else
      let d2 := { d1 with mgmt := { d1.mgmt with warned := true, alertN := true } }
      (((d2.latchBit Reg.MGMT_STATUS 9).inc bankMgmt 8).logBit srcMgmt 0 9 i []).emit (.pin pinSmbAlertN false)
  | none =>
    if d1.mgmt.warned ∧ 3 ≤ d1.mgmt.coolRun then
      ({ d1 with mgmt := { d1.mgmt with warned := false, alertN := false } }).emit (.pin pinSmbAlertN true)
    else d1

/-- One stack's part of a sample: the refresh interval (R360), and the shutdown by firmware (R442). -/
def Dev.stackSample (d : Dev) (k : Nat) : Dev :=
  let x := Tbl.get 0#12 d.mgmt.temps (28 + k)
  let c := fld (d.reg (Reg.MC_REFRESH k)) 7 0
  let d1 := if hotAt x c then d.modMc k fun m => { m with hot := true }
    else if x.toInt ≤ 4 * (c : Int) - 12 then d.modMc k fun m => { m with hot := false } else d
  let runs := runStep d1.mgmt.hotRun k (hotAt x (fld (d.reg Reg.MGMT_CTRL) 7 0))
  let d2 := { d1 with mgmt := { d1.mgmt with hotRun := runs } }
  if 10 ≤ Tbl.get 0 runs k ∧ d2.mgmt.serving ∧ (d2.mcOf k).st ≠ .lost then (d2.loseStack k 5).latchBit Reg.MGMT_STATUS 10 else d2

/-- One millisecond of the always-on clock: the readings and the operating-time counter. -/
def Dev.aonSample (d : Dev) (temps : List (BitVec 12)) : Dev :=
  let m := d.mgmt
  let sec : Bool := m.opMs + 1 = 1000
  let ts := (List.range 40).foldl (fun t i => Tbl.set 0#12 t i (temps.getD i 0#12)) m.temps
  { d with mgmt := { m with temps := ts, sampled := true, opMs := if sec then 0 else m.opMs + 1,
                            opSecs := if sec then m.opSecs + 1 else m.opSecs } }

/-- A sample of every sensor (R440 to R443, R487). -/
def Dev.sample (d : Dev) (temps : List (BitVec 12)) : Dev :=
  let d1 := (d.aonSample temps).tripSample
  if d1.inReset then d1
  else if d1.clocked pllMgmt then d1.keep ((List.range 8).foldl (fun d k => d.stackSample k) d1.warnSample) else d1

/-- SENSOR_SAMPLE (R440 to R443, R487): also in reset, as long as the always-on clock runs. -/
def execSensorSample (temps : List (BitVec 12)) (s : State) : Host.Outcome State Fault Refusal :=
  actRaw s fun d => if d.powered ∧ d.mgmt.aonOn then d.sample temps else d

/-- Nominal voltage of a rail, mV (Table 20.1); VDDIO_SD is at 3.30 V, and at 1.80 V while SD_VSEL is high (R523). -/
def railNominal (sdVsel : Bool) (r : Nat) : Nat :=
  [750, 750, 850, 800, 750, 750, 1200, 1100, 1800, 1800, if sdVsel then 1800 else 3300, 800].getD r 0

/-- One rail's part of a sample (R444). -/
def Dev.railSample (d : Dev) (r mv : Nat) : Dev :=
  let x := d.rail r
  let lo : Bool := mv * 100 < railNominal d.mgmt.sdVsel r * 95
  let hi : Bool := railNominal d.mgmt.sdVsel r * 105 < mv * 100
  let out := if lo || hi then x.outRun + 1 else 0
  let inn := if lo || hi then 0 else x.inRun + 1
  let put (y : Rail) (d : Dev) : Dev := { d with mgmt := { d.mgmt with rails := Tbl.set {} d.mgmt.rails r y } }
  let y : Rail := { outRun := out, inRun := inn, low := x.low, high := x.high, mv := mv }
  if 10 ≤ out then
    let d1 := put { y with low := lo, high := hi } d
    if x.low || x.high then d1 else (((d1.latchBit Reg.MGMT_STATUS 11).inc bankMgmt 9).logBit srcMgmt 0 11 r [])
  else if 10 ≤ inn then put { y with low := false, high := false } d
  else put y d

/-- A sample of every rail and the power estimate (R444). -/
def Dev.vmonSample (d : Dev) (mv : List (BitVec 16)) (power : Nat) : Dev :=
  let d1 := (List.range 12).foldl (fun d r => d.railSample r (mv.getD r 0#16).toNat) d
  { d1 with mgmt := { d1.mgmt with power := power } }

/-- VMON_SAMPLE (R444). -/
def execVmonSample (mv : List (BitVec 16)) (power : BitVec 16) (s : State) : Host.Outcome State Fault Refusal :=
  actIn pllMgmt (.vmonSample mv power) s fun d => d.vmonSample mv power.toNat

/-- AON_CLOCK_LOSS (R529): the sensors, the trip and the operating-time counter stand still. -/
def execAonClockLoss (s : State) : Host.Outcome State Fault Refusal :=
  actRaw s fun d => { d with mgmt := { d.mgmt with aonOn := false } }

/-- AON_XIN_RESTART (R529). -/
def execAonXinRestart (s : State) : Host.Outcome State Fault Refusal :=
  actRaw s fun d => { d with mgmt := { d.mgmt with aonOn := true } }

end Sys2Proof.Machine
end

