-- ==== Sys2Proof/Machine/Power.lean ====
section
/-! DEFINITION. Power, SYS_RST_N and the PLLs (R34, R443, R466, R467, R525). -/
namespace Sys2Proof.Machine

/-! ## Power and reset (R466, R467, R525) -/

/-- What lies in AONCLK and in fuses, and a clear of the event recorder that was cut short: it lasts through SYS_RST_N
(R443, R455, R456, R467). -/
def Mgmt.kept (m : Mgmt) : Mgmt :=
  { trip := m.trip, tripNew := m.tripNew, thermtripN := m.thermtripN, temps := m.temps, sampled := m.sampled,
    tripRun := m.tripRun, ownerHash := m.ownerHash, fuseCount := m.fuseCount, clearing := m.clearing, opBase := m.opBase,
    opSecs := m.opSecs, opMs := m.opMs, pcc := m.pcc, opRecord := m.opRecord, aonOn := m.aonOn }

/-- Every domain but AONCLK as SYS_RST_N leaves it; the straps hold until the release (R466, R467). -/
def Dev.resetAll (d : Dev) : Dev :=
  { inReset := true, rstAsserted := true, regs := d.regs.filter fun p => p.1 = Reg.GLB_STRAP, free := d.free,
    nextUid := d.nextUid, out := d.out, nvm := d.nvm, nvmOctal := d.nvmOctal, mgmt := d.mgmt.kept, boot := { firstStart := d.boot.firstStart } }

/-- SYS_RST_ASSERT (R467, R526). -/
def Dev.sysRst (d : Dev) : Dev := if d.powered then d.resetAll.emit .pinsRelease else d

def execSysRstAssert (s : State) : Host.Outcome State Fault Refusal := actRaw s Dev.sysRst

/-- A release of SYS_RST_N is ignored while a sensor of the trip reads 100 °C or more after a trip (R443). -/
def Dev.tooHot (d : Dev) : Bool :=
  d.mgmt.thermtripN && (List.range 40).any fun i => dieSensor i && hotAt (Tbl.get 0#12 d.mgmt.temps i) 100

/-- Straps of GLB_STRAP (Table 17.11). -/
def strapMask : Word := 0x00001F33#32

/-- The device resets the flash, by its pin and by command: it is in its power-on state (R468). -/
def Dev.resetFlash (d : Dev) : Dev :=
  ((({ d with nvmOctal := false }).emit (.pin pinNvmRstN false)).emit (.pin pinNvmRstN true)).emit .flashReset

/-- SYS_RST_RELEASE (R466, R468, R523): the straps are latched, SD_VSEL is driven low, the flash is reset, and start-up begins;
GLB_BOOT.step reads 0 until the first PLL locks (R11, R469; log entry 98, DESIGN CHOICE). -/
def Dev.sysRelease (d : Dev) (straps : Word) : Dev :=
  if !d.powered ∨ !d.rstAsserted then d
  else if d.tooHot then { d with rstAsserted := false }
  else
    let d1 := d.setReg Reg.GLB_STRAP (straps &&& strapMask)
    let d2 := { d1 with inReset := false, rstAsserted := false,
                        mgmt := { d1.mgmt with thermtripN := false } }
    ((if d.mgmt.thermtripN then d2.emit (.pin pinThermtripN true) else d2).emit (.pin pinSdVsel false)).resetFlash

def execSysRstRelease (straps : Word) (s : State) : Host.Outcome State Fault Refusal := actRaw s fun d => d.sysRelease straps

/-- POWER_ON (R467): everything is reset, the always-on domain too; the flash and the fuses keep what they hold. -/
def Dev.powerOn (d : Dev) : Dev :=
  if d.powered then d
  else
    { inReset := true, rstAsserted := true, free := d.free, nextUid := d.nextUid, out := d.out, nvm := d.nvm,
      mgmt := { ownerHash := d.mgmt.ownerHash, fuseCount := d.mgmt.fuseCount, clearing := d.mgmt.clearing } }

def execPowerOn (s : State) : Host.Outcome State Fault Refusal := actRaw s Dev.powerOn

/-- A record in flight may be torn: free bytes that are no valid record, or nothing changed (R449, R475, R488, R525). -/
def Dev.tear (d : Dev) (a n : Nat) (good : Bytes → Bool) : Dev :=
  let f := d.takeFree
  let x := le n f.1
  if good x then f.2 else { f.2 with nvm := Tbl.setRun 0xFF#8 f.2.nvm a x }

/-- Whether bytes are a valid record of the boot header, the operating-time store and the event log. -/
def goodHdr (r : Bytes) : Bool := Machine.slice r 0 4 == hdrMagic && Machine.slice r 252 4 == wordBytes (crc32c (r.take 252))
def goodOp (r : Bytes) : Bool := Machine.slice r 12 4 == wordBytes (crc32c (r.take 12))
def goodEvent (r : Bytes) : Bool := !tornRecord r

/-- What power loss may spoil: the next event record when one waits, the next boot header and operating-time records, and
the block of a staging in progress. -/
def Dev.tearNvm (d : Dev) : Dev :=
  if !d.mgmt.serving then d
  else
    let d1 := if d.events = [] ∨ d.mgmt.full ∨ d.mgmt.clearing.isSome then d else d.tear (nvEvents + 64 * d.mgmt.nextSlot) 64 goodEvent
    let d2 := (d1.tear (256 * d1.hdrNext) 256 goodHdr).tear (nvOptime + 16 * d1.opNext) 16 goodOp
    if d2.mgmt.fw.job.isSome then d2.nvSpoil (nvSlot d2.spareSlot) (fwBlock * 512) else d2

/-- POWER_LOSS (R525). -/
def Dev.powerLoss (d : Dev) : Dev :=
  if !d.powered then d
  else
    let d1 := if d.inReset then d else d.tearNvm
    { d1 with powered := false }

def execPowerLoss (s : State) : Host.Outcome State Fault Refusal := actRaw s Dev.powerLoss

/-! ## PLLs (R34, Table 18.5) -/

/-- The domain code and the instance of a PLL's event: the place of its domain in Table 1.6 (log entry 27, DEDUCED). -/
def pllDomain : Pll → Nat × Nat
  | .fclk => (0, 0)
  | .tclk => (1, 0)
  | .dclkF => (2, 0)
  | .dclkT => (2, 1)
  | .mclk k => (3, k)
  | .line => (5, 0)
  | .lineLane l => (6, l)
  | .fabric => (8, 0)
  | .framer f => (9, f)
  | .host => (11, 0)
  | .pciePhy => (12, 0)
  | .mgmt => (13, 0)
  | .time => (15, 0)

/-- The bit of a PLL in GLB_PLL_STATUS, or the number of a SerDes PLL: a line lane's, or after them a framer's. -/
def pllBit : Pll → Nat ⊕ Nat
  | .fclk => .inl pllF
  | .tclk => .inl pllT
  | .dclkF => .inl 2
  | .dclkT => .inl 3
  | .mclk k => .inl (4 + k)
  | .line => .inl pllLine
  | .fabric => .inl pllFabric
  | .host => .inl pllHost
  | .pciePhy => .inl 15
  | .mgmt => .inl pllMgmt
  | .time => .inl pllTime
  | .lineLane l => .inr l
  | .framer f => .inr (framerPll f)

/-- A PLL is in lock. -/
def Dev.pllLocked (d : Dev) (p : Pll) : Bool :=
  match pllBit p with
  | .inl b => d.clocked b
  | .inr l => !d.boot.lanesOut.contains l

/-- Note a PLL in or out of lock. -/
def Dev.setPll (d : Dev) (p : Pll) (v : Bool) : Dev :=
  match pllBit p with
  | .inl b =>
    let m : BitVec 18 := BitVec.ofNat 18 (2 ^ b)
    { d with boot := { d.boot with plls := if v then d.boot.plls ||| m else d.boot.plls &&& ~~~m } }
  | .inr l => { d with boot := { d.boot with lanesOut := if v then d.boot.lanesOut.filter (· != l) else l :: d.boot.lanesOut } }

/-- The lanes and the link that a loss takes down; a loss of TSCLK stops device time (R22, R34, R40, R271). -/
def Dev.pllEffect (d : Dev) (p : Pll) : Dev :=
  match p with
  | .dclkF => if d.boot.dukTrained then d.linkLost .clock else d
  | .dclkT => if d.boot.dukTrained then d.linkLost .clock else d
  | .time => { d with time := { d.time with running := false } }
  | .lineLane l => d.lockLoss (d.lanePort l) false
  | .framer f => d.framerIdle f true
  | _ => d

/-- A PLL loses lock: logged with its domain (R34). -/
def Dev.pllLoss (d : Dev) (p : Pll) : Dev :=
  if !d.pllLocked p then d
  else
    let x := pllDomain p
    ((((d.setPll p false).inc bankGlb 6).latchBit Reg.GLB_STATUS 8).logBit 0x00 0 8 x.2 (le 1 x.1)).pllEffect p

/-- PLL_LOCK_LOSS (R34). -/
def execPllLockLoss (pll : Pll) (s : State) : Host.Outcome State Fault Refusal := act s fun d => d.pllLoss pll

/-- Actions that wait in the FIFOs of a clock that runs again, with their instants past, are taken late (R34, R67). -/
def Dev.tardyIn (d : Dev) (b : Nat) : Dev :=
  let late (e : LEntry) : LEntry :=
    if e.st = .dispatched ∧ e.pll = b ∧ e.instant < d.time.now.nsTotal then { e with tardy := true } else e
  { d with lnch := { d.lnch with entries := d.lnch.entries.map fun (p : Nat × LEntry) => (p.1, late p.2) } }

/-- A PLL locks, for the first time after reset or again: device time counts from the lock of TSCLK (R40), and step 1 of
start-up shows from the first lock and ends when every PLL of GLB_PLL_STATUS is locked (R469; log entry 98). -/
def Dev.pllLock (d : Dev) (p : Pll) : Dev :=
  if d.pllLocked p then d
  else
    let d1 := match pllBit p with
      | .inl b => (d.setPll p true).tardyIn b
      | .inr _ => d.setPll p true
    let d2 := if p = .time then { d1 with time := { d1.time with running := true } } else d1
    let n := if d2.boot.step ≤ 1 then (if d2.boot.plls = 0x3FFFF#18 then 2 else 1) else d2.boot.step
    { d2 with boot := { d2.boot with step := n } }

/-- PLL_RELOCK (R34, R40). -/
def execPllRelock (pll : Pll) (s : State) : Host.Outcome State Fault Refusal := act s fun d => d.pllLock pll

end Sys2Proof.Machine
end

