-- ==== Sys2Proof/Machine/Boot.lean ====
section
/-! DEFINITION. Start-up: firmware, calibration, training, the end of configuration, and the start of forwarding (R165,
R215, R307, R330, R362, R363, R469 to R473, R484 to R488). -/
namespace Sys2Proof.Machine

/-- STRAP_BOOT (Table 17.1); 3 acts as 0. -/
def Dev.bootMode (d : Dev) : Nat := fld (d.reg Reg.GLB_STRAP) 1 0

/-! ## The boot ROM (R472, R473) -/

/-- verify(x) of R472 on a slot: its header, its epoch and its signature. -/
def Dev.slotVerifies (d : Dev) (x : Nat) (sig : Bool) : Bool :=
  let f := d.nvRead (nvSlot x) fwHeader
  imgHeaderOk f none && decide (d.mgmt.fuseCount ≤ imgEpoch f) && sig

/-- The slot that R472 boots, if one passes. -/
def Dev.chooseSlot (d : Dev) (sigA sigB : Bool) : Option Nat :=
  let h := d.hdr
  let s := if hdrState h (hdrActive h) = 2 then 1 - hdrActive h else hdrActive h
  let passes (x : Nat) : Bool := hdrState h x ≠ 0 && d.slotVerifies x (if x = 0 then sigA else sigB)
  if passes s then some s else if passes (1 - s) then some (1 - s) else none

/-- Slot `s` boots: the T-die windows answer and step 3 begins (R469, R470). -/
def Dev.bootSlot (d : Dev) (s : Nat) (card : Bool) : Dev :=
  let h := d.hdr
  { d with
    boot := { d.boot with step := 3, tdieReady := true, slot := s, recovery := card, fallback := s ≠ hdrActive h,
                          selected := hdrCfg h },
    mgmt := { d.mgmt with fw := { active := s, state := if hdrState h s = 2 then 3 else 0, trialSince := d.time.tsc } } }

/-- The boot ROM has read the flash, in octal mode (R474), and verified what it can; in RECOVERY mode it installs from the card
all the same. -/
def Dev.romVerify (d : Dev) (sigA sigB : Bool) : Dev :=
  if d.boot.step ≠ 2 ∨ d.boot.fail ≠ 0 then d
  else
    let e := { d with nvmOctal := true }
    match d.chooseSlot sigA sigB with
    | none => { e with boot := { e.boot with noSlot := true } }
    | some s => if e.bootMode = 2 then e else e.bootSlot s false

/-- BOOT_ROM_VERIFY_COMPLETE (R472). -/
def execBootRomVerifyComplete (sigA sigB : Bool) (s : State) : Host.Outcome State Fault Refusal :=
  actIn pllMgmt (.bootRomVerifyComplete sigA sigB) s fun d => d.romVerify sigA sigB

/-- The image on the card passes the checks of R458 to R460. -/
def Dev.cardImage (d : Dev) (file : CardFile) (sigOk : Bool) : Option Bytes :=
  match file with
  | .file f =>
    if imgHeaderOk f (some f.length) ∧ (imgBadBlock f).isNone ∧ d.mgmt.fuseCount ≤ imgEpoch f ∧ imgEpoch f ≤ 64 ∧ sigOk then some f
    else none
  | _ => none

/-- Install an image and boot it in trial. -/
def Dev.install (d : Dev) (f : Bytes) : Dev :=
  let s := if d.boot.noSlot then 0 else 1 - hdrActive d.hdr
  let d1 := (d.slotErase s f.length).nvProgram (nvSlot s) f
  (d1.hdrWrite fun r => hdrSetActive s (hdrSetState s 2 (hdrSetVersion s (imgVersion f) r))).bootSlot s true

/-- Recovery from the card, or the halt in step 2 (R473). -/
def Dev.recover (d : Dev) (file : CardFile) (sigOk uhs : Bool) : Dev :=
  if d.boot.step ≠ 2 ∨ d.boot.fail ≠ 0 ∨ (d.bootMode ≠ 2 ∧ !d.boot.noSlot) then d
  else
    let d1 := d.cardVolts file uhs
    match d.cardImage file sigOk with
    | some f => d1.install f
    | none => { d1 with boot := { d1.boot with fail := 1 } }

/-- BOOT_RECOVERY (R473); with `uhs` the card has accepted 1.80 V signalling (R523). -/
def execBootRecovery (file : CardFile) (sigOk uhs : Bool) (s : State) : Host.Outcome State Fault Refusal :=
  actNvmIn pllMgmt (.bootRecovery file sigOk uhs) s fun d => d.recover file sigOk uhs

/-! ## The calibration set (R484, R485) -/

/-- Places in the header of the calibration set: the order is Table 17.9's, the offsets are DEDUCED (log entry 26). -/
def calSerial : Nat := 8
def calValidAt : Nat := 24
def calCrcAt : Nat := 28
def calHdrCrcAt : Nat := 48

/-- Offset and size of section `i`. -/
def calSection (i : Nat) : Nat × Nat :=
  [(0x100, 4), (0x1000, 2048), (0x2000, 4096), (0x3000, 320), (0x10000, 524288)].getD i (0, 0)

/-- The header is valid, and carries this device's serial number. -/
def calHeaderOk (h : Bytes) : Bool :=
  Machine.slice h 0 4 == [90#8, 67#8, 65#8, 76#8] && unle (Machine.slice h 4 4) = 1 &&
  Machine.slice h calSerial 16 == ((List.range 4).flatMap fun i => wordBytes (Config.factorySerial i)) &&
  Machine.slice h calHdrCrcAt 4 == wordBytes (crc32c (h.take calHdrCrcAt))

/-- The bytes of section `i`, when it is valid. -/
def Dev.calData (d : Dev) (i : Nat) : Option Bytes :=
  let h := d.nvRead nvCal 256
  let s := calSection i
  let x := d.nvRead (nvCal + s.1) s.2
  if calHeaderOk h ∧ (unle (Machine.slice h calValidAt 4)).testBit i ∧
      Machine.slice h (calCrcAt + 4 * i) 4 = wordBytes (crc32c x) then some x else none

/-- The calibration set is loaded (R48, R469). -/
def Dev.loadCal (d : Dev) : Dev :=
  let v (i : Nat) : Bool := (d.calData i).isSome
  let bits := bitsOf ((List.range 5).map v)
  let d1 := { d with
    boot := { d.boot with calValid := BitVec.ofNat 5 bits, seeds := v 4, lineEq := (d.calData 1).getD [],
                          fabEq := (d.calData 2).getD [], trims := (d.calData 3).getD [] },
    mgmt := { d.mgmt with trimmed := v 3 } }
  match d.calData 0 with
  | some x => d1.writeFreqAdj (wd (unle x))
  | none => d1

/-- The operating-time store is added to the always-on counter at the first start after power-on (R487, R488). -/
def Dev.loadOptime (d : Dev) : Dev :=
  if !d.boot.firstStart then d
  else
    let d1 := { d with boot := { d.boot with firstStart := false } }
    match d.opNewest with
    | some p => { d1 with mgmt := { d1.mgmt with opBase := unle (Machine.slice p.2 4 4), pcc := min 0xFFFFFF (unle (Machine.slice p.2 8 3) + 1) } }
    | none => ({ d1 with mgmt := { d1.mgmt with opBase := 0, pcc := 1 } }).logNum srcMgmt 1 0 []

/-- The start after a thermal trip reports it (R443). -/
def Dev.reportTrip (d : Dev) : Dev :=
  if d.mgmt.tripNew then
    (({ d with mgmt := { d.mgmt with tripNew := false } }).latchBit Reg.MGMT_STATUS 13).logBit srcMgmt 0 13
      (fld d.mgmt.trip 21 16) (le 2 (fld d.mgmt.trip 11 0))
  else d

/-- Huafin reports a boot of a slot other than the active one and makes that slot the active one; the end of a trial is a
fall-back (R461, R462, R472). -/
def Dev.reportFallback (d : Dev) : Dev :=
  if !d.boot.fallback then d
  else
    let s := d.boot.slot
    let h := d.hdr
    let d1 := (d.logNum 0x00 4 0 (le 1 s)).hdrWrite (hdrFallBack (1 - s))
    if hdrState h (1 - s) = 2 then
      ((d1.inc bankMgmt 6).latchBit Reg.MGMT_STATUS 15).logBit srcMgmt 0 15 0 (le 8 (hdrVersion h (1 - s)))
    else d1

/-- Step 3 ends: firmware serves, the event log is scanned, and the stacks train (R449, R469). -/
def Dev.calibrated (d : Dev) : Dev :=
  let d1 := ((((d.loadCal.loadOptime).eventScan).reportTrip).reportFallback).clearCut
  let d2 := (List.range 8).foldl (fun d k => d.modMc k fun m => { m with st := .training }) d1
  { d2 with boot := { d2.boot with step := 4 }, mgmt := { d2.mgmt with serving := true } }

/-- CALIBRATION_LOAD (R469). -/
def execCalibrationLoad (s : State) : Host.Outcome State Fault Refusal :=
  actNvmIn pllMgmt .calibrationLoad s fun d => if d.boot.step = 3 then d.calibrated else d

/-! ## Training (R362, R363, R470) -/

/-- The retraining entry of channel `c` of stack `k`, with the schedule base `b` in ns (R363). -/
def retrainEntry (b k c : Nat) : LEntry :=
  let t := b + c * 10 ^ 6 + (if 4 ≤ k then 500000 else 0)
  { sec := t / 10 ^ 9 % 2 ^ 48, ns := t % 10 ^ 9, kind := 7, st := .armed, origin := 1, target := 16 * k + c, arg := 400,
    period := 16000000 }

/-- The schedule base: the first device time at least 1 ms ahead that is a multiple of 16 ms (R363). -/
def Dev.retrainBase (d : Dev) : Nat := 16000000 * ceilDiv (ceilDiv d.time.now.units nsUnit + 10 ^ 6) 16000000

/-- Firmware arms the 128 retraining entries in its own range (R363, log entry 28, DEDUCED). -/
def Dev.armRetrains (d : Dev) : Dev :=
  let b := d.retrainBase
  (List.range 128).foldl (fun d i => d.setEntry (3072 + i) (retrainEntry b (i / 16) (i % 16))) d

/-- Step 4 ends when every stack is READY or LOST and the Dukider link has trained or failed to. -/
def Dev.trainEnds (d : Dev) : Dev :=
  let allDone : Bool := (List.range 8).all fun k => (d.mcOf k).st = .ready || (d.mcOf k).st = .lost
  if d.boot.step = 4 ∧ allDone ∧ (d.boot.dukTrained ∨ d.boot.dukFailed) then
    let e := d.armRetrains
    { e with boot := { e.boot with step := 5 } }
  else d

/-- A stack's start-up training ends (R362). -/
def Dev.stackTrained (d : Dev) (k : Nat) (failed : Option Nat) : Dev :=
  if d.boot.step ≠ 4 ∨ (d.mcOf k).st ≠ .training then d
  else match failed with
    | none => (d.modMc k fun m => { m with st := .ready }).trainEnds
    | some c => ((d.modChan k c fun x => { x with failed := true }).loseStack k 1).trainEnds

/-- STACK_TRAINING_COMPLETE (R362, Table 13.6). -/
def execStackTrainingComplete (k : Fin 8) (failed : Option (Fin 16)) (s : State) : Host.Outcome State Fault Refusal :=
  actIn (pllMclk k) (.stackTrainingComplete k failed) s fun d => d.stackTrained k (failed.map (·.val))

/-- The Dukider link trains, or fails to (R22, R470). -/
def Dev.dukTrains (d : Dev) (ok : Bool) : Dev :=
  if d.boot.step ≠ 4 ∨ d.boot.dukTrained ∨ d.boot.dukFailed then d
  else if ok then
    if d.clocked 2 ∧ d.clocked 3 then ({ d with boot := { d.boot with dukTrained := true, fdieReady := true } }).trainEnds else d
  else ({ d with boot := { d.boot with dukFailed := true } }).trainEnds

/-- DUKIDER_TRAINING_COMPLETE (R470). -/
def execDukiderTrainingComplete (ok : Bool) (s : State) : Host.Outcome State Fault Refusal := act s fun d => d.dukTrains ok

/-! ## Steps 5 to 7 (R130, R469) -/

/-- STAGE_MEMORY_FILL (R130): once loading has ended. -/
def execStageMemoryFill (s : State) : Host.Outcome State Fault Refusal :=
  actIn pllMgmt .stageMemoryFill s fun d => if d.boot.step = 5 ∧ d.boot.endCause ≠ 0 ∧ !d.boot.loading then d.configEnds else d

/-- A boot step ends and the next begins. -/
def Dev.stepEnds (d : Dev) (n : Nat) : Dev :=
  if d.boot.step = n then { d with boot := { d.boot with step := n + 1 } } else d

/-- BOOT_SERDES_STEP_END (R469). -/
def execBootSerdesStepEnd (s : State) : Host.Outcome State Fault Refusal := actIn pllMgmt .bootSerdesStepEnd s fun d => d.stepEnds 6
/-- BOOT_ALIGN_STEP_END (R469). -/
def execBootAlignStepEnd (s : State) : Host.Outcome State Fault Refusal := actIn pllMgmt .bootAlignStepEnd s fun d => d.stepEnds 7

/-! ## The start of forwarding (R165, R215, R307, R330, R469) -/

/-- Check one pool (R215): one that fails is disabled, and an event names its tier and class. -/
def Dev.checkPool (d : Dev) (t s : Nat) : Dev :=
  if d.poolOk t s ((d.part.getD 0 (0, 0)).2 * 2 ^ 20) then d
  else (({ d with bpm := { d.bpm with disabled := Tbl.set false d.bpm.disabled (4 * t + s) true } }).latchBit Reg.BPM_STATUS 9).logBit
    0x50 0 9 0 (le 1 t ++ le 1 s)

/-- Check every pool, and build the on-die lists as the pools now stand. -/
def Dev.checkPools (d : Dev) : Dev := (List.range 8).foldl (fun d i => d.checkPool (i / 4) (i % 4)) d.buildLists

/-- Page 0 becomes active in each direction of an enabled link whose page 0 has a generation (R307). -/
def Dev.activatePages (d : Dev) (n : Nat) : Dev :=
  if (d.link n).align = 0 then d
  else d.modLink n fun x => { x with txPage := if d.gen n 0 0 ≠ 0 then some 0 else x.txPage, rxPage := if d.gen n 1 0 ≠ 0 then some 0 else x.rxPage }

/-- The timers of a candidate's role machine start, and its claim of start-up is fixed; the machine runs from the release of
SYS_RST_N (R328, R330). -/
def Dev.startRole (d : Dev) : Dev :=
  if d.candidate then { d with fab := { d.fab with roleOn := true, claim := d.ownClaim } } else d

/-- Losses that start-up found: the Dukider link and the table region (R22, R428). -/
def Dev.startLosses (d : Dev) : Dev :=
  let d1 := if d.boot.dukFailed then d.linkLost .untrained else d
  let d2 := if d1.dukLost ∧ !d1.spr.cellar then
      let e := d1.enterCellar 4
      { e with spr := { e.spr with fdieOnly := true } }
    else d1
  if d2.tableLost ∧ !d2.spr.cellar then d2.enterCellar 3 else d2

/-- Forwarding starts. -/
def Dev.forwardingStarts (d : Dev) : Dev :=
  let d1 := d.checkPools
  let d2 := { d1 with vint := { d1.vint with started := true, current := fld (d1.reg Reg.SL_VNT_CTRL) 3 0, old := none } }
  let d3 := ((List.range 256).foldl (fun d n => d.activatePages n) d2).updateReach
  d3.startRole.startLosses

/-- FORWARDING_START (R165, R469). -/
def execForwardingStart (s : State) : Host.Outcome State Fault Refusal :=
  actIn pllMgmt .forwardingStart s fun d => if d.boot.step = 8 ∧ !d.vint.started then d.forwardingStarts else d

/-! ## DRAM pools (R215, R539) -/

/-- The pool of a class has its list, or is disabled and needs none. -/
def Dev.poolDone (d : Dev) (s : Nat) : Bool := Tbl.get false d.bpm.ready (4 + s) || Tbl.get false d.bpm.disabled (4 + s)

/-- The DRAM list of a class is complete: class by class in ascending order. -/
def Dev.dramReady (d : Dev) (s : Nat) : Dev :=
  if d.vint.started ∧ !d.poolDone s ∧ (List.range s).all d.poolDone then
    let e := d.buildDram s
    { e with bpm := { e.bpm with ready := Tbl.set false e.bpm.ready (4 + s) true } }
  else d

/-- DRAM_POOL_READY (R215). -/
def execDramPoolReady (cls : Fin 4) (s : State) : Host.Outcome State Fault Refusal := actIn pllT (.dramPoolReady cls) s fun d => d.dramReady cls

end Sys2Proof.Machine
end

