-- ==== Sys2Proof/Machine/Tables.lean ====
section
/-! DEFINITION. Host table access: the table commands of command rings and of the management mailbox (R185 to R188). -/
namespace Sys2Proof.Machine

/-- The 96-byte body of a table command (Table 6.6). -/
structure TblCmd where
  op : Nat
  desc : Nat
  lock : Bool
  ifAbsent : Bool
  ifPresent : Bool
  matchEn : Bool
  keyLen : Nat
  index : Nat
  addr : Nat
  start : Nat
  count : Nat
  result : Nat
  image : Bytes
deriving DecidableEq, Repr

/-- Read a body. -/
def TblCmd.ofBytes (b : Bytes) : TblCmd :=
  let fl := (b.getD 2 0).toNat
  { op := (b.getD 0 0).toNat, desc := (b.getD 1 0).toNat % 64, lock := fl.testBit 0, ifAbsent := fl.testBit 1,
    ifPresent := fl.testBit 2, matchEn := fl.testBit 3, keyLen := (b.getD 3 0).toNat, index := unle (slice b 4 4),
    addr := unle (slice b 8 8), start := unle (slice b 16 4), count := unle (slice b 20 4), result := unle (slice b 24 8),
    image := slice b 32 64 }

/-- The result codes of Table 6.8. -/
def tOk : Nat := 0
def tNotFound : Nat := 1
def tExists : Nat := 2
def tFull : Nat := 3
def tBadDesc : Nat := 4
def tBadArg : Nat := 5
def tBadOp : Nat := 6
def tUnavailable : Nat := 7

def TblCmd.key (c : TblCmd) : Bytes := Machine.slice c.image 2 c.keyLen

/-- The key length fits (Table 6.8). -/
def TblCmd.keyOk (c : TblCmd) (dsc : BitVec 256) : Bool := 1 ≤ c.keyLen && c.keyLen ≤ 40 && 2 + c.keyLen ≤ descEsize dsc

/-- The entry that a WRITE stores: its image with the control bytes of the engine (Table 6.7). -/
def Dev.hostEntry (d : Dev) (c : TblCmd) (dsc : BitVec 256) : Bytes :=
  overwrite (Machine.slice c.image 0 (descEsize dsc)) 0 [ctlByte c.lock false 0, BitVec.ofNat 8 d.vint.epoch]

/-- Set valid 0 in a list of slots. -/
def Dev.invalidateSlots (d : Dev) (dsc : BitVec 256) (l : List (Nat × Bytes)) : Dev :=
  l.foldl (fun d p => d.tblWrite dsc p.1 (invalidated p.2)) d

/-- The presence conditions if_absent and if_present: the result they end with, or 0. -/
def TblCmd.presence (c : TblCmd) (present : Bool) : Nat :=
  if c.ifAbsent && present then tExists else if c.ifPresent && !present then tNotFound else tOk

/-- WRITE (Table 6.7). -/
def Dev.tblCmdWrite (d : Dev) (c : TblCmd) (dsc : BitVec 256) : Nat × Dev :=
  let e := d.hostEntry c dsc
  let es := descEsize dsc
  if descKind dsc = 1 then
    if 2 ^ descLog2 dsc ≤ c.index then (tBadArg, d)
    else match c.presence (entryValid (d.engRead dsc (c.index * es) es)) with
      | 0 => (tOk, d.tblWrite dsc (c.index * es) e)
      | r => (r, d)
  else if !c.keyOk dsc then (tBadArg, d)
  else
    let found := hashFind (d.engRead dsc) dsc c.key
    match c.presence (found ≠ []), found with
    | 0, p :: rest => (tOk, (d.tblWrite dsc p.1 e).invalidateSlots dsc rest)
    | 0, [] => match d.freeSlot dsc c.key with
      | some o => (tOk, d.tblWrite dsc o e)
      | none => (tFull, d)
    | r, _ => (r, d)

/-- DELETE (Table 6.7). -/
def Dev.tblCmdDelete (d : Dev) (c : TblCmd) (dsc : BitVec 256) : Nat × Dev :=
  let es := descEsize dsc
  if descKind dsc = 1 then
    if 2 ^ descLog2 dsc ≤ c.index then (tBadArg, d)
    else
      let e := d.engRead dsc (c.index * es) es
      if entryValid e then (tOk, d.tblWrite dsc (c.index * es) (invalidated e)) else (tNotFound, d)
  else if !c.keyOk dsc then (tBadArg, d)
  else match hashFind (d.engRead dsc) dsc c.key with
    | [] => (tNotFound, d)
    | l => (tOk, d.invalidateSlots dsc l)

/-- READ (Table 6.7). -/
def Dev.tblCmdRead (d : Dev) (c : TblCmd) (dsc : BitVec 256) : Nat × Dev :=
  let es := descEsize dsc
  if descKind dsc = 1 then
    if 2 ^ descLog2 dsc ≤ c.index then (tBadArg, d)
    else
      let e := d.engRead dsc (c.index * es) es
      if entryValid e then (tOk, d.dmaOut c.addr e) else (tNotFound, d)
  else if !c.keyOk dsc then (tBadArg, d)
  else match hashFind (d.engRead dsc) dsc c.key with
    | [] => (tNotFound, d)
    | p :: _ => (tOk, d.dmaOut c.addr p.2)

/-- The prefix of a route command: VRF, length and the address with the bits beyond the length taken as 0. -/
def TblCmd.route (c : TblCmd) (dsc : BitVec 256) : Route :=
  let v6 := descIpv6 dsc
  let w := if v6 then 128 else 32
  let plen := c.index / 2 ^ 16 % 256
  let a := unbe (Machine.slice c.image 0 (w / 8))
  { table := lpmTable dsc, vrf := c.index % 4096, plen := plen, addr := (a >>> (w - plen)) <<< (w - plen), result := BitVec.ofNat 64 c.result }

def TblCmd.plenOk (c : TblCmd) (v6 : Bool) : Bool := c.index / 2 ^ 16 % 256 ≤ (if v6 then 128 else 32)

/-- Two routes are of one prefix. -/
def Route.same (a b : Route) : Bool := a.table = b.table && a.vrf = b.vrf && a.plen = b.plen && a.addr = b.addr

/-- n4 + 2 × n6 of R188: VRF defaults do not count. -/
def Dev.routeWeight (d : Dev) : Nat :=
  ((d.vint.routes.filter fun r => r.plen ≠ 0).map fun r =>
    if r.table.2.2.2 then 2 else 1).foldl (· + ·) 0

def Dev.setRoutes (d : Dev) (l : List Route) : Dev := { d with vint := { d.vint with routes := l } }

/-- ROUTE_ADD (Table 6.7, R188). -/
def Dev.routeAdd (d : Dev) (c : TblCmd) (dsc : BitVec 256) : Nat × Dev :=
  let v6 := descIpv6 dsc
  let r := c.route dsc
  if !c.plenOk v6 then (tBadArg, d)
  else if d.vint.routes.any (·.same r) then
    if c.ifAbsent then (tExists, d) else (tOk, d.setRoutes (d.vint.routes.map fun x => if x.same r then r else x))
  else if r.plen ≠ 0 ∧ 8388608 < d.routeWeight + (if v6 then 2 else 1) then (tFull, d)
  else (tOk, d.setRoutes (d.vint.routes ++ [r]))

/-- ROUTE_DEL (Table 6.7). -/
def Dev.routeDel (d : Dev) (c : TblCmd) (dsc : BitVec 256) : Nat × Dev :=
  let v6 := descIpv6 dsc
  let r := c.route dsc
  if !c.plenOk v6 then (tBadArg, d)
  else if d.vint.routes.any (·.same r) then (tOk, d.setRoutes (d.vint.routes.filter fun x => !x.same r))
  else (tNotFound, d)

/-- The valid entries of a run of buckets. -/
def Dev.bucketEntries (d : Dev) (dsc : BitVec 256) (start count : Nat) : List (Nat × Bytes) :=
  (((List.range count).flatMap fun i => bucketSlots dsc (start + i)).map fun o => (o, d.engRead dsc o (descEsize dsc))).filter
    fun p => entryValid p.2

/-- DUMP (Table 6.7). -/
def Dev.tblDump (d : Dev) (c : TblCmd) (dsc : BitVec 256) : Nat × Dev :=
  if descBuckets dsc < c.start + c.count then (tBadArg, d)
  else
    let l := d.bucketEntries dsc c.start c.count
    (tOk, (d.dmaOut (c.addr + 64) (l.flatMap (·.2))).dmaOut c.addr (le 4 l.length))

/-- FLUSH (Table 6.7): with match_en only the entries whose byte match_byte equals match_value. -/
def Dev.tblFlush (d : Dev) (c : TblCmd) (dsc : BitVec 256) : Nat × Dev :=
  let goes (e : Bytes) : Bool :=
    !entryLock e && (!c.matchEn || (e.getD (c.start / 256 % 64) 0).toNat = c.start % 256)
  let l := (d.bucketEntries dsc 0 (descBuckets dsc)).filter fun p => goes p.2
  (tOk, (d.invalidateSlots dsc l).dmaOut c.addr (le 4 l.length))

/-- The kinds of table that an op serves. -/
def tblKindOk (op kind : Nat) : Bool :=
  if op ≤ 3 then kind = 1 || kind = 2 else if op ≤ 5 then kind = 3 else kind = 2

/-- One table command (R186): a command that does not end in OK changes nothing. -/
def Dev.tblCmd (d : Dev) (c : TblCmd) : Nat × Dev :=
  let dsc := Tbl.get 0#256 d.prog.descs c.desc
  if d.tableLost ∨ d.dukLost then (tUnavailable, d)
  else if c.op = 0 ∨ 7 < c.op then (tBadOp, d)
  else if !descValid dsc ∨ !tblKindOk c.op (descKind dsc) then (tBadDesc, d)
  else match c.op with
    | 1 => d.tblCmdWrite c dsc
    | 2 => d.tblCmdDelete c dsc
    | 3 => d.tblCmdRead c dsc
    | 4 => d.routeAdd c dsc
    | 5 => d.routeDel c dsc
    | 6 => d.tblDump c dsc
    | _ => d.tblFlush c dsc

/-- The lines that the engine reads for a command (R370): the entry's, the buckets of its key, or the buckets it goes through. -/
def Dev.cmdReads (d : Dev) (c : TblCmd) (dsc : BitVec 256) : Dev :=
  match c.op with
  | 4 => d
  | 5 => d
  | 6 => d.engCount dsc (64 * c.start) (64 * c.count)
  | 7 => d.engCount dsc 0 (64 * descBuckets dsc)
  | _ => if descKind dsc = 1 then d.engCount dsc (c.index * descEsize dsc) (descEsize dsc) else d.readBuckets dsc c.key

/-- Run a command and count it (Table 6.10). -/
def Dev.runTblCmd (d : Dev) (c : TblCmd) : Nat × Dev :=
  let r := d.tblCmd c
  let d0 := if tBadDesc ≤ r.1 then r.2 else r.2.cmdReads c (Tbl.get 0#256 d.prog.descs c.desc)
  let d1 := d0.inc bankVint 14
  (r.1, if r.1 = 0 then d1 else d1.inc bankVint 15)

/-- The body of a TABLE entry. -/
def SqEnt.tblCmd (e : SqEnt) : TblCmd := TblCmd.ofBytes (slice e.bytes 32 96)

/-- A command whose op is `op`; one of no op of Table 6.7 ends BAD_OP whichever row meets it. -/
def TblCmd.isOp (c : TblCmd) (op : Nat) : Bool := c.op = op || c.op = 0 || 7 < c.op

/-- The front TABLE entry of a command ring, when its op is `op`; one that is not 4 units long breaks Table 14.4. -/
def Dev.tableEnt (d : Dev) (q op : Nat) : Dev :=
  if d.sqKind q ≠ 2 then d
  else d.onEntry q [0x10] fun d e =>
    if e.units ≠ 4 then d.endEnt q e 4 0 0 false
    else if e.tblCmd.isOp op then
      let r := d.runTblCmd e.tblCmd
      r.2.endEnt q e 0 0 r.1 false
    else d

/-- The request code of a table command at the mailbox. R185 says that the mailbox accepts the body of Table 6.6; Table 16.1
gives it no code: the op code of TABLE in Table 14.4 is taken, and the response is one byte, the result of Table 6.8 (log entry
108, DESIGN CHOICE). -/
def mbxTable : Nat := 0x10

/-- A table command in a mailbox request, when its op is `op`. -/
def Dev.tableMbx (d : Dev) (op c : Nat) (p : Bytes) : Dev :=
  if p.length ≠ 96 then d.mbxEnd c mBadArg []
  else if (TblCmd.ofBytes p).isOp op then
    let r := d.runTblCmd (TblCmd.ofBytes p)
    r.2.mbxEnd c mOk (le 1 r.1)
  else d

/-- The row of a table op: the command of a ring or of the mailbox, in the host's turn (R179, R185). -/
def Dev.tableRow (d : Dev) (src : TblSrc) (op : Nat) : Dev :=
  d.engOp 0 fun d => match src with
    | .ring q => d.tableEnt q op
    | .mailbox m p => d.serve m mbxTable p fun d c p => d.tableMbx op c p

/-- The domains of a table row: the engine is in TCLK, and a mailbox request comes from the management cores. -/
def srcClocks : TblSrc → List Nat
  | .ring _ => [pllT]
  | .mailbox _ _ => [pllMgmt, pllT]

/-- The form of a table row. -/
def actTable (src : TblSrc) (op : Nat) (c : Instr) (s : State) : Host.Outcome State Fault Refusal :=
  act s fun d => d.across (srcClocks src) c fun d => d.tableRow src op

/-- TABLE_WRITE (R186). -/
def execTableWrite (src : TblSrc) (s : State) : Host.Outcome State Fault Refusal := actTable src 1 (.tableWrite src) s
/-- TABLE_DELETE (R186). -/
def execTableDelete (src : TblSrc) (s : State) : Host.Outcome State Fault Refusal := actTable src 2 (.tableDelete src) s
/-- TABLE_READ (R186). -/
def execTableRead (src : TblSrc) (s : State) : Host.Outcome State Fault Refusal := actTable src 3 (.tableRead src) s
/-- ROUTE_ADD (R186, R188). -/
def execRouteAdd (src : TblSrc) (s : State) : Host.Outcome State Fault Refusal := actTable src 4 (.routeAdd src) s
/-- ROUTE_DEL (R186). -/
def execRouteDel (src : TblSrc) (s : State) : Host.Outcome State Fault Refusal := actTable src 5 (.routeDel src) s
/-- TABLE_DUMP (R186). -/
def execTableDump (src : TblSrc) (s : State) : Host.Outcome State Fault Refusal := actTable src 6 (.tableDump src) s
/-- TABLE_FLUSH (R186). -/
def execTableFlush (src : TblSrc) (s : State) : Host.Outcome State Fault Refusal := actTable src 7 (.tableFlush src) s

end Sys2Proof.Machine
end

