-- ==== Sys2Proof/Machine/ConfigImage.lean ====
section
/-! DEFINITION. The configuration image: its header, its records in NVM order, their results, and the end of loading (R471,
R476 to R481). -/
namespace Sys2Proof.Machine

/-! ## Heads and records (R476, R477, R479) -/

/-- Bytes of a half. -/
def halfBytes : Nat := 0x04000000

/-- A record. -/
structure CfgRec where
  typ : Nat
  halt : Bool
  len : Nat
  target : Nat
  payload : Bytes
deriving DecidableEq, Repr

/-- What stands at the place of the next head. -/
inductive CfgNext where
  /-- the end of the half, a head of type 0xFF, or a head or payload that runs past the end: causes 2, 1 and 3 -/
  | stop (cause : Nat)
  | record (r : CfgRec)
deriving DecidableEq, Repr

/-- Read the place of the next head (R477, R479). -/
def Dev.cfgNext (d : Dev) : CfgNext :=
  let pos := d.boot.pos
  let h := d.nvRead (nvHalf d.boot.half + pos) 8
  let len := unle (Machine.slice h 2 2)
  if halfBytes ≤ pos then .stop 2
  else if halfBytes < pos + 8 then .stop 3
  else if h.getD 0 0#8 = 0xFF#8 then .stop 1
  else if halfBytes < pos + 8 + len then .stop 3
  else .record { typ := (h.getD 0 0#8).toNat, halt := (h.getD 1 0#8).getLsbD 0, len := len, target := unle (Machine.slice h 4 4),
                 payload := d.nvRead (nvHalf d.boot.half + pos + 8) len }

/-- Records are applied: step 5 with an image (R479). -/
def Dev.cfgLoads (d : Dev) : Bool := d.boot.step = 5 && d.boot.loading

/-- Loading ends at the place of the next head. -/
def Dev.cfgStop (d : Dev) (cause : Nat) : Dev :=
  { d with boot := { d.boot with loading := false, endCause := cause, endOff := d.boot.pos } }

/-- A record has ended with a result: it is counted, a failure is logged, and loading goes on unless halt is set (R480). -/
def Dev.cfgDone (d : Dev) (r : CfgRec) (result : Nat) : Dev :=
  let next (d : Dev) : Dev := { d with boot := { d.boot with pos := d.boot.pos + 8 + 4 * ceilDiv r.len 4 } }
  if result = 0 then next (d.setReg Reg.GLB_CFG_APPLIED (d.reg Reg.GLB_CFG_APPLIED + 1#32))
  else
    let d1 := d.setRegFld Reg.GLB_CFG_FAULTS 15 0 (min 0xFFFF (fld (d.reg Reg.GLB_CFG_FAULTS) 15 0 + 1))
    let d2 := d1.logNum 0x00 1 0 (le 4 d.boot.pos ++ le 1 r.typ ++ le 1 result)
    if r.halt then d2.cfgStop 4 else next d2

/-- The row of a record type: the next record is applied when it is of that type and form. -/
def Dev.cfgRow (d : Dev) (typ : Nat) (form : CfgRec → Bool) (f : Dev → CfgRec → Nat × Dev) : Dev :=
  if !d.cfgLoads then d
  else match d.cfgNext with
    | .stop _ => d
    | .record r =>
      if r.typ = typ ∧ form r then
        let x := f d r
        (x.2.settleDue).cfgDone r x.1
      else d

/-- The offsets that a record of type `typ` and length `len` for `target` writes, one for each window it goes through; an
associative item has code 4. -/
def cfgOffs (r : CfgRec) : List Nat :=
  match r.typ with
  | 0x01 => (List.range (r.len / 4)).map fun k => r.target + 4 * k
  | 0x02 => [r.target]
  | 0x03 => [Reg.TMQ_CMD]
  | 0x04 => [Reg.SL_PRS_CMD]
  | 0x05 => [Reg.SL_MS_CMD]
  | 0x06 => [Reg.TRL_CAL_CMD]
  | 0x07 => [Reg.SHP_CMD]
  | 0x08 => [Reg.LNCH_CMD]
  | 0x0A => [Reg.MC_PART_CMD]
  | _ => []

/-- The domains of the next record: PERCLK, and those of every register it writes; a record that would wait within waits before
its first item (log entry 18, DESIGN CHOICE). -/
def Dev.cfgClocks (d : Dev) : List Nat :=
  pllMgmt :: match d.cfgNext with
    | .record r => if d.cfgLoads then ((cfgOffs r).map (d.busClocks .cfg)).flatten else []
    | .stop _ => []

/-- The form of a row that applies records of a type. -/
def onRecord (c : Instr) (s : State) (typ : Nat) (form : CfgRec → Bool) (f : Dev → CfgRec → Nat × Dev) : Host.Outcome State Fault Refusal :=
  actBus s fun d => d.across d.cfgClocks c fun d => d.cfgRow typ form f

/-- The result of a record whose length does not match its form (R480). -/
def badForm : Nat := 0xFE

/-! ## Items of a record (R480) -/

/-- Perform items in order until one ends other than OK: what was done before it stands. -/
def runItems {α : Type} (f : Dev → α → Nat × Dev) : List α → Dev → Nat × Dev
  | [], d => (0, d)
  | x :: xs, d =>
    match f d x with
    | (0, d1) => runItems f xs d1
    | r => r

/-- One register write of the loader: offset and value. -/
def Dev.cfgWrite (d : Dev) (x : Nat × Nat) : Nat × Dev := d.busWrite .cfg x.1 (wd x.2)

/-- The item number `i` of a payload, `n` bytes. -/
def CfgRec.item (r : CfgRec) (n i : Nat) : Bytes := Machine.slice r.payload (n * i) n

/-- The words of bytes, each with the offset it is written to from `off` on. -/
def wordWrites (off : Nat) (bs : Bytes) : List (Nat × Nat) :=
  (List.range (bs.length / 4)).map fun k => (off + 4 * k, unle (Machine.slice bs (4 * k) 4))

/-- The payload is a whole number of items of `n` bytes, and not empty. -/
def CfgRec.whole (r : CfgRec) (n : Nat) : Bool := r.len ≠ 0 && r.len % n = 0

/-- Stage words and write a command word; an index that the command's field cannot hold ends BAD_INDEX. -/
def Dev.cfgCmd (d : Dev) (staged : List (Nat × Nat)) (cmd : Nat × Nat) (fits : Bool) : Nat × Dev :=
  if fits then runItems Dev.cfgWrite (staged ++ [cmd]) d else (1, d)

/-! ## REG_WRITE and FIELD_MODIFY -/

/-- CFG_REG_WRITE (R478, R496). -/
def execCfgRegWrite (s : State) : Host.Outcome State Fault Refusal :=
  onRecord .cfgRegWrite s 0x01 (fun _ => true) fun d r => if r.whole 4 then runItems Dev.cfgWrite (wordWrites r.target r.payload) d else (badForm, d)

/-- CFG_FIELD_MODIFY (R478, R498). -/
def execCfgFieldModify (s : State) : Host.Outcome State Fault Refusal :=
  onRecord .cfgFieldModify s 0x02 (fun _ => true) fun d r =>
    if r.len = 8 then d.busRmw .cfg r.target (wd (unle (Machine.slice r.payload 0 4))) (wd (unle (Machine.slice r.payload 4 4))) else (badForm, d)

/-! ## TABLE_LOAD -/

/-- One raw line to both mirror copies (R347): a line beyond the table region ends BAD_ARG. -/
def Dev.cfgLine (d : Dev) (x : Nat × Bytes) : Nat × Dev :=
  if d.regionLines rTable ≤ x.1 then (tBadArg, d)
  else (0, d.dramWrite rTable (64 * x.1) x.2)

/-- CFG_TABLE_LOAD_RAW (R478). -/
def execCfgTableLoadRaw (s : State) : Host.Outcome State Fault Refusal :=
  onRecord .cfgTableLoadRaw s 0x03 (fun r => !r.target.testBit 31) fun d r =>
    if r.whole 64 then runItems Dev.cfgLine ((List.range (r.len / 64)).map fun i => (r.target + i, r.item 64 i)) d else (badForm, d)

/-- One table command; DUMP, READ and FLUSH are not run (Table 17.7). -/
def Dev.cfgTable (d : Dev) (body : Bytes) : Nat × Dev :=
  let c := TblCmd.ofBytes body
  if c.op = 3 ∨ c.op = 6 ∨ c.op = 7 then (tBadOp, d) else d.runTblCmd c

/-- CFG_TABLE_LOAD_COMMANDS (R186, R478). -/
def execCfgTableLoadCommands (s : State) : Host.Outcome State Fault Refusal :=
  onRecord .cfgTableLoadCommands s 0x03 (fun r => r.target.testBit 31) fun d r =>
    if r.whole 96 then runItems Dev.cfgTable ((List.range (r.len / 96)).map (r.item 96)) d else (badForm, d)

/-! ## PARSER_PROGRAM and STAGE_CONFIG -/

/-- One transition entry through SL_PRS_CMD. -/
def Dev.cfgParser (d : Dev) (x : Nat × Bytes) : Nat × Dev :=
  d.cfgCmd (wordWrites (Reg.SL_PRS_STAGE 0) x.2) (Reg.SL_PRS_CMD, 2 ^ 14 + x.1) (x.1 < 1024)

/-- CFG_PARSER_PROGRAM (R123, R478). -/
def execCfgParserProgram (s : State) : Host.Outcome State Fault Refusal :=
  onRecord .cfgParserProgram s 0x04 (fun _ => true) fun d r =>
    if r.whole 32 then runItems Dev.cfgParser ((List.range (r.len / 32)).map fun i => (r.target % 512 + i, r.item 32 i)) d else (badForm, d)

/-- One item of a stage through SL_MS_CMD. -/
def Dev.cfgStage (item : Nat) (d : Dev) (x : Nat × Bytes) : Nat × Dev :=
  d.cfgCmd (wordWrites (Reg.SL_MS_STAGE 0) x.2) (Reg.SL_MS_CMD, 2 ^ 14 + item * 2 ^ 12 + x.1) (x.1 < 4096)

/-- One associative entry through SL_AS_CMD: key, mask, action, control word. -/
def Dev.cfgAssoc (d : Dev) (x : Nat × Bytes) : Nat × Dev :=
  d.cfgCmd (wordWrites (Reg.SL_AS_KEY 0) (Machine.slice x.2 0 40) ++ wordWrites (Reg.SL_AS_MASK 0) (Machine.slice x.2 40 40) ++
      wordWrites (Reg.SL_AS_ACT 0) (Machine.slice x.2 80 8) ++ wordWrites Reg.SL_AS_ENT_CTRL (Machine.slice x.2 88 4))
    (Reg.SL_AS_CMD, 2 ^ 16 + x.1) (x.1 < 32768)

/-- Bytes of an item by its code; 0 for a code that Table 17.7 does not give. -/
def stageItemBytes (item : Nat) : Nat := [32, 32, 32, 64, 96].getD item 0

/-- CFG_STAGE_CONFIG (R161, R478). -/
def execCfgStageConfig (s : State) : Host.Outcome State Fault Refusal :=
  onRecord .cfgStageConfig s 0x05 (fun _ => true) fun d r =>
    let item := r.target / 2 ^ 28 % 16
    let n := stageItemBytes item
    if n ≠ 0 ∧ r.whole n then
      let items := (List.range (r.len / n)).map fun i => (r.target % 2 ^ 15 + i, r.item n i)
      if item = 4 then runItems Dev.cfgAssoc items d else runItems (Dev.cfgStage item) items d
    else (badForm, d)

/-! ## CALENDAR_PAGE and GATE_LIST -/

/-- One write of TRL_CAL_CMD after its data word: target of the command, index, word. -/
def Dev.cfgCal (link page : Nat) (d : Dev) (x : Nat × Nat × Nat) : Nat × Dev :=
  d.cfgCmd [(Reg.TRL_CAL_DATA, x.2.2)] (Reg.TRL_CAL_CMD, 2 ^ 26 + x.1 * 2 ^ 24 + link * 2 ^ 16 + page * 2 ^ 10 + x.2.1) true

/-- CFG_CALENDAR_PAGE (R304, R306, R478): the entries, then the header. -/
def execCfgCalendarPage (s : State) : Host.Outcome State Fault Refusal :=
  onRecord .cfgCalendarPage s 0x06 (fun _ => true) fun d r =>
    if r.len = 4100 then
      let dir := r.target / 2 ^ 8 % 2
      let entries := (List.range 1024).map fun t => (dir, t, unle (Machine.slice r.payload (4 + 4 * t) 4))
      runItems (Dev.cfgCal (r.target % 256) (r.target / 2 ^ 9 % 2)) (entries ++ [(2 + dir, 0, unle (Machine.slice r.payload 0 2))]) d
    else (badForm, d)

/-- One gate entry through SHP_CMD: index in the bank, word. -/
def Dev.cfgGate (bank : Nat) (d : Dev) (x : Nat × Nat) : Nat × Dev :=
  d.cfgCmd [(Reg.SHP_DATA 0, x.2)] (Reg.SHP_CMD, 2 ^ 22 + 2 * 2 ^ 20 + 1024 * bank + x.1) (x.1 < 1024)

/-- The entries of a gate list, then its header. -/
def Dev.cfgGates (d : Dev) (bank : Nat) (r : CfgRec) (n : Nat) : Nat × Dev :=
  match runItems (Dev.cfgGate bank) ((List.range n).map fun j => (j, unle (Machine.slice r.payload (16 + 4 * j) 4))) d with
  | (0, d1) => d1.cfgCmd (wordWrites (Reg.SHP_DATA 0) (Machine.slice r.payload 0 16)) (Reg.SHP_CMD, 2 ^ 22 + 3 * 2 ^ 20 + bank) true
  | x => x

/-- CFG_GATE_LIST (R251, R478): the bank's length says how many entries follow. -/
def execCfgGateList (s : State) : Host.Outcome State Fault Refusal :=
  onRecord .cfgGateList s 0x07 (fun _ => true) fun d r =>
    let n := unle (Machine.slice r.payload 0 2) % 2 ^ 11
    if 16 ≤ r.len ∧ r.len = 16 + 4 * n then d.cfgGates (2 * (r.target % 128) + r.target / 128 % 2) r n else (badForm, d)

/-! ## LAUNCH_ENTRY, CELLAR_TABLE, PARTITION -/

/-- ARM by the loader (R62, R63): seconds 0 make the instant relative to the first valid time. -/
def Dev.cfgArm (d : Dev) (i x : Nat) : Nat × Dev :=
  let e := LEntry.ofBits x
  match d.armFails i e false with
  | 0 =>
    if e.sec ≠ 0 then (0, d.armEntry i e false)
    else
      let h := { e with st := .held, relative := true }
      (0, d.setEntry i (match d.time.firstValid with | some t => h.release t | none => h))
  | r => (r, d.latchBit Reg.LNCH_STATUS 1)

/-- CFG_LAUNCH_ENTRY (R62, R63, R478). -/
def execCfgLaunchEntry (s : State) : Host.Outcome State Fault Refusal :=
  onRecord .cfgLaunchEntry s 0x08 (fun _ => true) fun d r => if r.len = 32 then d.cfgArm (r.target % 2 ^ 12) (unle r.payload) else (badForm, d)

/-- CFG_CELLAR_TABLE (R424, R478). -/
def execCfgCellarTable (s : State) : Host.Outcome State Fault Refusal :=
  onRecord .cfgCellarTable s 0x09 (fun _ => true) fun d r =>
    if r.whole 4 then runItems Dev.cfgWrite (wordWrites (Reg.SPR_CELLAR_TBL (r.target % 128)) r.payload) d else (badForm, d)

/-- The writes of a partition record: base and size of each region, then the commit. -/
def CfgRec.partWrites (r : CfgRec) : List (Nat × Nat) :=
  ((List.range 4).flatMap fun i => [(Reg.MC_PART_BASE i, unle (Machine.slice r.payload (4 * i) 2)),
                                    (Reg.MC_PART_SIZE i, unle (Machine.slice r.payload (4 * i + 2) 2))]) ++ [(Reg.MC_PART_CMD, 1)]

/-- CFG_PARTITION (R349, R478). -/
def execCfgPartition (s : State) : Host.Outcome State Fault Refusal :=
  onRecord .cfgPartition s 0x0A (fun _ => true) fun d r => if r.len = 16 then runItems Dev.cfgWrite r.partWrites d else (badForm, d)

/-! ## The start and the end of loading (R471, R478, R479) -/

/-- Step 5 begins: the header of the selected half, or a halt for the host. -/
def Dev.cfgBegin (d : Dev) : Dev :=
  let half := hdrCfg d.hdr
  let h := d.nvRead (nvHalf half) 16
  if d.bootMode = 1 then { d with boot := { d.boot with hostWait := true } }
  else if Machine.slice h 0 4 = [90#8, 67#8, 70#8, 71#8] ∧ unle (Machine.slice h 4 2) = 1 ∧ unle (Machine.slice h 6 2) = 0x9128 then
    ({ d with boot := { d.boot with half := half, pos := 16, loading := true } }).setReg Reg.GLB_CFG_BUILD (wd (unle (Machine.slice h 8 4)))
  else { d with boot := { d.boot with hostWait := true, cfgAbsent := true } }

/-- CONFIG_IMAGE_START (R471, R479). -/
def execConfigImageStart (s : State) : Host.Outcome State Fault Refusal :=
  actIn pllMgmt .configImageStart s fun d =>
    let e := d.trainEnds
    if e.boot.step = 5 ∧ !e.boot.loading ∧ e.boot.endCause = 0 ∧ !e.boot.hostWait then e.cfgBegin else e

/-- CFG_END (R479). -/
def execCfgEnd (s : State) : Host.Outcome State Fault Refusal :=
  actIn pllMgmt .cfgEnd s fun d =>
    if d.cfgLoads then
      match d.cfgNext with
      | .stop cause => d.cfgStop cause
      | .record _ => d
    else d

/-- The types of Table 17.7. -/
def cfgType (t : Nat) : Bool := 1 ≤ t && t ≤ 0x0A

/-- A record of an unlisted type is skipped by its length and counted (R478). -/
def Dev.cfgSkip (d : Dev) (r : CfgRec) : Dev :=
  let n := min 0xFFFF (fld (d.reg Reg.GLB_CFG_FAULTS) 31 16 + 1)
  let d1 := d.setRegFld Reg.GLB_CFG_FAULTS 31 16 n
  { d1 with boot := { d1.boot with pos := d1.boot.pos + 8 + 4 * ceilDiv r.len 4 } }

/-- CFG_UNKNOWN_RECORD (R478). -/
def execCfgUnknownRecord (s : State) : Host.Outcome State Fault Refusal :=
  actIn pllMgmt .cfgUnknownRecord s fun d =>
    if d.cfgLoads then
      match d.cfgNext with
      | .stop _ => d
      | .record r => if cfgType r.typ then d else d.cfgSkip r
    else d

end Sys2Proof.Machine
end

