-- ==== Sys2Proof/Machine/Counters.lean ====
section
/-! DEFINITION. The commands of the CNT block that need no register decode (R511, R514 to R516). -/
namespace Sys2Proof.Machine

/-- CNT_CLEAR_BANK (R511). -/
def execCntClearBank (bank : BitVec 9) (s : State) : Host.Outcome State Fault Refusal :=
  actReg .bar0 Reg.CNT_CMD (.cntClearBank bank) s fun d => d.cntClearBank bank.toNat

/-- CNT_CLEAR_SET (R511). -/
def execCntClearSet (s : State) : Host.Outcome State Fault Refusal := actReg .bar0 Reg.CNT_CMD .cntClearSet s Dev.cntClearSet

/-- HARVEST_BLOCK_WRITE (R514, R515). -/
def execHarvestBlockWrite (s : State) : Host.Outcome State Fault Refusal := actIn pllT .harvestBlockWrite s Dev.hvNext

/-- CNT_MTR_SELECT (R516). -/
def execCntMtrSelect (v : Word) (s : State) : Host.Outcome State Fault Refusal :=
  actReg .bar0 Reg.CNT_MTR_SEL (.cntMtrSelect v) s fun d => d.mtrSelect v

end Sys2Proof.Machine
end

