-- ==== Sys2Proof/Machine/Crossings.lean ====
section
/-! DEFINITION. Pointer parity errors of the clock-domain crossings (R29, R30, R32, Table 1.7). -/
namespace Sys2Proof.Machine

/-- Packets with an entry in a FIFO of `depth` entries that holds the oldest of a list: how many entries it holds, the packets
lost with it, and those that remain at the writer (R30, R32). -/
def fifoLoss (entries : Pkt → Nat) : (depth : Nat) → List Pkt → Nat × List Pkt × List Pkt
  | 0, ks => (0, [], ks)
  | _ + 1, [] => (0, [], [])
  | depth + 1, k :: ks =>
    let n := max 1 (entries k)
    let r := fifoLoss entries (depth + 1 - n) ks
    (min (depth + 1) n + r.1, k :: r.2.1, r.2.2)

/-- Entries of the FIFO between MAC and slice, 64 bytes each (CX03). -/
def wordsOf (k : Pkt) : Nat := ceilDiv k.frame.length 64

/-- The packets lost with a crossing FIFO are gone, and their holds end; buffers stay allocated under their tags. -/
def Dev.lostPkts (d : Dev) (ks : List Pkt) : Dev := ks.foldl (fun d k => d.endHold k.uid) d

/-- CX03 between the MACs of port group `g` and its slice is emptied: toward the slice, or (`back`) toward the MACs. -/
def Dev.loseMacSlice (d : Dev) (g : Nat) (back : Bool) : Nat × Dev :=
  if back then
    (List.range 16).foldl (fun (x : Nat × Dev) i =>
      let p := 16 * g + i
      let r := fifoLoss wordsOf (64 - x.1) (x.2.port p).txFifo
      (x.1 + r.1, (x.2.modPort p fun t => { t with txFifo := r.2.2 }).lostPkts r.2.1)) (0, d)
  else match d.holder g with
    | some n =>
      let r := fifoLoss wordsOf 64 (d.slice n).ingress
      (r.1, (d.modSlice n fun s => { s with ingress := r.2.2 }).lostPkts r.2.1)
    | none => (0, d)

/-- CX04 or CX07 of slice `n`'s channel is emptied: toward the T-die, or (`back`) toward the slice. -/
def Dev.loseChannel (d : Dev) (n : Nat) (back : Bool) : Nat × Dev :=
  if back then
    let r := fifoLoss (·.flits) chanDepth (d.slice n).down
    (r.1, (d.modSlice n fun s => { s with down := r.2.2 }).lostPkts r.2.1)
  else
    let r := fifoLoss (·.flits) chanDepth (d.slice n).up
    (r.1, (d.modSlice n fun s => { s with up := r.2.2 }).lostPkts r.2.1)

/-- The target whose launch FIFO is instance `inst` of CX22: the TCLK side, the eight controllers, the Trellis side, the F-die
(log entry 11). -/
def launchInst (inst : Nat) : LTarget :=
  if inst = 0 then .tclk else if inst ≤ 8 then .mc (inst - 1) else if inst = 9 then .xclk else .fdie

/-- CX22 is emptied: the entries dispatched to its target and not acted are lost; they are DISCARDED (log entry 11). -/
def Dev.loseLaunches (d : Dev) (inst : Nat) : Nat × Dev :=
  let ks := d.lnch.entries.filter fun p => p.2.st = .dispatched ∧ p.2.fifo = launchInst inst
  (ks.length, ks.foldl (fun d p => d.discardEntry p.1) d)

/-- The counter bank of the block on the destination side of a crossing (R32, Table 1.7; log entry 11). -/
def Dev.crossBank (d : Dev) (xing inst : Nat) (back : Bool) : Nat :=
  let press (g : Nat) : Nat := bankPress ((d.holder (g % 8)).getD (g % 8))
  match xing with
  | 1 => bankPort inst
  | 2 => bankPort inst
  | 3 => if back then bankPort (16 * inst) else press inst
  | 4 => if back then bankPress (inst % 9) else bankTmq
  | 5 => if back then bankPort (16 * inst) else bankGlb
  | 6 => if inst < 8 then bankTmq else press inst
  | 7 => if back then bankPress (inst % 9) else bankTmq
  | 8 => if back then press inst else bankMc inst
  | 9 => if back then bankTmq else bankMc inst
  | 10 => bankMc inst
  | 11 => if back then bankTmq else bankTrl
  | 12 => bankLink inst
  | 13 => bankLink inst
  | 14 => if back then bankTmq else bankHost
  | 15 => bankHost
  | 18 => if back then bankMgmt else bankTmq
  | 20 => bankMgmt
  | 21 => bankMgmt
  | 22 => match launchInst inst with
    | .mc k => bankMc k
    | .xclk => bankTrl
    | .fdie => bankPress 0
    | _ => bankTmq
  | 25 => bankMgmt
  | 26 => bankMgmt
  | _ => bankGlb

/-- A pointer parity error empties a crossing instance (R32): what is lost of what State holds in it, counted for the block on
the destination side, and the event. Of the other crossings nothing is held between two steps, and `lost` says how many
entries went (log entry 11). -/
def Dev.crossingError (d : Dev) (xing inst : Nat) (back : Bool) (lost : Nat) : Dev :=
  let r := match xing with
    | 3 => if inst < 8 then d.loseMacSlice inst back else (lost, d)
    | 4 => if inst < 9 then d.loseChannel inst back else (lost, d)
    | 7 => if inst < 9 then d.loseChannel inst back else (lost, d)
    | 22 => d.loseLaunches inst
    | _ => (lost, d)
  let d1 := { r.2 with crossLost := Tbl.modify 0 r.2.crossLost (d.crossBank xing inst back) (· + r.1) }
  d1.logNum 0x00 2 inst (le 1 xing ++ le 4 (satN 32 r.1))

/-- CROSSING_PARITY_ERROR (R32): `xing` counts from 0, so it names CX01 by 0; `back` names the direction B to A. -/
def execCrossingParityError (xing : Fin 26) (inst : Nat) (back : Bool) (lost : Nat) (s : State) : Host.Outcome State Fault Refusal :=
  act s fun d => d.crossingError (xing + 1) inst back lost

end Sys2Proof.Machine
end

