-- ==== Sys2Proof/Machine/Gates.lean ====
section
/-! DEFINITION. The commands of gates, shapers and meters (R246, R251, R256, R259, R262, R264). -/
namespace Sys2Proof.Machine

/-- An edge of the gate list takes effect: the open mask in force is that of R244 for the moment. -/
def Dev.gateEdge (d : Dev) (p : Nat) : Dev := { d with gsm := { d.gsm with openMask := Tbl.set 0xFF d.gsm.openMask p (d.gateMask p) } }

/-- GATE_EDGE (R244, R246). -/
def execGateEdge (p : Fin 128) (s : State) : Host.Outcome State Fault Refusal := actIn pllT (.gateEdge p) s fun d => d.gateEdge p

/-- SHP_WRITE (R251, R256, R264). -/
def execShpWrite (target : BitVec 2) (idx : BitVec 20) (s : State) : Host.Outcome State Fault Refusal :=
  actReg .bar0 Reg.SHP_CMD (.shpWrite target idx) s fun d => d.shpWrite target.toNat idx.toNat

/-- SHP_READ (R264). -/
def execShpRead (target : BitVec 2) (idx : BitVec 20) (s : State) : Host.Outcome State Fault Refusal :=
  actReg .bar0 Reg.SHP_CMD (.shpRead target idx) s fun d => d.shpRead target.toNat idx.toNat

/-- SHP_CRED_READ (R264). -/
def execShpCredRead (path : Path) (s : State) : Host.Outcome State Fault Refusal := actRead path Reg.SHP_CRED (.shpCredRead path) s Dev.readCred

/-- MTR_WRITE (R259, R262, R264). -/
def execMtrWrite (target : Fin 2) (idx : BitVec 17) (s : State) : Host.Outcome State Fault Refusal :=
  actReg .bar0 Reg.MTR_CMD (.mtrWrite target idx) s fun d => d.mtrWrite target idx.toNat

/-- MTR_READ (R264). -/
def execMtrRead (target : Fin 2) (idx : BitVec 17) (s : State) : Host.Outcome State Fault Refusal :=
  actReg .bar0 Reg.MTR_CMD (.mtrRead target idx) s fun d => d.mtrRead target idx.toNat

/-- MTR_BKT_READ (R264). -/
def execMtrBktRead (path : Path) (s : State) : Host.Outcome State Fault Refusal := actRead path Reg.MTR_BKT_C (.mtrBktRead path) s Dev.readBkt

end Sys2Proof.Machine
end

