-- ==== Sys2Proof/Machine/Host.lean ====
section
/-! DEFINITION. The commands of the host endpoint, the rings, injections, punts, completions and interrupts (R371 to
R400, R502, R503). -/
namespace Sys2Proof.Machine

/-- Bit 15 of GLB_PLL_STATUS. -/
def pllPciePhy : Nat := 15

/-! ## The endpoint -/

/-- Lane counts the endpoint trains at (R371). -/
def pcieWidth (w : Nat) : Bool := [1, 2, 4, 8, 16].contains w

/-- The endpoint's link trains (R371, R375). -/
def Dev.pcieUp (d : Dev) (speed width : Nat) : Dev :=
  if d.clocked pllPciePhy ∧ d.host.link = 7 ∧ speed ≠ 0 ∧ pcieWidth width then
    { d with host := { d.host with linkUp := true, speed := speed, width := width, link := 0 } }
  else d

/-- Requests and packets under tag HOST that are not yet enqueued are discarded with their work, and with what waits before the
stopped clock of the engine (R33, R376). -/
def Dev.discardInjections (d : Dev) : Dev :=
  { d with
    parked := d.parked.filter fun p => p.1 ≠ pllHost
    bpm := { d.bpm with waiting := d.bpm.waiting.filter fun r => r.pkt.tag ≠ 10 || r.use ≠ .handoff }
    qm := { d.qm with arrived := d.qm.arrived.filter fun k => k.tag ≠ 10 } }

/-- PERST_N or FLR: reset of the endpoint and the ring engine, and the revocation of tag HOST (R207, R376). -/
def Dev.endpointReset (d : Dev) (linkDown : Bool) : Dev := ((d.hostReset linkDown).discardInjections).revokeTag 10

/-- PERST (R376, R467). -/
def execPerst (s : State) : Host.Outcome State Fault Refusal := act s fun d => d.endpointReset true

/-- FLR (R376, R467). -/
def execFlr (s : State) : Host.Outcome State Fault Refusal := act s fun d => if d.host.linkUp then d.endpointReset false else d

/-! ## Doorbells (R384, R502, R503) -/

/-- A doorbell is ignored. -/
def Dev.dbError (d : Dev) : Dev := (d.inc bankHost 13).latchBit Reg.HOST_STATUS 10

/-- Distance from unit `a` forward to unit `b` of a ring. -/
def ringDist (size a b : Nat) : Nat := (b + size - a) % size

/-- The tail a doorbell carries becomes tail_seen; the entries it covers no longer count as read ahead (R382). -/
def Sq.ring (x : Sq) (size tail : Nat) : Sq :=
  { x with tailSeen := tail, polls := 0, waitDb := false,
           ahead := x.ahead.filter fun a => ringDist size x.tailSeen tail ≤ ringDist size x.tailSeen a }

/-- A write of an SQ doorbell. -/
def Dev.sqDoorbell (d : Dev) (q : Nat) (v : Word) (partial_ : Bool) : Dev :=
  let tail := fld v 19 0
  if partial_ ∨ fld v 31 20 ≠ 0 ∨ (d.sq q).st ≠ .active ∨ d.sqSize q ≤ tail then d.dbError
  else d.modSq q fun x => x.ring (d.sqSize q) tail

/-- SQ_DOORBELL (R384, R502, R503). -/
def execSqDoorbell (q : Fin 16384) (v : Word) (partial_ : Bool) (s : State) : Host.Outcome State Fault Refusal :=
  actIn pllHost (.sqDoorbell q v partial_) s fun d =>
    if d.busUp .bar0 then (d.hostWakes .bar0).sqDoorbell q v partial_ else d

/-- A write of a CQ doorbell: the head must lie in the span from the last published head to the tail. -/
def Dev.cqDoorbell (d : Dev) (c : Nat) (v : Word) (partial_ : Bool) : Dev :=
  let x := d.cq c
  let n := d.cqSize c
  let head := fld v 15 0
  if partial_ ∨ fld v 31 16 ≠ 0 ∨ !x.on ∨ n ≤ head ∨ ringDist n x.head x.tail < ringDist n x.head head then d.dbError
  else (d.modCq c fun x => { x with head := head }).resumeCq c

/-- CQ_DOORBELL (R384, R392, R502, R503). -/
def execCqDoorbell (c : Fin 4096) (v : Word) (partial_ : Bool) (s : State) : Host.Outcome State Fault Refusal :=
  actIn pllHost (.cqDoorbell c v partial_) s fun d =>
    if d.busUp .bar0 then (d.hostWakes .bar0).cqDoorbell c v partial_ else d

/-! ## Fetching -/

/-- SQ_UNIT0_READ (R381, R392). -/
def execSqUnit0Read (q : Fin 16384) (unit : Option Bytes) (s : State) : Host.Outcome State Fault Refusal :=
  actIn pllHost (.sqUnit0Read q unit) s fun d => d.unitRead q unit

/-- Unit 0 at the head of a ring is read again (R382, R383). -/
def Dev.sqPoll (d : Dev) (q : Nat) : Dev :=
  let x := d.sq q
  if x.st = .active ∧ x.polls ≠ 0 ∧ !x.waitDb ∧ !x.unitOut ∧ d.busMaster then
    (d.modSq q fun x => { x with unitOut := true }).dmaAsk (d.sqBase q + 32 * x.head) 32
  else d

/-- SQ_POLL (R382, R383). -/
def execSqPoll (q : Fin 16384) (s : State) : Host.Outcome State Fault Refusal := actIn pllHost (.sqPoll q) s fun d => d.sqPoll q

/-- SQ_ENTRY_READ (R381). -/
def execSqEntryRead (q : Fin 16384) (rest : Option Bytes) (s : State) : Host.Outcome State Fault Refusal :=
  actIn pllHost (.sqEntryRead q rest) s fun d => d.restRead q rest

/-- SKIP_ENTRY (R380, R392). -/
def execSkipEntry (q : Fin 16384) (s : State) : Host.Outcome State Fault Refusal :=
  actIn pllHost (.skipEntry q) s fun d => d.onEntry q [0] fun d e => d.dropEnt q e

/-- The ops that Table 14.4 lists for a kind of ring. -/
def opListed (kind op : Nat) : Bool :=
  op = 0 || match kind with
    | 0 => op = 1 || op = 2
    | 1 => op = 3
    | _ => decide (0x10 ≤ op) && decide (op ≤ 0x13)

/-- The front entry of a ring ends BAD_OP when its op is not one of the ring's. -/
def Dev.badOp (d : Dev) (q : Nat) : Dev :=
  if !d.sqRuns q then d
  else match d.frontEnt q with
    | none => d
    | some e => if opListed (d.sqKind q) e.op then d else d.endEnt q e 2 0 0 false

/-- SUBMISSION_BAD_OP (R380). -/
def execSubmissionBadOp (q : Fin 16384) (s : State) : Host.Outcome State Fault Refusal := actIn pllHost (.submissionBadOp q) s fun d => d.badOp q

/-! ## Injections (R386) -/

/-- Fields of Table 14.5. -/
def SqEnt.injLen (e : SqEnt) : Nat := unle (Machine.slice e.bytes 16 2) % 2 ^ 14
def SqEnt.injInline (e : SqEnt) : Bool := (e.bytes.getD 3 0).getLsbD 0
def SqEnt.injSel (e : SqEnt) : Nat := (e.bytes.getD 18 0).toNat
def SqEnt.injQueue (e : SqEnt) : Nat := unle (Machine.slice e.bytes 20 4) % 2 ^ 18

/-- Bytes that Table 14.5 fixes at 0. -/
def SqEnt.injZeros (e : SqEnt) : Bool :=
  (Machine.slice e.bytes 28 4).all (· == 0#8) && e.bytes.getD 25 0 == 0#8 &&
  (e.op = 1 || ((Machine.slice e.bytes 20 5).all (· == 0#8) && (Machine.slice e.bytes 26 2).all (· == 0#8)))

/-- The fields keep Table 14.5 and units matches the inline form. -/
def SqEnt.injOk (e : SqEnt) : Bool :=
  let l := e.injLen
  decide (14 ≤ l) && decide (l ≤ 10240) && e.injZeros &&
  (if e.op = 1 then e.injSel % 8 ≠ 3 && decide (e.injSel % 8 < 4) else decide (e.injSel % 16 ≤ 8)) &&
  (if e.injInline then decide (l ≤ 4064) && e.units = 1 + ceilDiv l 32 else e.units = 1)

/-- The queue a raw injection names, and the class of the packet (Tables 8.1, 14.5). -/
def SqEnt.rawQueue (e : SqEnt) : Nat :=
  let x := e.injQueue
  let tc := e.injSel / 8 % 8
  match e.injSel % 8 with
  | 0 => qKey 0 (8 * (x % 128) + tc)
  | 1 => qKey 1 x
  | _ => qKey 2 ((x / 128 % 32 * 128 + x % 128) * 8 + tc)

/-- The metadata record of a raw injection: the fields its entry gives (Table 14.5) and the length; bytes 0 to 11 and 14
are free values, since the spec states none. -/
def SqEnt.rawRecord (e : SqEnt) (free : Nat) : Bytes :=
  let b (i : Nat) := e.bytes.getD i 0
  le 12 free ++ be 2 e.injLen ++ le 1 (free / 2 ^ 96) ++ [0] ++ [0, 0] ++
  [BitVec.ofNat 8 (32 + e.injSel / 8 % 8 * 4)] ++ be 4 0 ++ [BitVec.ofNat 8 (e.injSel / 64 * 16)] ++ [0, 0, 0, 0, 0] ++
  [b 24, 0, b 19] ++ be 2 (unle (Machine.slice e.bytes 26 2) % 4096) ++ List.replicate 30 0

/-- The packet of an injection (R13, R118, R386). -/
def SqEnt.packet (e : SqEnt) (uid free : Nat) (frame : Bytes) : Pkt :=
  if e.op = 1 then
    { uid := uid, origin := .injectRaw, frame := frame, len := frame.length, injected := true, bus := e.rawRecord free,
      input := 9, colour := 0, queue := e.rawQueue + 1, resolved := true }
  else
    { uid := uid, origin := .injectPipe, frame := frame, len := frame.length, injected := true,
      port := (e.bytes.getD 19 0).toNat % 128, rxTs := DevTime.ofUnits free, input := 9, colour := 0,
      queue := qKey 4 (8 + e.injSel % 16) + 1 }

/-- The frame of an injection is there: a buffer is asked for under tag HOST (R194, R386). -/
def Dev.injectFrame (d : Dev) (q : Nat) (e : SqEnt) (frame : Bytes) : Dev :=
  let f := d.takeFree
  let u := f.2.newUid
  (u.2.putEnt q { e with st := .packet, length := frame.length, uid := u.1 }).askBuffer ((sizeClass frame.length).getD 3) 10
    (e.packet u.1 f.1 frame)

/-- Frames of the ring are still being read, so that a frame carried inline waits behind them: the entries of one ring
enter the queue manager in ring order (R385). -/
def Dev.framesOut (d : Dev) (q : Nat) : Bool := (d.sq q).ents.any fun e => e.st = .frame

/-- An inject entry is dispatched (R386). -/
def Dev.inject (d : Dev) (q : Nat) (e : SqEnt) : Dev :=
  if d.spr.cellar then d.endEnt q e 6 0 0 false
  else if !e.injOk then d.endEnt q e 4 0 0 false
  else if e.injInline then
    if d.framesOut q then d else d.injectFrame q e (Machine.slice e.bytes 32 e.injLen)
  else if d.busMaster then
    (d.putEnt q { e with st := .frame }).dmaAsk (unle (Machine.slice e.bytes 8 8)) e.injLen
  else d

/-- The front entry of an inject ring is dispatched when it has the op. -/
def Dev.injectRow (d : Dev) (q op : Nat) : Dev :=
  if d.sqKind q ≠ 0 then d else d.onEntry q [op] fun d e => d.inject q e

/-- INJECT_RAW (R386). -/
def execInjectRaw (q : Fin 16384) (s : State) : Host.Outcome State Fault Refusal := actIn pllHost (.injectRaw q) s fun d => d.injectRow q 1

/-- INJECT_PIPE (R118, R386). -/
def execInjectPipe (q : Fin 16384) (s : State) : Host.Outcome State Fault Refusal := actIn pllHost (.injectPipe q) s fun d => d.injectRow q 2

/-- The frame read of the oldest injection that has one out returns. -/
def Dev.frameRead (d : Dev) (q : Nat) (frame : Option Bytes) : Dev :=
  match (d.sq q).ents.find? fun e => e.st = .frame with
  | none => d
  | some e =>
    match frame with
    | none => d.endEnt q e 5 0 0 false
    | some bs =>
      if d.spr.cellar then d.endEnt q e 6 e.injLen 0 false
      else d.injectFrame q e (padTo e.injLen (bs.take e.injLen))

/-- INJECT_FRAME_READ_COMPLETE (R386). -/
def execInjectFrameReadComplete (q : Fin 16384) (frame : Option Bytes) (s : State) : Host.Outcome State Fault Refusal :=
  actIn pllHost (.injectFrameReadComplete q frame) s fun d => d.frameRead q frame

/-! ## Punts (R387) -/

/-- The buffer of a POST_BUFFER entry obeys Table 14.4. -/
def SqEnt.postOk (e : SqEnt) : Bool :=
  let len := unle (Machine.slice e.bytes 16 4)
  e.units = 1 && unle (Machine.slice e.bytes 8 8) % 64 = 0 && len % 64 = 0 && decide (256 ≤ len) && decide (len ≤ 65536)

/-- A buffer is lent to a punt ring. -/
def Dev.postBuffer (d : Dev) (q : Nat) : Dev :=
  if d.sqKind q ≠ 1 then d
  else d.onEntry q [3] fun d e => if e.postOk then d.putEnt q { e with st := .posted } else d.endEnt q e 4 0 0 false

/-- POST_BUFFER (R387). -/
def execPostBuffer (q : Fin 16384) (s : State) : Host.Outcome State Fault Refusal := actIn pllHost (.postBuffer q) s fun d => d.postBuffer q

/-- The body of a punt item: a packet is its metadata record and its frame, any other item its own bytes. -/
def Pkt.puntBody (k : Pkt) : Bytes :=
  if k.itemKind = 1 then k.bus ++ (if k.dflt = 2 then be 128 k.vec.toNat else []) ++ k.frame else k.frame

/-- A punt item with its header (Table 14.6). -/
def Pkt.puntItem (k : Pkt) (hq lost : Nat) : Bytes :=
  [BitVec.ofNat 8 k.itemKind, 0] ++ le 2 hq ++ le 4 k.puntBody.length ++ le 4 lost ++ le 4 0 ++ k.puntBody

/-- Write bytes of a punt item into the buffers the ring has; the rest waits for more. -/
def Dev.puntFill (d : Dev) (hq r : Nat) (rest : Bytes) (k : Pkt) : Dev :=
  let f := d.fillBuffers r rest (d.sq r).ents.length
  { f.2 with host := { f.2.host with punt := some (hq, r, f.1, k) } }

/-- The buffer of an item goes to HOST as its DMA starts (R387, Table 7.3). -/
def Dev.puntHand (d : Dev) (k : Pkt) : Dev :=
  match k.handle with
  | some h => d.bufHandOver 13 h 10
  | none => d

/-- The DMA of the next item of output 9 starts, in nomination order (R219, R230). -/
def Dev.puntStart (d : Dev) : Dev :=
  match (d.noms 9).head?.filter fun k => k.left = 0 with
  | none => d
  | some k =>
    let hq := qIdx k.queue
    match d.hqRing hq with
    | none => ((((d.setNoms 9 (removeSeq k.seq (d.noms 9))).inc bankHost 8).hqDrop hq).dropPkt k)
    | some r =>
      if !d.busMaster ∨ !d.ringOffers r then d
      else
        let lost := Tbl.get 0 d.qm.hqLost hq
        let d1 := (d.setNoms 9 (removeSeq k.seq (d.noms 9))).puntHand k
        let d2 := { d1 with qm := { d1.qm with hqLost := Tbl.set 0 d1.qm.hqLost hq 0 } }
        d2.puntFill hq r (k.puntItem hq lost) { k with tag := 10 }

/-- An item in progress goes on when its ring has another buffer; without one, the next item starts. -/
def Dev.puntWrite (d : Dev) : Dev :=
  match d.host.punt with
  | none => d.puntStart
  | some (hq, r, rest, k) => if rest = [] ∨ !d.busMaster then d else d.puntFill hq r rest k

/-- PUNT_ITEM_WRITE (R387). -/
def execPuntItemWrite (s : State) : Host.Outcome State Fault Refusal := actIn pllHost .puntItemWrite s Dev.puntWrite

/-- The last write of an item has been issued. -/
def Dev.puntEnds (d : Dev) : Dev :=
  match d.host.punt with
  | some (_, _, [], k) => d.puntDone k
  | _ => d

/-- PUNT_DMA_COMPLETE (R387). -/
def execPuntDmaComplete (s : State) : Host.Outcome State Fault Refusal := actIn pllHost .puntDmaComplete s Dev.puntEnds

/-! ## Completions, interrupts, sleep -/

/-- COMPLETION_WRITE (R390 to R392). -/
def execCompletionWrite (q : Fin 16384) (s : State) : Host.Outcome State Fault Refusal := actIn pllHost (.completionWrite q) s fun d => d.completeNext q

/-- VECTOR_TIMER_EXPIRE (R393). -/
def execVectorTimerExpire (v : Fin 2048) (s : State) : Host.Outcome State Fault Refusal := actIn pllHost (.vectorTimerExpire v) s fun d => d.vecTimer v

/-- A dword of the MSI-X table entry of a vector: address, data, and the mask in bit 0 of the last (Table 14.1). -/
def Vec.word (x : Vec) (dw : Nat) : Word :=
  match dw with
  | 0 => x.addr.setWidth 32
  | 1 => (x.addr >>> 32).setWidth 32
  | 2 => x.data
  | _ => wd (b2n x.masked)

/-- A write of a dword of an entry; the address is that of a dword. -/
def Vec.write (x : Vec) (dw : Nat) (w : Word) : Vec :=
  match dw with
  | 0 => { x with addr := (x.addr &&& 0xFFFFFFFF00000000#64) ||| (w &&& 0xFFFFFFFC#32).setWidth 64 }
  | 1 => { x with addr := (x.addr &&& 0x00000000FFFFFFFF#64) ||| (w.setWidth 64 <<< 32) }
  | 2 => { x with data := w }
  | _ => { x with masked := bit w 0 }

/-- A read of BAR4: the MSI-X table, and the pending bits from 0x8000 (Tables 14.1, 14.2). -/
def Dev.bar4Read (d : Dev) (off : Nat) : Word :=
  if off < 0x8000 then (d.vec (off / 16)).word (off / 4 % 4)
  else if off < 0x8100 then wd (((List.range 32).map fun i => b2n (d.vec (8 * (off - 0x8000) + i)).pba * 2 ^ i).foldl (· + ·) 0)
  else 0#32

/-- The host writes a dword of the table entry of a vector (R373); what is pending follows an unmask (R393). -/
def Dev.vecWrite (d : Dev) (v dw : Nat) (w : Word) : Dev :=
  let d1 := d.setVec v ((d.vec v).write dw w)
  if (d1.vec v).pba ∧ !(d1.vec v).masked then d1.sendVec v else d1

/-- MSIX_UNMASK (R373, R393): a write of dword `dw` of the vector's entry; the last dword masks and unmasks it. -/
def execMsixUnmask (v : Fin 2048) (dw : Fin 4) (w : Word) (s : State) : Host.Outcome State Fault Refusal :=
  actIn pllHost (.msixUnmask v dw w) s fun d => if d.host.linkUp then (d.hostWakes .bar0).vecWrite v dw w else d

/-- Every inject and command entry of a ring that has not started ends FLUSHED. -/
def Dev.d3Flush (d : Dev) (q : Nat) : Dev :=
  if d.sqKind q = 1 then d else d.flushEnts q fun e => e.unstarted (d.sqKind q)

/-- The function is in D3hot: no read is out. -/
def HostIf.toD3 (h : HostIf) : HostIf :=
  let stop (p : Nat × Sq) : Nat × Sq := (p.1, { p.2 with unitOut := false })
  { h with d3 := true, sqs := h.sqs.map stop }

/-- The function enters D3hot (Table 14.10): the punt item in progress is written to the end, and inject and command
entries that have not started end FLUSHED. -/
def Dev.d3Enter (d : Dev) : Dev :=
  let d1 := match d.host.punt with
    | some (hq, r, rest, k) => (d.puntFill hq r rest k).puntEnds
    | none => d
  let d2 := { d1 with host := d1.host.toD3 }
  let qs := d2.host.sqs.map (·.1)
  (qs.foldl (fun d q => d.d3Flush q) d2).latchBit Reg.HOST_STATUS 12

/-- D3HOT_ENTRY (R395). -/
def execD3hotEntry (s : State) : Host.Outcome State Fault Refusal :=
  actIn pllHost .d3hotEntry s fun d => if d.host.linkUp ∧ !d.host.d3 then d.d3Enter else d

/-- Held completions are written and pending vectors delivered, as far as the function may now (R392, R393). -/
def Dev.hostResumes (d : Dev) : Dev := ((d.host.cqs.map (·.1)).foldl (fun d c => d.resumeCq c) d.dmaFlush).deliverVecs

/-- The function returns to D0 (Table 14.10); its configuration is unchanged. -/
def Dev.d0Return (d : Dev) : Dev :=
  let d1 := (({ d with host := { d.host with d3 := false } }).hostWakes .bar0)
  d1.hostResumes

/-- D0_RETURN (R395). -/
def execD0Return (s : State) : Host.Outcome State Fault Refusal :=
  actIn pllHost .d0Return s fun d => if d.host.d3 then d.d0Return else d

/-! ## Configuration (R372 to R376) -/

/-- The host writes a dword of configuration space (R372). Bus Master Enable, MSI-X Enable and Function Mask let go on what waited for
them; PowerState D3hot and D0, and the start of a Function Level Reset, act as their rows do. -/
def Dev.pciWrite (d : Dev) (w : CfgWrite) : Dev :=
  let off := 4 * w.dword.val
  let v := d.host.cfgMerge w
  let d1 := { d with host := d.host.pciSet off v }
  if off = pciCommand then
    let d2 := { d1 with host := { d1.host with bme := bit v 2 } }
    if !d.host.bme ∧ bit v 2 then d2.hostResumes else d2
  else if off = pciMsix then ({ d1 with host := { d1.host with fnMask := bit v 30, msix := bit v 31 } }).deliverVecs
  else if off = pciPmcsr then
    let clear : Bool := w.enables.getLsbD 1 && bit w.value 15
    let d2 := { d1 with host := { d1.host with pmeEn := bit v 8, pmeStatus := d1.host.pmeStatus && !clear } }
    if fld v 1 0 = 3 ∧ !d.host.d3 then d2.d3Enter else if fld v 1 0 = 0 ∧ d.host.d3 then d2.d0Return else d2
  else if off = pciDevCtl ∧ bit v 15 then d.endpointReset false
  else d1

/-- Configuration requests are answered once the boot ROM has ended step 2, or halted in it; before, with Configuration Request Retry
Status, and a write has no effect (R375, R470, R473, Table 17.3). -/
def Dev.pciAnswers (d : Dev) : Bool := d.host.linkUp && d.busUp .bar0

/-- What a configuration read is answered: none for Configuration Request Retry Status. -/
def Dev.pciAnswer (d : Dev) (dword : Fin 1024) : Option Word := if d.pciAnswers then some (d.host.cfgRead (4 * dword.val)) else none

/-- Configuration writes of the host, one after the other. -/
def Dev.pciWrites (d : Dev) (ws : List CfgWrite) : Dev :=
  ws.foldl (fun d w => if d.pciAnswers then (d.hostWakes .bar0).pciWrite w else d) d

/-- PCIE_LINK_UP (R371, R372, R375): the link trains when it is down; the row carries the configuration writes that the host makes
then, or with the link up, since the table has no row of their own (log entry 125, DESIGN CHOICE). -/
def execPcieLinkUp (speed : Fin 6) (width : Fin 17) (cfg : List CfgWrite) (s : State) : Host.Outcome State Fault Refusal :=
  actIn pllHost (.pcieLinkUp speed width cfg) s fun d => (d.pcieUp speed width).pciWrites cfg

/-! ## Ring control -/

/-- SQ_ENABLE (R396, R397). -/
def execSqEnable (q : Fin 16384) (s : State) : Host.Outcome State Fault Refusal :=
  actReg .bar0 (Reg.HOST_SQ_CTRL q) (.sqEnable q) s fun d => d.sqCtrlWrite q (d.reg (Reg.HOST_SQ_CTRL q) ||| 0x80000000#32)

/-- SQ_DISABLE (R396, R398). -/
def execSqDisable (q : Fin 16384) (s : State) : Host.Outcome State Fault Refusal :=
  actReg .bar0 (Reg.HOST_SQ_CTRL q) (.sqDisable q) s fun d => d.sqCtrlWrite q (d.reg (Reg.HOST_SQ_CTRL q) &&& 0x7FFFFFFF#32)

/-- SQ_DRAIN_COMPLETE (R396). -/
def execSqDrainComplete (q : Fin 16384) (s : State) : Host.Outcome State Fault Refusal := actIn pllHost (.sqDrainComplete q) s fun d => d.sqDrained q

/-- CQ_ENABLE (R400). -/
def execCqEnable (c : Fin 4096) (s : State) : Host.Outcome State Fault Refusal :=
  actReg .bar0 (Reg.HOST_CQ_CTRL c) (.cqEnable c) s fun d => d.cqCtrlWrite c (d.reg (Reg.HOST_CQ_CTRL c) ||| 0x80000000#32)

/-- CQ_DISABLE (R400). -/
def execCqDisable (c : Fin 4096) (s : State) : Host.Outcome State Fault Refusal :=
  actReg .bar0 (Reg.HOST_CQ_CTRL c) (.cqDisable c) s fun d => d.cqCtrlWrite c (d.reg (Reg.HOST_CQ_CTRL c) &&& 0x7FFFFFFF#32)

/-- The oldest read of a ring that is out gets no completion: of a frame, of units 1 onward, or of unit 0 (R390, R399). -/
def Dev.readTimeout (d : Dev) (q : Nat) : Dev :=
  let es := (d.sq q).ents
  if es.any fun e => e.st = .frame then d.frameRead q none
  else if es.any fun e => e.st = .reading then d.restRead q none
  else d.unitRead q none

/-- PCIE_COMPLETION_TIMEOUT (R390, R399). -/
def execPcieCompletionTimeout (q : Fin 16384) (s : State) : Host.Outcome State Fault Refusal :=
  actIn pllHost (.pcieCompletionTimeout q) s fun d => d.readTimeout q

end Sys2Proof.Machine
end

