-- ==== Sys2Proof/Machine/Managers.lean ====
section
/-! DEFINITION. The commands of the manager and its workers (R78, R79, R172, R320, R321, R330 to R338). -/
namespace Sys2Proof.Machine

/-- REPORT_SEND (R320): demand is collected while the firmware serves (R435). -/
def execReportSend (s : State) : Host.Outcome State Fault Refusal := actIn pllFabric .reportSend s fun d => d.ifServing Dev.sendReport

/-- Handle the first message of a type, if there is one. -/
def Dev.onMessage (d : Dev) (typ : Nat) (src : Option Nat) (f : Dev → Nat → Bytes → Dev) : Dev :=
  match d.takeInbox typ src with
  | (some m, d1) => f d1 m.1 m.2
  | (none, _) => d

/-- REPORT_RECEIVE (R320, R341). -/
def execReportReceive (src : Fin 32) (s : State) : Host.Outcome State Fault Refusal :=
  actIn pllFabric (.reportReceive src) s fun d => d.ifServing fun d => d.onMessage 4 (some src) fun d v bs => d.reportReceived v bs

/-- CALENDAR_RECOMPUTE (R321): the firmware's work (R435). -/
def execCalendarRecompute (s : State) : Host.Outcome State Fault Refusal :=
  actIn pllFabric .calendarRecompute s fun d => d.ifServing Dev.recompute

/-- PLAN_RECEIVE (R338): plans are expanded while the firmware serves (R435). -/
def execPlanReceive (s : State) : Host.Outcome State Fault Refusal :=
  actIn pllFabric .planReceive s fun d => d.ifServing fun d => d.onMessage 3 none fun d v bs => d.planReceived v bs

/-- ELECT_TIMEOUT (R330, R335). -/
def execElectTimeout (s : State) : Host.Outcome State Fault Refusal := actIn pllFabric .electTimeout s Dev.elected

/-- MANAGER_LOSS (R333, R334). -/
def execManagerLoss (s : State) : Host.Outcome State Fault Refusal := actIn pllFabric .managerLoss s Dev.managerLost

/-- SNAPSHOT_BROADCAST (R336). -/
def execSnapshotBroadcast (s : State) : Host.Outcome State Fault Refusal := actIn pllFabric .snapshotBroadcast s Dev.snapSend

/-- SNAPSHOT_RECEIVE (R336). -/
def execSnapshotReceive (s : State) : Host.Outcome State Fault Refusal :=
  actIn pllFabric .snapshotReceive s fun d => d.onMessage 5 none fun d v bs => d.snapReceived v bs

/-- RECLAIM_SEND (R172). -/
def execReclaimSend (s : State) : Host.Outcome State Fault Refusal := actIn pllFabric .reclaimSend s Dev.reclaimSend

/-- RECLAIM_RECEIVE (R172). -/
def execReclaimReceive (n : Fin 256) (s : State) : Host.Outcome State Fault Refusal :=
  actIn pllFabric (.reclaimReceive n) s fun d => d.reclaimReceived n

/-- ARM_MESSAGE_RECEIVE (R78). -/
def execArmMessageReceive (s : State) : Host.Outcome State Fault Refusal :=
  actIn pllFabric .armMessageReceive s fun d => d.onMessage 1 none fun d v bs => d.armReceived v bs

/-- ARM_REPEAT (R338). -/
def execArmRepeat (s : State) : Host.Outcome State Fault Refusal := actIn pllFabric .armRepeat s Dev.repeatArms

/-- ANSWER_RECEIVE (R79, R338). -/
def execAnswerReceive (s : State) : Host.Outcome State Fault Refusal :=
  actIn pllFabric .answerReceive s fun d => d.onMessage 2 none fun d v bs => d.answerReceived v bs

/-- CONFIRM_RECEIVE (R79). -/
def execConfirmReceive (n : Fin 256) (s : State) : Host.Outcome State Fault Refusal :=
  actIn pllFabric (.confirmReceive n) s fun d => d.confirmReceived n

/-- DIST_CONFIRM_DEADLINE (R79). -/
def execDistConfirmDeadline (idx : BitVec 12) (s : State) : Host.Outcome State Fault Refusal :=
  actIn pllTime (.distConfirmDeadline idx) s fun d => d.confirmDeadline idx.toNat

end Sys2Proof.Machine
end

