-- ==== Sys2Proof/Machine/Registers.lean ====
section
/-! DEFINITION. The rows of the register interface: any write, sequence-clear writes, locks, low-word and clear-on-read
reads, the start command, and batches of register accesses from a command ring (R388, R471, R490 to R501, R510). -/
namespace Sys2Proof.Machine

/-- One write access of row `c` by a path, with all that it makes due (R490, R491). -/
def Dev.access (d : Dev) (p : Path) (off : Nat) (v : Word) (partial_ : Bool) (c : Instr) : Dev :=
  if partial_ then d.partialRequest p off c else d.request p off c fun d => (d.busWrite p off v).2.settleDue

/-- One read access of row `c` by a path: the word is delivered. -/
def Dev.accessRead (d : Dev) (p : Path) (off : Nat) (c : Instr) : Dev :=
  d.request p off c fun d =>
    let r := d.busRead p off
    r.2.deliver p r.1

/-- REGISTER_WRITE (R490 to R499). -/
def execRegisterWrite (path : Path) (off : BitVec 26) (v : Word) (partial_ : Bool) (s : State) : Host.Outcome State Fault Refusal :=
  actBus s fun d => d.access path off.toNat v partial_ (.registerWrite path off v partial_)

/-- SQC_WRITE (R497). -/
def execSqcWrite (path : Path) (off : BitVec 26) (v : Word) (s : State) : Host.Outcome State Fault Refusal :=
  actBus s fun d => d.access path off.toNat v false (.sqcWrite path off v)

/-- GLB_LOCK_WRITE (R499). -/
def execGlbLockWrite (v : Word) (s : State) : Host.Outcome State Fault Refusal :=
  actBusReg .bar0 0x08 (.glbLockWrite v) s fun d => { d with lock := d.lock ||| v.truncate 5 }

/-- LOW_WORD_READ (R501). -/
def execLowWordRead (path : Path) (off : BitVec 26) (s : State) : Host.Outcome State Fault Refusal :=
  act s fun d => d.accessRead path off.toNat (.lowWordRead path off)

/-- RC_COUNTER_READ (R510). -/
def execRcCounterRead (path : Path) (off : BitVec 26) (s : State) : Host.Outcome State Fault Refusal :=
  act s fun d => d.accessRead path off.toNat (.rcCounterRead path off)

/-- BOOT_START_CMD (R471). -/
def execBootStartCmd (v : Word) (s : State) : Host.Outcome State Fault Refusal :=
  actReg .bar0 Reg.GLB_BOOT_CMD (.bootStartCmd v) s fun d => d.startCmd v

/-! ## REG_BATCH (R388) -/

/-- Host address of the read results, and the item count. -/
def SqEnt.batchAddr (e : SqEnt) : Nat := unle (Machine.slice e.bytes 8 8)
def SqEnt.batchCount (e : SqEnt) : Nat := unle (Machine.slice e.bytes 16 2)

/-- Item `i`: its 64 bits. -/
def SqEnt.batchItem (e : SqEnt) (i : Nat) : Nat := unle (Machine.slice e.bytes (32 + 8 * i) 8)

/-- A batch as it proceeds: the device, the reads done, the items done. -/
structure Batch where
  dev : Dev
  reads : Nat
  done : Nat

/-- One good item. -/
def Batch.item (b : Batch) (addr x : Nat) : Batch :=
  let off := nfld x 57 32
  if nfld x 63 62 = 1 then { b with dev := (b.dev.busWrite .ring off (wd x)).2.settleDue, done := b.done + 1 }
  else
    let r := b.dev.busRead .ring off
    { dev := r.2.dmaOut (addr + 4 * b.reads) (le 4 r.1.toNat), reads := b.reads + 1, done := b.done + 1 }

/-- An item that ends the batch with BAD_ARG. -/
def batchBad (x : Nat) : Bool := nfld x 63 62 = 0 || nfld x 63 62 = 3 || nfld x 57 32 % 4 ≠ 0

/-- Perform items in order until one is bad; the flag says that one was. -/
def Batch.run (addr : Nat) : List Nat → Batch → Batch × Bool
  | [], b => (b, false)
  | x :: xs, b => if batchBad x then (b, true) else Batch.run addr xs (b.item addr x)

/-- REG_BATCH at the front of ring `q` (R388). -/
def Dev.regBatch (d : Dev) (q : Nat) (e : SqEnt) : Dev :=
  let n := e.batchCount
  if n = 0 ∨ 508 < n then d.endEnt q e 4 0 0 false
  else
    let r := Batch.run e.batchAddr ((List.range n).map e.batchItem) { dev := d, reads := 0, done := 0 }
    r.1.dev.endEnt q e (if r.2 then 4 else 0) r.1.done 0 false

/-- The domains of a batch: the host's, and those of every register that its items name; a batch that would wait within
waits before its first item (log entry 18, DESIGN CHOICE). -/
def Dev.batchClocks (d : Dev) (q : Nat) : List Nat :=
  pllHost :: match d.frontEnt q with
    | some e => ((List.range e.batchCount).map fun i => d.busClocks .ring (nfld (e.batchItem i) 57 32)).flatten
    | none => []

def execRegBatch (q : Fin 16384) (s : State) : Host.Outcome State Fault Refusal :=
  actBus s fun d => d.across (d.batchClocks q) (.regBatch q) fun d =>
    if d.sqKind q = 2 then d.onEntry q [0x11] fun d e => d.regBatch q e else d

end Sys2Proof.Machine
end

