-- ==== Sys2Proof/Machine/Dispatch.lean ====
section
/-! DEFINITION. The dispatch of commands to their meanings: one arm for each constructor of Instr. -/
namespace Sys2Proof.Machine

def exec (i : Instr) (s : State) : Host.Outcome State Fault Refusal :=
  match i with
  | .powerOn => Sys2Proof.Machine.execPowerOn s
  | .powerLoss => Sys2Proof.Machine.execPowerLoss s
  | .sysRstAssert => Sys2Proof.Machine.execSysRstAssert s
  | .sysRstRelease straps => Sys2Proof.Machine.execSysRstRelease straps s
  | .pllLockLoss pll => Sys2Proof.Machine.execPllLockLoss pll s
  | .pllRelock pll => Sys2Proof.Machine.execPllRelock pll s
  | .aonClockLoss => Sys2Proof.Machine.execAonClockLoss s
  | .bootRomVerifyComplete sigA sigB => Sys2Proof.Machine.execBootRomVerifyComplete sigA sigB s
  | .bootRecovery file sigOk uhs => Sys2Proof.Machine.execBootRecovery file sigOk uhs s
  | .calibrationLoad => Sys2Proof.Machine.execCalibrationLoad s
  | .stackTrainingComplete k failed => Sys2Proof.Machine.execStackTrainingComplete k failed s
  | .dukiderTrainingComplete ok => Sys2Proof.Machine.execDukiderTrainingComplete ok s
  | .configImageStart => Sys2Proof.Machine.execConfigImageStart s
  | .cfgRegWrite => Sys2Proof.Machine.execCfgRegWrite s
  | .cfgFieldModify => Sys2Proof.Machine.execCfgFieldModify s
  | .cfgTableLoadRaw => Sys2Proof.Machine.execCfgTableLoadRaw s
  | .cfgTableLoadCommands => Sys2Proof.Machine.execCfgTableLoadCommands s
  | .cfgParserProgram => Sys2Proof.Machine.execCfgParserProgram s
  | .cfgStageConfig => Sys2Proof.Machine.execCfgStageConfig s
  | .cfgCalendarPage => Sys2Proof.Machine.execCfgCalendarPage s
  | .cfgGateList => Sys2Proof.Machine.execCfgGateList s
  | .cfgLaunchEntry => Sys2Proof.Machine.execCfgLaunchEntry s
  | .cfgCellarTable => Sys2Proof.Machine.execCfgCellarTable s
  | .cfgPartition => Sys2Proof.Machine.execCfgPartition s
  | .cfgEnd => Sys2Proof.Machine.execCfgEnd s
  | .cfgUnknownRecord => Sys2Proof.Machine.execCfgUnknownRecord s
  | .stageMemoryFill => Sys2Proof.Machine.execStageMemoryFill s
  | .bootStartCmd v => Sys2Proof.Machine.execBootStartCmd v s
  | .bootSerdesStepEnd => Sys2Proof.Machine.execBootSerdesStepEnd s
  | .bootAlignStepEnd => Sys2Proof.Machine.execBootAlignStepEnd s
  | .forwardingStart => Sys2Proof.Machine.execForwardingStart s
  | .dramPoolReady cls => Sys2Proof.Machine.execDramPoolReady cls s
  | .optimeRecordWrite => Sys2Proof.Machine.execOptimeRecordWrite s
  | .timeBaseTick => Sys2Proof.Machine.execTimeBaseTick s
  | .slewConsumed => Sys2Proof.Machine.execSlewConsumed s
  | .timeFreqAdjWrite v => Sys2Proof.Machine.execTimeFreqAdjWrite v s
  | .timeSlewWrite v => Sys2Proof.Machine.execTimeSlewWrite v s
  | .timeStepSet => Sys2Proof.Machine.execTimeStepSet s
  | .timeStepAdd => Sys2Proof.Machine.execTimeStepAdd s
  | .timeNowRead path => Sys2Proof.Machine.execTimeNowRead path s
  | .timeCtrlWrite v => Sys2Proof.Machine.execTimeCtrlWrite v s
  | .timeSample offset mgrValid => Sys2Proof.Machine.execTimeSample offset mgrValid s
  | .timeSourceLoss => Sys2Proof.Machine.execTimeSourceLoss s
  | .holdoverExpire => Sys2Proof.Machine.execHoldoverExpire s
  | .ppsInEdge rising widthNs => Sys2Proof.Machine.execPpsInEdge rising widthNs s
  | .ppsMissingTimeout => Sys2Proof.Machine.execPpsMissingTimeout s
  | .ppsCaptRead path => Sys2Proof.Machine.execPpsCaptRead path s
  | .todLineReceive line => Sys2Proof.Machine.execTodLineReceive line s
  | .ppsOutEdge => Sys2Proof.Machine.execPpsOutEdge s
  | .todTxSend => Sys2Proof.Machine.execTodTxSend s
  | .leapSecondApply => Sys2Proof.Machine.execLeapSecondApply s
  | .announceUtcUpdate utcOffset leap61 leap59 => Sys2Proof.Machine.execAnnounceUtcUpdate utcOffset leap61 leap59 s
  | .txtsData0Read path => Sys2Proof.Machine.execTxtsData0Read path s
  | .synceSquelch o => Sys2Proof.Machine.execSynceSquelch o s
  | .synceResume o => Sys2Proof.Machine.execSynceResume o s
  | .esmcFrame port sel => Sys2Proof.Machine.execEsmcFrame port sel s
  | .launchArm path idx => Sys2Proof.Machine.execLaunchArm path idx s
  | .launchCancel path idx => Sys2Proof.Machine.execLaunchCancel path idx s
  | .launchRead path idx => Sys2Proof.Machine.execLaunchRead path idx s
  | .lnchEnableWrite v => Sys2Proof.Machine.execLnchEnableWrite v s
  | .launchRelativeRelease => Sys2Proof.Machine.execLaunchRelativeRelease s
  | .launchDispatch => Sys2Proof.Machine.execLaunchDispatch s
  | .vintageCommit idx => Sys2Proof.Machine.execVintageCommit idx s
  | .calendarSwitch idx => Sys2Proof.Machine.execCalendarSwitch idx s
  | .gateSwap idx => Sys2Proof.Machine.execGateSwap idx s
  | .harvest idx => Sys2Proof.Machine.execHarvest idx s
  | .meterProfile idx => Sys2Proof.Machine.execMeterProfile idx s
  | .shaperProfile idx => Sys2Proof.Machine.execShaperProfile idx s
  | .dramRetrain idx => Sys2Proof.Machine.execDramRetrain idx s
  | .mirrorStart idx => Sys2Proof.Machine.execMirrorStart idx s
  | .mirrorStop idx => Sys2Proof.Machine.execMirrorStop idx s
  | .regWrite idx => Sys2Proof.Machine.execRegWrite idx s
  | .mark idx => Sys2Proof.Machine.execMark idx s
  | .armMessageReceive => Sys2Proof.Machine.execArmMessageReceive s
  | .armRepeat => Sys2Proof.Machine.execArmRepeat s
  | .answerReceive => Sys2Proof.Machine.execAnswerReceive s
  | .confirmReceive n => Sys2Proof.Machine.execConfirmReceive n s
  | .distConfirmDeadline idx => Sys2Proof.Machine.execDistConfirmDeadline idx s
  | .lineFrameReceive p frame fcsOk headOnly corrected bad blockErr => Sys2Proof.Machine.execLineFrameReceive p frame fcsOk headOnly corrected bad blockErr s
  | .pauseFrameReceive p frame => Sys2Proof.Machine.execPauseFrameReceive p frame s
  | .pauseQuantaExpire p prio => Sys2Proof.Machine.execPauseQuantaExpire p prio s
  | .pauseWdogTrip p prio => Sys2Proof.Machine.execPauseWdogTrip p prio s
  | .pauseWdogRecover p prio => Sys2Proof.Machine.execPauseWdogRecover p prio s
  | .fcFrameSend p => Sys2Proof.Machine.execFcFrameSend p s
  | .fcXoffRepeat p prio => Sys2Proof.Machine.execFcXoffRepeat p prio s
  | .lineFrameTransmit p => Sys2Proof.Machine.execLineFrameTransmit p s
  | .portEnable p => Sys2Proof.Machine.execPortEnable p s
  | .portDisable p => Sys2Proof.Machine.execPortDisable p s
  | .portSignalDetect p => Sys2Proof.Machine.execPortSignalDetect p s
  | .anResolved p page ack => Sys2Proof.Machine.execAnResolved p page ack s
  | .anFail p => Sys2Proof.Machine.execAnFail p s
  | .portLockAcquired p swapped => Sys2Proof.Machine.execPortLockAcquired p swapped s
  | .portLockTimeout p => Sys2Proof.Machine.execPortLockTimeout p s
  | .portDebounceExpire p => Sys2Proof.Machine.execPortDebounceExpire p s
  | .portLockLoss p fault => Sys2Proof.Machine.execPortLockLoss p fault s
  | .portHoldoffExpire p => Sys2Proof.Machine.execPortHoldoffExpire p s
  | .portFlushComplete p => Sys2Proof.Machine.execPortFlushComplete p s
  | .ingressAccept n parityBad => Sys2Proof.Machine.execIngressAccept n parityBad s
  | .pressEntryReload n e => Sys2Proof.Machine.execPressEntryReload n e s
  | .dramLookupResponse n ecc => Sys2Proof.Machine.execDramLookupResponse n ecc s
  | .stageMemoryRefetch n line => Sys2Proof.Machine.execStageMemoryRefetch n line s
  | .assocEntryReload n e => Sys2Proof.Machine.execAssocEntryReload n e s
  | .actionResolve n fault => Sys2Proof.Machine.execActionResolve n fault s
  | .dukiderHandoff n => Sys2Proof.Machine.execDukiderHandoff n s
  | .dukiderCycleReceive toT crc => Sys2Proof.Machine.execDukiderCycleReceive toT crc s
  | .dukiderReplay toT => Sys2Proof.Machine.execDukiderReplay toT s
  | .dukiderLinkLost cause => Sys2Proof.Machine.execDukiderLinkLost cause s
  | .crossingParityError xing inst back lost => Sys2Proof.Machine.execCrossingParityError xing inst back lost s
  | .egressEdit n => Sys2Proof.Machine.execEgressEdit n s
  | .prsWrite n idx => Sys2Proof.Machine.execPrsWrite n idx s
  | .prsRead n idx => Sys2Proof.Machine.execPrsRead n idx s
  | .msWrite n target idx => Sys2Proof.Machine.execMsWrite n target idx s
  | .msRead n target idx => Sys2Proof.Machine.execMsRead n target idx s
  | .asWrite n idx => Sys2Proof.Machine.execAsWrite n idx s
  | .asRead n idx => Sys2Proof.Machine.execAsRead n idx s
  | .asInvalidate n idx => Sys2Proof.Machine.execAsInvalidate n idx s
  | .asSearch n => Sys2Proof.Machine.execAsSearch n s
  | .asNextMatch n => Sys2Proof.Machine.execAsNextMatch n s
  | .vintageReclaim => Sys2Proof.Machine.execVintageReclaim s
  | .reclaimSend => Sys2Proof.Machine.execReclaimSend s
  | .reclaimReceive n => Sys2Proof.Machine.execReclaimReceive n s
  | .drainLimitExpire => Sys2Proof.Machine.execDrainLimitExpire s
  | .learnItemProcess => Sys2Proof.Machine.execLearnItemProcess s
  | .epochAdvance => Sys2Proof.Machine.execEpochAdvance s
  | .agerSweepOperation => Sys2Proof.Machine.execAgerSweepOperation s
  | .tableWrite src => Sys2Proof.Machine.execTableWrite src s
  | .tableDelete src => Sys2Proof.Machine.execTableDelete src s
  | .tableRead src => Sys2Proof.Machine.execTableRead src s
  | .routeAdd src => Sys2Proof.Machine.execRouteAdd src s
  | .routeDel src => Sys2Proof.Machine.execRouteDel src s
  | .tableDump src => Sys2Proof.Machine.execTableDump src s
  | .tableFlush src => Sys2Proof.Machine.execTableFlush src s
  | .bufferAllocate pool bad => Sys2Proof.Machine.execBufferAllocate pool bad s
  | .bufferHandOver party handle newTag eccBad => Sys2Proof.Machine.execBufferHandOver party handle newTag eccBad s
  | .bufferSetRefs party handle count eccBad => Sys2Proof.Machine.execBufferSetRefs party handle count eccBad s
  | .bufferFree party handle eccBad => Sys2Proof.Machine.execBufferFree party handle eccBad s
  | .bpmRsvWrite o tier cls v => Sys2Proof.Machine.execBpmRsvWrite o tier cls v s
  | .revokeDrainExpire n => Sys2Proof.Machine.execRevokeDrainExpire n s
  | .revocationScanComplete tag bad => Sys2Proof.Machine.execRevocationScanComplete tag bad s
  | .auditPassStart => Sys2Proof.Machine.execAuditPassStart s
  | .auditPassComplete bad => Sys2Proof.Machine.execAuditPassComplete bad s
  | .admission start => Sys2Proof.Machine.execAdmission start s
  | .evacuationWriteComplete q => Sys2Proof.Machine.execEvacuationWriteComplete q s
  | .nominate o credit => Sys2Proof.Machine.execNominate o credit s
  | .evacReadComplete o good => Sys2Proof.Machine.execEvacReadComplete o good s
  | .crossbarCellTime => Sys2Proof.Machine.execCrossbarCellTime s
  | .dispatch target => Sys2Proof.Machine.execDispatch target s
  | .cutThroughTail p frame good => Sys2Proof.Machine.execCutThroughTail p frame good s
  | .replicate => Sys2Proof.Machine.execReplicate s
  | .gateEdge p => Sys2Proof.Machine.execGateEdge p s
  | .unreachHeadDrop dev => Sys2Proof.Machine.execUnreachHeadDrop dev s
  | .tmqWrite target idx => Sys2Proof.Machine.execTmqWrite target idx s
  | .tmqRead target idx => Sys2Proof.Machine.execTmqRead target idx s
  | .replWrite target idx => Sys2Proof.Machine.execReplWrite target idx s
  | .replRead target idx => Sys2Proof.Machine.execReplRead target idx s
  | .qstatRead path => Sys2Proof.Machine.execQstatRead path s
  | .shpWrite target idx => Sys2Proof.Machine.execShpWrite target idx s
  | .shpRead target idx => Sys2Proof.Machine.execShpRead target idx s
  | .shpCredRead path => Sys2Proof.Machine.execShpCredRead path s
  | .mtrWrite target idx => Sys2Proof.Machine.execMtrWrite target idx s
  | .mtrRead target idx => Sys2Proof.Machine.execMtrRead target idx s
  | .mtrBktRead path => Sys2Proof.Machine.execMtrBktRead path s
  | .trlLinkEnable n => Sys2Proof.Machine.execTrlLinkEnable n s
  | .trlLinkDisable n => Sys2Proof.Machine.execTrlLinkDisable n s
  | .pmClear n => Sys2Proof.Machine.execPmClear n s
  | .fabricTxResume f => Sys2Proof.Machine.execFabricTxResume f s
  | .codewordLock n swapped => Sys2Proof.Machine.execCodewordLock n swapped s
  | .cellSlotTransmit n slot => Sys2Proof.Machine.execCellSlotTransmit n slot s
  | .overheadTransmit n => Sys2Proof.Machine.execOverheadTransmit n s
  | .cellReceive n slot bytes cws bad => Sys2Proof.Machine.execCellReceive n slot bytes cws bad s
  | .overheadReceive n pos bytes cws bad => Sys2Proof.Machine.execOverheadReceive n pos bytes cws bad s
  | .defectDeclare n b => Sys2Proof.Machine.execDefectDeclare n b s
  | .defectClear n b => Sys2Proof.Machine.execDefectClear n b s
  | .ttOffsetRead path n => Sys2Proof.Machine.execTtOffsetRead path n s
  | .pmSecondFinal n => Sys2Proof.Machine.execPmSecondFinal n s
  | .pmBinRead path n day => Sys2Proof.Machine.execPmBinRead path n day s
  | .calWrite target link page idx => Sys2Proof.Machine.execCalWrite target link page idx s
  | .calRead target link page idx => Sys2Proof.Machine.execCalRead target link page idx s
  | .calTxPageSwitch n => Sys2Proof.Machine.execCalTxPageSwitch n s
  | .calRxPageSwitch n => Sys2Proof.Machine.execCalRxPageSwitch n s
  | .calRxSwitchTimeout n => Sys2Proof.Machine.execCalRxSwitchTimeout n s
  | .reorderGapTimeout src tc => Sys2Proof.Machine.execReorderGapTimeout src tc s
  | .contextIdleTimeout src tc => Sys2Proof.Machine.execContextIdleTimeout src tc s
  | .reportSend => Sys2Proof.Machine.execReportSend s
  | .reportReceive src => Sys2Proof.Machine.execReportReceive src s
  | .calendarRecompute => Sys2Proof.Machine.execCalendarRecompute s
  | .planReceive => Sys2Proof.Machine.execPlanReceive s
  | .electTimeout => Sys2Proof.Machine.execElectTimeout s
  | .managerLoss => Sys2Proof.Machine.execManagerLoss s
  | .snapshotBroadcast => Sys2Proof.Machine.execSnapshotBroadcast s
  | .snapshotReceive => Sys2Proof.Machine.execSnapshotReceive s
  | .dramRead r m ecc => Sys2Proof.Machine.execDramRead r m ecc s
  | .dramWrite r m line => Sys2Proof.Machine.execDramWrite r m line s
  | .scrubRead k ecc => Sys2Proof.Machine.execScrubRead k ecc s
  | .dramAlert k c wr failed after => Sys2Proof.Machine.execDramAlert k c wr failed after s
  | .channelRecoveryComplete k c ok => Sys2Proof.Machine.execChannelRecoveryComplete k c ok s
  | .refresh k c bank => Sys2Proof.Machine.execRefresh k c bank s
  | .rankPowerDown k c rank => Sys2Proof.Machine.execRankPowerDown k c rank s
  | .retrainPauseEnd k c => Sys2Proof.Machine.execRetrainPauseEnd k c s
  | .stackLost k cause => Sys2Proof.Machine.execStackLost k cause s
  | .partitionCommit => Sys2Proof.Machine.execPartitionCommit s
  | .pcieLinkUp speed width cfg => Sys2Proof.Machine.execPcieLinkUp speed width cfg s
  | .perst => Sys2Proof.Machine.execPerst s
  | .flr => Sys2Proof.Machine.execFlr s
  | .sqDoorbell q v partial_ => Sys2Proof.Machine.execSqDoorbell q v partial_ s
  | .cqDoorbell c v partial_ => Sys2Proof.Machine.execCqDoorbell c v partial_ s
  | .sqUnit0Read q unit => Sys2Proof.Machine.execSqUnit0Read q unit s
  | .sqPoll q => Sys2Proof.Machine.execSqPoll q s
  | .sqEntryRead q rest => Sys2Proof.Machine.execSqEntryRead q rest s
  | .skipEntry q => Sys2Proof.Machine.execSkipEntry q s
  | .submissionBadOp q => Sys2Proof.Machine.execSubmissionBadOp q s
  | .injectRaw q => Sys2Proof.Machine.execInjectRaw q s
  | .injectPipe q => Sys2Proof.Machine.execInjectPipe q s
  | .injectFrameReadComplete q frame => Sys2Proof.Machine.execInjectFrameReadComplete q frame s
  | .postBuffer q => Sys2Proof.Machine.execPostBuffer q s
  | .regBatch q => Sys2Proof.Machine.execRegBatch q s
  | .puntItemWrite => Sys2Proof.Machine.execPuntItemWrite s
  | .puntDmaComplete => Sys2Proof.Machine.execPuntDmaComplete s
  | .completionWrite q => Sys2Proof.Machine.execCompletionWrite q s
  | .vectorTimerExpire v => Sys2Proof.Machine.execVectorTimerExpire v s
  | .msixUnmask v dw w => Sys2Proof.Machine.execMsixUnmask v dw w s
  | .d3hotEntry => Sys2Proof.Machine.execD3hotEntry s
  | .d0Return => Sys2Proof.Machine.execD0Return s
  | .sqEnable q => Sys2Proof.Machine.execSqEnable q s
  | .sqDisable q => Sys2Proof.Machine.execSqDisable q s
  | .sqDrainComplete q => Sys2Proof.Machine.execSqDrainComplete q s
  | .cqEnable c => Sys2Proof.Machine.execCqEnable c s
  | .cqDisable c => Sys2Proof.Machine.execCqDisable c s
  | .sliceHangTimeout n => Sys2Proof.Machine.execSliceHangTimeout n s
  | .rackingStart => Sys2Proof.Machine.execRackingStart s
  | .rackingComplete ok => Sys2Proof.Machine.execRackingComplete ok s
  | .rackingTimeout => Sys2Proof.Machine.execRackingTimeout s
  | .claimWriteRefused n g => Sys2Proof.Machine.execClaimWriteRefused n g s
  | .sliceDrainComplete n => Sys2Proof.Machine.execSliceDrainComplete n s
  | .tastingRoundStart => Sys2Proof.Machine.execTastingRoundStart s
  | .tastingRoundEnd res => Sys2Proof.Machine.execTastingRoundEnd res s
  | .tastingRoundTimeout => Sys2Proof.Machine.execTastingRoundTimeout s
  | .sprForceFail n => Sys2Proof.Machine.execSprForceFail n s
  | .sprForceMove g => Sys2Proof.Machine.execSprForceMove g s
  | .sprForceCellar => Sys2Proof.Machine.execSprForceCellar s
  | .cellarFrameReceive p frame => Sys2Proof.Machine.execCellarFrameReceive p frame s
  | .mbxInfo src => Sys2Proof.Machine.execMbxInfo src s
  | .mbxSensors src => Sys2Proof.Machine.execMbxSensors src s
  | .evtRead src payload => Sys2Proof.Machine.execEvtRead src payload s
  | .evtNonce src => Sys2Proof.Machine.execEvtNonce src s
  | .evtClear src => Sys2Proof.Machine.execEvtClear src s
  | .fwUpdate src file sigOk nvm uhs => Sys2Proof.Machine.execFwUpdate src file sigOk nvm uhs s
  | .mbxRestart src => Sys2Proof.Machine.execMbxRestart src s
  | .ownerFuse src => Sys2Proof.Machine.execOwnerFuse src s
  | .nvmRead src => Sys2Proof.Machine.execNvmRead src s
  | .nvmCfgSelect src nvm => Sys2Proof.Machine.execNvmCfgSelect src nvm s
  | .nvmWriteConfigHalf src nvm => Sys2Proof.Machine.execNvmWriteConfigHalf src nvm s
  | .nvmWriteCalibration src nvm => Sys2Proof.Machine.execNvmWriteCalibration src nvm s
  | .mbxBadReq src req => Sys2Proof.Machine.execMbxBadReq src req s
  | .mbxWaitTimeout src => Sys2Proof.Machine.execMbxWaitTimeout src s
  | .mgmtWdogExpire => Sys2Proof.Machine.execMgmtWdogExpire s
  | .mgmtFwReady => Sys2Proof.Machine.execMgmtFwReady s
  | .trialCommit => Sys2Proof.Machine.execTrialCommit s
  | .nonceExpire => Sys2Proof.Machine.execNonceExpire s
  | .evtClearEraseComplete => Sys2Proof.Machine.execEvtClearEraseComplete s
  | .eventRecordWrite => Sys2Proof.Machine.execEventRecordWrite s
  | .sensorSample temps => Sys2Proof.Machine.execSensorSample temps s
  | .vmonSample mv power => Sys2Proof.Machine.execVmonSample mv power s
  | .registerWrite path off v partial_ => Sys2Proof.Machine.execRegisterWrite path off v partial_ s
  | .sqcWrite path off v => Sys2Proof.Machine.execSqcWrite path off v s
  | .glbLockWrite v => Sys2Proof.Machine.execGlbLockWrite v s
  | .lowWordRead path off => Sys2Proof.Machine.execLowWordRead path off s
  | .rcCounterRead path off => Sys2Proof.Machine.execRcCounterRead path off s
  | .cntClearBank bank => Sys2Proof.Machine.execCntClearBank bank s
  | .cntClearSet => Sys2Proof.Machine.execCntClearSet s
  | .harvestBlockWrite => Sys2Proof.Machine.execHarvestBlockWrite s
  | .cntMtrSelect v => Sys2Proof.Machine.execCntMtrSelect v s
  | .pcieCompletionTimeout q => Sys2Proof.Machine.execPcieCompletionTimeout q s
  | .cardRemoved => Sys2Proof.Machine.execCardRemoved s
  | .aonXinRestart => Sys2Proof.Machine.execAonXinRestart s

end Sys2Proof.Machine
end

