-- ==== Sys2Proof/Machine/Step.lean ====
section
/-! DEFINITION. One step: the command at the front of the queue acts; on an empty queue the device idles (log entry 1, DESIGN CHOICE). -/
namespace Sys2Proof.Machine

/-- Split a list before its first element with a property. -/
def splitAtFirst {α : Type} (p : α → Bool) : List α → Option (List α × α × List α)
  | [] => none
  | x :: xs => if p x then some ([], x, xs) else (splitAtFirst p xs).map fun r => (x :: r.1, r.2.1, r.2.2)

/-- The oldest row that waits before a domain whose PLL has locked again, or a channel that serves again: what waits before it, the
row, and the rest (R34, R350). -/
def Dev.resumes (d : Dev) : Option (List (Nat × Instr) × (Nat × Instr) × List (Nat × Instr)) :=
  splitAtFirst (fun p => d.opens p.1) d.parked

/-- The rows that go on waiting stand before and behind what the resumed row left waiting. -/
def resumed (before after : List (Nat × Instr)) : Host.Outcome State Fault Refusal → Host.Outcome State Fault Refusal
  | .next t => .next { t with dev := { t.dev with parked := before ++ t.dev.parked ++ after } }
  | o => o

/-- A step on an empty queue: a row that waited before a stopped domain goes on (R34), or the device idles. -/
def stepEmpty (s : State) : Host.Outcome State Fault Refusal :=
  match s.dev.resumes with
  | some (before, p, after) => resumed before after (exec p.2 { s with dev := { s.dev with parked := [] } })
  | none => .next { s with dev := s.dev.idle }

/-- One step of the block. -/
def step (s : State) : Host.Outcome State Fault Refusal :=
  match s.pending with
  | [] => stepEmpty s
  | c :: cs => exec c { s with pending := cs }

/-- The state with the command that a word spells put at the front of the queue; unchanged where the word spells none. -/
def State.withFetchWord (s : State) (nbits w : Nat) : State :=
  match decodeTableWord nbits w with
  | some c => { s with pending := c :: s.pending }
  | none => s

end Sys2Proof.Machine
end

