-- ==== Sys2Proof/Safety.lean ====
section
/-! DEFINITION. The words that the statements about this machine are made of: when a command completes, what the device must
be for it, which registers and counters a command leaves alone, and the invariant of every step. -/
namespace Sys2Proof.Machine

/-- Command `c` completes at `s`: the machine goes on with the same queue, and the device before (`s.dev`) and after stand
in relation `P`. -/
def Completes (c : Instr) (s : State) (P : Dev → Dev → Prop) : Prop :=
  ∃ e : Dev, exec c s = .next { s with dev := e } ∧ P s.dev e

/-- Command `c` completes at `s` and makes the device `e`: the machine goes on with the same queue. -/
def Yields (c : Instr) (s : State) (e : Dev) : Prop := exec c s = .next { s with dev := e }

/-- The device is powered and out of reset. -/
abbrev Runs (s : State) : Prop := s.dev.up = true

/-- The device runs, and clock domain `b` of GLB_PLL_STATUS takes a transfer: its PLL is in lock, and nothing waits before it
(R34). -/
abbrev Clocked (b : Nat) (s : State) : Prop := s.dev.up = true ∧ s.dev.flows b = true

/-- The device runs, and PLL `b` of GLB_PLL_STATUS is in lock. -/
abbrev Locked (b : Nat) (s : State) : Prop := s.dev.up = true ∧ s.dev.clocked b = true

/-- An access by path `p` at offset `off` reaches the register fabric and its window: BAR0 answers (R470), no domain on its way
makes it wait (R34), and the PCIe link, where it comes over it, is awake (R371). -/
abbrev Reaches (p : Path) (off : Nat) (s : State) : Prop :=
  s.dev.up = true ∧ s.dev.busUp p = true ∧ s.dev.busFlows p off = true ∧ s.dev.hostWakes p = s.dev

/-- An access by path `p` at `off` reaches its window, and the window answers: it is not one of those that stay silent when no
firmware was found (R473), nor one of the F-die while the F-die does not answer (R470, R495). -/
abbrev Answers (p : Path) (off : Nat) (s : State) : Prop :=
  Reaches p off s ∧ s.dev.silent off = false ∧ (fdieOffset off = false ∨ s.dev.fdieUp = true)

/-- The device runs with the management PLL in lock and nothing waiting before it, and Huafin firmware serves. -/
abbrev Serves (s : State) : Prop := Clocked pllMgmt s ∧ s.dev.mgmt.serving = true

/-- The loader stands before record `r` of the configuration image, and every domain that its records reach takes a transfer
(R34, R477, R479). -/
abbrev Loads (s : State) (r : CfgRec) : Prop :=
  s.dev.up = true ∧ s.dev.stopped s.dev.cfgClocks = none ∧ s.dev.cfgLoads = true ∧ s.dev.cfgNext = .record r

/-- Command `c` applies record `r`: `x` is the result of its items and the device they make (R480). -/
abbrev Applies (c : Instr) (s : State) (r : CfgRec) (x : Nat × Dev) : Prop :=
  Yields c s (s.dev.keepBus ((x.2.settleDue).cfgDone r x.1))

/-- Entry `i` of kind `k`, dispatched, on time and not repeating, is the next to act and its target can receive it (R66). -/
abbrev LaunchReady (k i : Nat) (s : State) : Prop :=
  s.dev.up = true ∧ s.dev.firstEntry s.dev.mayAct = some i ∧ (s.dev.entry i).kind = k ∧ (s.dev.entry i).st = .dispatched ∧
  (s.dev.entry i).isLate = false ∧ (s.dev.entry i).period = 0 ∧ s.dev.unreceivable (s.dev.entry i) = false

/-- Command `c` lets entry `i` act by `f` and makes it DONE; then what the action itself made due acts. -/
abbrev ActsBy (c : Instr) (s : State) (i : Nat) (f : Dev → Dev) : Prop :=
  Yields c s (s.dev.keepBus (Dev.settleDue
    ((f (s.dev.modEntry i fun e => { e with st := .dispatched })).setEntry i { s.dev.entry i with st := .done })))

/-- Entry `e` is in front of command ring `q`, which runs, and is a TABLE entry of 4 units with operation `op`; the engine is at the
host's turn (R179, R185, R387). -/
abbrev TableFront (s : State) (q op : Nat) (e : SqEnt) : Prop :=
  s.dev.sqKind q = 2 ∧ s.dev.sqRuns q = true ∧ s.dev.frontEnt q = some e ∧ e.op = 0x10 ∧ e.units = 4 ∧ e.tblCmd.op = op ∧
  s.dev.engServes 0 = true

/-- Command `c` runs the table command of entry `e` of ring `q`, the entry ends with its result, and the engine's turn passes on
(R179, R186). -/
abbrev RunsTable (c : Instr) (s : State) (q : Nat) (e : SqEnt) : Prop :=
  Yields c s (s.dev.keep (((s.dev.runTblCmd e.tblCmd).2.endEnt q e 0 0 (s.dev.runTblCmd e.tblCmd).1 false).engDone 0))

/-- Firmware serves, and request `req` waits at a source that may make it, is the first to have come, and fits the mailbox
(R436, R438, R445). -/
abbrev Waits (src : MbxSrc) (req : Nat) (s : State) : Prop :=
  Serves s ∧ s.dev.mbxReqOf (srcCode src) req = some req ∧ s.dev.mbxFirst (srcCode src) = true ∧
  mbxAllowed (srcCode src) req = true ∧ s.dev.mbxTooLong (srcCode src) = false

/-- Command `c` ends the request of `src` with a result and a response (R437, R438). -/
abbrev Ends (c : Instr) (s : State) (src : MbxSrc) (result : Nat) (resp : Bytes) : Prop :=
  Yields c s (s.dev.keep (s.dev.mbxEnd (srcCode src) result resp))

/-- Every register outside `ks` holds what it held. -/
abbrev RegsBut (ks : List Nat) (d e : Dev) : Prop := ∀ k, k ∉ ks → e.reg k = d.reg k

/-- Every register holds what it held. -/
abbrev SameRegs (d e : Dev) : Prop := e.regs = d.regs

/-- The rows that may write any register, set a lock bit or move device time: ticks, steps, the actions of launches, register
writes and configuration records. -/
def writesBus : Instr → Bool
  | .timeBaseTick | .slewConsumed | .timeStepSet .. | .timeStepAdd .. | .launchDispatch | .vintageCommit .. => true
  | .calendarSwitch .. | .gateSwap .. | .harvest .. | .meterProfile .. | .shaperProfile .. | .dramRetrain .. => true
  | .mirrorStart .. | .mirrorStop .. | .regWrite .. | .mark .. | .registerWrite .. | .sqcWrite .. | .glbLockWrite .. => true
  | .regBatch .. | .cfgRegWrite .. | .cfgCellarTable .. | .cfgPartition .. | .cfgFieldModify .. | .cfgTableLoadRaw .. => true
  | .cfgTableLoadCommands .. | .cfgParserProgram .. | .cfgStageConfig .. | .cfgCalendarPage .. | .cfgGateList .. => true
  | .cfgLaunchEntry .. => true
  | _ => false

/-- The rows in which the firmware, the boot ROM or a power loss may change the flash (R449, R459, R474, R482, R488). -/
def writesFlash : Instr → Bool
  | .bootRecovery .. | .calibrationLoad .. | .optimeRecordWrite .. | .mgmtWdogExpire .. | .mgmtFwReady .. => true
  | .trialCommit .. | .evtClearEraseComplete .. | .eventRecordWrite .. | .fwUpdate .. | .mbxRestart .. => true
  | .nvmCfgSelect .. | .nvmWriteConfigHalf .. | .nvmWriteCalibration .. | .powerLoss => true
  | _ => false

/-- The rows that power or reset the device, the sample of the thermal trip among them (R443, R467, R525). -/
def powers : Instr → Bool
  | .powerOn | .powerLoss | .sysRstAssert | .sysRstRelease .. | .sensorSample .. => true
  | _ => false

/-- The rows that take the device's state away: power-on and the assertion of SYS_RST_N (R467). -/
def resets : Instr → Bool
  | .powerOn | .sysRstAssert => true
  | _ => false

/-- The rows that act while the device is in reset or without power: power, resets and the always-on domain (R443, R467). -/
def actsInReset : Instr → Bool
  | .powerOn | .powerLoss | .sysRstAssert | .sysRstRelease .. | .sensorSample .. | .aonClockLoss | .aonXinRestart => true
  | _ => false

/-- The invariant of every step: the flash is in its canonical form, and a held SYS_RST_N means that the device is in reset. -/
abbrev Inv (s : State) : Prop :=
  Tbl.Wf 0xFF#8 s.dev.nvm ∧ (s.dev.rstAsserted = true → s.dev.inReset = true)

end Sys2Proof.Machine
end

