-- ==== Sys2Proof/Certificates/Slice0/Obligations.lean ====
section
/-! DEFINITION. The statements about this machine, for the provers. A clause that concludes with Yields or Completes says that its
command goes on, and what it makes of the device, for every state and operands that meet its premises. -/
open Sys2Proof Sys2Proof.Machine

/-- A step with a command at the front of the queue is that command on the device, with the rest of the queue. -/
def Obligations.StepRunsTheFront : Prop :=
  (∀ (s : State) (c : Instr) (cs : List Instr), step { s with pending := c :: cs } = exec c { s with pending := cs }) ∧
  (∀ (s t : State) (c : Instr) (cs : List Instr), step { s with pending := c :: cs } = .next t → t.pending = cs)

/-- On an empty queue the step is the model's own choice (log entry 1): the oldest row that waits before a clock domain or a channel that
takes transfers again acts, and the rows that go on waiting keep their order; with no such row the device idles, which leaves a device in
reset or without power as it is, and in any device leaves power, reset, GLB_LOCK and device time as they are. -/
def Obligations.EmptyQueueIdles : Prop :=
  (∀ s : State, s.pending = [] → s.dev.resumes = none → step s = .next { s with dev := s.dev.idle }) ∧
  (∀ (s t : State) (before after : List (Nat × Instr)) (b : Nat) (c : Instr), s.pending = [] →
    s.dev.parked = before ++ (b, c) :: after → (∀ x ∈ before, s.dev.opens x.1 = false) → s.dev.opens b = true →
    exec c { s with dev := { s.dev with parked := [] } } = .next t →
    step s = .next { t with dev := { t.dev with parked := before ++ t.dev.parked ++ after } }) ∧
  (∀ d : Dev, d.up = false → d.idle = d) ∧
  (∀ d : Dev, d.idle.powered = d.powered ∧ d.idle.inReset = d.inReset ∧ d.idle.rstAsserted = d.rstAsserted ∧
    d.idle.lock = d.lock ∧ d.idle.time.now = d.time.now)

/-- Whatever the device holds, every command of the table ends in a next state with the queue it was given: no command faults or is refused. -/
def Obligations.EveryCommandCompletes : Prop :=
  ∀ (c : Instr) (s : State), ∃ t : State, exec c s = .next t ∧ t.pending = s.pending

/-- At reset device time is 0 and stands still, every launch entry is FREE, every port DISABLED, S0 to S7 hold PG0 to PG7 and S8 is the
spare, no lock is set, every register holds the value of its map, the identity register 0x9128_0B00, GLB_BOOT.step is 0, and no
command waits. GLB_BOOT.step 0 beside step 1 of start-up is the model's choice (log entry 98). -/
def Obligations.ResetValues : Prop :=
  (State.reset.dev.time.now.sec = 0 ∧ State.reset.dev.time.now.ns = 0 ∧ State.reset.dev.time.now.subns = 0 ∧
    State.reset.dev.time.running = false) ∧
  (∀ i : Nat, (State.reset.dev.entry i).st = .free) ∧
  (∀ p : Nat, (State.reset.dev.port p).st = .disabled) ∧
  (∀ n : Nat, n < 8 → (State.reset.dev.slice n).st = .active ∧ (State.reset.dev.slice n).pg = some n) ∧
  ((State.reset.dev.slice 8).st = .spare ∧ (State.reset.dev.slice 8).pg = none) ∧
  (State.reset.dev.lock = 0#5 ∧ State.reset.dev.powered = true ∧ State.reset.dev.inReset = false) ∧
  (∀ k : Nat, State.reset.dev.reg k = regReset k) ∧
  State.reset.dev.reg Reg.GLB_CHIP_ID = 0x91280B00#32 ∧
  (State.reset.dev.boot.step = 0 ∧ State.reset.pending = [])

/-- At reset the flash is in canonical form, and SYS_RST_N is not held. -/
def Obligations.InvariantAtReset : Prop :=
  Inv State.reset

/-- From every state that meets the invariant, a step ends in a state that meets it: whatever the firmware, the boot ROM, a power loss
or a write through the mailbox does to the flash, its contents stay in canonical form, and SYS_RST_N is never held by a device that runs. -/
def Obligations.InvariantEveryStep : Prop :=
  ∀ s t : State, Inv s → step s = .next t → Inv t

/-- No row outside the named ones moves device time or changes GLB_LOCK, none but those of the firmware and of power loss changes the
flash, and none but those of power and reset changes power or reset. -/
def Obligations.OnlyTheseRows : Prop :=
  ∀ (c : Instr) (s t : State), exec c s = .next t →
    (writesBus c = false → resets c = false → t.dev.lock = s.dev.lock ∧ t.dev.time.now = s.dev.time.now) ∧
    (writesFlash c = false → t.dev.nvm = s.dev.nvm) ∧
    (powers c = false → t.dev.powered = s.dev.powered ∧ t.dev.inReset = s.dev.inReset ∧
      t.dev.rstAsserted = s.dev.rstAsserted)

/-- Whatever the step does, a set bit of GLB_LOCK stays set, but for SYS_RST_N and power-on, which clear all of them; a write to a
register of a locked domain, by any offset and path, changes nothing but the record of the refusal. -/
def Obligations.LocksStaySet : Prop :=
  (∀ (c : Instr) (s t : State) (i : Nat), exec c s = .next t → resets c = false → s.dev.lock.getLsbD i = true →
    t.dev.lock.getLsbD i = true) ∧
  (∀ s : State, s.dev.powered = true → Completes .sysRstAssert s fun _ e => e.lock = 0#5) ∧
  (∀ s : State, s.dev.powered = false → Completes .powerOn s fun _ e => e.lock = 0#5) ∧
  (∀ (s : State) (p : Path) (off : BitVec 26) (v : Word) (h : RegHit) (dom : Nat), Answers p off.toNat s →
    decodeReg off.toNat = some h →
    h.row.lock = some dom → s.dev.lock.getLsbD dom = true →
    Yields (.registerWrite p off v false) s (s.dev.keepBus ((s.dev.lockedWrite p off.toNat).noteAlias h).settleDue)) ∧
  (∀ (d : Dev) (p : Path) (off : Nat), d.chained bankGlb 1 = false →
    (d.lockedWrite p off).counter bankGlb 1 = d.counter bankGlb 1 + 1#32 ∧
    bit ((d.lockedWrite p off).reg Reg.GLB_STATUS) 10 = true ∧
    (∀ k, k ≠ Reg.GLB_STATUS → k ≠ Reg.GLB_LAST_FAULT → k ≠ Reg.MGMT_EVT_LOST → (d.lockedWrite p off).reg k = d.reg k))

/-- While the device is without power or in reset, every row but those of power, reset and the always-on domain leaves it as it is. -/
def Obligations.ResetHoldsStill : Prop :=
  ∀ (c : Instr) (s : State), s.dev.up = false → actsInReset c = false → exec c s = .next s

/-- When an entry that repeats, and that no step of device time has passed over, acts, on time or late, its next instant is its scheduled
instant plus its period and it is ARMED again; the row MARK does so for a MARK that repeats and acts on time: it leaves every other entry and
device time as they are. -/
def Obligations.RepeatingEntries : Prop :=
  (∀ (d : Dev) (i : Nat) (late : Bool), d.unreceivable (d.entry i) = false → (d.entry i).period ≠ 0 → (d.entry i).due = false →
    (d.entry i).instant + (d.entry i).period < 2 ^ 48 * 10 ^ 9 →
    ((d.actEntry i late).entry i).st = .armed ∧
      ((d.actEntry i late).entry i).instant = (d.entry i).instant + (d.entry i).period) ∧
  (∀ (s : State) (i : BitVec 12), Runs s → s.dev.firstEntry s.dev.mayAct = some i.toNat → (s.dev.entry i.toNat).kind = 0x0F →
    (s.dev.entry i.toNat).st = .dispatched → (s.dev.entry i.toNat).period ≠ 0 → (s.dev.entry i.toNat).tardy = false → (∀ p ∈ s.dev.lnch.entries, p.2.due = false) →
    (s.dev.entry i.toNat).instant + (s.dev.entry i.toNat).period < 2 ^ 48 * 10 ^ 9 →
    Completes (.mark i) s fun d e => (e.entry i.toNat).st = .armed ∧
      (e.entry i.toNat).instant = (d.entry i.toNat).instant + (d.entry i.toNat).period ∧
      (∀ j, j ≠ i.toNat → e.entry j = d.entry j) ∧ bit (e.reg Reg.LNCH_STATUS) 7 = true ∧ e.time.now = d.time.now)

/-- TIME_STATUS.valid reads 1 in LOCKED and HOLDOVER and while force_valid is 1, and 0 otherwise; what the launch engine may dispatch
and let act is the same in every time state and with every value of force_valid. -/
def Obligations.TimeValidity : Prop :=
  (∀ d : Dev, d.timeValid = true ↔
    d.time.state = .locked ∨ d.time.state = .holdover ∨ bit (d.reg Reg.TIME_CTRL) 4 = true) ∧
  (∀ (s : State) (p : Path) (off : BitVec 26) (h : RegHit), Answers p off.toNat s → fdieOffset off.toNat = false →
    decodeReg off.toNat = some h → h.block = .time → h.row.off = 0x04 → counterOf h = none →
    Completes (.lowWordRead p off) s fun d e => ∃ w : Word, bit w 3 = d.timeValid ∧
      e.out = .readData (pathCode p) w :: d.out) ∧
  (∀ (d : Dev) (st : TimeState) (v : Word) (e : LEntry), ∃ x : Dev, x = { d.setReg Reg.TIME_CTRL v with
      time := { d.time with state := st } } ∧ x.mayAct e = d.mayAct e ∧ x.eligible e = d.eligible e ∧ x.fifoFull e = d.fifoFull e)

/-- Power-on puts a device without power in reset with everything at its reset value but the flash, the owner hash, the fuse count, a clear
of the event recorder that was cut short, and the model's own fields (log entries 77 and 89: the model's choice). Power loss takes the
power away and leaves everything as it is but the flash, whose records in flight may hold free values (log entry 77). SYS_RST_N asserted puts
the device in reset, releases the pins, gives every register but GLB_STRAP its reset value and every counter 0, and keeps of the rest only the
flash, what Mgmt.kept names, whether the first start is over, and the model's own fields. The always-on clock stops and starts by its two
rows. -/
def Obligations.PowerAndReset : Prop :=
  (∀ s : State, s.dev.powered = false →
    Yields .powerOn s
      { inReset := true, rstAsserted := true, free := s.dev.free, nextUid := s.dev.nextUid, out := s.dev.out,
        nvm := s.dev.nvm, mgmt := { ownerHash := s.dev.mgmt.ownerHash, fuseCount := s.dev.mgmt.fuseCount,
                                    clearing := s.dev.mgmt.clearing } }) ∧
  (∀ s : State, s.dev.powered = true →
    Completes .powerLoss s fun d e => e = { d with powered := false, nvm := e.nvm, free := e.free }) ∧
  (∀ s : State, s.dev.powered = true → s.dev.inReset = true → Yields .powerLoss s { s.dev with powered := false }) ∧
  (∀ s : State, s.dev.powered = true →
    Completes .sysRstAssert s fun d e => (∀ k, k ≠ Reg.GLB_STRAP → e.reg k = regReset k) ∧ (∀ b i, e.counter b i = 0#32) ∧
      e = { inReset := true, rstAsserted := true, regs := e.regs, free := d.free, nextUid := d.nextUid,
            out := .pinsRelease :: d.out, nvm := d.nvm, nvmOctal := d.nvmOctal, mgmt := d.mgmt.kept,
            boot := { firstStart := d.boot.firstStart } }) ∧
  (∀ s : State, Yields .aonClockLoss s { s.dev with mgmt := { s.dev.mgmt with aonOn := false } }) ∧
  (∀ s : State, Yields .aonXinRestart s { s.dev with mgmt := { s.dev.mgmt with aonOn := true } })

/-- A release of SYS_RST_N latches the straps, takes the device out of reset, drives SD_VSEL low and resets the flash by its pin and by
command; after a thermal trip it also raises THERMTRIP_N. While a sensor of the trip still reads 100 °C or more the device stays in reset.
GLB_BOOT.step is not changed by it: it reads 0 until the first PLL locks (log entry 98: the model's choice). -/
def Obligations.ResetRelease : Prop :=
  (∀ (s : State) (straps : Word), s.dev.powered = true → s.dev.rstAsserted = true → s.dev.mgmt.thermtripN = false →
    Yields (.sysRstRelease straps) s { s.dev.setReg Reg.GLB_STRAP (straps &&& strapMask) with
      inReset := false, rstAsserted := false, nvmOctal := false,
      out := .flashReset :: .pin pinNvmRstN true :: .pin pinNvmRstN false :: .pin pinSdVsel false :: s.dev.out }) ∧
  (∀ (s : State) (straps : Word), s.dev.powered = true → s.dev.rstAsserted = true → s.dev.mgmt.thermtripN = true →
    s.dev.tooHot = false →
    Yields (.sysRstRelease straps) s { s.dev.setReg Reg.GLB_STRAP (straps &&& strapMask) with
      inReset := false, rstAsserted := false, nvmOctal := false, mgmt := { s.dev.mgmt with thermtripN := false },
      out := .flashReset :: .pin pinNvmRstN true :: .pin pinNvmRstN false :: .pin pinSdVsel false ::
        .pin pinThermtripN true :: s.dev.out }) ∧
  (∀ (s : State) (straps : Word), s.dev.powered = true → s.dev.rstAsserted = true → s.dev.tooHot = true →
    Yields (.sysRstRelease straps) s { s.dev with rstAsserted := false })

/-- The loss of lock of a PLL that drives no SerDes lane and not the Dukider link is counted, latched in GLB_STATUS and logged
with its domain; with the TIME PLL device time stops. A PLL that locks is noted, actions that waited for its clock with their instants past
are marked late, and device time counts from the lock of the TIME PLL; GLB_BOOT.step, while it is 0 or 1, becomes 1, and 2 when every PLL of
GLB_PLL_STATUS is in lock (log entry 98: that it shows 1 from the first lock is the model's choice). The codes of the domains are DEDUCED
(log entry 27). -/
def Obligations.PllRows : Prop :=
  (∀ (s : State) (p : Pll), Runs s → s.dev.pllLocked p = true →
    (p = .fclk ∨ p = .tclk ∨ (∃ k, p = .mclk k) ∨ p = .line ∨ p = .fabric ∨ p = .host ∨ p = .pciePhy ∨ p = .mgmt) →
    Yields (.pllLockLoss p) s ((((s.dev.setPll p false).inc bankGlb 6).latchBit Reg.GLB_STATUS 8).logBit 0x00 0 8
      (pllDomain p).2 (le 1 (pllDomain p).1))) ∧
  (∀ s : State, Runs s → s.dev.pllLocked .time = true →
    Completes (.pllLockLoss .time) s fun d e => e.time = { d.time with running := false } ∧ e.clocked pllTime = false ∧
      e.counter bankGlb 6 = d.counter bankGlb 6 + 1#32) ∧
  (∀ (s : State) (p : Pll) (b : Nat), Runs s → s.dev.pllLocked p = false → p ≠ .time → pllBit p = .inl b → 1 < s.dev.boot.step →
    Yields (.pllRelock p) s ((s.dev.setPll p true).tardyIn b)) ∧
  (∀ (s : State) (p : Pll) (l : Nat), Runs s → s.dev.pllLocked p = false → pllBit p = .inr l → 1 < s.dev.boot.step →
    Yields (.pllRelock p) s { s.dev with boot := { s.dev.boot with lanesOut := s.dev.boot.lanesOut.filter (· != l) } }) ∧
  (∀ s : State, Runs s → s.dev.pllLocked .time = false → 1 < s.dev.boot.step →
    Completes (.pllRelock .time) s fun d e => e.time = { d.time with running := true } ∧ e.clocked pllTime = true ∧
      e = { d with time := e.time, boot := { d.boot with plls := e.boot.plls }, lnch := e.lnch }) ∧
  (∀ (s : State) (p : Pll) (b : Nat), Runs s → s.dev.pllLocked p = false → pllBit p = .inl b → s.dev.boot.step ≤ 1 →
    Completes (.pllRelock p) s fun d e => e.boot.plls = d.boot.plls ||| BitVec.ofNat 18 (2 ^ b) ∧
      e.boot.step = if e.boot.plls = 0x3FFFF#18 then 2 else 1)

/-- The boot ROM boots the slot that Dev.chooseSlot gives, with the T-die windows answering and step 3 begun, or notes that none passes; in
RECOVERY mode it boots none. Recovery begins step 3 with the T-die windows answering when the card holds a good image, and halts with cause 1
when it does not; the rest of the device but the flash, the firmware's state and the card's voltage stays as it is. The calibration set ends
step 3 with firmware serving and every stack training. A stack that trains is READY, and the Dukider link that trains has its F-die
windows answer; step 4 ends when all of them have (Dev.trainEnds). Which signatures verify, and what the card holds, are operands (log entry
79: the model's choice). -/
def Obligations.StartUp : Prop :=
  (∀ (s : State) (a b : Bool) (x : Nat), Clocked pllMgmt s → s.dev.boot.step = 2 → s.dev.boot.fail = 0 → s.dev.bootMode ≠ 2 →
    s.dev.chooseSlot a b = some x →
    Completes (.bootRomVerifyComplete a b) s fun d e => e.boot.step = 3 ∧ e.boot.tdieReady = true ∧ e.boot.slot = x ∧
      e.mgmt.fw.active = x ∧ e.nvmOctal = true ∧
      e = { d with boot := e.boot, mgmt := { d.mgmt with fw := e.mgmt.fw }, nvmOctal := e.nvmOctal }) ∧
  (∀ (s : State) (a b : Bool) (x : Nat), Clocked pllMgmt s → s.dev.boot.step = 2 → s.dev.boot.fail = 0 → s.dev.bootMode = 2 →
    s.dev.chooseSlot a b = some x →
    Yields (.bootRomVerifyComplete a b) s { s.dev with nvmOctal := true }) ∧
  (∀ (s : State) (a b : Bool), Clocked pllMgmt s → s.dev.boot.step = 2 → s.dev.boot.fail = 0 → s.dev.chooseSlot a b = none →
    Yields (.bootRomVerifyComplete a b) s { s.dev with nvmOctal := true, boot := { s.dev.boot with noSlot := true } }) ∧
  (∀ (s : State) (file : CardFile) (ok uhs : Bool) (f : Bytes), Clocked pllMgmt s → s.dev.boot.step = 2 → s.dev.boot.fail = 0 →
    (s.dev.bootMode = 2 ∨ s.dev.boot.noSlot = true) → s.dev.cardImage file ok = some f →
    Completes (.bootRecovery file ok uhs) s fun d e => e.boot.step = 3 ∧ e.boot.recovery = true ∧ e.boot.tdieReady = true ∧
      e.out = (if uhs then .pin pinSdVsel true :: d.out else d.out) ∧
      e = { d with boot := e.boot, nvm := e.nvm, out := e.out,
                   mgmt := { d.mgmt with fw := e.mgmt.fw, sdVsel := d.mgmt.sdVsel || uhs } }) ∧
  (∀ (s : State) (file : CardFile) (ok uhs : Bool), Clocked pllMgmt s → s.dev.boot.step = 2 → s.dev.boot.fail = 0 →
    (s.dev.bootMode = 2 ∨ s.dev.boot.noSlot = true) → s.dev.cardImage file ok = none →
    Yields (.bootRecovery file ok uhs) s { s.dev.cardVolts file uhs with boot := { s.dev.boot with fail := 1 } }) ∧
  (∀ s : State, Clocked pllMgmt s → s.dev.boot.step = 3 →
    Completes .calibrationLoad s fun _ e => e.boot.step = 4 ∧ e.mgmt.serving = true ∧ ∀ k < 8, (e.mcOf k).st = .training) ∧
  (∀ (s : State) (k : Fin 8), Clocked (pllMclk k) s → s.dev.boot.step = 4 → (s.dev.mcOf k).st = .training →
    Yields (.stackTrainingComplete k none) s ((s.dev.modMc k fun m => { m with st := .ready }).trainEnds)) ∧
  (∀ s : State, Runs s → s.dev.boot.step = 4 → s.dev.boot.dukTrained = false → s.dev.boot.dukFailed = false →
    s.dev.clocked 2 = true → s.dev.clocked 3 = true →
    Yields (.dukiderTrainingComplete true) s
      (Dev.trainEnds { s.dev with boot := { s.dev.boot with dukTrained := true, fdieReady := true } }))

/-- With training over, CONFIG_IMAGE_START waits for the host in host-boot mode and when the flash holds no configuration image, and otherwise
begins to load the selected half. Once loading has ended, or the host gives start while it is waited for, the slices load their stage
memory, the buffer pools get their lists and step 6 begins. Steps 6 and 7 end. The operating-time record goes to its place in the flash.
When the steps end is a row of its own (log entry 88: DEDUCED). -/
def Obligations.StartUpSteps : Prop :=
  (∀ s : State, Clocked pllMgmt s → s.dev.boot.step = 5 → s.dev.boot.loading = false → s.dev.boot.endCause = 0 →
    s.dev.boot.hostWait = false → s.dev.bootMode = 1 →
    Yields .configImageStart s { s.dev with boot := { s.dev.boot with hostWait := true } }) ∧
  (∀ (s : State) (x : Bytes), Clocked pllMgmt s → s.dev.boot.step = 5 → s.dev.boot.loading = false → s.dev.boot.endCause = 0 →
    s.dev.boot.hostWait = false → s.dev.bootMode ≠ 1 → x = s.dev.nvRead (nvHalf (hdrCfg s.dev.hdr)) 16 →
    Machine.slice x 0 4 = [90#8, 67#8, 70#8, 71#8] → unle (Machine.slice x 4 2) = 1 → unle (Machine.slice x 6 2) = 0x9128 →
    Yields .configImageStart s
      (Dev.setReg { s.dev with boot := { s.dev.boot with half := hdrCfg s.dev.hdr, pos := 16, loading := true } } Reg.GLB_CFG_BUILD
        (wd (unle (Machine.slice x 8 4))))) ∧
  (∀ (s : State) (x : Bytes), Clocked pllMgmt s → s.dev.boot.step = 5 → s.dev.boot.loading = false → s.dev.boot.endCause = 0 →
    s.dev.boot.hostWait = false → s.dev.bootMode ≠ 1 → x = s.dev.nvRead (nvHalf (hdrCfg s.dev.hdr)) 16 →
    ¬ (Machine.slice x 0 4 = [90#8, 67#8, 70#8, 71#8] ∧ unle (Machine.slice x 4 2) = 1 ∧ unle (Machine.slice x 6 2) = 0x9128) →
    Yields .configImageStart s { s.dev with boot := { s.dev.boot with hostWait := true, cfgAbsent := true } }) ∧
  (∀ s : State, Clocked pllMgmt s → s.dev.boot.step = 5 → s.dev.boot.endCause ≠ 0 → s.dev.boot.loading = false →
    Yields .stageMemoryFill s (s.dev.keep { s.dev.fillReplicas.buildLists with
      boot := { s.dev.boot with hostWait := false, step := 6 } })) ∧
  (∀ (s : State) (v : Word), Answers .bar0 Reg.GLB_BOOT_CMD s → s.dev.boot.hostWait = true → bit v 0 = true →
    Yields (.bootStartCmd v) s (s.dev.keep { s.dev.fillReplicas.buildLists with
      boot := { s.dev.boot with hostWait := false, step := 6 } })) ∧
  (∀ s : State, Clocked pllMgmt s → s.dev.boot.step = 6 →
    Yields .bootSerdesStepEnd s { s.dev with boot := { s.dev.boot with step := 7 } }) ∧
  (∀ s : State, Clocked pllMgmt s → s.dev.boot.step = 7 →
    Yields .bootAlignStepEnd s { s.dev with boot := { s.dev.boot with step := 8 } }) ∧
  (∀ (s : State) (r : Bytes), Serves s → r = le 4 s.dev.opSeq ++ le 4 s.dev.optime ++ le 3 s.dev.mgmt.pcc ++
      le 1 (b2n !s.dev.mgmt.opRecord) →
    Completes .optimeRecordWrite s fun d e => e.mgmt = { d.mgmt with opRecord := true } ∧
      e.nvRead (nvOptime + 16 * d.opNext) 16 = r ++ wordBytes (crc32c r) ∧ e = { d with nvm := e.nvm, mgmt := e.mgmt })

/-- Forwarding starts with the initial vintage of SL_VNT_CTRL current and none old; the DRAM list of a class is built and its
pool ready. -/
def Obligations.ForwardingStart : Prop :=
  (∀ s : State, Clocked pllMgmt s → s.dev.boot.step = 8 → s.dev.vint.started = false → s.dev.boot.dukFailed = false →
    s.dev.dukLost = false → s.dev.tableLost = false →
    Completes .forwardingStart s fun d e =>
      e.vint = { d.vint with started := true, current := fld (d.reg Reg.SL_VNT_CTRL) 3 0, old := none } ∧
      e.time = d.time ∧ e.boot = d.boot ∧ e.slices = d.slices ∧ e.ports = d.ports) ∧
  (∀ (s : State) (c : Fin 4), Clocked pllT s → s.dev.vint.started = true → s.dev.poolDone c = false →
    (List.range c).all s.dev.poolDone = true →
    Completes (.dramPoolReady c) s fun d e => Tbl.get false e.bpm.ready (4 + c) = true ∧ e = { d with bpm := e.bpm })

/-- Each record row applies the record before which the loader stands, when it is of the row's type and its length matches its
form: its items run in order until one fails, and the record ends with their result. -/
def Obligations.ConfigRecords : Prop :=
  (∀ (s : State) (r : CfgRec), Loads s r → r.typ = 0x01 → r.whole 4 = true →
    Applies .cfgRegWrite s r (runItems Dev.cfgWrite (wordWrites r.target r.payload) s.dev)) ∧
  (∀ (s : State) (r : CfgRec), Loads s r → r.typ = 0x02 → r.len = 8 →
    Applies .cfgFieldModify s r (s.dev.busRmw .cfg r.target (wd (unle (Machine.slice r.payload 0 4)))
      (wd (unle (Machine.slice r.payload 4 4))))) ∧
  (∀ (s : State) (r : CfgRec), Loads s r → r.typ = 0x03 → r.target.testBit 31 = false → r.whole 64 = true →
    Applies .cfgTableLoadRaw s r
      (runItems Dev.cfgLine ((List.range (r.len / 64)).map fun i => (r.target + i, r.item 64 i)) s.dev)) ∧
  (∀ (s : State) (r : CfgRec), Loads s r → r.typ = 0x03 → r.target.testBit 31 = true → r.whole 96 = true →
    Applies .cfgTableLoadCommands s r (runItems Dev.cfgTable ((List.range (r.len / 96)).map (r.item 96)) s.dev)) ∧
  (∀ (s : State) (r : CfgRec), Loads s r → r.typ = 0x04 → r.whole 32 = true →
    Applies .cfgParserProgram s r
      (runItems Dev.cfgParser ((List.range (r.len / 32)).map fun i => (r.target % 512 + i, r.item 32 i)) s.dev)) ∧
  (∀ (s : State) (r : CfgRec) (n : Nat), Loads s r → r.typ = 0x05 → r.target / 2 ^ 28 % 16 < 4 →
    n = stageItemBytes (r.target / 2 ^ 28 % 16) → r.whole n = true →
    Applies .cfgStageConfig s r (runItems (Dev.cfgStage (r.target / 2 ^ 28 % 16))
      ((List.range (r.len / n)).map fun i => (r.target % 2 ^ 15 + i, r.item n i)) s.dev)) ∧
  (∀ (s : State) (r : CfgRec), Loads s r → r.typ = 0x05 → r.target / 2 ^ 28 % 16 = 4 → r.whole 96 = true →
    Applies .cfgStageConfig s r
      (runItems Dev.cfgAssoc ((List.range (r.len / 96)).map fun i => (r.target % 2 ^ 15 + i, r.item 96 i)) s.dev)) ∧
  (∀ (s : State) (r : CfgRec), Loads s r → r.typ = 0x06 → r.len = 4100 →
    Applies .cfgCalendarPage s r (runItems (Dev.cfgCal (r.target % 256) (r.target / 2 ^ 9 % 2))
      (((List.range 1024).map fun t => (r.target / 2 ^ 8 % 2, t, unle (Machine.slice r.payload (4 + 4 * t) 4))) ++
        [(2 + r.target / 2 ^ 8 % 2, 0, unle (Machine.slice r.payload 0 2))]) s.dev)) ∧
  (∀ (s : State) (r : CfgRec) (n : Nat), Loads s r → r.typ = 0x07 → n = unle (Machine.slice r.payload 0 2) % 2 ^ 11 →
    r.len = 16 + 4 * n →
    Applies .cfgGateList s r (s.dev.cfgGates (2 * (r.target % 128) + r.target / 128 % 2) r n)) ∧
  (∀ (s : State) (r : CfgRec), Loads s r → r.typ = 0x08 → r.len = 32 →
    Applies .cfgLaunchEntry s r (s.dev.cfgArm (r.target % 2 ^ 12) (unle r.payload))) ∧
  (∀ (s : State) (r : CfgRec), Loads s r → r.typ = 0x09 → r.whole 4 = true →
    Applies .cfgCellarTable s r
      (runItems Dev.cfgWrite (wordWrites (Reg.SPR_CELLAR_TBL (r.target % 128)) r.payload) s.dev)) ∧
  (∀ (s : State) (r : CfgRec), Loads s r → r.typ = 0x0A → r.len = 16 →
    Applies .cfgPartition s r (runItems Dev.cfgWrite r.partWrites s.dev))

/-- A record that succeeds is counted in GLB_CFG_APPLIED and loading moves to the next head, at a multiple of 4 after the
payload; one that fails is counted in GLB_CFG_FAULTS and logged, and with halt loading ends with cause 4; a record of an
unlisted type is skipped and counted; an end is noted with its cause and place. -/
def Obligations.ConfigEnds : Prop :=
  (∀ (d : Dev) (r : CfgRec),
    d.cfgDone r 0 = { d.setReg Reg.GLB_CFG_APPLIED (d.reg Reg.GLB_CFG_APPLIED + 1#32) with
      boot := { d.boot with pos := d.boot.pos + 8 + 4 * ceilDiv r.len 4 } }) ∧
  (∀ (d : Dev) (r : CfgRec) (n : Nat), n ≠ 0 → ∃ x : Dev,
    x = (d.setRegFld Reg.GLB_CFG_FAULTS 15 0 (min 0xFFFF (fld (d.reg Reg.GLB_CFG_FAULTS) 15 0 + 1))).logNum 0x00 1 0
      (le 4 d.boot.pos ++ le 1 r.typ ++ le 1 n) ∧
    (r.halt = false → d.cfgDone r n = { x with boot := { d.boot with pos := d.boot.pos + 8 + 4 * ceilDiv r.len 4 } }) ∧
    (r.halt = true → d.cfgDone r n = { x with boot := { d.boot with loading := false, endCause := 4, endOff := d.boot.pos } })) ∧
  (∀ (s : State) (c : Nat), Clocked pllMgmt s → s.dev.cfgLoads = true → s.dev.cfgNext = .stop c →
    Yields .cfgEnd s { s.dev with boot := { s.dev.boot with loading := false, endCause := c, endOff := s.dev.boot.pos } }) ∧
  (∀ (s : State) (r : CfgRec), Clocked pllMgmt s → s.dev.cfgLoads = true → s.dev.cfgNext = .record r → cfgType r.typ = false →
    Yields .cfgUnknownRecord s
      { s.dev.setRegFld Reg.GLB_CFG_FAULTS 31 16 (min 0xFFFF (fld (s.dev.reg Reg.GLB_CFG_FAULTS) 31 16 + 1)) with
        boot := { s.dev.boot with pos := s.dev.boot.pos + 8 + 4 * ceilDiv r.len 4 } })

/-- A TSCLK cycle moves device time by the rounded increment and the part of the slew, whose last cycle applies exactly what is left
(log entry 5: DEDUCED); with TIME_FREQ_ADJ 0 and no slew it moves by exactly 1 ns. TIME_FREQ_ADJ, written with no slew in progress
outside LOCKED, and TIME_SLEW take the written word, with clamp latched when the rate or the slew is cut; TIME_CTRL takes its fields
where src_sel and set_valid stay as they are, and TIME_STATUS.indirect follows; a read of TIME_NOW_NS latches the other words of its
instant. -/
def Obligations.TimeBase : Prop :=
  (∀ s : State, Runs s → s.dev.time.running = true →
    Yields .timeBaseTick s { s.dev with time := { s.dev.time with
      now := s.dev.time.now.shift (tickPart s.dev.time.slewRem s.dev.rate).1,
      slewRem := (tickPart s.dev.time.slewRem s.dev.rate).2, tsc := s.dev.time.tsc + 1 } }) ∧
  (∀ s : State, Runs s → s.dev.time.running = true → s.dev.time.slewRem = 0 → s.dev.time.state ≠ .holdover →
    s.dev.reg Reg.TIME_FREQ_ADJ = 0#32 →
    Yields .timeBaseTick s { s.dev with time := { s.dev.time with
      now := s.dev.time.now.shift (2 ^ 48), tsc := s.dev.time.tsc + 1 } }) ∧
  (∀ s : State, Runs s → s.dev.time.running = true → s.dev.time.slewRem ≠ 0 →
    (tickPart s.dev.time.slewRem s.dev.rate).2 = 0 →
    Yields .slewConsumed s { s.dev with time := { s.dev.time with
      now := s.dev.time.now.shift (tickPart s.dev.time.slewRem s.dev.rate).1, slewRem := 0, tsc := s.dev.time.tsc + 1 } }) ∧
  (∀ (s : State) (v : Word), Answers .bar0 Reg.TIME_FREQ_ADJ s → s.dev.time.slewRem = 0 → s.dev.time.state ≠ .locked →
    Yields (.timeFreqAdjWrite v) s (if clampRate v.toInt ≠ v.toInt then
      (s.dev.setReg Reg.TIME_FREQ_ADJ v).latchBit Reg.TIME_STATUS 14 else s.dev.setReg Reg.TIME_FREQ_ADJ v)) ∧
  (∀ (s : State) (v : Word), Answers .bar0 Reg.TIME_SLEW s → slewCut (v.toInt * nsUnit) s.dev.rate = false →
    Yields (.timeSlewWrite v) s { s.dev with time := { s.dev.time with slewRem := v.toInt * nsUnit } }) ∧
  (∀ (s : State) (v : Word), Answers .bar0 Reg.TIME_SLEW s → slewCut (v.toInt * nsUnit) s.dev.rate = true →
    Yields (.timeSlewWrite v) s
      (Dev.latchBit { s.dev with time := { s.dev.time with slewRem := v.toInt * nsUnit } } Reg.TIME_STATUS 14)) ∧
  (∀ (s : State) (v : Word), Answers .bar0 Reg.TIME_CTRL s → fld (s.dev.reg Reg.TIME_CTRL) 2 0 = fld v 2 0 →
    bit (s.dev.reg Reg.TIME_CTRL) 4 = bit v 4 → (s.dev.timeValid = true → s.dev.time.firstValid ≠ none) →
    Yields (.timeCtrlWrite v) s (s.dev.setReg Reg.TIME_CTRL
      ((s.dev.reg Reg.TIME_CTRL &&& ~~~0xFFFF7F17#32) ||| (v &&& 0xFFFF7F17#32))).noteIndirect) ∧
  (∀ (s : State) (p : Path), Answers p Reg.TIME_NOW_NS s →
    Yields (.timeNowRead p) s { s.dev with
      out := .readData (pathCode p) (wd s.dev.time.now.ns) :: s.dev.out,
      time := { s.dev.time with nowSecLo := wd s.dev.time.now.sec,
                                nowHi := wd (s.dev.time.now.subns * 65536 + s.dev.time.now.sec / 2 ^ 32) } })

/-- From source 1 or 2, good samples are counted, and the sixteenth leads from ACQUIRING to LOCKED with time valid; from source 3 the
sample is that of the time link, and none without a valid result (log entry 100: DEDUCED). The loss of the source leads to HOLDOVER
and its end to ACQUIRING, each with its status bit; the sixteenth sample and the loss do not move device time. TIME_TXTS_DATA0
delivers the oldest record of the selected port, latches its other words and removes it. -/
def Obligations.TimeSources : Prop :=
  (∀ (s : State) (off : Int) (v : Bool), Serves s → s.dev.src ≠ 0 → s.dev.src ≠ 3 → off.natAbs ≤ 100 →
    s.dev.time.state = .acquiring → s.dev.time.goodSamples < 15 →
    Yields (.timeSample off v) s { s.dev with time := { s.dev.time with goodSamples := s.dev.time.goodSamples + 1 } }) ∧
  (∀ (s : State) (off : Int) (v : Bool), Serves s → s.dev.src ≠ 0 → s.dev.src ≠ 3 → off.natAbs ≤ 100 →
    s.dev.time.state = .acquiring → s.dev.time.goodSamples = 15 →
    Completes (.timeSample off v) s fun d e => e.time.state = .locked ∧ e.timeValid = true ∧ e.time.now = d.time.now) ∧
  (∀ (s : State) (off : Int) (v : Bool), Serves s → s.dev.src = 3 → s.dev.trellisSample off v = none →
    Yields (.timeSample off v) s s.dev) ∧
  (∀ (s : State) (off : Int) (v : Bool) (x : Int), Serves s → s.dev.src = 3 → s.dev.trellisSample off v = some (x, true) →
    x.natAbs ≤ 25600 → s.dev.time.state = .acquiring → s.dev.time.goodSamples < 15 →
    Yields (.timeSample off v) s { s.dev with time := { s.dev.time with goodSamples := s.dev.time.goodSamples + 1 } }) ∧
  (∀ s : State, Serves s → s.dev.time.state = .locked →
    Completes .timeSourceLoss s fun d e => e.time.state = .holdover ∧ e.timeValid = true ∧
      bit (e.reg Reg.TIME_STATUS) 10 = true ∧ e.time.now = d.time.now) ∧
  (∀ s : State, Serves s → s.dev.time.state = .holdover →
    Completes .holdoverExpire s fun d e => e.time.state = .acquiring ∧ bit (e.reg Reg.TIME_STATUS) 11 = true ∧
      e.timeValid = bit (d.reg Reg.TIME_CTRL) 4) ∧
  (∀ (s : State) (p : Path) (r : TxTs) (rest : List TxTs), Answers p (Reg.TIME_TXTS_DATA 0) s →
    Tbl.get [] s.dev.time.txts (fld (s.dev.reg Reg.TIME_TXTS_SEL) 6 0) = r :: rest →
    Yields (.txtsData0Read p) s { s.dev with
      out := .readData (pathCode p) (wd (2 ^ 31 + r.msgType * 2 ^ 24 + r.domain * 2 ^ 16 + r.seqId)) :: s.dev.out,
      time := { s.dev.time with
        txts := Tbl.set [] s.dev.time.txts (fld (s.dev.reg Reg.TIME_TXTS_SEL) 6 0) rest,
        txtsLatch := [wd r.time.ns, wd r.time.sec, wd (r.time.subns * 65536 + r.time.sec / 2 ^ 32)] } })

/-- An accepted edge of PPS_IN is captured at its corrected time and takes the waiting line; a missing one is shown; the captured time
is read; each whole second of the time that the output follows gives one pulse; a time-of-day line in its window is kept for the next
edge, with a source other than 2, and one that does not parse is shown; the line for the next edge is sent; a leap second that is due
changes TIME_UTC and is logged; an announced offset and leap are copied with PTP selected, and left with another source. Before TIME_UTC
changes, the seconds of the performance bins that have passed are entered with the old offset, and the bin of the moment keeps its edge
(log entry 122: DEDUCED). -/
def Obligations.PulseAndDay : Prop :=
  (∀ (s : State) (rising : Bool) (w : Nat), Locked pllTime s → bit (s.dev.reg Reg.TIME_PPS_CTRL) 0 = true →
    rising ≠ bit (s.dev.reg Reg.TIME_PPS_CTRL) 1 → 100 ≤ w →
    (∀ c, s.dev.time.ppsEdgeTsc = some c → c + 5 * 10 ^ 8 ≤ s.dev.time.tsc) → s.dev.time.state ≠ .locked →
    Yields (.ppsInEdge rising w) s { s.dev with time := { s.dev.time with
      ppsCapt := s.dev.time.now.shift (signed 16 (fld (s.dev.reg Reg.TIME_PPS_CORR) 31 16) * nsUnit),
      ppsEdgeTsc := some s.dev.time.tsc, todApplied := s.dev.time.todPending, todPending := none } }) ∧
  (∀ s : State, Clocked pllTime s → bit (s.dev.reg Reg.TIME_PPS_CTRL) 0 = true →
    Yields .ppsMissingTimeout s (s.dev.latchBit Reg.TIME_STATUS 12)) ∧
  (∀ (s : State) (p : Path), Answers p Reg.TIME_PPS_CAPT_NS s →
    Yields (.ppsCaptRead p) s { s.dev with
      out := .readData (pathCode p) (wd s.dev.time.ppsCapt.ns) :: s.dev.out,
      time := { s.dev.time with ppsCaptSec := wd s.dev.time.ppsCapt.sec } }) ∧
  (∀ s : State, Locked pllTime s → s.dev.ppsDrives = true → s.dev.ppsTime.sec ≠ s.dev.time.ppsOutSec →
    Yields .ppsOutEdge s { s.dev with
      time := { s.dev.time with ppsOutSec := s.dev.ppsTime.sec },
      out := .ppsPulse (min 999999 (fld (s.dev.reg Reg.TIME_PPS_CTRL) 31 8)) ::
        .pin pinPps (!bit (s.dev.reg Reg.TIME_PPS_CTRL) 3) :: s.dev.out }) ∧
  (∀ s : State, Locked pllTime s → s.dev.ppsTime.sec = s.dev.time.ppsOutSec → Yields .ppsOutEdge s s.dev) ∧
  (∀ (s : State) (line : Bytes) (i : TodInfo) (c : Nat), Locked pllMgmt s → todParse line = some i →
    s.dev.time.ppsEdgeTsc = some c → c + 10 ^ 8 ≤ s.dev.time.tsc → s.dev.time.tsc ≤ c + 9 * 10 ^ 8 → s.dev.src ≠ 2 →
    Yields (.todLineReceive line) s { s.dev with time := { s.dev.time with todPending := some i } }) ∧
  (∀ (s : State) (line : Bytes), Locked pllMgmt s → todParse line = none →
    Yields (.todLineReceive line) s (s.dev.latchBit Reg.TIME_STATUS 13)) ∧
  (∀ s : State, Clocked pllMgmt s → bit (s.dev.reg Reg.TIME_PPS_CTRL) 4 = true → s.dev.ppsDrives = true →
    Yields .todTxSend s (s.dev.emit (.todLine (todLineFor
      { sec := s.dev.ppsTime.sec + 1, taiUtc := signed 16 (fld (s.dev.reg Reg.TIME_UTC) 15 0),
        flags := b2n (s.dev.time.state = .locked) + 2 * b2n (bit (s.dev.reg Reg.TIME_UTC) 16) })))) ∧
  (∀ (s : State) (old new : Nat), Clocked pllTime s → s.dev.leapDue = true → old = fld (s.dev.reg Reg.TIME_UTC) 15 0 →
    new = unsignedOf 16 (signed 16 old + (if bit (s.dev.reg Reg.TIME_UTC) 17 then -1 else 1)) →
    Yields .leapSecondApply s (s.dev.keep (((s.dev.pmRollAll.setReg Reg.TIME_UTC (wd new)).pmRebase).logNum 0x01 1 0 (le 2 old ++ le 2 new)))) ∧
  (∀ (s : State) (off : BitVec 16), Serves s → s.dev.src = 1 →
    Yields (.announceUtcUpdate off false false) s (s.dev.keep (s.dev.pmRollAll.setRegFld Reg.TIME_UTC 15 0 off.toNat))) ∧
  (∀ (s : State) (off : BitVec 16) (neg : Bool), Serves s → s.dev.src = 1 →
    Yields (.announceUtcUpdate off (!neg) neg) s
      (s.dev.keep ((s.dev.pmRollAll.setRegFld Reg.TIME_UTC 15 0 off.toNat).setRegFld Reg.TIME_UTC 17 16 (1 + 2 * b2n neg)))) ∧
  (∀ (s : State) (off : BitVec 16) (a b : Bool), Serves s → s.dev.src ≠ 1 → Yields (.announceUtcUpdate off a b) s s.dev)

/-- The output of a lane that loses lock is held low, unless its squelch is disabled, and resumes when the lane has lock: the lane's LRX
divided by N where it is enabled and gives at most 200 MHz, else low. An ESMC frame may select another lane for an output, which then
follows it. -/
def Obligations.SyncE : Prop :=
  (∀ (s : State) (o : Fin 2), Runs s → bit (s.dev.reg (syncECtrl o)) 16 = true → bit (s.dev.reg (syncECtrl o)) 17 = false →
    Completes (.synceSquelch o) s fun d e => Tbl.get false e.time.squelch o = true ∧ Tbl.get none e.time.syncE o = none ∧
      e.out = (if Tbl.get none d.time.syncE o = none then d.out else .pin (pinSyncE o) false :: d.out) ∧
      e = { d with time := { d.time with squelch := e.time.squelch, syncE := e.time.syncE }, out := e.out }) ∧
  (∀ (s : State) (o : Fin 2), Runs s →
    Completes (.synceResume o) s fun d e => Tbl.get false e.time.squelch o = false ∧
      Tbl.get none e.time.syncE o = (if bit (d.reg (syncECtrl o)) 16 && d.syncEInRange o then
        some (fld (d.reg (syncECtrl o)) 6 0, fld (d.reg (syncECtrl o)) 15 8 + 1) else none) ∧
      e = { d with time := { d.time with squelch := e.time.squelch, syncE := e.time.syncE }, out := e.out }) ∧
  (∀ (s : State) (port : Fin 128) (o : Fin 2) (lane : Fin 128), Serves s →
    Yields (.esmcFrame port (some (o, lane))) s ((s.dev.setRegFld (syncECtrl o) 6 0 lane).syncEFollow o)) ∧
  (∀ (s : State) (port : Fin 128), Serves s → Yields (.esmcFrame port none) s s.dev)

/-- The entry that is next to act performs the action of its kind on its target and is DONE. -/
def Obligations.LaunchActions : Prop :=
  (∀ (s : State) (x : BitVec 12), LaunchReady 0x01 x.toNat s → ActsBy (.vintageCommit x) s x.toNat fun d =>
    d.keep (d.commit ((s.dev.entry x.toNat).target % 16) (s.dev.entry x.toNat).origin)) ∧
  (∀ (s : State) (x : BitVec 12), LaunchReady 0x02 x.toNat s → ActsBy (.calendarSwitch x) s x.toNat fun d =>
    d.keep (d.calendarSwitch (d.entry x.toNat))) ∧
  (∀ (s : State) (x : BitVec 12), LaunchReady 0x03 x.toNat s → ActsBy (.gateSwap x) s x.toNat fun d =>
    d.keep (d.gateSwap ((s.dev.entry x.toNat).target % 128) ((s.dev.entry x.toNat).arg % 2))) ∧
  (∀ (s : State) (x : BitVec 12), LaunchReady 0x04 x.toNat s → ActsBy (.harvest x) s x.toNat fun d =>
    d.keep (d.harvest (d.entry x.toNat) false)) ∧
  (∀ (s : State) (x : BitVec 12), LaunchReady 0x05 x.toNat s → ActsBy (.meterProfile x) s x.toNat fun d =>
    d.keep (d.mtrBind ((s.dev.entry x.toNat).target % 2 ^ 17) ((s.dev.entry x.toNat).arg % 2 ^ 16))) ∧
  (∀ (s : State) (x : BitVec 12), LaunchReady 0x06 x.toNat s → ActsBy (.shaperProfile x) s x.toNat fun d =>
    d.keep (d.shaperProfile ((s.dev.entry x.toNat).target % 2 ^ 20) ((s.dev.entry x.toNat).arg % 2 ^ 16))) ∧
  (∀ (s : State) (x : BitVec 12), LaunchReady 0x07 x.toNat s → ActsBy (.dramRetrain x) s x.toNat fun d =>
    d.keep (d.retrain (nfld (s.dev.entry x.toNat).target 6 4) ((s.dev.entry x.toNat).target % 16) (s.dev.entry x.toNat).arg)) ∧
  (∀ (s : State) (x : BitVec 12), LaunchReady 0x08 x.toNat s → ActsBy (.mirrorStart x) s x.toNat fun d =>
    d.keep (d.mirror ((s.dev.entry x.toNat).target % 64) true)) ∧
  (∀ (s : State) (x : BitVec 12), LaunchReady 0x09 x.toNat s → ActsBy (.mirrorStop x) s x.toNat fun d =>
    d.keep (d.mirror ((s.dev.entry x.toNat).target % 64) false)) ∧
  (∀ (s : State) (x : BitVec 12), LaunchReady 0x0A x.toNat s → ActsBy (.regWrite x) s x.toNat fun d =>
    (d.busRmw .launch ((s.dev.entry x.toNat).target % 2 ^ 26) (wd ((s.dev.entry x.toNat).arg / 2 ^ 32))
      (wd (s.dev.entry x.toNat).arg)).2) ∧
  (∀ (s : State) (x : BitVec 12), LaunchReady 0x0F x.toNat s → ActsBy (.mark x) s x.toNat fun d =>
    d.latchBit Reg.LNCH_STATUS 7)

/-- An ARM of an index below 3584 that no check refuses makes the staged entry ARMED under its index, one that a check refuses gives its
result code and sets cmd_refused; a CANCEL that no check refuses makes the entry CANCELLED; READ stages its 256 bits; a LAUNCH of a
command ring runs as the front entry says. LNCH_CTRL.enable is written; relative entries receive their instant; the engine sends the
first eligible entry whose target takes it, when no eligible one waits for room. With no launch entry, a step of device time sets it,
ends the slew and sets stepped, or is refused with step_refused. -/
def Obligations.LaunchList : Prop :=
  (∀ (s : State) (p : Path) (x : BitVec 12), Answers p Reg.LNCH_CMD s → p ≠ .ring → x.toNat < 3584 →
    s.dev.armFails x.toNat (LEntry.ofBits s.dev.lnchStage) (p == .mgmt) = 0 →
    Yields (.launchArm p x) s ((s.dev.setEntry x.toNat
      { LEntry.ofBits s.dev.lnchStage with st := .armed, origin := b2n (p == .mgmt) }).lnchResult 0)) ∧
  (∀ (s : State) (p : Path) (x : BitVec 12) (r : Nat), Answers p Reg.LNCH_CMD s → p ≠ .ring → r ≠ 0 →
    s.dev.armFails x.toNat (LEntry.ofBits s.dev.lnchStage) (p == .mgmt) = r →
    Yields (.launchArm p x) s ((s.dev.setReg Reg.LNCH_CMD (put r 28)).latchBit Reg.LNCH_STATUS 1)) ∧
  (∀ (s : State) (p : Path) (x : BitVec 12), Answers p Reg.LNCH_CMD s → p ≠ .ring → s.dev.cancelFails x.toNat (p == .mgmt) = 0 →
    Yields (.launchCancel p x) s
      ((s.dev.modEntry x.toNat fun e => { e with st := .cancelled, due := false }).lnchResult 0)) ∧
  (∀ (s : State) (p : Path) (x : BitVec 12), Answers p Reg.LNCH_CMD s → p ≠ .ring →
    Yields (.launchRead p x) s ((s.dev.setLnchStage (s.dev.entry x.toNat).bits).lnchResult 0)) ∧
  (∀ (s : State) (x : BitVec 12) (q : Nat) (e : SqEnt), Runs s → s.dev.stopped [pllHost, pllTime] = none →
    s.dev.launchEnt 1 x.toNat = some (q, e) →
    Yields (.launchArm .ring x) s (s.dev.keep (s.dev.launchRun q e))) ∧
  (∀ (s : State) (x : BitVec 12) (q : Nat) (e : SqEnt), Runs s → s.dev.stopped [pllHost, pllTime] = none →
    s.dev.launchEnt 2 x.toNat = some (q, e) →
    Yields (.launchCancel .ring x) s (s.dev.keep (s.dev.launchRun q e))) ∧
  (∀ (s : State) (x : BitVec 12) (q : Nat) (e : SqEnt), Runs s → s.dev.stopped [pllHost, pllTime] = none →
    s.dev.launchEnt 3 x.toNat = some (q, e) →
    Yields (.launchRead .ring x) s (s.dev.keep (s.dev.launchRun q e))) ∧
  (∀ (s : State) (v : Word), Answers .bar0 Reg.LNCH_CTRL s → Yields (.lnchEnableWrite v) s (s.dev.writeRw Reg.LNCH_CTRL 1#32 v)) ∧
  (∀ (s : State) (t : DevTime), Clocked pllTime s → s.dev.time.firstValid = some t →
    Yields .launchRelativeRelease s { s.dev with lnch :=
      { s.dev.lnch with entries := s.dev.lnch.entries.map fun (p : Nat × LEntry) => (p.1, p.2.release t) } }) ∧
  (∀ (s : State) (i : Nat), Runs s → bit (s.dev.reg Reg.LNCH_CTRL) 0 = true → s.dev.clocked pllTime = true →
    s.dev.time.running = true → (s.dev.firstEntry fun e => s.dev.eligible e && s.dev.fifoFull e) = none →
    (s.dev.firstEntry fun e => s.dev.eligible e && !s.dev.fifoFull e) = some i →
    s.dev.unreceivable (s.dev.entry i) = false → s.dev.time.now.nsTotal < (s.dev.entry i).instant →
    Yields .launchDispatch s (s.dev.keepBus (s.dev.modEntry i fun e => { e with st := .dispatched }).settleDue)) ∧
  (∀ (s : State) (t : DevTime), Answers .bar0 Reg.TIME_STEP_CMD s → s.dev.stepTarget false = some t → s.dev.lnch.entries = [] →
    Completes .timeStepSet s fun d e => e.time.now = t ∧ e.time.slewRem = 0 ∧ bit (e.reg Reg.TIME_STATUS) 9 = true) ∧
  (∀ (s : State) (t : DevTime), Answers .bar0 Reg.TIME_STEP_CMD s → s.dev.stepTarget true = some t → s.dev.lnch.entries = [] →
    Completes .timeStepAdd s fun d e => e.time.now = t ∧ e.time.slewRem = 0 ∧ bit (e.reg Reg.TIME_STATUS) 9 = true) ∧
  (∀ s : State, Answers .bar0 Reg.TIME_STEP_CMD s → s.dev.stepTarget false = none → s.dev.lnch.entries = [] →
    Yields .timeStepSet s (s.dev.latchBit Reg.TIME_STATUS 15))

/-- A worker that may arm a distributed entry, from the manager that it obeys, makes it HELD and answers ACK; it answers NACK with the
reason of Table 12.4 otherwise, and ignores and counts the ARM of another device; the manager repeats ARM, notes answers and, at the
deadline, cancels; a confirmation of the obeyed manager makes the worker's HELD entries ARMED; a worker discards an entry that nobody
confirmed by 20 µs before its instant. The 32 bytes of an ARM message are laid out as in log entry 24 (DEDUCED). -/
def Obligations.DistributedLaunch : Prop :=
  (∀ (s : State) (m : Nat × Bytes) (d1 : Dev) (x i : Nat), Clocked pllFabric s → s.dev.takeInbox 1 none = (some m, d1) →
    x = unbe (Machine.slice m.2 0 32) → i = x % 2 ^ 16 → d1.fromManager m.1 = true → (d1.entry i).st ≠ .held →
    d1.armRefused i = 0 →
    Yields .armMessageReceive s
      ((d1.setEntry i { LEntry.ofBits x with st := .held, origin := 2, claim := d1.fab.obeyed }).sendMsg 2 m.1
        (answerBytes true false i 0))) ∧
  (∀ (s : State) (m : Nat × Bytes) (d1 : Dev) (x i r : Nat), Clocked pllFabric s → s.dev.takeInbox 1 none = (some m, d1) →
    x = unbe (Machine.slice m.2 0 32) → i = x % 2 ^ 16 → d1.fromManager m.1 = true → (d1.entry i).st ≠ .held →
    d1.armRefused i = r → r ≠ 0 →
    Yields .armMessageReceive s (d1.sendMsg 2 m.1 (answerBytes false false i r))) ∧
  (∀ (s : State) (m : Nat × Bytes) (d1 : Dev), Clocked pllFabric s → s.dev.takeInbox 1 none = (some m, d1) →
    d1.fromManager m.1 = false → Yields .armMessageReceive s (s.dev.keep d1.foreignMsg)) ∧
  (∀ s : State, Clocked pllFabric s → Yields .armRepeat s (s.dev.keep s.dev.repeatArms) ∧
    s.dev.repeatArms = { s.dev with fab := s.dev.repeatArms.fab }) ∧
  (∀ (s : State) (m : Nat × Bytes) (d1 : Dev) (x : Nat), Clocked pllFabric s → s.dev.takeInbox 2 none = (some m, d1) →
    (m.2.getD 1 0).toNat ≠ 1 → x = unbe (Machine.slice m.2 2 2) → d1.awaits x = true →
    Yields .answerReceive s ((d1.modEntry x fun e =>
      { e with waiting := e.waiting.filter (· ≠ m.1), nacked := e.nacked || !decide ((m.2.getD 0 0).toNat = 1) }).confirmEntry x)) ∧
  (∀ (s : State) (n : Fin 256), Clocked pllFabric s → (s.dev.link n).bConfirm = true → (s.dev.link n).bRole = 2 →
    s.dev.fromManager (s.dev.link n).nbrDev = true → (s.dev.link n).bClaim = s.dev.fab.obeyed →
    Completes (.confirmReceive n) s fun d e => e = { d with lnch := e.lnch } ∧
      ∀ b < 32, (d.link n).bMask.testBit b = true → (d.entry (3584 + 32 * (d.link n).bGroup + b)).st = .held →
        (d.entry (3584 + 32 * (d.link n).bGroup + b)).origin = 2 →
        (e.entry (3584 + 32 * (d.link n).bGroup + b)).st = .armed) ∧
  (∀ (s : State) (x : BitVec 12), Clocked pllTime s → 3584 ≤ x.toNat → (s.dev.entry x.toNat).st = .held →
    (s.dev.entry x.toNat).origin = 2 → (s.dev.entry x.toNat).instant ≤ s.dev.time.now.nsTotal + 20000 →
    Yields (.distConfirmDeadline x) s (if s.dev.awaits x.toNat then
      (s.dev.modEntry x.toNat fun e => { e with st := .cancelled }).latchBit Reg.LNCH_STATUS 5
      else (s.dev.discardEntry x.toNat).latchBit Reg.LNCH_STATUS 6))

/-- An enable that R88 allows leads to SIGNAL_WAIT with the configuration as read, one that it refuses shows the reason and
REFUSED; a port without a link is DISABLED at once; signal, auto-negotiation, lock and debounce lead from state to state, lock only with
the lanes in their true polarity (log entry 103: DEDUCED); lock lost in UP is held off with the received pause cleared; the end of
holdoff declares the port down and starts its flush, with which it waits for signal again; the flush ends when no packet of the port is
left on its way to the MAC. The transmitter follows each state: electrical idle, the base page, Remote Fault, frames or idles. -/
def Obligations.PortLink : Prop :=
  (∀ (s : State) (p : Fin 128), Answers .bar0 (Reg.PG_PORT_CTRL p) s → bit (s.dev.reg (Reg.PG_PORT_CTRL p)) 0 = false → s.dev.refuseReason p = 0 →
    Completes (.portEnable p) s fun d e => (e.port p).st = .signalWait ∧ (e.port p).tx = .remoteFault ∧
      (e.port p).cfg = d.reg (Reg.PG_PORT_CFG p) ∧
      (e.port p).mode = fld (d.reg (Reg.PG_PORT_CFG p)) 3 0 ∧ (∀ q, q ≠ p.val → e.port q = d.port q) ∧
      RegsBut [Reg.PG_PORT_CTRL p] d e ∧
      e = { d with regs := e.regs, ports := e.ports, out := e.out, time := { d.time with syncE := e.time.syncE } }) ∧
  (∀ (s : State) (p : Fin 128) (r : Nat), Answers .bar0 (Reg.PG_PORT_CTRL p) s → bit (s.dev.reg (Reg.PG_PORT_CTRL p)) 0 = false →
    s.dev.refuseReason p = r → r ≠ 0 →
    Completes (.portEnable p) s fun d e => (e.port p).st = .refused ∧ (e.port p).tx = .electricalIdle ∧ (e.port p).reason = r ∧
      bit (e.reg (Reg.PG_PORT_STATE p)) 8 = true ∧ (∀ q, q ≠ p.val → e.port q = d.port q) ∧
      e = { d with regs := e.regs, ports := e.ports, out := e.out, time := { d.time with syncE := e.time.syncE } }) ∧
  (∀ (s : State) (p : Fin 128), Answers .bar0 (Reg.PG_PORT_CTRL p) s → bit (s.dev.reg (Reg.PG_PORT_CTRL p)) 0 = true →
    (s.dev.port p).st ≠ .up → (s.dev.port p).st ≠ .holdoff → (s.dev.port p).st ≠ .down →
    Completes (.portDisable p) s fun d e => e.port p = { d.port p with st := .disabled, tx := .electricalIdle } ∧
      (∀ q, q ≠ p.val → e.port q = d.port q) ∧ RegsBut [Reg.PG_PORT_CTRL p] d e ∧
      e = { d with regs := e.regs, ports := e.ports, out := e.out }) ∧
  (∀ (s : State) (p : Fin 128), Clocked pllLine s → (s.dev.port p).st = .signalWait ∨ (s.dev.port p).st = .down →
    ((s.dev.port p).flushing || !s.dev.vint.started) = true →
    Yields (.portSignalDetect p) s (s.dev.setPort p { s.dev.port p with st := .signalWait })) ∧
  (∀ (s : State) (p : Fin 128), Clocked pllLine s → (s.dev.port p).st = .signalWait ∨ (s.dev.port p).st = .down →
    ((s.dev.port p).flushing || !s.dev.vint.started) = false →
    Yields (.portSignalDetect p) s ((s.dev.setPort p { s.dev.port p with st :=
      if (s.dev.port p).anEn then .an else .lockWait }).lineFollow p)) ∧
  (∀ (s : State) (p : Fin 128) (pg : BasePage) (ack : Bool), Clocked pllLine s → (s.dev.port p).st = .an → pageFits pg ack = true →
    Yields (.anResolved p pg ack) s ((s.dev.modPort p fun x => { x with st := .lockWait }).lineFollow p)) ∧
  (∀ (s : State) (p : Fin 128), Clocked pllLine s → (s.dev.port p).st = .an →
    Yields (.anFail p) s ((((s.dev.modPort p fun x => { x with st := .signalWait }).lineFollow p).latchBit
      (Reg.PG_PORT_STATE p) 9).inc (bankPort p) 31)) ∧
  (∀ (s : State) (p : Fin 128) (pg : BasePage) (ack : Bool), Clocked pllLine s → (s.dev.port p).st = .an → pageFits pg ack = false →
    Yields (.anResolved p pg ack) s ((((s.dev.modPort p fun x => { x with st := .signalWait }).lineFollow p).latchBit
      (Reg.PG_PORT_STATE p) 9).inc (bankPort p) 31)) ∧
  (∀ (s : State) (p : Fin 128) (sw : BitVec 4), Clocked pllLine s → s.dev.portLaneOut p = false → s.dev.polarityOk p sw = true →
    (s.dev.port p).st = .lockWait →
    Yields (.portLockAcquired p sw) s (((s.dev.modPort p fun x => { x with swapped := sw }).modPort p fun x =>
      { x with st := .debounce }).lineFollow p)) ∧
  (∀ (s : State) (p : Fin 128), Clocked pllLine s → (s.dev.port p).st = .lockWait →
    Yields (.portLockTimeout p) s ((s.dev.modPort p fun x => { x with st := .signalWait }).lineFollow p)) ∧
  (∀ (s : State) (p : Fin 128), Clocked pllLine s → (s.dev.port p).st = .debounce ∨ (s.dev.port p).st = .holdoff →
    Yields (.portDebounceExpire p) s
      (((s.dev.setPort p { s.dev.port p with st := .up }).latchBit (Reg.PG_PORT_STATE p) 11).lineFollow p)) ∧
  (∀ (s : State) (p : Fin 128), Clocked pllLine s → (s.dev.port p).st = .up → (s.dev.port p).txFifo = [] →
    Completes (.portLockLoss p false) s fun d e => e.port p = { d.port p with
        st := .holdoff, paused := List.replicate 8 false, wdog := List.replicate 8 false, tx := .idles } ∧
      (∀ q, q ≠ p.val → e.port q = d.port q) ∧ e = { d with ports := e.ports, out := e.out }) ∧
  (∀ (s : State) (p : Fin 128), Clocked pllLine s → (s.dev.port p).st = .up → (s.dev.port p).txFifo ≠ [] →
    Completes (.portLockLoss p true) s fun d e => (e.port p).st = .holdoff ∧ (e.port p).tx = .idles ∧
      (e.port p).paused = List.replicate 8 false ∧ (e.port p).txFifo = (d.port p).txFifo.drop 1 ∧
      bit (e.reg (Reg.PG_PORT_STATE p)) 13 = true ∧ (∀ q, q ≠ p.val → e.port q = d.port q)) ∧
  (∀ (s : State) (p : Fin 128), Clocked pllLine s → (s.dev.port p).st = .holdoff →
    Completes (.portHoldoffExpire p) s fun d e => (e.port p).st = .signalWait ∧ (e.port p).flushing = true ∧
      (e.port p).txFifo = [] ∧ (e.port p).tx = .remoteFault) ∧
  (∀ (s : State) (p : Fin 128), Clocked pllLine s → s.dev.portHas p = false →
    Yields (.portFlushComplete p) s (s.dev.modPort p fun x => { x with flushing := false })) ∧
  (∀ (s : State) (p : Fin 128), Clocked pllLine s → s.dev.portHas p = true → Yields (.portFlushComplete p) s s.dev)

/-- A PAUSE frame with quanta stops every class of a port in PAUSE mode whose watchdog is not active, one with 0 releases them, each
counted; the quanta run out; the watchdog releases a paused class, with its status bit, its count and an event, and ends; an owed frame
leaves and is counted with the transmitted frames, unless an xoff of 0 disables sending; XOFF is owed again while the occupancy stays
above xon and sending is enabled. -/
def Obligations.FlowControl : Prop :=
  (∀ (s : State) (p : Fin 128) (frame : Bytes), Locked pllLine s → (s.dev.port p).st = .up → isPause frame = true →
    (s.dev.port p).fcMode = 1 → (∀ n < 8, (s.dev.port p).wdog.getD n false = false) →
    Yields (.pauseFrameReceive p frame) s ((s.dev.setPort p { s.dev.port p with
      paused := List.replicate 8 (decide (winWord frame 16 ≠ 0)) }).inc (bankPort p) 10)) ∧
  (∀ (s : State) (p : Fin 128) (n : Fin 8), Clocked pllLine s →
    Yields (.pauseQuantaExpire p n) s (s.dev.modPort p fun x => { x with paused := setPrio x.fcMode x.paused n false })) ∧
  (∀ (s : State) (p : Fin 128) (n : Fin 8), Clocked pllLine s → (s.dev.port p).paused.getD n false = true →
    (s.dev.port p).wdog.getD n false = false → fld (s.dev.reg (Reg.PG_FC_WDOG p)) 15 0 ≠ 0 →
    Yields (.pauseWdogTrip p n) s ((((s.dev.setPort p { s.dev.port p with
        paused := setPrio (s.dev.port p).fcMode (s.dev.port p).paused n false,
        wdog := setPrio (s.dev.port p).fcMode (s.dev.port p).wdog n true }).latchBit (Reg.PG_PORT_STATE p) 10).inc
      (bankPort p) 29).logPort p 10)) ∧
  (∀ (s : State) (p : Fin 128) (n : Fin 8), Clocked pllLine s →
    Yields (.pauseWdogRecover p n) s (s.dev.modPort p fun x => { x with wdog := setPrio x.fcMode x.wdog n false })) ∧
  (∀ (s : State) (p : Fin 128) (n : Nat) (xo : Bool) (rest : List (Nat × Bool)), Clocked pllLine s →
    (s.dev.port p).st = .up → (s.dev.port p).fcOwed = (n, xo) :: rest →
    fld (s.dev.reg (Reg.PG_FC_THR p n)) 31 16 ≠ 0 →
    Yields (.fcFrameSend p) s (((((s.dev.setPort p { s.dev.port p with fcOwed := rest }).inc (bankPort p) 16).bump (bankPort p)
      18 64).inc (bankPort p) 20).inc (bankPort p) (if (s.dev.port p).fcMode = 1 then 22 else 23) |>.emit
        (.fcFrame p (if (s.dev.port p).fcMode = 1 then 0 else 2 ^ n)
          (if xo then fld (s.dev.reg (Reg.PG_FC_CFG p)) 15 0 else 0)))) ∧
  (∀ (s : State) (p : Fin 128) (n : Nat) (xo : Bool) (rest : List (Nat × Bool)), Clocked pllLine s →
    (s.dev.port p).st = .up → (s.dev.port p).fcOwed = (n, xo) :: rest → fld (s.dev.reg (Reg.PG_FC_THR p n)) 31 16 = 0 →
    Yields (.fcFrameSend p) s (s.dev.setPort p { s.dev.port p with fcOwed := rest })) ∧
  (∀ (s : State) (p : Fin 128) (n : Fin 8), Clocked pllLine s → (s.dev.port p).xoff.getD n false = true →
    fld (s.dev.reg (Reg.PG_FC_THR p n)) 31 16 ≠ 0 →
    (fcClass (s.dev.port p).fcMode (s.dev.reg (Reg.PG_FC_CFG p)) n).isSome = true →
    fld (s.dev.reg (Reg.PG_FC_CFG p)) 15 0 ≠ 0 →
    256 * fld (s.dev.reg (Reg.PG_FC_THR p n)) 15 0 < fcOcc (s.dev.port p).fcMode (s.dev.port p).occ n →
    Yields (.fcXoffRepeat p n) s
      (s.dev.setPort p { s.dev.port p with fcOwed := (s.dev.port p).fcOwed ++ [(n.val, true)] }))

/-- On a port that is UP with its lanes in their true polarity (log entry 103: DEDUCED), the FEC codewords and errored blocks met are
counted; a frame too short, too long or with a bad FCS is counted and goes no further; a good one is counted and steered, and of one
that is still coming the head is; in cellar mode it is forwarded by cellar forwarding; the next frame of the MAC's FIFO leaves,
timestamped and counted, on the lanes of its port with their polarity. -/
def Obligations.LineFrames : Prop :=
  (∀ (s : State) (p : Fin 128) (frame : Bytes) (a b c : Nat), Locked pllLine s → (s.dev.port p).st = .up →
    s.dev.polarityOk p (s.dev.port p).swapped = true → frame.length + 4 < 64 →
    Yields (.lineFrameReceive p frame true false a b c) s ((s.dev.pcsCount p a b c).inc (bankPort p) 7)) ∧
  (∀ (s : State) (p : Fin 128) (frame : Bytes) (a b c : Nat), Locked pllLine s → (s.dev.port p).st = .up →
    s.dev.polarityOk p (s.dev.port p).swapped = true → 64 ≤ frame.length + 4 →
    s.dev.maxFrame p < frame.length + 4 →
    Yields (.lineFrameReceive p frame true false a b c) s ((s.dev.pcsCount p a b c).inc (bankPort p) 8)) ∧
  (∀ (s : State) (p : Fin 128) (frame : Bytes) (a b c : Nat), Locked pllLine s → (s.dev.port p).st = .up →
    s.dev.polarityOk p (s.dev.port p).swapped = true → 64 ≤ frame.length + 4 →
    frame.length + 4 ≤ s.dev.maxFrame p →
    Yields (.lineFrameReceive p frame false false a b c) s ((s.dev.pcsCount p a b c).inc (bankPort p) 6)) ∧
  (∀ (s : State) (p : Fin 128) (frame : Bytes) (n a b c : Nat), Locked pllLine s → (s.dev.port p).st = .up →
    s.dev.polarityOk p (s.dev.port p).swapped = true →
    64 ≤ frame.length + 4 → frame.length + 4 ≤ s.dev.maxFrame p → isPause frame = false → isPfc frame = false →
    s.dev.spr.cellar = false → s.dev.holder (p / 16) = some n →
    Yields (.lineFrameReceive p frame true false a b c) s (s.dev.keep (((s.dev.pcsCount p a b c).countRx p frame).steer p frame false)) ∧
    Completes (.lineFrameReceive p frame true false a b c) s fun d e =>
      ∃ k : Pkt, (e.slice n).ingress = (d.slice n).ingress ++ [k] ∧ k.frame = frame ∧ k.port = p ∧ k.slice = n) ∧
  (∀ (s : State) (p : Fin 128) (frame : Bytes) (n a b c : Nat), Locked pllLine s → (s.dev.port p).st = .up →
    s.dev.polarityOk p (s.dev.port p).swapped = true → (s.dev.port p).rxOpen = none → s.dev.spr.cellar = false →
    isPause frame = false → isPfc frame = false → s.dev.holder (p / 16) = some n →
    Yields (.lineFrameReceive p frame true true a b c) s (s.dev.keep (((s.dev.pcsCount p a b c).steer p frame true).openFrame p
      (some (some (s.dev.pcsCount p a b c).newUid.1))))) ∧
  (∀ (s : State) (p : Fin 128) (frame : Bytes), Locked pllLine s → (s.dev.port p).st = .up →
    s.dev.polarityOk p (s.dev.port p).swapped = true → s.dev.spr.cellar = true →
    64 ≤ frame.length + 4 → frame.length + 4 ≤ s.dev.maxFrame p → isPause frame = false → isPfc frame = false →
    Yields (.cellarFrameReceive p frame) s (s.dev.keep ((s.dev.countRx p frame).steer p frame false))) ∧
  (∀ (s : State) (p : Fin 128) (k : Pkt), Clocked pllLine s → (s.dev.port p).st = .up → (s.dev.port p).nextTx = some k →
    Yields (.lineFrameTransmit p) s (s.dev.keep ((s.dev.setPort p { s.dev.port p with
      txFifo := (s.dev.port p).txFifo.filter fun j => j.seq ≠ k.seq }).sendLine p k))) ∧
  (∀ (s : State) (p : Fin 128) (k : Pkt), Clocked pllLine s → (s.dev.port p).st = .up → (s.dev.port p).nextTx = some k →
    k.ptp = 0 → (k.frame.getD 0 0).getLsbD 0 = false → k.stomp = false → s.dev.spr.cellar = false →
    Completes (.lineFrameTransmit p) s fun d e => e.out = .frame p k.frame false ((d.portLanes p).map fun l => (l, d.txInvert l)) :: d.out ∧
      (e.port p).txFifo = (d.port p).txFifo.filter (fun j => j.seq ≠ k.seq) ∧
      e = { d with ports := e.ports, cnt := e.cnt, out := e.out })

/-- A slice that runs takes the next packet of its ingress port, once the press window has come, into an issue slot and into its press,
which hands it to the order buffer, and counts the slot with what holds it while the buffer is full; the stages and the resolver work on
the next packet, and its DRAM reads are asked for; a response is that of the oldest read, from the copy that it takes; reloads and
refetches take their entry off the list that waits for them; a resolved packet with no earlier one of its port is handed off while its
channel has room; the edit stages edit the next packet, and one whose vintage is not live is dropped and counted as stale. -/
def Obligations.SlicePipeline : Prop :=
  (∀ (s : State) (n : Fin 9) (bad : List (Fin 512)) (k : Pkt) (rest : List Pkt), Clocked pllF s →
    (s.dev.slice n).runs = true → (s.dev.slice n).ingress = k :: rest → k.windowReady = true →
    (s.dev.slice n).order.length < 512 → k.pass = 0 →
    Yields (.ingressAccept n bad) s (s.dev.keep
      (((s.dev.slot n 0).modSlice n fun x => { x with ingress := rest }).enterPress n k (bad.map fun e => e.val)))) ∧
  (∀ (s : State) (n : Fin 9) (bad : List (Fin 512)) (k : Pkt) (rest : List Pkt), Clocked pllF s →
    (s.dev.slice n).runs = true → (s.dev.slice n).ingress = k :: rest → k.windowReady = true →
    512 ≤ (s.dev.slice n).order.length → Yields (.ingressAccept n bad) s (s.dev.slot n (s.dev.slice n).heldClass)) ∧
  (∀ (s : State) (n : Fin 9) (bad : List (Fin 512)), Clocked pllF s → (s.dev.slice n).ingress = [] →
    Yields (.ingressAccept n bad) s (s.dev.slot n 4)) ∧
  (∀ (s : State) (n : Fin 9) (e : Fin 512), Clocked pllF s → (s.dev.slice n).pressReload.contains e.val = true →
    Yields (.pressEntryReload n e) s
      ((s.dev.modSlice n fun x => { x with pressReload := x.pressReload.filter (· != e.val) }).slot n 2)) ∧
  (∀ (s : State) (n : Fin 9) (ecc : DramEcc), Clocked pllF s → s.dev.lookupOut n = none →
    Yields (.dramLookupResponse n ecc) s s.dev) ∧
  (∀ (s : State) (n : Fin 9) (ecc : DramEcc) (l : Lookup), Clocked pllF s → s.dev.lookupOut n = some l →
    s.dev.writeWaits rTable l.line = none → s.dev.lookupCopy l = none →
    Yields (.dramLookupResponse n ecc) s (s.dev.keep (s.dev.holdLookup n false none))) ∧
  (∀ (s : State) (n : Fin 9) (ecc : DramEcc) (l : Lookup) (k : Nat), Clocked pllF s → s.dev.lookupOut n = some l →
    s.dev.writeWaits rTable l.line = none → s.dev.lookupCopy l = some k →
    Yields (.dramLookupResponse n ecc) s (s.dev.keep (s.dev.readCopy k (s.dev.stackLine rTable l.line) ecc (.dramLookupResponse n ecc)
      fun d good => (if l.repeated then d else d.countRedirect rTable l.line k).holdLookup n good (some k)))) ∧
  (∀ (s : State) (n : Fin 9) (line : Nat), Clocked pllF s → (s.dev.slice n).badLines.contains line = true →
    s.dev.lineAlive rTable line = true →
    Yields (.stageMemoryRefetch n line) s (s.dev.keep
      (Dev.countReads { s.dev.modSlice n fun x => { x with badLines := x.badLines.filter (· != line) } with
        smem := Tbl.setRun 0#8 s.dev.smem (smemKey n (64 * line)) (s.dev.dramRead rTable (64 * line) 64) } rTable (64 * line) 64))) ∧
  (∀ (s : State) (n : Fin 9) (e : Fin 32768), Clocked pllF s → (s.dev.slice n).assocReload.contains e.val = true →
    Yields (.assocEntryReload n e) s
      ((s.dev.modSlice n fun x => { x with assocReload := x.assocReload.filter (· != e.val) }).steal n)) ∧
  (∀ (s : State) (n : Fin 9) (f : ResolveFault) (k : Pkt), Clocked pllF s → (s.dev.slice n).runs = true →
    (s.dev.slice n).nextStage = some k → (s.dev.runStages n f 17 k).1.waits = false →
    Yields (.actionResolve n f) s (s.dev.keep
      (((s.dev.runStages n f 17 k).2.putOrder n (s.dev.runStages n f 17 k).1).resolve n f (s.dev.runStages n f 17 k).1))) ∧
  (∀ (s : State) (n : Fin 9) (f : ResolveFault) (k : Pkt), Clocked pllF s → (s.dev.slice n).runs = true →
    (s.dev.slice n).nextStage = some k → (s.dev.runStages n f 17 k).1.waits = true →
    Yields (.actionResolve n f) s (s.dev.keep
      (((s.dev.runStages n f 17 k).2.putOrder n (s.dev.runStages n f 17 k).1).sendAsks))) ∧
  (∀ (s : State) (n : Fin 9) (k : Pkt), Clocked pllF s → (s.dev.slice n).runs = true → s.dev.dukLost = false →
    s.dev.spr.cellar = false → chanRoom (s.dev.slice n).up = true → handoffNext (s.dev.slice n).order [] = some k → k.bad = false →
    Yields (.dukiderHandoff n) s (s.dev.keep (s.dev.handOff n k))) ∧
  (∀ (s : State) (n : Fin 9) (k : Pkt) (rest : List Pkt), Clocked pllF s → (s.dev.slice n).egress = k :: rest →
    k.headOnly = false →
    Yields (.egressEdit n) s (s.dev.keep ((s.dev.modSlice n fun x => { x with egress := rest }).editPkt n k))) ∧
  (∀ (d : Dev) (n : Nat) (k : Pkt), (d.slice n).runs = true → d.isLive k.recVint = false →
    d.editPkt n k = d.countStale.dropPkt k)

/-- A good cycle of the link is delivered once: the flits of the cycle, taken from the nine channels by the rotating pointer, and what
the control channel carries; one that fails a CRC-32 is not, and stays in the replay buffer; replays of it fail until one is good; a
replay is sent again from the sender's buffer; a cycle that fails its 16th replay loses the link, which is logged with its cause, and
after the start of forwarding leads to cellar mode on the F-die alone. A crossing's parity error is counted for the block it leads to
and logged with the crossing and the number of entries lost. How flits are counted, what a crossing holds and which counter it is are
the model's choices (log entries 11 and 96). -/
def Obligations.DukiderRows : Prop :=
  (∀ (s : State) (t : Bool), Clocked (dukInto t) s → s.dev.dukRuns = true → (s.dev.duk t).failing = none →
    Yields (.dukiderCycleReceive t 0xFF#8) s (s.dev.keep ((s.dev.setDuk t { s.dev.duk t with
      sent := (s.dev.duk t).sent + 1, ptr := ((s.dev.duk t).ptr + 1) % 9,
      kept := (((s.dev.duk t).next, s.dev.dukCycle t) :: (s.dev.duk t).kept).take 64 }).dukDeliver t (s.dev.dukCycle t)))) ∧
  (∀ (s : State) (t : Bool) (crc : BitVec 8), Clocked (dukInto t) s → s.dev.dukRuns = true → (s.dev.duk t).failing = none →
    crc ≠ 0xFF#8 →
    Completes (.dukiderCycleReceive t crc) s fun d e => e.duk t = { d.duk t with
        sent := (d.duk t).sent + 1, ptr := ((d.duk t).ptr + 1) % 9,
        kept := (((d.duk t).next, d.dukCycle t) :: (d.duk t).kept).take 64, failing := some (d.duk t).next, replays := 0 } ∧
      e = { d with dukUp := e.dukUp, dukDown := e.dukDown }) ∧
  (∀ (s : State) (t : Bool) (c : Nat) (crc : BitVec 8), Clocked (dukInto t) s → s.dev.dukRuns = true →
    (s.dev.duk t).failing = some c → crc ≠ 0xFF#8 → (s.dev.duk t).replays < 16 → Yields (.dukiderCycleReceive t crc) s s.dev) ∧
  (∀ (s : State) (t : Bool) (c : Nat) (crc : BitVec 8), Clocked (dukInto t) s → s.dev.dukRuns = true →
    (s.dev.duk t).failing = some c → crc ≠ 0xFF#8 → 16 ≤ (s.dev.duk t).replays →
    Yields (.dukiderCycleReceive t crc) s (s.dev.keep (s.dev.linkLost .replays))) ∧
  (∀ (s : State) (t : Bool) (c : Nat) (x : List (Nat × Nat)), Clocked (dukInto t) s → s.dev.dukRuns = true →
    (s.dev.duk t).failing = some c → 0 < (s.dev.duk t).replays → ((s.dev.duk t).kept.find? fun p => p.1 = c) = some (c, x) →
    Yields (.dukiderCycleReceive t 0xFF#8) s (s.dev.keep (s.dev.dukDeliver t x))) ∧
  (∀ (s : State) (t : Bool) (c : Nat), Runs s → s.dev.dukRuns = true → (s.dev.duk t).failing = some c →
    (s.dev.duk t).replays < 16 →
    Yields (.dukiderReplay t) s (s.dev.setDuk t { s.dev.duk t with replays := (s.dev.duk t).replays + 1 })) ∧
  (∀ (s : State) (c : DukCause), Runs s → s.dev.dukLost = false → s.dev.vint.started = false →
    Yields (.dukiderLinkLost c) s ({ s.dev with dukLost := true }.logNum 0x00 3 0 (le 1 (dukCode c)))) ∧
  (∀ (s : State) (c : DukCause), Runs s → s.dev.dukLost = false → s.dev.vint.started = true →
    Completes (.dukiderLinkLost c) s fun _ e => e.dukLost = true ∧ e.spr.cellar = true ∧ e.spr.fdieOnly = true) ∧
  (∀ (s : State) (x : Fin 26) (inst : Nat) (back : Bool) (lost : Nat), Runs s → x.val ≠ 2 → x.val ≠ 3 → x.val ≠ 6 → x.val ≠ 21 →
    Yields (.crossingParityError x inst back lost) s
      (Dev.logNum { s.dev with crossLost := Tbl.modify 0 s.dev.crossLost (s.dev.crossBank (x + 1) inst back) (· + lost) }
        0x00 2 inst (le 1 (x + 1) ++ le 4 (satN 32 lost)))) ∧
  (∀ (s : State) (g : Fin 8) (n lost : Nat) (r : Nat × List Pkt × List Pkt), Runs s → s.dev.holder g = some n →
    r = fifoLoss wordsOf 64 (s.dev.slice n).ingress →
    Completes (.crossingParityError 2 g false lost) s fun d e => (e.slice n).ingress = r.2.2 ∧
      Tbl.get 0 e.crossLost (d.crossBank 3 g false) = Tbl.get 0 d.crossLost (d.crossBank 3 g false) + r.1)

/-- A WRITE of a parser entry or of a stage item that no check refuses stores it in the golden copy; a READ stages it; an
associative WRITE or INVALIDATE that keeps every live vintage as it is installs the entry; SEARCH sets the context of the
slice and NEXT_MATCH needs one; every command ends with its result, and one other than OK sets cmd_refused. -/
def Obligations.SliceCommands : Prop :=
  (∀ (s : State) (n : Fin 9) (x : BitVec 10) (w : BitVec 256), Answers .bar0 (viaSlice Reg.SL_PRS_CMD n) s → x.toNat < 512 →
    s.dev.stage256 Reg.SL_PRS_STAGE = w → pressBad w = false →
    seesSame s.dev.liveVints pressVints pressValid (Tbl.get 0#256 s.dev.prog.press x.toNat) w = true →
    Yields (.prsWrite n x) s (Dev.cmdResult { s.dev with prog := { s.dev.prog with
      press := Tbl.set 0#256 s.dev.prog.press x.toNat w } } Reg.SL_PRS_CMD (Reg.SL_PRS_STATUS n) 0)) ∧
  (∀ (s : State) (n : Fin 9) (x : BitVec 10), Answers .bar0 (viaSlice Reg.SL_PRS_CMD n) s → 512 ≤ x.toNat →
    Yields (.prsWrite n x) s (s.dev.cmdResult Reg.SL_PRS_CMD (Reg.SL_PRS_STATUS n) 1)) ∧
  (∀ (s : State) (n : Fin 9) (x : BitVec 10), Answers .bar0 (viaSlice Reg.SL_PRS_CMD n) s → x.toNat < 512 →
    Yields (.prsRead n x) s ((s.dev.setStage256 Reg.SL_PRS_STAGE (Tbl.get 0#256 s.dev.prog.press x.toNat)).cmdResult
      Reg.SL_PRS_CMD (Reg.SL_PRS_STATUS n) 0)) ∧
  (∀ (s : State) (n : Fin 9) (t : BitVec 2) (x : BitVec 12), Answers .bar0 (viaSlice Reg.SL_MS_CMD n) s → msBadIndex t.toNat x.toNat = false →
    Yields (.msWrite n t x) s (Dev.cmdResult { s.dev with prog := (s.dev.msWriteItem t.toNat x.toNat).2 } Reg.SL_MS_CMD
      (Reg.SL_MS_STATUS n) (s.dev.msWriteItem t.toNat x.toNat).1) ∧
    ((s.dev.msWriteItem t.toNat x.toNat).1 ≠ 0 → (s.dev.msWriteItem t.toNat x.toNat).2 = s.dev.prog)) ∧
  (∀ (s : State) (n : Fin 9) (t : BitVec 2) (x : BitVec 12), Answers .bar0 (viaSlice Reg.SL_MS_CMD n) s → msBadIndex t.toNat x.toNat = true →
    Yields (.msWrite n t x) s (s.dev.cmdResult Reg.SL_MS_CMD (Reg.SL_MS_STATUS n) 1)) ∧
  (∀ (s : State) (n : Fin 9) (x : BitVec 12), Answers .bar0 (viaSlice Reg.SL_MS_CMD n) s → x.toNat < 32 →
    Yields (.msRead n 0#2 x) s ((s.dev.setStage256 Reg.SL_MS_STAGE (Tbl.get 0#256 s.dev.prog.records x.toNat)).cmdResult
      Reg.SL_MS_CMD (Reg.SL_MS_STATUS n) 0)) ∧
  (∀ (s : State) (n : Fin 9) (x : BitVec 12), Answers .bar0 (viaSlice Reg.SL_MS_CMD n) s → x.toNat < 64 →
    Yields (.msRead n 1#2 x) s ((s.dev.setStage256 Reg.SL_MS_STAGE (Tbl.get 0#256 s.dev.prog.descs x.toNat)).cmdResult
      Reg.SL_MS_CMD (Reg.SL_MS_STATUS n) 0)) ∧
  (∀ (s : State) (n : Fin 9) (x : BitVec 12), Answers .bar0 (viaSlice Reg.SL_MS_CMD n) s → 0 < x.toNat → x.toNat < 256 →
    Yields (.msRead n 2#2 x) s ((s.dev.setStage256 Reg.SL_MS_STAGE (Tbl.get 0#256 s.dev.prog.edits x.toNat)).cmdResult
      Reg.SL_MS_CMD (Reg.SL_MS_STATUS n) 0)) ∧
  (∀ (s : State) (n : Fin 9) (x : BitVec 12), Answers .bar0 (viaSlice Reg.SL_MS_CMD n) s →
    Yields (.msRead n 3#2 x) s ((s.dev.setStagedEditData (be 64 (Tbl.get 0#512 s.dev.prog.editData x.toNat).toNat)).cmdResult
      Reg.SL_MS_CMD (Reg.SL_MS_STATUS n) 0)) ∧
  (∀ (s : State) (n : Fin 9) (x : BitVec 15) (a : AssocEntry), Answers .bar0 (viaSlice Reg.SL_AS_CMD n) s → s.dev.stagedAssoc = a →
    (a.valid = true → a.key &&& a.mask = a.key) → assocSame s.dev.liveVints (Tbl.get {} s.dev.prog.assoc x.toNat) a = true →
    Yields (.asWrite n x) s ((s.dev.installAssoc x.toNat a).asResult n 0)) ∧
  (∀ (s : State) (n : Fin 9) (x : BitVec 15), Answers .bar0 (viaSlice Reg.SL_AS_CMD n) s →
    Yields (.asRead n x) s ((s.dev.setStagedAssoc (Tbl.get {} s.dev.prog.assoc x.toNat)).asResult n 0)) ∧
  (∀ (s : State) (n : Fin 9) (x : BitVec 15) (a : AssocEntry), Answers .bar0 (viaSlice Reg.SL_AS_CMD n) s → a = Tbl.get {} s.dev.prog.assoc x.toNat →
    Yields (.asInvalidate n x) s (if assocSame s.dev.liveVints a { a with valid := false } then
      (s.dev.installAssoc x.toNat { a with valid := false }).asResult n 0 else s.dev.asResult n 3)) ∧
  (∀ (s : State) (n : Fin 9), Answers .bar0 (viaSlice Reg.SL_AS_CMD n) s → (s.dev.slice n).serving = true →
    fld (s.dev.reg Reg.SL_AS_SRCH) 24 17 ≠ 0 →
    fld (s.dev.reg Reg.SL_AS_SRCH) 31 25 + fld (s.dev.reg Reg.SL_AS_SRCH) 24 17 ≤ 128 →
    Yields (.asSearch n) s (((s.dev.steal n).nextMatchIn n
      { key := BitVec.ofNat 320 (s.dev.stagedNat Reg.SL_AS_KEY 10), first := fld (s.dev.reg Reg.SL_AS_SRCH) 31 25,
        count := fld (s.dev.reg Reg.SL_AS_SRCH) 24 17, vint := fld (s.dev.reg Reg.SL_AS_SRCH) 3 0, pos := none }).asResult
          n 0)) ∧
  (∀ (s : State) (n : Fin 9) (c : SearchCtx), Answers .bar0 (viaSlice Reg.SL_AS_CMD n) s → (s.dev.slice n).serving = true →
    (s.dev.slice n).srch = some c →
    Yields (.asNextMatch n) s (((s.dev.steal n).nextMatchIn n c).asResult n 0)) ∧
  (∀ (s : State) (n : Fin 9), Answers .bar0 (viaSlice Reg.SL_AS_CMD n) s → (s.dev.slice n).srch = none →
    Yields (.asNextMatch n) s (s.dev.asResult n 5))

/-- The old vintage is reclaimed when nothing carries it on a device that stands alone, and retired by force once the drain limit, as
the register stands, has passed; the manager announces a reclaim once the reports and its own counts allow it, and a worker follows; the
engine serves its three sources in turn, and a row that comes before its turn does nothing (log entry 120: the model's choice); it
performs the oldest learning item; the epoch advances and begins a sweep, or waits for the one that runs, and the ager looks at one
bucket at a time, and stops with a max_age of 0. -/
def Obligations.VintageRows : Prop :=
  (∀ (s : State) (o : Nat), Clocked pllT s → s.dev.vint.old = some o → s.dev.alone = true → s.dev.inflight o = 0 →
    Yields .vintageReclaim s ((({ s.dev with vint := { s.dev.vint with old := none } }.inc bankVint 2).latchBit
      Reg.SL_VNT_STATUS 9).logBit 0x20 0 9 0xFFFF [])) ∧
  (∀ (s : State) (o : Nat), Clocked pllT s → s.dev.vint.old = some o → fld (s.dev.reg Reg.SL_VNT_CTRL) 31 16 ≠ 0 →
    s.dev.vint.oldSince + fld (s.dev.reg Reg.SL_VNT_CTRL) 31 16 * 10 ^ 6 ≤ s.dev.time.tsc →
    Yields .drainLimitExpire s ((({ s.dev with vint := { s.dev.vint with old := none } }.inc bankVint 3).latchBit
      Reg.SL_VNT_STATUS 10).logBit 0x20 0 10 0xFFFF [])) ∧
  (∀ s : State, Clocked pllT s → s.dev.time.tsc < s.dev.vint.oldSince + fld (s.dev.reg Reg.SL_VNT_CTRL) 31 16 * 10 ^ 6 →
    Yields .drainLimitExpire s s.dev) ∧
  (∀ (s : State) (o : Nat), Clocked pllFabric s → s.dev.vint.old = some o → s.dev.isManager = true → s.dev.allZero = true →
    s.dev.inflight o = 0 →
    Completes .reclaimSend s fun d e => e.vint = { d.vint with old := none } ∧ e.fab.reclaim = some o ∧
      e = { d with vint := e.vint, fab := e.fab, regs := e.regs, cnt := e.cnt, events := e.events }) ∧
  (∀ (s : State) (n : Fin 256) (o : Nat), Clocked pllFabric s → (s.dev.link n).bReclaim = some o → (s.dev.link n).bRole = 2 →
    s.dev.fromManager (s.dev.link n).nbrDev = true → (s.dev.link n).bClaim = s.dev.fab.obeyed → s.dev.vint.old = some o →
    Yields (.reclaimReceive n) s ((({ s.dev with vint := { s.dev.vint with old := none } }.inc bankVint 2).latchBit
      Reg.SL_VNT_STATUS 9).logBit 0x20 0 9 0xFFFF [])) ∧
  (∀ (s : State) (it : LearnItem) (rest : List LearnItem) (dsc : BitVec 256), Clocked pllT s → s.dev.engServes 1 = true →
    s.dev.vint.learn = it :: rest →
    dsc = Tbl.get 0#256 s.dev.prog.descs it.desc → isHash dsc = true → 2 + it.key.length + it.data.length ≤ descEsize dsc →
    s.dev.spr.cellar = false → hashFind (Dev.engRead { s.dev with vint := { s.dev.vint with learn := rest } } dsc) dsc it.key = [] →
    Yields .learnItemProcess s (s.dev.keep (((Dev.readBuckets { s.dev with vint := { s.dev.vint with learn := rest } } dsc
      it.key).learnNew it dsc).engDone 1))) ∧
  (∀ s : State, Clocked pllT s → s.dev.engServes 1 = false → Yields .learnItemProcess s s.dev) ∧
  (∀ s : State, Clocked pllT s → s.dev.vint.sweep = [] → s.dev.spr.cellar = false → s.dev.maxAge ≠ 0 →
    Yields .epochAdvance s { s.dev with vint := { s.dev.vint with
      epoch := (s.dev.vint.epoch + 1) % 256, sweep := s.dev.sweepTables.map fun t => (t, 0), epochDue := false } }) ∧
  (∀ s : State, Clocked pllT s → s.dev.vint.sweep ≠ [] → s.dev.spr.cellar = false →
    Yields .epochAdvance s { s.dev with vint := { s.dev.vint with epochDue := true } }) ∧
  (∀ s : State, Clocked pllT s → s.dev.engServes 2 = true → s.dev.vint.sweep ≠ [] → s.dev.spr.cellar = false → s.dev.maxAge ≠ 0 →
    Yields .agerSweepOperation s (s.dev.keep (s.dev.ageBucket.sweepOver.engDone 2))) ∧
  (∀ s : State, Clocked pllT s → s.dev.engServes 2 = true → s.dev.vint.sweep ≠ [] → s.dev.maxAge = 0 →
    Yields .agerSweepOperation s (s.dev.keep ((Dev.sweepOver { s.dev with vint := { s.dev.vint with sweep := [] } }).engDone 2)))

/-- The TABLE entry in front of a command ring that runs is performed by the row of its operation in the host's turn, is counted, and ends
with the result of the command in its completion; so is the body in a request of the management mailbox, whose request code and
response are the model's choice (log entry 108). -/
def Obligations.TableCommands : Prop :=
  (∀ (s : State) (q : Fin 16384) (e : SqEnt), Clocked pllT s → TableFront s q 1 e → RunsTable (.tableWrite (.ring q)) s q e) ∧
  (∀ (s : State) (src : MbxSrc) (p : Bytes), Waits src mbxTable s → s.dev.stopped [pllMgmt, pllT] = none → s.dev.engServes 0 = true →
    s.dev.hostWaits = true → (s.dev.mbxPayload (srcCode src) p).length = 96 →
    (TblCmd.ofBytes (s.dev.mbxPayload (srcCode src) p)).op = 1 →
    Yields (.tableWrite (.mailbox src p)) s (s.dev.keep
      (((s.dev.runTblCmd (TblCmd.ofBytes (s.dev.mbxPayload (srcCode src) p))).2.mbxEnd (srcCode src) 0
        (le 1 (s.dev.runTblCmd (TblCmd.ofBytes (s.dev.mbxPayload (srcCode src) p))).1)).engDone 0))) ∧
  (∀ (s : State) (q : Fin 16384) (e : SqEnt), Clocked pllT s → TableFront s q 2 e → RunsTable (.tableDelete (.ring q)) s q e) ∧
  (∀ (s : State) (src : MbxSrc) (p : Bytes), Waits src mbxTable s → s.dev.stopped [pllMgmt, pllT] = none → s.dev.engServes 0 = true →
    s.dev.hostWaits = true → (s.dev.mbxPayload (srcCode src) p).length = 96 →
    (TblCmd.ofBytes (s.dev.mbxPayload (srcCode src) p)).op = 2 →
    Yields (.tableDelete (.mailbox src p)) s (s.dev.keep
      (((s.dev.runTblCmd (TblCmd.ofBytes (s.dev.mbxPayload (srcCode src) p))).2.mbxEnd (srcCode src) 0
        (le 1 (s.dev.runTblCmd (TblCmd.ofBytes (s.dev.mbxPayload (srcCode src) p))).1)).engDone 0))) ∧
  (∀ (s : State) (q : Fin 16384) (e : SqEnt), Clocked pllT s → TableFront s q 3 e → RunsTable (.tableRead (.ring q)) s q e) ∧
  (∀ (s : State) (src : MbxSrc) (p : Bytes), Waits src mbxTable s → s.dev.stopped [pllMgmt, pllT] = none → s.dev.engServes 0 = true →
    s.dev.hostWaits = true → (s.dev.mbxPayload (srcCode src) p).length = 96 →
    (TblCmd.ofBytes (s.dev.mbxPayload (srcCode src) p)).op = 3 →
    Yields (.tableRead (.mailbox src p)) s (s.dev.keep
      (((s.dev.runTblCmd (TblCmd.ofBytes (s.dev.mbxPayload (srcCode src) p))).2.mbxEnd (srcCode src) 0
        (le 1 (s.dev.runTblCmd (TblCmd.ofBytes (s.dev.mbxPayload (srcCode src) p))).1)).engDone 0))) ∧
  (∀ (s : State) (q : Fin 16384) (e : SqEnt), Clocked pllT s → TableFront s q 4 e → RunsTable (.routeAdd (.ring q)) s q e) ∧
  (∀ (s : State) (src : MbxSrc) (p : Bytes), Waits src mbxTable s → s.dev.stopped [pllMgmt, pllT] = none → s.dev.engServes 0 = true →
    s.dev.hostWaits = true → (s.dev.mbxPayload (srcCode src) p).length = 96 →
    (TblCmd.ofBytes (s.dev.mbxPayload (srcCode src) p)).op = 4 →
    Yields (.routeAdd (.mailbox src p)) s (s.dev.keep
      (((s.dev.runTblCmd (TblCmd.ofBytes (s.dev.mbxPayload (srcCode src) p))).2.mbxEnd (srcCode src) 0
        (le 1 (s.dev.runTblCmd (TblCmd.ofBytes (s.dev.mbxPayload (srcCode src) p))).1)).engDone 0))) ∧
  (∀ (s : State) (q : Fin 16384) (e : SqEnt), Clocked pllT s → TableFront s q 5 e → RunsTable (.routeDel (.ring q)) s q e) ∧
  (∀ (s : State) (src : MbxSrc) (p : Bytes), Waits src mbxTable s → s.dev.stopped [pllMgmt, pllT] = none → s.dev.engServes 0 = true →
    s.dev.hostWaits = true → (s.dev.mbxPayload (srcCode src) p).length = 96 →
    (TblCmd.ofBytes (s.dev.mbxPayload (srcCode src) p)).op = 5 →
    Yields (.routeDel (.mailbox src p)) s (s.dev.keep
      (((s.dev.runTblCmd (TblCmd.ofBytes (s.dev.mbxPayload (srcCode src) p))).2.mbxEnd (srcCode src) 0
        (le 1 (s.dev.runTblCmd (TblCmd.ofBytes (s.dev.mbxPayload (srcCode src) p))).1)).engDone 0))) ∧
  (∀ (s : State) (q : Fin 16384) (e : SqEnt), Clocked pllT s → TableFront s q 6 e → RunsTable (.tableDump (.ring q)) s q e) ∧
  (∀ (s : State) (src : MbxSrc) (p : Bytes), Waits src mbxTable s → s.dev.stopped [pllMgmt, pllT] = none → s.dev.engServes 0 = true →
    s.dev.hostWaits = true → (s.dev.mbxPayload (srcCode src) p).length = 96 →
    (TblCmd.ofBytes (s.dev.mbxPayload (srcCode src) p)).op = 6 →
    Yields (.tableDump (.mailbox src p)) s (s.dev.keep
      (((s.dev.runTblCmd (TblCmd.ofBytes (s.dev.mbxPayload (srcCode src) p))).2.mbxEnd (srcCode src) 0
        (le 1 (s.dev.runTblCmd (TblCmd.ofBytes (s.dev.mbxPayload (srcCode src) p))).1)).engDone 0))) ∧
  (∀ (s : State) (q : Fin 16384) (e : SqEnt), Clocked pllT s → TableFront s q 7 e → RunsTable (.tableFlush (.ring q)) s q e) ∧
  (∀ (s : State) (src : MbxSrc) (p : Bytes), Waits src mbxTable s → s.dev.stopped [pllMgmt, pllT] = none → s.dev.engServes 0 = true →
    s.dev.hostWaits = true → (s.dev.mbxPayload (srcCode src) p).length = 96 →
    (TblCmd.ofBytes (s.dev.mbxPayload (srcCode src) p)).op = 7 →
    Yields (.tableFlush (.mailbox src p)) s (s.dev.keep
      (((s.dev.runTblCmd (TblCmd.ofBytes (s.dev.mbxPayload (srcCode src) p))).2.mbxEnd (srcCode src) 0
        (le 1 (s.dev.runTblCmd (TblCmd.ofBytes (s.dev.mbxPayload (srcCode src) p))).1)).engDone 0)))

/-- A table command that does not end in OK changes nothing: the device after it is the device before it. -/
def Obligations.TableRefusals : Prop :=
  ∀ (d : Dev) (c : TblCmd), (d.tblCmd c).1 ≠ 0 → (d.tblCmd c).2 = d

/-- An allocated buffer is handed over, shared or freed by its holder while the holder's tag is not closed; the last free returns it to the
tail of its list; a second free, the hand-over of a foreign party or of a revoked one, and the free of a RETIRED buffer are refused and
change no buffer; an entry that an operation finds uncorrectable is first retired; a minimum within the limit is stored and one beyond
it is not; an allocator cycle with nothing to serve moves its pointer, grants a live tag that is below its minimum the head of the
list, and fails and counts a request at a pool that is not open. -/
def Obligations.BufferOps : Prop :=
  (∀ (s : State) (party newTag : Fin 14) (h : Word), Clocked pllT s → s.dev.tagState party ≠ .closed →
    (s.dev.buf h.toNat).alloc = true → (s.dev.buf h.toNat).tag ≠ 15 → ownsBuf party (s.dev.buf h.toNat).tag = true →
    Yields (.bufferHandOver party h newTag false) s
      (s.dev.setBuf h.toNat { s.dev.buf h.toNat with tag := newTag, marked := true })) ∧
  (∀ (s : State) (party : Fin 14) (h : Word) (n : Nat), Clocked pllT s → s.dev.tagState party ≠ .closed →
    (s.dev.buf h.toNat).alloc = true → (s.dev.buf h.toNat).tag ≠ 15 → ownsBuf party (s.dev.buf h.toNat).tag = true →
    0 < n → n ≤ 4095 →
    Yields (.bufferSetRefs party h n false) s (s.dev.setBuf h.toNat { s.dev.buf h.toNat with refs := n })) ∧
  (∀ (s : State) (party : Fin 14) (h : Word), Clocked pllT s → s.dev.tagState party ≠ .closed →
    (s.dev.buf h.toNat).alloc = true → (s.dev.buf h.toNat).tag ≠ 15 → ownsBuf party (s.dev.buf h.toNat).tag = true →
    1 < (s.dev.buf h.toNat).refs →
    Yields (.bufferFree party h false) s
      (s.dev.setBuf h.toNat { s.dev.buf h.toNat with refs := (s.dev.buf h.toNat).refs - 1, marked := true })) ∧
  (∀ (s : State) (party : Fin 14) (h : Word), Clocked pllT s → s.dev.tagState party ≠ .closed →
    (s.dev.buf h.toNat).alloc = true → (s.dev.buf h.toNat).tag ≠ 15 → ownsBuf party (s.dev.buf h.toNat).tag = true →
    (s.dev.buf h.toNat).refs ≤ 1 → s.dev.onLostStack h.toNat = false →
    Completes (.bufferFree party h false) s fun d e => (e.buf h.toNat).alloc = false ∧ (∀ g, g ≠ h.toNat → e.buf g = d.buf g) ∧
      e.freeList (d.listKey h.toNat) = d.freeList (d.listKey h.toNat) ++ [{ start := hIdx h.toNat, step := 1, cnt := 1 }] ∧
      (∀ k, k ≠ d.listKey h.toNat → e.freeList k = d.freeList k) ∧ e = { d with bpm := e.bpm }) ∧
  (∀ (s : State) (party newTag : Fin 14) (h : Word), Clocked pllT s → s.dev.tagState party = .closed →
    Yields (.bufferHandOver party h newTag false) s (s.dev.keep (s.dev.revokedOp 3 party h.toNat)) ∧
    (s.dev.revokedOp 3 party h.toNat).bpm.bufs = s.dev.bpm.bufs) ∧
  (∀ (s : State) (party : Fin 14) (h : Word), Clocked pllT s → s.dev.tagState party ≠ .closed →
    (s.dev.buf h.toNat).alloc = true → (s.dev.buf h.toNat).tag = 15 →
    Yields (.bufferFree party h false) s (s.dev.keep (s.dev.retiredOp 2 party h.toNat)) ∧
    (s.dev.retiredOp 2 party h.toNat).bpm.bufs = s.dev.bpm.bufs) ∧
  (∀ (s : State) (party : Fin 14) (h : Word), Clocked pllT s → s.dev.tagState party ≠ .closed →
    (s.dev.buf h.toNat).alloc = false →
    Completes (.bufferFree party h false) s fun d e => e.bpm.bufs = d.bpm.bufs ∧ e.bpm.free = d.bpm.free ∧
      bit (e.reg Reg.BPM_STATUS) 10 = true ∧ e.reg Reg.BPM_LAST_FAULT_BUF = h ∧
      e.reg Reg.BPM_LAST_FAULT = wd (1 * 2 ^ 28 + party * 2 ^ 24 + (d.buf h.toNat).tag * 2 ^ 20)) ∧
  (∀ (s : State) (party newTag : Fin 14) (h : Word), Clocked pllT s → s.dev.tagState party ≠ .closed →
    (s.dev.buf h.toNat).alloc = true → (s.dev.buf h.toNat).tag ≠ 15 → ownsBuf party (s.dev.buf h.toNat).tag = false →
    Completes (.bufferHandOver party h newTag false) s fun d e => e.bpm.bufs = d.bpm.bufs ∧ e.bpm.free = d.bpm.free ∧
      bit (e.reg Reg.BPM_STATUS) 11 = true ∧ e.reg Reg.BPM_LAST_FAULT_BUF = h ∧
      e.reg Reg.BPM_LAST_FAULT = wd (3 * 2 ^ 28 + party * 2 ^ 24 + (d.buf h.toNat).tag * 2 ^ 20)) ∧
  (∀ (s : State) (party newTag : Fin 14) (h : Word), Clocked pllT s → s.dev.hasEntry h.toNat = true →
    Yields (.bufferHandOver party h newTag true) s (s.dev.keep ((s.dev.stateEcc h.toNat).bufHandOver party h.toNat newTag)) ∧
    (s.dev.stateEcc h.toNat).buf h.toNat = { alloc := true, tag := 15, refs := 1, marked := true }) ∧
  (∀ (s : State) (party : Fin 14) (h : Word) (n : Nat), Clocked pllT s → s.dev.hasEntry h.toNat = true →
    Yields (.bufferSetRefs party h n true) s (s.dev.keep ((s.dev.stateEcc h.toNat).bufSetRefs party h.toNat n)) ∧
    Yields (.bufferFree party h true) s (s.dev.keep ((s.dev.stateEcc h.toNat).bufFree party h.toNat))) ∧
  (∀ (s : State) (o : Fin 14) (t : Fin 2) (c : Fin 4) (v : Word), Answers .bar0 (Reg.BPM_RSV o t c) s →
    s.dev.rsvSum o t c (fld v 28 0) ≤ s.dev.rsvLimit t c →
    Yields (.bpmRsvWrite o t c v) s (s.dev.setReg (Reg.BPM_RSV o t c) (wd (fld v 28 0)))) ∧
  (∀ (s : State) (o : Fin 14) (t : Fin 2) (c : Fin 4) (v : Word), Answers .bar0 (Reg.BPM_RSV o t c) s →
    s.dev.rsvLimit t c < s.dev.rsvSum o t c (fld v 28 0) →
    Yields (.bpmRsvWrite o t c v) s (s.dev.keep ((s.dev.latchBit Reg.BPM_STATUS 9).logBit 0x50 0 9 0 [])) ∧
    ((s.dev.latchBit Reg.BPM_STATUS 9).logBit 0x50 0 9 0 []).reg (Reg.BPM_RSV o t c) = s.dev.reg (Reg.BPM_RSV o t c)) ∧
  (∀ (s : State) (k : Fin 12), Clocked pllT s → s.dev.bpm.waiting = [] → s.dev.host.sqs = [] →
    Completes (.bufferAllocate k []) s fun d e => e = { d with bpm := { d.bpm with
      ptr := Tbl.set 0 d.bpm.ptr k ((Tbl.get 0 d.bpm.ptr k + 1) % 14) } }) ∧
  (∀ (s : State) (k : Fin 12) (r : AllocReq) (i : Nat) (rest : List Seg), Clocked pllT s → s.dev.bpm.waiting = [r] →
    s.dev.host.sqs = [] → r.pool = k → k.val < 8 → r.use = .handoff → s.dev.spr.cellar = false → r.tag < 14 →
    s.dev.tagState r.tag = .live → sizeClass r.pkt.len ≠ none → s.dev.poolOpen k = true →
    s.dev.held r.tag k < s.dev.minOf r.tag k → popSeg (s.dev.freeList k) = some (i, rest) →
    Completes (.bufferAllocate k []) s fun d e => e.bpm.waiting = [] ∧ e.freeList k = rest ∧
      e.buf (mkHandle 0 (k.val % 4) i) = { alloc := true, tag := r.tag, refs := 1, marked := true } ∧
      e.qm.arrived = d.qm.arrived ++ [{ r.pkt with handle := some (mkHandle 0 (k.val % 4) i), tag := r.tag }] ∧
      e = { d with bpm := e.bpm, qm := e.qm }) ∧
  (∀ (s : State) (k : Fin 12) (r : AllocReq), Clocked pllT s → s.dev.bpm.waiting = [r] → s.dev.host.sqs = [] → r.pool = k →
    r.use = .handoff → s.dev.spr.cellar = false → r.tag < 14 → s.dev.tagState r.tag = .live → sizeClass r.pkt.len ≠ none →
    s.dev.poolOpen k = false →
    Yields (.bufferAllocate k []) s (s.dev.keep (Dev.dropPkt (Dev.inc { s.dev with bpm := { s.dev.bpm with
      waiting := [], ptr := Tbl.set 0 s.dev.bpm.ptr k ((r.tag + 1) % 14) } } bankBpm 10 |>.countFail k) r.pkt)))

/-- The end of the drain closes the tag and starts its scan, whose end returns every buffer of the tag to its pool and closes its
window; a tag that is not draining, and a scan that does not run, change nothing; an audit pass begins only with the auditor on and
none under way, and its end counts the pass and the suspects. -/
def Obligations.Revocation : Prop :=
  (∀ (s : State) (n : Fin 9), Clocked pllT s → s.dev.tagState n = .draining →
    Completes (.revokeDrainExpire n) s fun d e => e.tagState n = .closed ∧ e.bpm.scans = d.bpm.scans ++ [n.val] ∧
      (∀ t, t ≠ n.val → e.tagState t = d.tagState t) ∧ e = { d with bpm := e.bpm }) ∧
  (∀ (s : State) (n : Fin 9), Clocked pllT s → s.dev.tagState n ≠ .draining → Yields (.revokeDrainExpire n) s s.dev) ∧
  (∀ (s : State) (t : Fin 14), Clocked pllT s → t.val ∈ s.dev.bpm.scans →
    Completes (.revocationScanComplete t []) s fun d e => t.val ∉ e.bpm.scans ∧ (∀ w ∈ e.bpm.window, w.1 ≠ t.val) ∧
      (∀ u, u ≠ t.val → (u ∈ e.bpm.scans ↔ u ∈ d.bpm.scans)) ∧ bit (e.reg Reg.BPM_STATUS) 13 = true) ∧
  (∀ (s : State) (t : Fin 14), Clocked pllT s → t.val ∉ s.dev.bpm.scans → Yields (.revocationScanComplete t []) s s.dev) ∧
  (∀ (s : State), Clocked pllT s → s.dev.bpm.auditing = false → bit (s.dev.reg Reg.BPM_CTRL) 1 = true →
    Completes .auditPassStart s fun d e => e.bpm.auditing = true ∧ e.bpm.free = d.bpm.free ∧
      e.bpm.bufs.map (·.1) = d.bpm.bufs.map (·.1) ∧
      (∀ p ∈ e.bpm.bufs, ∃ q ∈ d.bpm.bufs, q.1 = p.1 ∧ p.2 = { q.2 with marked := p.2.marked }) ∧ e = { d with bpm := e.bpm }) ∧
  (∀ (s : State), Clocked pllT s → s.dev.bpm.auditing = true →
    Completes (.auditPassComplete []) s fun d e => e.bpm.auditing = false ∧
      e.reg Reg.BPM_AUDIT_STATUS = wd (satN 24 (d.suspects (d.queueHandles ++ d.flightHandles)))) ∧
  (∀ (s : State), Clocked pllT s → s.dev.bpm.auditing = false → Yields (.auditPassComplete []) s s.dev)

/-- With nothing waiting an admission cycle changes nothing; the one packet waiting at the starting input is admitted by the rules
of its queue: one whose queue has room is enqueued, counted and hands its buffer to QM; one that fails a check is dropped, freed
and counted under that check, and the queue keeps its packets. -/
def Obligations.Admission : Prop :=
  (∀ (s : State) (i : Fin 10), Clocked pllT s → s.dev.qm.arrived = [] → s.dev.host.sqs = [] →
    Yields (.admission i) s s.dev) ∧
  (∀ (s : State) (i : Fin 10) (k : Pkt), Clocked pllT s → s.dev.qm.arrived = [k] → k.input = i → s.dev.host.sqs = [] →
    Yields (.admission i) s (s.dev.keep (Dev.admitOne { s.dev with qm := { s.dev.qm with arrived := [] } } k))) ∧
  (∀ (s : State) (i : Fin 10) (k : Pkt) (c : Nat), Clocked pllT s → s.dev.qm.arrived = [k] → k.input = i →
    s.dev.host.sqs = [] → k.recirc = false → k.act = 1 → k.copy = false → k.queue = 0 → k.origin = .line → k.meterEn = false →
    k.sample = false → s.dev.admitFails (s.dev.queueFor k) { k with colour := 0 } = some c → c ≠ 1 →
    s.dev.chained bankTmq (c - 1) = false →
    Completes (.admission i) s fun d e => e.qm.arrived = [] ∧ e.qm.queues = d.qm.queues ∧
      e.counter bankTmq (c - 1) = d.counter bankTmq (c - 1) + 1#32) ∧
  (∀ (s : State) (i : Fin 10) (k : Pkt) (h : Nat), Clocked pllT s → s.dev.qm.arrived = [k] → k.input = i →
    s.dev.host.sqs = [] → k.recirc = false → k.act = 1 → k.copy = false → k.queue = 0 → k.origin = .line → k.meterEn = false →
    k.sample = false → k.handle = some h → k.tag = 2 → ownsBuf 2 (s.dev.buf h).tag = true → (s.dev.buf h).alloc = true →
    (s.dev.buf h).tag ≠ 15 → s.dev.tagState 2 = .live →
    bit (s.dev.reg Reg.TMQ_CTRL) 1 = false → s.dev.admitFails (s.dev.queueFor k) { k with colour := 0 } = none →
    Completes (.admission i) s fun d e => e.qm.arrived = [] ∧ (e.buf h).tag = 13 ∧
      (∃ j : Pkt, (e.queue (d.queueFor k)).pkts = (d.queue (d.queueFor k)).pkts ++ [j] ∧ j.frame = k.frame ∧ j.handle = some h ∧
        j.tag = 13 ∧ j.uid = k.uid ∧ j.len = k.len) ∧
      (∀ q, q ≠ d.queueFor k → e.queue q = d.queue q))

/-- A queue with nothing to evacuate and an output with nothing to read are left as they are; an evacuation write that completes frees the
on-die buffer, once the packet is all there; a read that returns takes its tokens, and lets the packet cross when the data is good, or
drops it and counts it. The return queue of a port group is served first, then the output's pick, where it fits the nomination; a cell
time is always counted, and moves packets of no queue. A staged packet is sent when the scan finds it and its channel has room, and
waits otherwise; the spare's share serves a slice that holds no port group; nothing crosses a lost Dukider link. -/
def Obligations.Scheduling : Prop :=
  (∀ (s : State) (q : Nat) (k : Pkt), Clocked pllT s → ((s.dev.queue q).pkts.find? fun k => k.evacTo.isSome && !k.headOnly) = some k →
    Yields (.evacuationWriteComplete q) s (s.dev.keep (s.dev.evacWritten q k))) ∧
  (∀ (s : State) (q : Nat), Clocked pllT s → ((s.dev.queue q).pkts.find? fun k => k.evacTo.isSome && !k.headOnly) = none →
    Yields (.evacuationWriteComplete q) s s.dev) ∧
  (∀ (s : State) (o : Fin 10) (k : Pkt) (d : Dev), Clocked pllT s → ((s.dev.noms o).find? fun k => k.reading) = some k →
    evacCharge k.len ≤ s.dev.evacTokens (evacShare k.queue true) →
    d = (s.dev.takeTokens (evacShare k.queue true) (evacCharge k.len)).countLines k.dram 0 k.len →
    (k.onLost s.dev = false → Yields (.evacReadComplete o true) s (s.dev.keep
      ((d.setNoms o ((d.noms o).map fun j => if j.seq = k.seq then { j with reading := false } else j)).inc bankTmq 7))) ∧
    Yields (.evacReadComplete o false) s (s.dev.keep
      ((((d.setNoms o (removeSeq k.seq (d.noms o))).inc bankTmq 9).latchBit Reg.TMQ_STATUS 11).dropPkt k))) ∧
  (∀ (s : State) (o : Fin 10), Clocked pllT s → ((s.dev.noms o).find? fun k => k.reading) = none → ∀ good,
    Yields (.evacReadComplete o good) s s.dev) ∧
  (∀ (s : State) (g : Fin 8) (c : BitVec 128) (q : Nat) (k : Pkt), Clocked pllT s → s.dev.returnHead g = some (q, k) →
    s.dev.nomRoom g k = true →
    Yields (.nominate ⟨g.val, by omega⟩ c) s (s.dev.keep (s.dev.nominate g q k))) ∧
  (∀ (s : State) (g : Fin 8) (c : BitVec 128) (x : Pick), Clocked pllT s → s.dev.returnHead g = none →
    s.dev.pickOutput g (fun p => c.getLsbD p) = some x → s.dev.nomRoom g x.pkt = true →
    Yields (.nominate ⟨g.val, by omega⟩ c) s (s.dev.keep (x.dev.nominate g x.q x.pkt))) ∧
  (∀ (s : State) (c : BitVec 128), Clocked pllT s →
    Yields (.nominate 8 c) s (s.dev.keep s.dev.nominateTrellis) ∧ Yields (.nominate 9 c) s (s.dev.keep s.dev.nominateHost)) ∧
  (∀ (s : State), Clocked pllT s →
    Completes .crossbarCellTime s fun d e => e = { d with cnt := e.cnt, qm := e.qm } ∧ e.qm.queues = d.qm.queues ∧
      e.counter bankSchd 112 = d.counter bankSchd 112 + 1#32 ∧
      (∀ o, ((e.noms o).map fun k => (k.seq, k.frame)) = (d.noms o).map fun k => (k.seq, k.frame))) ∧
  (∀ (s : State) (t : Fin 17), Clocked pllT s → s.dev.dukLost = true → Yields (.dispatch t) s s.dev) ∧
  (∀ (s : State) (g : Fin 8) (k : Pkt) (l : List Pkt) (n m : Nat) (d : Dev), Clocked pllT s → s.dev.dukLost = false →
    scanStaged s.dev (s.dev.noms g) [] = (l, n, m, .send k) → d = ((s.dev.setNoms g l).bump bankShp 1 n).bump bankShp 2 m →
    Yields (.dispatch ⟨g.val, by omega⟩) s (s.dev.keep
      (if d.canSend g k then (d.setNoms g (removeSeq k.seq l)).sendStaged g k else d))) ∧
  (∀ (s : State) (g : Fin 8) (k : Pkt) (l : List Pkt) (n m b i : Nat), Clocked pllT s → s.dev.dukLost = false →
    scanStaged s.dev (s.dev.noms g) [] = (l, n, m, .drop k b i) →
    Yields (.dispatch ⟨g.val, by omega⟩) s (s.dev.keep
      (((((s.dev.setNoms g l).bump bankShp 1 n).bump bankShp 2 m).setNoms g (removeSeq k.seq l)).inc b i |>.dropPkt k))) ∧
  (∀ (s : State) (n : Fin 9) (k : Pkt), Clocked pllT s → s.dev.dukLost = false → (∀ g < 8, s.dev.holder g ≠ some n.val) →
    s.dev.headOf (qKey 4 (8 + n)) = some k → chanRoom (s.dev.slice n).down = true →
    Yields (.dispatch ⟨8 + n.val, by omega⟩) s (s.dev.keep ((s.dev.popQueue (qKey 4 (8 + n))).toIngress n k)))

/-- A tail without an open frame changes nothing; the MAC counts every other whatever became of its head, and a good flow-control frame
acts; a good tail completes the packet wherever it is and corrects its charge, a bad one is counted and stomps or drops it. Replication
takes the packet at the front of its queue, drops one of an invalid group, and makes the copies of its list, whose walk ends at the last
one or after 4,095. The VOQs of a device that stays unreachable are emptied and their packets counted. -/
def Obligations.TailsAndCopies : Prop :=
  (∀ (s : State) (p : Fin 128) (frame : Bytes) (good : Bool), Clocked pllLine s → (s.dev.port p).rxOpen = none →
    Yields (.cutThroughTail p frame good) s s.dev) ∧
  (∀ (s : State) (p : Fin 128) (frame : Bytes) (uid : Nat), Clocked pllLine s → (s.dev.port p).rxOpen = some (some uid) →
    (s.dev.port p).st = .up → frame.length + 4 ≤ s.dev.maxFrame p →
    Yields (.cutThroughTail p frame true) s
      (s.dev.keep ((((s.dev.openFrame p none).countRx p frame).goodTail uid frame).correctCharge uid frame.length)) ∧
    Yields (.cutThroughTail p frame false) s
      (s.dev.keep ((((s.dev.openFrame p none).inc (bankPort p) 6).badTail uid frame).correctCharge uid frame.length))) ∧
  (∀ (s : State) (p : Fin 128) (frame : Bytes), Clocked pllLine s → (s.dev.port p).rxOpen = some none →
    (s.dev.port p).st = .up → frame.length + 4 ≤ s.dev.maxFrame p →
    Yields (.cutThroughTail p frame true) s (s.dev.keep (if isPause frame = true ∨ isPfc frame = true then
      (s.dev.openFrame p none).pauseFrame p frame else s.dev.openFrame p none)) ∧
    Yields (.cutThroughTail p frame false) s ((s.dev.openFrame p none).inc (bankPort p) 6)) ∧
  (∀ (s : State), Clocked pllT s → s.dev.qm.repl = [] → Yields .replicate s s.dev) ∧
  (∀ (s : State) (k : Pkt) (rest : List Pkt), Clocked pllT s → s.dev.qm.repl = k :: rest → k.headOnly = false →
    65536 ≤ k.dest % 2 ^ 18 ∨ bit (Tbl.get 0#64 s.dev.qm.groups (k.dest % 2 ^ 18)) 31 = false →
    Yields .replicate s (s.dev.keep (Dev.badGroup { s.dev with qm := { s.dev.qm with repl := rest } } k))) ∧
  (∀ (s : State) (k : Pkt) (rest : List Pkt) (h n e : Nat) (x : List (BitVec 64)), Clocked pllT s →
    s.dev.qm.repl = k :: rest → k.headOnly = false → k.dest % 2 ^ 18 < 65536 → k.handle = some h →
    bit (Tbl.get 0#64 s.dev.qm.groups (k.dest % 2 ^ 18)) 31 = true →
    e = fld (Tbl.get 0#64 s.dev.qm.groups (k.dest % 2 ^ 18)) 17 0 →
    walkCopies s.dev.qm.copies (k.origin = .fabric) copyFuel 4095 e = some (x, false) → x.length = n → 0 < n →
    Completes .replicate s fun d f => f.qm.repl = rest ∧ f.qm.arrived.length = d.qm.arrived.length + n ∧
      f.qm.queues = d.qm.queues) ∧
  (∀ (s : State) (dv : Fin 32), Clocked pllT s → s.dev.reach.getLsbD dv = true → Yields (.unreachHeadDrop dv) s s.dev) ∧
  (∀ (s : State) (dv : Fin 32), Clocked pllT s → s.dev.reach.getLsbD dv = false →
    (∀ i ∈ s.dev.busyQueues 2, i / 1024 ≠ dv.val) → Yields (.unreachHeadDrop dv) s s.dev) ∧
  (∀ (s : State) (dv : Fin 32), Clocked pllT s → s.dev.reach.getLsbD dv = false →
    Completes (.unreachHeadDrop dv) s fun d e => (∀ n, n < 1024 → (e.queue (qKey 2 (dv.val * 1024 + n))).pkts = []) ∧
      (∀ q, qKind q ≠ 2 ∨ qIdx q / 1024 ≠ dv.val → e.queue q = d.queue q)) ∧
  (∀ (s : State) (dv : Fin 32) (i : Nat) (k : Pkt), Clocked pllT s → s.dev.reach.getLsbD dv = false →
    s.dev.busyQueues 2 = [i] → i / 1024 = dv.val → (s.dev.queue (qKey 2 i)).pkts = [k] → k.handle = none → k.dram = none →
    k.evacTo = none → k.copy = false → k.remoteCopy = false → k.shareKey = none → s.dev.hold k.uid = {} →
    s.dev.chained bankTrl 13 = false →
    Completes (.unreachHeadDrop dv) s fun d e => e.counter bankTrl 13 = d.counter bankTrl 13 + 1#32 ∧ SameRegs d e)

/-- A write in range, with the unlisted bits 0 and its index not in use, is stored and ends OK, and a read then shows it; an index
out of range ends BAD_INDEX; a set unlisted bit BAD_ENTRY; an entry that packets are queued under IN_USE; a refused command latches
bit 8 and changes no entry; TMQ_QSTAT_BYTES answers the depth of the selected queue and latches its packets. -/
def Obligations.QueueTables : Prop :=
  (∀ (s : State) (t : BitVec 2) (x : BitVec 18) (w : BitVec 64), Answers .bar0 Reg.TMQ_CMD s →
    x.toNat < tmqLimit t.toNat → w = BitVec.ofNat 64 (s.dev.dataWords Reg.TMQ_DATA 2) → w &&& tmqReserved t.toNat = 0#64 →
    s.dev.tmqInUse t.toNat x.toNat w = false →
    Completes (.tmqWrite t x) s fun d e => e.tmqGet t.toNat x.toNat = w ∧ e.reg Reg.TMQ_CMD = 0#32 ∧
      RegsBut [Reg.TMQ_CMD] d e ∧ (∀ j, j ≠ x.toNat → e.tmqGet t.toNat j = d.tmqGet t.toNat j) ∧
      e = { d with regs := e.regs, qm := e.qm }) ∧
  (∀ (s : State) (t : BitVec 2) (x : BitVec 18), Answers .bar0 Reg.TMQ_CMD s →
    tmqLimit t.toNat ≤ x.toNat → Yields (.tmqWrite t x) s (s.dev.tmqResult 1) ∧ Yields (.tmqRead t x) s (s.dev.tmqResult 1)) ∧
  (∀ (s : State) (t : BitVec 2) (x : BitVec 18) (w : BitVec 64), Answers .bar0 Reg.TMQ_CMD s →
    x.toNat < tmqLimit t.toNat → w = BitVec.ofNat 64 (s.dev.dataWords Reg.TMQ_DATA 2) → w &&& tmqReserved t.toNat ≠ 0#64 →
    Yields (.tmqWrite t x) s (s.dev.tmqResult 2)) ∧
  (∀ (s : State) (t : BitVec 2) (x : BitVec 18) (w : BitVec 64), Answers .bar0 Reg.TMQ_CMD s →
    x.toNat < tmqLimit t.toNat → w = BitVec.ofNat 64 (s.dev.dataWords Reg.TMQ_DATA 2) → w &&& tmqReserved t.toNat = 0#64 →
    s.dev.tmqInUse t.toNat x.toNat w = true → Yields (.tmqWrite t x) s (s.dev.tmqResult 3)) ∧
  (∀ (s : State) (t : BitVec 2) (x : BitVec 18), Answers .bar0 Reg.TMQ_CMD s →
    x.toNat < tmqLimit t.toNat →
    Completes (.tmqRead t x) s fun d e => BitVec.ofNat 64 (e.dataWords Reg.TMQ_DATA 2) = d.tmqGet t.toNat x.toNat ∧
      e.reg Reg.TMQ_CMD = 0#32 ∧ RegsBut [Reg.TMQ_CMD, Reg.TMQ_DATA 0, Reg.TMQ_DATA 1] d e ∧ e = { d with regs := e.regs }) ∧
  (∀ (s : State) (x : BitVec 18) (w : BitVec 64), Answers .bar0 Reg.REPL_CMD s → x.toNat < 65536 →
    w = BitVec.ofNat 64 (s.dev.dataWords Reg.REPL_DATA 1) → w &&& 0x7FFC0000#64 = 0#64 →
    Completes (.replWrite 0 x) s fun d e => Tbl.get 0#64 e.qm.groups x.toNat = w ∧
      (∀ j, j ≠ x.toNat → Tbl.get 0#64 e.qm.groups j = Tbl.get 0#64 d.qm.groups j) ∧ e.reg Reg.REPL_CMD = 0#32 ∧
      e = { d with regs := e.regs, qm := { d.qm with groups := e.qm.groups } }) ∧
  (∀ (s : State) (x : BitVec 18) (w : BitVec 64), Answers .bar0 Reg.REPL_CMD s →
    w = BitVec.ofNat 64 (s.dev.dataWords Reg.REPL_DATA 2) → w &&& replReserved 1 w = 0#64 →
    Completes (.replWrite 1 x) s fun d e => Tbl.get 0#64 e.qm.copies x.toNat = w ∧
      (∀ j, j ≠ x.toNat → Tbl.get 0#64 e.qm.copies j = Tbl.get 0#64 d.qm.copies j) ∧ e.reg Reg.REPL_CMD = 0#32 ∧
      e = { d with regs := e.regs, qm := { d.qm with copies := e.qm.copies } }) ∧
  (∀ (s : State) (x : BitVec 18) (w : BitVec 64), Answers .bar0 Reg.REPL_CMD s →
    w = BitVec.ofNat 64 (s.dev.dataWords Reg.REPL_DATA 2) → w &&& replReserved 1 w ≠ 0#64 →
    Yields (.replWrite 1 x) s (s.dev.replResult 2)) ∧
  (∀ (s : State) (x : BitVec 18), Answers .bar0 Reg.REPL_CMD s → x.toNat < 65536 →
    Completes (.replRead 0 x) s fun d e => BitVec.ofNat 64 (e.dataWords Reg.REPL_DATA 1) =
        BitVec.ofNat 64 ((Tbl.get 0#64 d.qm.groups x.toNat).toNat % 2 ^ 32) ∧
      e.reg Reg.REPL_CMD = 0#32 ∧ e = { d with regs := e.regs }) ∧
  (∀ (s : State) (x : BitVec 18), Answers .bar0 Reg.REPL_CMD s →
    Completes (.replRead 1 x) s fun d e => BitVec.ofNat 64 (e.dataWords Reg.REPL_DATA 2) = Tbl.get 0#64 d.qm.copies x.toNat ∧
      e.reg Reg.REPL_CMD = 0#32 ∧ e = { d with regs := e.regs }) ∧
  (∀ (s : State) (x : BitVec 18), Answers .bar0 Reg.REPL_CMD s → 65536 ≤ x.toNat →
    Yields (.replRead 0 x) s (s.dev.replResult 1) ∧ Yields (.replWrite 0 x) s (s.dev.replResult 1)) ∧
  (∀ (s : State) (p : Path) (q : Queue), Answers p Reg.TMQ_QSTAT_BYTES s →
    q = s.dev.queue (qKey (fld (s.dev.reg Reg.TMQ_QSTAT_SEL) 20 18) (fld (s.dev.reg Reg.TMQ_QSTAT_SEL) 17 0)) →
    Yields (.qstatRead p) s (Dev.deliver { s.dev with qm := { s.dev.qm with
      qstat := wd (b2n q.evac * 2 ^ 31 + satN 24 q.pkts.length) } } p (wd q.depth)))

/-- A gate edge puts the mask of R244 in force; profiles, bindings, gate entries and headers are written and read through SHP_CMD,
meter profiles and bindings through MTR_CMD; an active bank, a short entry and a malformed profile are refused; reading a shaper's
credit or a meter's buckets brings them up to date first. -/
def Obligations.GatesMeters : Prop :=
  (∀ (s : State) (p : Fin 128), Clocked pllT s →
    Completes (.gateEdge p) s fun d e => Tbl.get 0xFF e.gsm.openMask p = d.gateMask p ∧
      (∀ q, q ≠ p.val → Tbl.get 0xFF e.gsm.openMask q = Tbl.get 0xFF d.gsm.openMask q) ∧
      e = { d with gsm := { d.gsm with openMask := e.gsm.openMask } }) ∧
  (∀ (s : State) (t : BitVec 2) (x : BitVec 20), Answers .bar0 Reg.SHP_CMD s → shpLimit t.toNat ≤ x.toNat →
    Yields (.shpWrite t x) s (s.dev.shpResult 1) ∧ Yields (.shpRead t x) s (s.dev.shpResult 1)) ∧
  (∀ (s : State) (x : BitVec 20), Answers .bar0 Reg.SHP_CMD s → x.toNat < 0x10000 →
    Yields (.shpWrite 0#2 x) s (Dev.shpResult { s.dev with gsm := { s.dev.gsm with
      shpProf := Tbl.set 0#64 s.dev.gsm.shpProf x.toNat (BitVec.ofNat 64 (s.dev.dataWords Reg.SHP_DATA 2)) } } 0)) ∧
  (∀ (s : State) (x : BitVec 20), Answers .bar0 Reg.SHP_CMD s → x.toNat < 0x44480 →
    Yields (.shpWrite 1#2 x) s ((s.dev.shpBind x.toNat (fld (s.dev.reg (Reg.SHP_DATA 0)) 15 0)).shpResult 0)) ∧
  (∀ (s : State) (x : BitVec 20), Answers .bar0 Reg.SHP_CMD s → x.toNat < 0x40000 →
    Yields (.shpWrite 2#2 x) s
      (if gateNs (s.dev.reg (Reg.SHP_DATA 0)) < 8 then s.dev.shpResult 2
       else if s.dev.bankInUse (x.toNat / 2048) (x.toNat / 1024 % 2) then s.dev.shpResult 3
       else Dev.shpResult { s.dev with gsm := { s.dev.gsm with
         gates := Tbl.set 0#32 s.dev.gsm.gates x.toNat (s.dev.reg (Reg.SHP_DATA 0)) } } 0)) ∧
  (∀ (s : State) (x : BitVec 20) (w : Nat), Answers .bar0 Reg.SHP_CMD s → x.toNat < 256 →
    w = s.dev.dataWords Reg.SHP_DATA 4 →
    Yields (.shpWrite 3#2 x) s
      (if s.dev.hdrBad (1024 * x.toNat) w then s.dev.shpResult 2
       else if s.dev.bankInUse (x.toNat / 2) (x.toNat % 2) then s.dev.shpResult 3
       else Dev.shpResult { s.dev with gsm := { s.dev.gsm with hdrs := Tbl.set {} s.dev.gsm.hdrs x.toNat (hdrOf w) } } 0)) ∧
  (∀ (s : State) (x : BitVec 20), Answers .bar0 Reg.SHP_CMD s → x.toNat < 0x40000 →
    Completes (.shpRead 2#2 x) s fun d e => e.reg (Reg.SHP_DATA 0) = d.gateEntry x.toNat ∧ e.reg Reg.SHP_CMD = 0#32 ∧
      RegsBut [Reg.SHP_CMD, Reg.SHP_DATA 0] d e ∧ e = { d with regs := e.regs }) ∧
  (∀ (s : State) (p : Path), Answers p Reg.SHP_CRED s → fld (s.dev.reg Reg.SHP_CRED_SEL) 19 0 < 0x44480 → ∀ (i : Nat) (sh : Shaper),
    i = fld (s.dev.reg Reg.SHP_CRED_SEL) 19 0 → sh = shpUpdate (s.dev.shpProf (s.dev.shaper i).prof) s.dev.time.tsc (s.dev.shaper i) →
    Yields (.shpCredRead p) s ((s.dev.setShaper i sh).deliver p (BitVec.ofInt 32 (sh.credit / (byteU : Int))))) ∧
  (∀ (s : State) (x : BitVec 17) (w : BitVec 128), Answers .bar0 Reg.MTR_CMD s → x.toNat < 0x10000 →
    w = BitVec.ofNat 128 (s.dev.dataWords Reg.MTR_DATA 4) →
    Yields (.mtrWrite 0 x) s (if mtrProfBad w then s.dev.mtrResult 2 else Dev.mtrResult { s.dev with
      gsm := { s.dev.gsm with mtrProf := Tbl.set 0#128 s.dev.gsm.mtrProf x.toNat w } } 0)) ∧
  (∀ (s : State) (x : BitVec 17), Answers .bar0 Reg.MTR_CMD s →
    Yields (.mtrWrite 1 x) s ((s.dev.mtrBind x.toNat (fld (s.dev.reg (Reg.MTR_DATA 0)) 15 0)).mtrResult 0)) ∧
  (∀ (s : State) (x : BitVec 17), Answers .bar0 Reg.MTR_CMD s →
    Completes (.mtrRead 1 x) s fun d e => e.reg (Reg.MTR_DATA 0) = wd (d.meter x.toNat).prof ∧ e.reg Reg.MTR_CMD = 0#32 ∧
      RegsBut [Reg.MTR_CMD, Reg.MTR_DATA 0] d e ∧ e = { d with regs := e.regs }) ∧
  (∀ (s : State) (p : Path) (i : Nat) (m : Meter), Answers p Reg.MTR_BKT_C s → i = fld (s.dev.reg Reg.MTR_BKT_SEL) 16 0 →
    m = mtrRefill (s.dev.mtrProf (s.dev.meter i).prof) s.dev.time.tsc (s.dev.meter i) →
    Completes (.mtrBktRead p) s fun d e => e.meter i = m ∧ e.gsm.bktP = wd (m.p / byteU) ∧ SameRegs d e)

/-- A link enabled leaves OFF for ACQUIRE with its transmitter on; disabled it is OFF, reports no defect and stops sending; pm_clear
empties the closed 15-minute bins; a framer sends again once its transmit PLL is locked. Codeword lock ends ACQUIRE, and codewords and
overhead come in, only on a lane of the configured polarity (log entry 103, DEDUCED): overhead is examined in the hunt and taken at the
frame position in SYNC, and elsewhere counts its codewords alone. A frame sent carries the next number and has its departure noted. A
defect that the lane sees is declared where none suppresses it and its criterion holds, and is cleared where that criterion holds.
A second becomes final once ten follow it, and enters both current bins; time-transfer results and bins are latched as they are read. -/
def Obligations.TrellisLink : Prop :=
  (∀ (s : State) (n : Fin 256), Answers .bar0 (Reg.TRL_LINK_CTRL n) s → bit (s.dev.reg (Reg.TRL_LINK_CTRL n)) 0 = false →
    bit (s.dev.reg (Reg.TRL_LINK_CTRL n)) 4 = false →
    Completes (.trlLinkEnable n) s fun d e => (e.link n).align = 1 ∧ (e.link n).txOn = true ∧ (e.link n).txFrame = 0 ∧
      e.reg (Reg.TRL_LINK_CTRL n) = d.reg (Reg.TRL_LINK_CTRL n) ||| 1#32 ∧ (∀ m, m ≠ n.val → e.link m = d.link m)) ∧
  (∀ (s : State) (n : Fin 256), Answers .bar0 (Reg.TRL_LINK_CTRL n) s → bit (s.dev.reg (Reg.TRL_LINK_CTRL n)) 0 = true →
    bit (s.dev.reg (Reg.TRL_LINK_CTRL n)) 4 = false →
    Completes (.trlLinkDisable n) s fun d e => (e.link n).align = 0 ∧ (e.link n).txOn = false ∧ (e.link n).defects = 0#10 ∧
      bit (e.reg (Reg.TRL_LINK_CTRL n)) 0 = false ∧ (∀ m, m ≠ n.val → e.link m = d.link m)) ∧
  (∀ (s : State) (n : Fin 256), Answers .bar0 (Reg.TRL_LINK_CTRL n) s → 
    Completes (.pmClear n) s fun d e => (e.link n).align = (d.link n).align ∧ (∀ m, m ≠ n.val → e.link m = d.link m) ∧
      (∀ i, i < 17 → 0 < i → (e.link n).pmBins.getD i {} = {})) ∧
  (∀ (s : State) (f : Fin 32), Clocked pllFabric s → s.dev.framerLocked f = true →
    Completes (.fabricTxResume f) s fun d e => (∀ i, i < 8 → (e.link (8 * f + i)).txIdle = false) ∧
      (∀ m, m / 8 ≠ f.val → e.link m = d.link m) ∧ e = { d with fab := e.fab }) ∧
  (∀ (s : State) (n : Fin 256) (w : Bool), Clocked pllFabric s → (s.dev.link n).align = 1 →
    w = bit (s.dev.reg (Reg.TRL_LINK_CTRL n)) 9 →
    Yields (.codewordLock n w) s
      (s.dev.keep ((s.dev.modLink n fun x => { x with align := 2, cands := [], swapped := w }).lofCheck n))) ∧
  (∀ (s : State) (n : Fin 256) (w : Bool), Clocked pllFabric s →
    (s.dev.link n).align ≠ 1 ∨ w ≠ bit (s.dev.reg (Reg.TRL_LINK_CTRL n)) 9 → Yields (.codewordLock n w) s s.dev) ∧
  (∀ (s : State) (n : Fin 256) (pos : Nat) (bs : Bytes) (cws : List Codeword) (bad : Bool), Locked pllFabric s →
    s.dev.hears n = true → ∀ d1 : Dev, d1 = s.dev.takeCws n cws →
    ((d1.link n).align = 4 → (d1.link n).pos = pos →
      Yields (.overheadReceive n pos bs cws bad) s (s.dev.keep (d1.syncFrame n bs bad).updateReach)) ∧
    ((d1.link n).align = 2 ∨ (d1.link n).align = 3 →
      Yields (.overheadReceive n pos bs cws bad) s (s.dev.keep (d1.hunt n pos bs).updateReach)) ∧
    ((d1.link n).align < 2 → Yields (.overheadReceive n pos bs cws bad) s (s.dev.keep d1.updateReach))) ∧
  (∀ (s : State) (n : Fin 256) (pos : Nat) (bs : Bytes) (cws : List Codeword) (bad : Bool), Locked pllFabric s →
    s.dev.hears n = false → Yields (.overheadReceive n pos bs cws bad) s s.dev) ∧
  (∀ (s : State) (n : Fin 256), Clocked pllFabric s → (s.dev.link n).txOn = true → (s.dev.link n).txIdle = false →
    Completes (.overheadTransmit n) s fun d e => (e.link n).txFrame = (d.link n).txFrame + 1 ∧
      (e.link n).ttDep.head? = some ((d.link n).txFrame % 256, d.time.now.stamped) ∧ SameRegs d e ∧
      (∃ bs : Bytes, Output.overhead n bs ∈ e.out ∧ Machine.slice bs 0 8 = faw ∧
        Machine.slice bs 8 4 = be 1 ((d.link n).txFrame % 256) ++ be 3 ((d.link n).txFrame / 256))) ∧
  (∀ (s : State) (n : Fin 256) (b : Fin 10), Clocked pllFabric s → ∀ d1 : Dev, d1 = s.dev.sigRoll n → (d1.link n).align ≠ 0 →
    laneDefect b = true → (d1.link n).has b = false → (d1.link n).suppressed b = false → (d1.link n).declares b = true →
    Yields (.defectDeclare n b) s (s.dev.keep (d1.setDefect n b).updateReach) ∧
    Completes (.defectDeclare n b) s fun _ e => (e.link n).has b = true ∧ bit (e.reg (Reg.TRL_LINK_STATUS n)) (8 + b) = true ∧
      bit (e.reg Reg.TRL_STATUS) 8 = true) ∧
  (∀ (s : State) (n : Fin 256) (b : Fin 10), Clocked pllFabric s → ∀ d1 : Dev, d1 = s.dev.sigRoll n →
    (laneDefect b = true → (d1.link n).clears b = true →
      Yields (.defectClear n b) s (s.dev.keep ((d1.unsetDefect n b).lofCheck n).updateReach) ∧
      Completes (.defectClear n b) s fun _ e => (e.link n).has b = false) ∧
    (laneDefect b = false ∨ (d1.link n).clears b = false → Yields (.defectClear n b) s (s.dev.keep d1))) ∧
  (∀ (s : State) (p : Path) (n : Fin 256), Answers p (Reg.TRL_LINK_CTRL n + 0x20) s →
    Yields (.ttOffsetRead p n) s ((s.dev.setLink n { s.dev.link n with
      ttLatch := ((s.dev.link n).ttDelay, (s.dev.link n).ttInfo) }).deliver p (s.dev.link n).ttOffset)) ∧
  (∀ (s : State) (n : Fin 256), Clocked pllFabric s → ∀ d1 : Dev, d1 = s.dev.pmRoll n → (d1.link n).pmPend.length < 11 →
    Yields (.pmSecondFinal n) s (s.dev.keep d1)) ∧
  (∀ (s : State) (n : Fin 256) (c : PmSec) (rest : List PmSec) (ua : Bool), Clocked pllFabric s → s.dev.pmRoll n = s.dev →
    (s.dev.link n).pmPend = c :: rest → 10 ≤ rest.length → bit (s.dev.reg Reg.TRL_CTRL) 0 = true →
    ua = pmUnavail (s.dev.link n).unavail (c :: rest) →
    Yields (.pmSecondFinal n) s (s.dev.keep (((s.dev.setLink n { s.dev.link n with pmPend := rest, unavail := ua }).pmEnter n 0 900 c
      (rest.headD (s.dev.link n).pmCur) ua).pmEnter n 17 86400 c (rest.headD (s.dev.link n).pmCur) ua))) ∧
  (∀ (s : State) (p : Path) (n : Fin 256) (b : PmBin), Answers p (Reg.TRL_LINK_CTRL n + 0x800) s → b = (s.dev.link n).pmBins.getD 0 {} →
    Yields (.pmBinRead p n false) s ((s.dev.setLink n { s.dev.link n with
      binLatch := (b, (s.dev.link n).binLatch.2) }).deliver p (wd b.start))) ∧
  (∀ (s : State) (p : Path) (n : Fin 256) (b : PmBin), Answers p (Reg.TRL_LINK_CTRL n + 0x800) s → b = (s.dev.link n).pmBins.getD 17 {} →
    Yields (.pmBinRead p n true) s ((s.dev.setLink n { s.dev.link n with
      binLatch := ((s.dev.link n).binLatch.1, b) }).deliver p (wd b.start)))

/-- A slot of a transmitter that is off sends nothing, one that sends AIS (as one without a page does) sends an idle cell, and one whose
entry is RELAY sends the cell that waits for it. With its codewords counted, a cell slot is taken only in SYNC, on a lane of the
configured polarity (log entry 103, DEDUCED): a malformed cell and one with a bad payload are counted and dropped and make the frame
errored, as an uncorrectable codeword does; a good data cell is counted and routed. The gap and idle timers of a context act on it. A
connection entry is written, which makes its page empty, while no manager is obeyed and the page is not active, and is read at any
time; so is the generation of a page, at index 0. A switch acts at its boundary; it fails with generation 0, and the receive side gives up without a boundary. -/
def Obligations.TrellisCells : Prop :=
  (∀ (s : State) (n : Fin 256) (i : Fin 64), Clocked pllFabric s →
    (s.dev.link n).txOn = false ∨ (s.dev.link n).txIdle = true ∨ (s.dev.link n).txFrame = 0 →
    Yields (.cellSlotTransmit n i) s s.dev) ∧
  (∀ (s : State) (n : Fin 256) (i : Fin 64), Clocked pllFabric s → (s.dev.link n).txOn = true → (s.dev.link n).txIdle = false →
    (s.dev.link n).txFrame ≠ 0 → s.dev.sendsAis n = true →
    Yields (.cellSlotTransmit n i) s (s.dev.keep (s.dev.sendIdle n)) ∧
    Completes (.cellSlotTransmit n i) s fun d e => Output.cell n idleCell.bytes ∈ e.out ∧ SameRegs d e) ∧
  (∀ (s : State) (n : Fin 256) (i : Fin 64) (pg : Nat) (r : Relay) (t : Nat), Clocked pllFabric s → (s.dev.link n).txOn = true →
    (s.dev.link n).txIdle = false → (s.dev.link n).txFrame ≠ 0 → s.dev.sendsAis n = false → (s.dev.link n).txPage = some pg →
    t = 64 * (((s.dev.link n).txFrame - 1) % 16) + i.val → fld (s.dev.connEntry n 0 pg t) 31 30 = 2 →
    (s.dev.fab.relays.find? fun r => r.link = n.val && r.slot = t && r.ready ≤ s.dev.time.tsc) = some r →
    Yields (.cellSlotTransmit n i) s (s.dev.keep (s.dev.sendRelay n r))) ∧
  (∀ (s : State) (n : Fin 256) (i : Fin 64) (bs : Bytes) (cws : List Codeword) (bad : Bool), Locked pllFabric s →
    s.dev.hears n = true → ∀ d1 : Dev, d1 = s.dev.takeCws n cws → (d1.link n).align ≠ 4 →
    Yields (.cellReceive n i bs cws bad) s (s.dev.keep d1)) ∧
  (∀ (s : State) (n : Fin 256) (i : Fin 64) (bs : Bytes) (cws : List Codeword) (bad : Bool), Locked pllFabric s →
    s.dev.hears n = false → Yields (.cellReceive n i bs cws bad) s s.dev) ∧
  (∀ (s : State) (n : Fin 256) (i : Fin 64) (bs : Bytes) (cws : List Codeword) (bad : Bool) (c : Cell) (d1 d2 : Dev), Locked pllFabric s →
    s.dev.hears n = true → d1 = s.dev.takeCws n cws → (d1.link n).align = 4 → d2 = (if bad then d1.frameError n else d1) →
    (d2.link n).align = 4 → (d2.link n).down = false → (d2.link n).selfLoop d2.devId = false → c = Cell.ofBytes bs n →
    (c.malformed bs = true →
      Yields (.cellReceive n i bs cws bad) s (s.dev.keep (((d2.inc (bankLink n) 5).frameError n).cellDropped n))) ∧
    (c.malformed bs = false → c.payBad bs = true →
      Yields (.cellReceive n i bs cws bad) s (s.dev.keep (((d2.inc (bankLink n) 6).frameError n).cellDropped n))) ∧
    (c.malformed bs = false → c.payBad bs = false → c.valid = true →
      Yields (.cellReceive n i bs cws bad) s
        (s.dev.keep ((d2.inc (bankLink n) 0).routeCell n (64 * ((d2.link n).rxMfi % 16) + i) c bs))) ∧
    (c.malformed bs = false → c.payBad bs = false → c.valid = false →
      Yields (.cellReceive n i bs cws bad) s (s.dev.keep d2))) ∧
  (∀ (s : State) (src : Fin 32) (tc : Fin 8), Clocked pllFabric s → (s.dev.ctx (ctxKey src tc)).gap = none →
    Yields (.reorderGapTimeout src tc) s s.dev) ∧
  (∀ (s : State) (src : Fin 32) (tc : Fin 8) (c : Cell) (t : Nat), Clocked pllFabric s →
    (s.dev.ctx (ctxKey src tc)).gap = some t → (s.dev.ctx (ctxKey src tc)).sync = false →
    (s.dev.ctx (ctxKey src tc)).pkt = none → (s.dev.ctx (ctxKey src tc)).held = [c] → c.first = false →
    Completes (.reorderGapTimeout src tc) s fun d e => (e.ctx (ctxKey src tc)).sync = true ∧
      (e.ctx (ctxKey src tc)).held = [] ∧ (e.ctx (ctxKey src tc)).exp = (c.seq + 1) % 65536 ∧
      (∀ k, k ≠ ctxKey src tc → e.ctx k = d.ctx k)) ∧
  (∀ (s : State) (src : Fin 32) (tc : Fin 8), Clocked pllFabric s → (s.dev.ctx (ctxKey src tc)).held = [] →
    Yields (.contextIdleTimeout src tc) s (s.dev.setCtx (ctxKey src tc) { s.dev.ctx (ctxKey src tc) with sync := false })) ∧
  (∀ (s : State) (t : BitVec 2) (l : BitVec 8) (pg : Bool) (x : BitVec 10), Answers .bar0 Reg.TRL_CAL_CMD s →
    s.dev.fab.obeyed ≠ 0 → Yields (.calWrite t l pg x) s (s.dev.calResult 4)) ∧
  (∀ (s : State) (t : BitVec 2) (l : BitVec 8) (pg : Bool) (x : BitVec 10) (w : Word), Answers .bar0 Reg.TRL_CAL_CMD s → s.dev.fab.obeyed = 0 → t.toNat < 2 → w = s.dev.reg Reg.TRL_CAL_DATA →
    s.dev.badConn t.toNat w = false → (s.dev.link l.toNat).page t.toNat ≠ some (b2n pg) →
    Completes (.calWrite t l pg x) s fun d e => e.connEntry l.toNat t.toNat (b2n pg) x.toNat = w ∧ e.gen l.toNat t.toNat (b2n pg) = 0 ∧
      e.fab.links = d.fab.links ∧ e.reg Reg.TRL_CAL_CMD = 0#32) ∧
  (∀ (s : State) (t : BitVec 2) (l : BitVec 8) (pg : Bool) (x : BitVec 10), Answers .bar0 Reg.TRL_CAL_CMD s →
    t.toNat < 2 →
    Completes (.calRead t l pg x) s fun d e => e.reg Reg.TRL_CAL_DATA = d.connEntry l.toNat t.toNat (b2n pg) x.toNat ∧
      e.reg Reg.TRL_CAL_CMD = 0#32 ∧ RegsBut [Reg.TRL_CAL_CMD, Reg.TRL_CAL_DATA] d e ∧ e = { d with regs := e.regs }) ∧
  (∀ (s : State) (t : BitVec 2) (l : BitVec 8) (pg : Bool) (x : BitVec 10), Answers .bar0 Reg.TRL_CAL_CMD s → 2 ≤ t.toNat →
    (x.toNat = 0 → Completes (.calRead t l pg x) s fun d e =>
      e.reg Reg.TRL_CAL_DATA = wd (d.gen l.toNat (calDir t.toNat) (b2n pg)) ∧ e.reg Reg.TRL_CAL_CMD = 0#32) ∧
    (x.toNat ≠ 0 → Yields (.calRead t l pg x) s (s.dev.keep (s.dev.calResult 1))) ∧
    (x.toNat ≠ 0 → s.dev.fab.obeyed = 0 → Yields (.calWrite t l pg x) s (s.dev.keep (s.dev.calResult 1))) ∧
    (x.toNat = 0 → s.dev.fab.obeyed = 0 → (s.dev.link l.toNat).page (calDir t.toNat) = some (b2n pg) →
      Yields (.calWrite t l pg x) s (s.dev.keep (s.dev.calResult 3))) ∧
    (x.toNat = 0 → s.dev.fab.obeyed = 0 → (s.dev.link l.toNat).page (calDir t.toNat) ≠ some (b2n pg) →
      Completes (.calWrite t l pg x) s fun d e =>
        e.gen l.toNat (calDir t.toNat) (b2n pg) = fld (d.reg Reg.TRL_CAL_DATA) 15 0 ∧ e.reg Reg.TRL_CAL_CMD = 0#32)) ∧
  (∀ (s : State) (n : Fin 256), Clocked pllFabric s → (s.dev.link n).txDue = none → Yields (.calTxPageSwitch n) s s.dev) ∧
  (∀ (s : State) (n : Fin 256) (a : Nat × Nat) (d1 : Dev), Clocked pllFabric s → (s.dev.link n).txDue = some a →
    d1 = s.dev.setLink n { s.dev.link n with txArm := (s.dev.link n).txArm.erase a } →
    (s.dev.gen n 0 ((s.dev.link n).standby 0) = 0 → Yields (.calTxPageSwitch n) s (s.dev.keep (d1.switchFails n))) ∧
    (s.dev.gen n 0 ((s.dev.link n).standby 0) ≠ 0 →
      Completes (.calTxPageSwitch n) s fun d e => (e.link n).txPage = some ((d.link n).standby 0))) ∧
  (∀ (s : State) (n : Fin 256) (t : Nat), Clocked pllFabric s → (s.dev.link n).rxArm = some t →
    (s.dev.link n).rxBoundary = true → s.dev.rxAgrees n = true → 10 * s.dev.time.now.units ≤ (10 * t + 236304) * nsUnit →
    Completes (.calRxPageSwitch n) s fun d e => (e.link n).rxPage = some ((d.link n).standby 1) ∧ (e.link n).rxArm = none ∧
      bit (e.reg Reg.TRL_CAL_STATUS) 9 = true) ∧
  (∀ (s : State) (n : Fin 256) (t : Nat), Clocked pllFabric s → (s.dev.link n).rxArm = some t →
    Yields (.calRxSwitchTimeout n) s (s.dev.keep ((s.dev.modLink n fun x => { x with rxArm := none }).switchFails n)))

/-- The end of an election makes a candidate in ELECTING, once forwarding has started, ACTIVE with its own claim obeyed; it does
nothing otherwise. The loss of the obeyed manager leaves a device obeying nobody, and starts a standby candidate's election with the
next epoch; with nobody obeyed it does nothing. -/
def Obligations.Managers : Prop :=
  (∀ (s : State), Clocked pllFabric s → s.dev.candidate = true → s.dev.vint.started = true → s.dev.fab.role = 0 →
    Yields .electTimeout s (s.dev.keep s.dev.becomeActive) ∧
    Completes .electTimeout s fun d e => e.fab.role = 2 ∧ e.fab.obeyed = d.ownClaim) ∧
  (∀ (s : State), Clocked pllFabric s → s.dev.candidate = false ∨ s.dev.vint.started = false ∨ s.dev.fab.role ≠ 0 →
    Yields .electTimeout s s.dev) ∧
  (∀ (s : State), Clocked pllFabric s → s.dev.fab.obeyed ≠ 0 → s.dev.isManager = false → s.dev.src ≠ 3 →
    Completes .managerLoss s fun d e => e.fab.obeyed = 0 ∧ bit (e.reg Reg.TRL_MGR_STATUS) 8 = true ∧
      (d.candidate = true → d.fab.role = 1 → e.fab.role = 0 ∧
        e.fab.claim = (claimEpoch d.fab.obeyed + 1) % 2048 * 32 + d.devId) ∧
      (d.candidate = false ∨ d.fab.role ≠ 1 → e.fab.role = d.fab.role ∧ e.fab.claim = d.fab.claim)) ∧
  (∀ (s : State), Clocked pllFabric s → s.dev.fab.obeyed = 0 → Yields .managerLoss s s.dev)

/-- A report goes to the obeyed manager, and a manager records those it receives, while the firmware serves. Calendars are recomputed
only by a manager of at least two devices: the plan takes the next generation, and the devices that have reported must answer (log entry
123, DESIGN CHOICE). A plan from the obeyed manager is expanded and answered, with ACK only where every page was written; one from
another is a foreign message. A snapshot leaves a manager, and a standby candidate stores one that is whole. -/
def Obligations.ManagerMessages : Prop :=
  (∀ (s : State), Clocked pllFabric s → s.dev.mgmt.serving = true → s.dev.isManager = false → s.dev.fab.obeyed ≠ 0 →
    Yields .reportSend s (s.dev.keep (Dev.sendMsg { s.dev with fab := { s.dev.fab with admitted := [] } } 4
      (claimDev s.dev.fab.obeyed) s.dev.report.bytes))) ∧
  (∀ (s : State) (src : Fin 32) (v : Nat) (bs : Bytes) (d1 : Dev), Clocked pllFabric s → s.dev.mgmt.serving = true →
    s.dev.takeInbox 4 (some src.val) = (some (v, bs), d1) →
    Yields (.reportReceive src) s (s.dev.keep (d1.reportReceived v bs))) ∧
  (∀ (s : State) (src : Fin 32), Clocked pllFabric s → s.dev.fab.inbox = [] → Yields (.reportReceive src) s s.dev) ∧
  (∀ (s : State), Clocked pllFabric s → s.dev.mgmt.serving = true → s.dev.isManager = true → 2 ≤ s.dev.systemDevs.length →
    s.dev.answering s.dev.systemDevs ≠ [] →
    Completes .calendarRecompute s fun d e => e.fab.planGen = nextGen d.fab.planGen ∧
      e.fab.planWait = d.answering d.systemDevs ∧ e.fab.planNack = false ∧ e.fab.history = []) ∧
  (∀ (s : State), Clocked pllFabric s → s.dev.isManager = false ∨ s.dev.systemDevs.length < 2 →
    Yields .calendarRecompute s s.dev) ∧
  (∀ (s : State) (v : Nat) (bs : Bytes) (d1 : Dev), Clocked pllFabric s → s.dev.mgmt.serving = true →
    s.dev.takeInbox 3 none = (some (v, bs), d1) →
    (d1.fromManager v = true → bs.length = planLen → (Plan.ofBytes bs).gen ≠ 0 → ∀ d2 : Dev, d2 = d1.expandPlan (Plan.ofBytes bs) →
      Yields .planReceive s (s.dev.keep (d2.sendMsg 2 v
        (answerBytes (d2.planWritten (Plan.ofBytes bs)) true (Plan.ofBytes bs).gen 0)))) ∧
    (d1.fromManager v = true → bs.length ≠ planLen ∨ (Plan.ofBytes bs).gen = 0 →
      Yields .planReceive s (s.dev.keep (d1.sendMsg 2 v (answerBytes false true (Plan.ofBytes bs).gen 0)))) ∧
    (d1.fromManager v = false → Yields .planReceive s (s.dev.keep d1.foreignMsg))) ∧
  (∀ (s : State), Clocked pllFabric s →
    Yields .snapshotBroadcast s (if s.dev.isManager then s.dev.keep (s.dev.broadcast 5 s.dev.snapBytes) else s.dev)) ∧
  (∀ (s : State) (v : Nat) (bs : Bytes) (d1 : Dev) (m : Nat × Dev), Clocked pllFabric s →
    s.dev.takeInbox 5 none = (some (v, bs), d1) → d1.candidate = true → d1.fab.role = 1 → bs.length = snapLen →
    d1.tableLost = false → m = d1.sentAt v →
    Yields .snapshotReceive s (s.dev.keep ((((m.2.dramWrite rackRegion 0 bs).setFab
      { m.2.fab with snapshot := some m.1 }).inc bankTrl 20).latchBit Reg.TRL_MGR_STATUS 9)) ∧
    Completes .snapshotReceive s fun _ e => e.fab.snapshot = some m.1 ∧ bit (e.reg Reg.TRL_MGR_STATUS) 9 = true)

/-- A read of a line goes to the copy that the rule names, and is counted at the first copy where that is another; a read of a line
whose one copy has a channel that takes no request waits, as a write does until every copy that is not lost can take it; a line beyond
the region is not read (log entry 118, DESIGN CHOICE). A write stores 64 bytes that read back, leaves every other byte of the stacks,
and keeps the contents canonical. Up to three symbols in error are corrected; four, five and another row's line are not. The scrub
reads its next line and moves on, with a count at the end of its round, and does nothing when off. -/
def Obligations.DramLines : Prop :=
  (∀ (s : State) (r : Fin 4) (m : Nat) (ecc : DramEcc) (k : Nat), Runs s → m < s.dev.regionLines r → s.dev.writeWaits r m = none →
    s.dev.copyFor r m = some k → s.dev.stackLost k = false →
    s.dev.flows (memDom k (lineAt (s.dev.stackLine r m)).channel) = true →
    Yields (.dramRead r m ecc) s (s.dev.keep ((s.dev.readLine k (s.dev.stackLine r m) ecc).2.countRedirect r m k))) ∧
  (∀ (s : State) (r : Fin 4) (m a b : Nat) (ecc : DramEcc), Runs s → r.val = 1 ∨ r.val = 3 → m < s.dev.regionLines r →
    s.dev.writeWaits r m = none → readOrder r m = [a, b] → s.dev.copyOut a (s.dev.stackLine r m) = true →
    s.dev.copyOut b (s.dev.stackLine r m) = false → s.dev.flows (memDom b (lineAt (s.dev.stackLine r m)).channel) = true →
    Yields (.dramRead r m ecc) s (s.dev.keep ((s.dev.readLine b (s.dev.stackLine r m) ecc).2.inc (bankMc a) 11))) ∧
  (∀ (s : State) (r : Fin 4) (m : Nat) (ecc : DramEcc) (k b : Nat), Runs s → m < s.dev.regionLines r → s.dev.writeWaits r m = none →
    s.dev.copyFor r m = some k → b = memDom k (lineAt (s.dev.stackLine r m)).channel → s.dev.flows b = false →
    Yields (.dramRead r m ecc) s (s.dev.park b (.dramRead r m ecc))) ∧
  (∀ (s : State) (r : Fin 4) (m : Nat) (ecc : DramEcc), Runs s → s.dev.regionLines r ≤ m → Yields (.dramRead r m ecc) s s.dev) ∧
  (∀ (s : State) (r : Fin 4) (m : Nat) (line : Bytes), Runs s → m < s.dev.regionLines r → line.length = 64 →
    s.dev.lineAlive r m = true → (∀ k ∈ copiesOf r m, s.dev.flows (memDom k (lineAt (s.dev.stackLine r m)).channel) = true) →
    Completes (.dramWrite r m line) s fun d e => e.dramRead r (64 * m) 64 = line ∧
      (∀ a, (∀ k ∈ copiesOf r m, ∀ b, b < 64 → a ≠ stackKey k (d.stackLine r m) b) → Tbl.get 0#8 e.dram a = Tbl.get 0#8 d.dram a) ∧
      (Tbl.Wf 0#8 d.dram → Tbl.Wf 0#8 e.dram) ∧ SameRegs d e ∧ e = { d with dram := e.dram, mc := e.mc, cnt := e.cnt }) ∧
  (∀ (s : State) (r : Fin 4) (m b : Nat) (line : Bytes), Runs s → m < s.dev.regionLines r →
    s.dev.stopped ((copiesOf r m).map fun k => memDom k (lineAt (s.dev.stackLine r m)).channel) = some b →
    Yields (.dramWrite r m line) s (s.dev.park b (.dramWrite r m line))) ∧
  (∀ (d : Dev) (n : Fin 73), n.val ≤ 5 → d.judge (.symbols n) =
    (if n.val = 0 then (.clean, d) else if n.val ≤ 3 then (.corrected, d) else (.bad, d)) ∧ d.judge .otherRow = (.bad, d)) ∧
  (∀ (s : State) (k : Fin 8) (ecc : DramEcc) (n : Nat), Clocked (pllMclk k) s → n = (s.dev.mcOf k).scrub →
    bit (s.dev.reg (Reg.MC_CTRL k)) 8 = true → s.dev.canServe k n = true → n + 1 ≠ 2 ^ 28 →
    Yields (.scrubRead k ecc) s (s.dev.keep ((s.dev.modMc k fun m => { m with scrub := n + 1 }).readLine k n ecc).2)) ∧
  (∀ (s : State) (k : Fin 8) (ecc : DramEcc) (n : Nat), Clocked (pllMclk k) s → n = (s.dev.mcOf k).scrub →
    bit (s.dev.reg (Reg.MC_CTRL k)) 8 = true → s.dev.canServe k n = true → n + 1 = 2 ^ 28 →
    Yields (.scrubRead k ecc) s
      (s.dev.keep (((s.dev.modMc k fun m => { m with scrub := 0 }).inc (bankMc k) 13).readLine k n ecc).2)) ∧
  (∀ (s : State) (k : Fin 8) (ecc : DramEcc), Clocked (pllMclk k) s → bit (s.dev.reg (Reg.MC_CTRL k)) 8 = false →
    Yields (.scrubRead k ecc) s s.dev)

/-- An alert is counted and starts a replay from the failed command on, and the eighth failed replay of a command takes the channel into
recovery; recovery that succeeds returns it to service, and one that fails loses the stack. A due refresh wakes its rank, or is owed
while the channel is paused or replays, at most eight times (log entry 117); an idle rank powers down when enabled; a pause ends, and
what is owed is issued. A lost stack is LOST with its cause. A commit of a good partition takes effect before forwarding and moves no
byte, and is refused after. -/
def Obligations.DramChannels : Prop :=
  (∀ (s : State) (k : Fin 8) (c : Fin 16) (wr failed : Bool) (after : Fin 32), Clocked (pllMclk k) s → (s.dev.mcOf k).st ≠ .ready →
    Yields (.dramAlert k c wr failed after) s s.dev) ∧
  (∀ (s : State) (k : Fin 8) (c : Fin 16) (wr : Bool) (after : Fin 32), Clocked (pllMclk k) s → (s.dev.mcOf k).st = .ready →
    (s.dev.chan k c).recovering = false → (s.dev.chan k c).pause = none →
    (∀ j, ∀ p ∈ (s.dev.mcOf j).chans, p.2.waiting = []) →
    Completes (.dramAlert k c wr false after) s fun d e =>
      (e.chan k c) = { d.chan k c with replaying := true, replays := 0, retry := (d.chan k c).retry.take (after.val + 1) } ∧
      (∀ j, j ≠ k.val → e.mcOf j = d.mcOf j) ∧ bit (e.reg (Reg.MC_STATUS k)) 10 = true ∧ RegsBut [Reg.MC_STATUS k] d e) ∧
  (∀ (s : State) (k : Fin 8) (c : Fin 16) (wr : Bool) (after : Fin 32), Clocked (pllMclk k) s → (s.dev.mcOf k).st = .ready →
    (∀ p ∈ (s.dev.mcOf k).chans, p.2.recovering = false) → (s.dev.chan k c).pause = none → (s.dev.chan k c).replaying = true →
    (s.dev.chan k c).replays = 7 → (∀ j, ∀ p ∈ (s.dev.mcOf j).chans, p.2.waiting = []) →
    Completes (.dramAlert k c wr true after) s fun _ e => (e.chan k c).recovering = true ∧ (e.chan k c).replaying = false ∧
      (e.mcOf k).st = .ready ∧ bit (e.reg (Reg.MC_STATUS k)) 13 = true) ∧
  (∀ (s : State) (k : Fin 8) (c : Fin 16), Clocked (pllMclk k) s → (s.dev.chan k c).recovering = true →
    Yields (.channelRecoveryComplete k c true) s (s.dev.keep (Dev.startPauses
      ((s.dev.modChan k c fun x => { x with recovering := false }).inc (bankMc k) 14) 128)) ∧
    Yields (.channelRecoveryComplete k c false) s
      (s.dev.keep ((s.dev.modChan k c fun x => { x with failed := true }).loseStack k 2))) ∧
  (∀ (s : State) (k : Fin 8) (c : Fin 16) (ok : Bool), Clocked (pllMclk k) s → (s.dev.chan k c).recovering = false →
    Yields (.channelRecoveryComplete k c ok) s s.dev) ∧
  (∀ (s : State) (k : Fin 8) (c : Fin 16) (b : Fin 128), Clocked (pllMclk k) s → (s.dev.mcOf k).st = .ready →
    ((s.dev.chan k c).pause ≠ none ∨ (s.dev.chan k c).replaying = true → Tbl.get 0 (s.dev.chan k c).owed b < 8 →
      Yields (.refresh k c b) s (s.dev.modChan k c fun x => { x with owed := Tbl.modify 0 x.owed b (· + 1) })) ∧
    ((s.dev.chan k c).pause = none ∧ (s.dev.chan k c).replaying = false ∨ 8 ≤ Tbl.get 0 (s.dev.chan k c).owed b →
      Yields (.refresh k c b) s (s.dev.modChan k c fun x => { x with
        pd := x.pd &&& ~~~BitVec.ofNat 2 (2 ^ (b.val / 64)), retry := (.refresh b.val :: x.retry).take 32 }))) ∧
  (∀ (s : State) (k : Fin 8) (c : Fin 16) (r : Fin 2), Clocked (pllMclk k) s → (s.dev.mcOf k).st = .ready →
    bit (s.dev.reg (Reg.MC_CTRL k)) 4 = true → (s.dev.chan k c).busy = false → (s.dev.chan k c).pd.getLsbD r = false →
    Completes (.rankPowerDown k c r) s fun d e => (e.chan k c).pd.getLsbD r = true ∧ SameRegs d e ∧
      e = { d with mc := e.mc, cnt := e.cnt }) ∧
  (∀ (s : State) (k : Fin 8) (c : Fin 16), Clocked (pllMclk k) s → (s.dev.chan k c).pause = none →
    Yields (.retrainPauseEnd k c) s s.dev) ∧
  (∀ (s : State) (k : Fin 8) (c : Fin 16) (ns : Nat), Clocked (pllMclk k) s → (s.dev.chan k c).pause = some ns →
    Yields (.retrainPauseEnd k c) s (s.dev.keep (Dev.startPauses ((s.dev.modChan k c fun x =>
      ({ x with pause := none, lastRetrain := s.dev.time.tsc } : Chan).payOwed).inc (bankMc k) 9) 128))) ∧
  (∀ (s : State) (k : Fin 8) (cause : Fin 16), Runs s → (s.dev.mcOf k).st = .ready →
    (∀ j, j ≠ k.val → (s.dev.mcOf j).st ≠ .lost) →
    Completes (.stackLost k cause) s fun d e => (e.mcOf k).st = .lost ∧ (e.mcOf k).cause = cause ∧
      (∀ j, j ≠ k.val → e.mcOf j = d.mcOf j) ∧ bit (e.reg (Reg.MC_STATUS k)) 14 = true ∧ bit (e.reg Reg.BPM_STATUS) 15 = true ∧
      e.spr.cellar = d.spr.cellar ∧ ∀ c, (e.chan k c).lastRetrain = (d.chan k c).lastRetrain) ∧
  (∀ (s : State) (k : Fin 8) (cause : Fin 16), Runs s → (s.dev.mcOf k).st = .lost → Yields (.stackLost k cause) s s.dev) ∧
  (∀ (s : State), Answers .bar0 Reg.MC_PART_CMD s → s.dev.vint.started = false → s.dev.badPart = false →
    Completes .partitionCommit s fun d e => e.part = (List.range 4).map d.staged ∧ e.reg Reg.MC_PART_CMD = 0#32 ∧
      RegsBut [Reg.MC_PART_CMD] d e ∧ e = { d with regs := e.regs, part := e.part }) ∧
  (∀ (s : State), Answers .bar0 Reg.MC_PART_CMD s → s.dev.vint.started = true →
    Completes .partitionCommit s fun d e => e.part = d.part ∧ e.dram = d.dram ∧ e.reg Reg.MC_PART_CMD = put 2 28 ∧
      (∀ k, k < 8 → bit (e.reg (Reg.MC_STATUS k)) 8 = true) ∧ ∀ i, i < 4 → e.staged i = ((d.part.getD i (0, 0)).1 % 2 ^ 14,
        (d.part.getD i (0, 0)).2 % 2 ^ 15))

/-- A doorbell within its ring moves the tail or the head seen, and any other is counted and changes nothing else. In the ring's turn
(log entry 126), or where a poll issued the read, unit 0 of the right phase and length makes an entry in flight and passes the head, and
one of the wrong phase counts a poll; out of its turn nothing is read. The rest of a longer entry completes it; the next completion of a
CQ leaves its ring's list; a valid ring is enabled, an invalid one refused; a disabled ring drains and then is DISABLED; a read of an
entry's rest, or of unit 0, that gets no completion ends the entry and puts an active ring into FAULT; the tag of an entry whose unit 0
was not read is a free value. -/
def Obligations.HostRings : Prop :=
  (∀ (s : State) (q : Fin 16384) (v : Word) (t : Nat) (d : Dev), Clocked pllHost s → s.dev.busUp .bar0 = true →
    d = s.dev.hostWakes .bar0 → t = fld v 19 0 → fld v 31 20 = 0 → (d.sq q).st = .active → t < d.sqSize q →
    Yields (.sqDoorbell q v false) s (d.setSq q { d.sq q with
      tailSeen := t, polls := 0, waitDb := false,
      ahead := (d.sq q).ahead.filter fun a => ringDist (d.sqSize q) (d.sq q).tailSeen t ≤ ringDist (d.sqSize q) (d.sq q).tailSeen a })) ∧
  (∀ (s : State) (q : Fin 16384) (v : Word) (p : Bool) (d : Dev), Clocked pllHost s → s.dev.busUp .bar0 = true →
    d = s.dev.hostWakes .bar0 → (p = true ∨ fld v 31 20 ≠ 0 ∨ (d.sq q).st ≠ .active ∨ d.sqSize q ≤ fld v 19 0) →
    Yields (.sqDoorbell q v p) s (s.dev.keep ((d.inc bankHost 13).latchBit Reg.HOST_STATUS 10))) ∧
  (∀ (s : State) (c : Fin 4096) (v : Word), Clocked pllHost s → s.dev.busUp .bar0 = true → fld v 31 16 = 0 →
    (s.dev.cq c).on = true → fld v 15 0 < s.dev.cqSize c →
    ringDist (s.dev.cqSize c) (s.dev.cq c).head (fld v 15 0) ≤ ringDist (s.dev.cqSize c) (s.dev.cq c).head (s.dev.cq c).tail →
    (s.dev.cq c).held = [] →
    Completes (.cqDoorbell c v false) s fun d e => e.cq c = { d.cq c with head := fld v 15 0, stopped := false } ∧
      (∀ b, b ≠ c.val → e.cq b = d.cq b) ∧ SameRegs d e) ∧
  (∀ (s : State) (c : Fin 4096) (v : Word) (p : Bool) (d : Dev), Clocked pllHost s → s.dev.busUp .bar0 = true →
    d = s.dev.hostWakes .bar0 → (p = true ∨ fld v 31 16 ≠ 0 ∨ (d.cq c).on = false ∨ d.cqSize c ≤ fld v 15 0) →
    Yields (.cqDoorbell c v p) s (s.dev.keep ((d.inc bankHost 13).latchBit Reg.HOST_STATUS 10))) ∧
  (∀ (s : State) (q : Fin 16384) (u : Bytes), Clocked pllHost s → s.dev.wantsUnit q = true → (s.dev.mayFetch q).1 = true →
    (s.dev.sq q).unitOut = true ∨ s.dev.servedRing = some q.val → (u.getD 0 0).getLsbD 7 = (s.dev.sq q).phase →
    0 < (u.getD 2 0).toNat → (u.getD 2 0).toNat ≤ 128 → (s.dev.sq q).head + (u.getD 2 0).toNat < s.dev.sqSize q →
    Completes (.sqUnit0Read q (some u)) s fun d e => (e.sq q).head = (d.sq q).head + (u.getD 2 0).toNat ∧
      (e.sq q).phase = (d.sq q).phase ∧ (e.sq q).polls = 0 ∧
      (∃ x : SqEnt, (e.sq q).ents = (d.sq q).ents ++ [x] ∧ x.op = (u.getD 1 0).toNat ∧ x.units = (u.getD 2 0).toNat ∧
        x.tag = unle (Machine.slice u 4 4)) ∧ ((d.sq q).unitOut = false → e.host.turn.1 = q) ∧ SameRegs d e) ∧
  (∀ (s : State) (q : Fin 16384) (u : Bytes), Clocked pllHost s → s.dev.wantsUnit q = true → (s.dev.mayFetch q).1 = true →
    (s.dev.sq q).unitOut = true ∨ s.dev.servedRing = some q.val → (u.getD 0 0).getLsbD 7 ≠ (s.dev.sq q).phase →
    Completes (.sqUnit0Read q (some u)) s fun d e => (e.sq q).ents = (d.sq q).ents ∧ (e.sq q).head = (d.sq q).head ∧
      (e.sq q).polls = (d.sq q).polls + 1 ∧ (e.sq q).unitOut = false) ∧
  (∀ (s : State) (q : Fin 16384) (u : Option Bytes), Clocked pllHost s → (s.dev.sq q).unitOut = false →
    s.dev.servedRing ≠ some q.val → Yields (.sqUnit0Read q u) s s.dev) ∧
  (∀ (s : State) (q : Fin 16384), Clocked pllHost s → (s.dev.sq q).st = .active → (s.dev.sq q).polls ≠ 0 →
    (s.dev.sq q).waitDb = false → (s.dev.sq q).unitOut = false → s.dev.busMaster = true →
    Yields (.sqPoll q) s (s.dev.keep ((s.dev.modSq q fun x => { x with unitOut := true }).dmaAsk
      (s.dev.sqBase q + 32 * (s.dev.sq q).head) 32))) ∧
  (∀ (s : State) (q : Fin 16384) (bs : Bytes) (e : SqEnt), Clocked pllHost s →
    ((s.dev.sq q).ents.find? fun e => e.st = .reading) = some e →
    Yields (.sqEntryRead q (some bs)) s (s.dev.putEnt q { e with
      bytes := e.bytes ++ padTo (32 * (e.units - 1)) (bs.take (32 * (e.units - 1))), st := .ready })) ∧
  (∀ (s : State) (q : Fin 16384) (e : SqEnt), Clocked pllHost s → ((s.dev.sq q).ents.find? fun e => e.st = .reading) = some e →
    Yields (.sqEntryRead q none) s (s.dev.keep (if (s.dev.sq q).st = .active then (s.dev.endEnt q e 5 0 0 false).ringFault q
      else s.dev.endEnt q e 5 0 0 false))) ∧
  (∀ (s : State) (q : Fin 16384), Clocked pllHost s → s.dev.wantsUnit q = true → (s.dev.mayFetch q).1 = true →
    (s.dev.sq q).unitOut = true →
    Yields (.sqUnit0Read q none) s (s.dev.keep ((s.dev.mayFetch q).2.takeFree.2.faultEnt q 5
      ((s.dev.mayFetch q).2.takeFree.1 % 2 ^ 32)))) ∧
  (∀ (s : State) (q : Fin 16384), Clocked pllHost s → s.dev.nextEnded q = none → Yields (.completionWrite q) s s.dev) ∧
  (∀ (s : State) (q : Fin 16384) (r : Nat) (e : SqEnt), Clocked pllHost s → s.dev.nextEnded q = some (r, e) →
    Yields (.completionWrite q) s (s.dev.keep (s.dev.complete r e)) ∧
    (∀ x ∈ ((s.dev.complete r e).sq r).ents, x.id ≠ e.id)) ∧
  (∀ (s : State) (q : Fin 16384), Answers .bar0 (Reg.HOST_SQ_CTRL q) s → s.dev.sqValid q = true →
    bit (s.dev.reg (Reg.HOST_SQ_CTRL q)) 31 = false →
    Completes (.sqEnable q) s fun d e => e.sq q = { st := .active, phase := true } ∧ (∀ p, p ≠ q.val → e.sq p = d.sq p) ∧
      e.reg (Reg.HOST_SQ_CTRL q) = d.reg (Reg.HOST_SQ_CTRL q) ||| 0x80000000#32 ∧ RegsBut [Reg.HOST_SQ_CTRL q] d e) ∧
  (∀ (s : State) (q : Fin 16384), Answers .bar0 (Reg.HOST_SQ_CTRL q) s → s.dev.sqValid q = false →
    bit (s.dev.reg (Reg.HOST_SQ_CTRL q)) 31 = false →
    Completes (.sqEnable q) s fun d e => e.host = d.host ∧ bit (e.reg (Reg.HOST_SQ_CTRL q)) 31 = false ∧
      bit (e.reg Reg.HOST_STATUS) 9 = true) ∧
  (∀ (s : State) (q : Fin 16384), Answers .bar0 (Reg.HOST_SQ_CTRL q) s → bit (s.dev.reg (Reg.HOST_SQ_CTRL q)) 31 = true →
    (s.dev.sq q).st = .active → s.dev.host.punt = none → (s.dev.sq q).ents = [] →
    Completes (.sqDisable q) s fun d e => e.sq q = { d.sq q with st := .draining, unitOut := false } ∧
      bit (e.reg (Reg.HOST_SQ_CTRL q)) 31 = false ∧ (∀ p, p ≠ q.val → e.sq p = d.sq p) ∧ RegsBut [Reg.HOST_SQ_CTRL q] d e) ∧
  (∀ (s : State) (q : Fin 16384), Clocked pllHost s → (s.dev.sq q).st = .draining → (s.dev.sq q).ents = [] →
    Yields (.sqDrainComplete q) s (s.dev.setSq q { s.dev.sq q with st := .disabled })) ∧
  (∀ (s : State) (c : Fin 4096), Answers .bar0 (Reg.HOST_CQ_CTRL c) s → (s.dev.cq c).on = false →
    s.dev.cqBase c % 4096 = 0 → 16 ≤ s.dev.cqSize c → s.dev.cqSize c ≤ 65536 →
    Completes (.cqEnable c) s fun d e => e.cq c = { on := true, phase := true } ∧ bit (e.reg (Reg.HOST_CQ_CTRL c)) 31 = true ∧
      (∀ b, b ≠ c.val → e.cq b = d.cq b) ∧ RegsBut [Reg.HOST_CQ_CTRL c] d e) ∧
  (∀ (s : State) (c : Fin 4096), Answers .bar0 (Reg.HOST_CQ_CTRL c) s → (s.dev.cq c).on = true →
    (s.dev.cq c).held = [] → (∀ p ∈ s.dev.host.sqs, s.dev.sqCq p.1 = c.val → p.2.st = .disabled) →
    Completes (.cqDisable c) s fun d e => e.cq c = { d.cq c with on := false } ∧ bit (e.reg (Reg.HOST_CQ_CTRL c)) 31 = false ∧
      (∀ b, b ≠ c.val → e.cq b = d.cq b) ∧ RegsBut [Reg.HOST_CQ_CTRL c] d e) ∧
  (∀ (s : State) (q : Fin 16384) (e : SqEnt), Clocked pllHost s → (∀ x ∈ (s.dev.sq q).ents, x.st ≠ .frame) →
    ((s.dev.sq q).ents.find? fun e => e.st = .reading) = some e → (s.dev.sq q).st = .active →
    Yields (.pcieCompletionTimeout q) s (s.dev.keep ((s.dev.endEnt q e 5 0 0 false).ringFault q)))

/-- The link trains once its PHY is clocked, and the row's configuration writes act once the function answers (log entry 125, DESIGN
CHOICE: the row carries them); PERST_N and FLR reset the endpoint and the ring engine, and FLR keeps the link and the fields that the
PCIe specification names. A SKIP entry goes, and an op that its ring does not list ends BAD_OP; an injection inline asks for its buffer
at once, and one by address reads its frame first; a buffer posted is lent; a punt's bytes fill it, and its end frees the packet; a batch
of register accesses is carried out, and waits before a stopped clock on its way. A vector's message is sent, or left pending while it may not be, and sent when unmasked; a write of
a table entry sets it (log entry 125); D3hot is entered and left. -/
def Obligations.HostEngines : Prop :=
  (∀ (s : State) (speed : Fin 6) (w : Fin 17), Clocked pllHost s → s.dev.clocked pllPciePhy = true → s.dev.host.link = 7 →
    speed.val ≠ 0 → pcieWidth w = true →
    Yields (.pcieLinkUp speed w []) s { s.dev with host := { s.dev.host with linkUp := true, speed := speed, width := w, link := 0 } }) ∧
  (∀ (s : State) (speed : Fin 6) (w : Fin 17) (c : CfgWrite), Clocked pllHost s → s.dev.host.link ≠ 7 →
    (s.dev.pciAnswers = true → Yields (.pcieLinkUp speed w [c]) s (s.dev.keep ((s.dev.hostWakes .bar0).pciWrite c))) ∧
    (s.dev.pciAnswers = false → Yields (.pcieLinkUp speed w [c]) s s.dev)) ∧
  (∀ s : State, Runs s → Completes .perst s fun d e => e.host = {} ∧
    (∀ k, 0x900000 ≤ k → k < 0xA00000 → Tbl.get 0#32 e.regs k = 0#32) ∧ e.prog = d.prog ∧ e.qm.queues = d.qm.queues) ∧
  (∀ s : State, Runs s → s.dev.host.linkUp = true → Completes .flr s fun d e =>
    e.host = { linkUp := true, speed := d.host.speed, width := d.host.width, link := d.host.link, pci := d.host.afterFlr } ∧
    (∀ k, 0x900000 ≤ k → k < 0xA00000 → Tbl.get 0#32 e.regs k = 0#32)) ∧
  (∀ (s : State) (q : Fin 16384) (e : SqEnt), Clocked pllHost s → s.dev.sqRuns q = true → s.dev.frontEnt q = some e → e.op = 0 →
    Yields (.skipEntry q) s (s.dev.dropEnt q e)) ∧
  (∀ (s : State) (q : Fin 16384) (e : SqEnt), Clocked pllHost s → s.dev.sqRuns q = true → s.dev.frontEnt q = some e →
    opListed (s.dev.sqKind q) e.op = false →
    Yields (.submissionBadOp q) s (s.dev.keep (s.dev.endEnt q e 2 0 0 false))) ∧
  (∀ (s : State) (q : Fin 16384) (e : SqEnt), Clocked pllHost s → s.dev.sqKind q = 0 → s.dev.sqRuns q = true →
    s.dev.frontEnt q = some e → e.op = 1 → s.dev.spr.cellar = false → e.injOk = true → e.injInline = true → s.dev.framesOut q = false →
    Yields (.injectRaw q) s (s.dev.keep (s.dev.injectFrame q e (Machine.slice e.bytes 32 e.injLen)))) ∧
  (∀ (s : State) (q : Fin 16384) (e : SqEnt), Clocked pllHost s → s.dev.sqKind q = 0 → s.dev.sqRuns q = true →
    s.dev.frontEnt q = some e → e.op = 2 → s.dev.spr.cellar = false → e.injOk = true → e.injInline = false →
    s.dev.busMaster = true →
    Yields (.injectPipe q) s (s.dev.keep ((s.dev.putEnt q { e with st := .frame }).dmaAsk
      (unle (Machine.slice e.bytes 8 8)) e.injLen))) ∧
  (∀ (s : State) (q : Fin 16384) (e : SqEnt) (bs : Bytes), Clocked pllHost s →
    ((s.dev.sq q).ents.find? fun e => e.st = .frame) = some e → s.dev.spr.cellar = false →
    Yields (.injectFrameReadComplete q (some bs)) s
      (s.dev.keep (s.dev.injectFrame q e (padTo e.injLen (bs.take e.injLen))))) ∧
  (∀ (s : State) (q : Fin 16384) (e : SqEnt), Clocked pllHost s → ((s.dev.sq q).ents.find? fun e => e.st = .frame) = some e →
    Yields (.injectFrameReadComplete q none) s (s.dev.keep (s.dev.endEnt q e 5 0 0 false))) ∧
  (∀ (s : State) (q : Fin 16384) (e : SqEnt), Clocked pllHost s → s.dev.sqKind q = 1 → s.dev.sqRuns q = true →
    s.dev.frontEnt q = some e → e.op = 3 → e.postOk = true → Yields (.postBuffer q) s (s.dev.putEnt q { e with st := .posted })) ∧
  (∀ (s : State) (q : Fin 16384) (e : SqEnt), Runs s → s.dev.stopped (s.dev.batchClocks q) = none → s.dev.sqKind q = 2 →
    s.dev.sqRuns q = true → s.dev.frontEnt q = some e → e.op = 0x11 →
    Yields (.regBatch q) s (s.dev.keepBus (s.dev.regBatch q e))) ∧
  (∀ (s : State) (q : Fin 16384) (b : Nat), Runs s → s.dev.stopped (s.dev.batchClocks q) = some b →
    Yields (.regBatch q) s (s.dev.park b (.regBatch q))) ∧
  (∀ (s : State) (hq r : Nat) (rest : Bytes) (k : Pkt), Clocked pllHost s → s.dev.host.punt = some (hq, r, rest, k) → rest ≠ [] →
    s.dev.busMaster = true → Yields .puntItemWrite s (s.dev.keep (s.dev.puntFill hq r rest k))) ∧
  (∀ (s : State), Clocked pllHost s → s.dev.host.punt = none → (∀ k ∈ (s.dev.noms 9).head?, k.left ≠ 0) →
    Yields .puntItemWrite s s.dev) ∧
  (∀ (s : State) (hq r : Nat) (k : Pkt), Clocked pllHost s → s.dev.host.punt = some (hq, r, [], k) →
    Yields .puntDmaComplete s (s.dev.keep (s.dev.puntDone k))) ∧
  (∀ (s : State) (v : Fin 2048), Clocked pllHost s → fld (s.dev.reg (Reg.HOST_VEC_MOD v)) 9 0 ≠ 0 → (s.dev.vec v).unsig ≠ 0 →
    s.dev.busMaster = true → s.dev.host.msix = true → s.dev.host.fnMask = false → (s.dev.vec v).masked = false →
    s.dev.host.link = 0 →
    Completes (.vectorTimerExpire v) s fun d e => e.vec v = { d.vec v with unsig := 0, pba := false } ∧
      e.out = .msix v (d.vec v).addr (d.vec v).data :: d.out ∧ SameRegs d e) ∧
  (∀ (s : State) (v : Fin 2048), Clocked pllHost s → fld (s.dev.reg (Reg.HOST_VEC_MOD v)) 9 0 ≠ 0 → (s.dev.vec v).unsig ≠ 0 →
    s.dev.host.d3 = false → (s.dev.vec v).masked = true ∨ s.dev.host.fnMask = true ∨ s.dev.host.msix = false →
    Yields (.vectorTimerExpire v) s (s.dev.setVec v { s.dev.vec v with unsig := 0, pba := true })) ∧
  (∀ (s : State) (v : Fin 2048) (dw : Fin 4) (w : Word), Clocked pllHost s → s.dev.host.linkUp = true → (s.dev.vec v).pba = false →
    Yields (.msixUnmask v dw w) s ((s.dev.hostWakes .bar0).setVec v ((s.dev.vec v).write dw w))) ∧
  (∀ (s : State) (v : Fin 2048) (w : Word), Clocked pllHost s → s.dev.busMaster = true → s.dev.host.msix = true →
    s.dev.host.fnMask = false → (s.dev.vec v).pba = true → bit w 0 = false →
    Completes (.msixUnmask v 3 w) s fun d e => e.vec v = { d.vec v with unsig := 0, pba := false, masked := false } ∧
      Output.msix v (d.vec v).addr (d.vec v).data ∈ e.out) ∧
  (∀ (s : State) (v : Fin 2048) (dw : Fin 4) (w : Word), Clocked pllHost s → s.dev.host.linkUp = false →
    Yields (.msixUnmask v dw w) s s.dev) ∧
  (∀ (s : State), Clocked pllHost s → s.dev.host.linkUp = true → s.dev.host.d3 = false → s.dev.host.punt = none →
    (∀ p ∈ s.dev.host.sqs, p.2.ents = []) →
    Completes .d3hotEntry s fun _ e => e.host.d3 = true ∧ bit (e.reg Reg.HOST_STATUS) 12 = true) ∧
  (∀ (s : State), Clocked pllHost s → s.dev.host.d3 = true → s.dev.host.cqs = [] → s.dev.host.vecs = [] →
    s.dev.host.dmaHeld = [] →
    Yields .d0Return s (Dev.hostWakes { s.dev with host := { s.dev.host with d3 := false } } .bar0))

/-- A hung slice is declared failed and fenced, and the fit spare is chosen for its port group; racking begins at the spare, and
ends with its claim written and the port group held, or with the spare unfit and cellar mode, as it does where no claim has been written
2 ms after the declaration; a claim write that the sequencer has not enabled is refused and counted; a drained slice becomes the spare; a
tasting round begins and ends, one of a spare that a takeover has chosen uncounted; SPR_FORCE acts by its op, FAIL before forwarding too
(log entry 73), and not while it is locked. -/
def Obligations.Spares : Prop :=
  (∀ (s : State) (n : Fin 9), Clocked pllF s → s.dev.hung n = false → Yields (.sliceHangTimeout n) s s.dev) ∧
  (∀ (s : State) (n : Fin 9) (g k : Nat), Clocked pllF s → s.dev.hung n = true → s.dev.spr.cellar = false →
    s.dev.vint.started = true → (s.dev.slice n).pg = some g → s.dev.fitSpare = some k →
    Completes (.sliceHangTimeout n) s fun d e => (e.slice n).st = .failed ∧ (e.slice n).cause = 2 ∧ (e.slice n).pg = none ∧
      e.fenced n g = true ∧ e.tagState n = .draining ∧ bit (e.reg Reg.SPR_STATUS) 9 = true ∧
      e.spr.rack = some { spare := k, pg := g, old := n, move := false, begun := false, since := d.time.tsc }) ∧
  (∀ (s : State) (r : Rack), Clocked pllF s → s.dev.spr.rack = some r → r.begun = false →
    Completes .rackingStart s fun d e => e.spr.rack = some { r with begun := true } ∧ e.spr.tasting = false ∧
      (e.slice r.spare).st = .racking ∧ (e.slice r.spare).pg = some r.pg ∧ (∀ m, m ≠ r.spare → e.slice m = d.slice m)) ∧
  (∀ (s : State) (r : Rack), Clocked pllF s → s.dev.spr.rack = some r → r.begun = true → s.dev.tableLost = false → r.pg < 8 →
    s.dev.spr.claims.length = 8 → s.dev.spr.lastHolder.length = 8 →
    Completes (.rackingComplete true) s fun d e => (e.slice r.spare).st = .active ∧ (e.slice r.spare).pg = some r.pg ∧
      e.spr.claims.getD r.pg 0 = d.spr.claims.getD r.pg 0 + 1 ∧ e.spr.lastHolder.getD r.pg 0 = r.spare ∧ e.spr.rack = none ∧
      e.fenced r.spare r.pg = false ∧ bit (e.reg Reg.SPR_STATUS) 10 = true) ∧
  (∀ (s : State) (r : Rack), Clocked pllF s → s.dev.spr.rack = some r → r.begun = true → s.dev.spr.cellar = false →
    Yields (.rackingComplete false) s (s.dev.keep (s.dev.rackFail r))) ∧
  (∀ (s : State) (r : Rack), Clocked pllF s → s.dev.spr.rack = some r → r.since + 2 * 10 ^ 6 ≤ s.dev.time.tsc →
    s.dev.spr.cellar = false →
    Completes .rackingTimeout s fun _ e => e.spr.rack = none ∧ e.spr.cellar = true ∧ e.spr.cellarCause = 2 ∧
      (e.slice r.spare).st = .unfit ∧ (e.slice r.spare).cause = 5 ∧ bit (e.reg Reg.SPR_STATUS) 13 = true) ∧
  (∀ (s : State), Clocked pllF s → (∀ r ∈ s.dev.spr.rack, s.dev.time.tsc < r.since + 2 * 10 ^ 6) →
    Yields .rackingTimeout s s.dev) ∧
  (∀ (s : State) (n : Fin 9) (g : Fin 8), Clocked pllF s →
    Yields (.claimWriteRefused n g) s (if s.dev.claimEnabled n g then s.dev else s.dev.inc bankSpr 16)) ∧
  (∀ (s : State) (n : Fin 9), Clocked pllF s → s.dev.spr.cellar = false → s.dev.drained n = true →
    Completes (.sliceDrainComplete n) s fun d e => e.slice n = { st := .spare, pg := none, srch := (d.slice n).srch } ∧ e.spr.fit = true ∧
      e.spr.health = n ∧ e.spr.tasting = false ∧ (∀ m, m ≠ n.val → e.slice m = d.slice m) ∧ SameRegs d e) ∧
  (∀ (s : State) (n : Fin 9), Clocked pllF s → s.dev.drained n = false → Yields (.sliceDrainComplete n) s s.dev) ∧
  (∀ (s : State), Clocked pllF s → Yields .tastingRoundStart s (if s.dev.mayTaste then
    { s.dev with spr := { s.dev.spr with tasting := true } } else s.dev)) ∧
  (∀ (s : State) (n : Nat), Clocked pllF s → s.dev.spr.rack = none → s.dev.spareSlice = some n →
    s.dev.spr.tasting = true →
    Yields (.tastingRoundEnd .pass) s (Dev.inc { s.dev with spr := { s.dev.spr with
      tasting := false, last := 1, rounds := satN 20 (s.dev.spr.rounds + 1) } } bankSpr 5)) ∧
  (∀ (s : State) (n : Nat) (r : Taste), Clocked pllF s → s.dev.spr.rack = none → s.dev.spareSlice = some n →
    s.dev.spr.tasting = true → r ≠ .pass →
    Yields (.tastingRoundEnd r) s (s.dev.keep (s.dev.tasteFails n (tasteCode r)))) ∧
  (∀ (s : State) (n : Nat), Clocked pllF s → s.dev.spr.rack = none → s.dev.spareSlice = some n →
    s.dev.spr.tasting = true →
    Completes .tastingRoundTimeout s fun _ e => (e.slice n).st = .unfit ∧ e.spr.fit = false ∧ e.spr.tasting = false ∧
      e.spr.last = 5 ∧ bit (e.reg Reg.SPR_STATUS) 8 = true ∧ bit (e.reg Reg.SPR_STATUS) 11 = true ∧
      e.reg Reg.SPR_TASTE_FAIL = put 5 28) ∧
  (∀ (s : State) (n : BitVec 4), Answers .bar0 Reg.SPR_FORCE s → s.dev.locked 2 = false →
    s.dev.forceActs = false → s.dev.spr.cellar = false → n.toNat < 9 → (s.dev.slice n.toNat).st = .active →
    Yields (.sprForceFail n) s
      (s.dev.keep ((s.dev.declare n.toNat 3).forceResult (wd (1 * 2 ^ 28 + n.toNat * 2 ^ 8)) 0))) ∧
  (∀ (s : State) (g : Fin 8) (k h : Nat), Answers .bar0 Reg.SPR_FORCE s → s.dev.locked 2 = false →
    s.dev.forceActs = false → s.dev.spr.cellar = false → s.dev.fitSpare = some k →
    s.dev.holder g = some h → s.dev.spr.claims.getD g 0 < 0xFFF0 →
    Completes (.sprForceMove g) s fun d e => (e.slice h).st = .draining ∧ (e.slice h).pg = none ∧ e.fenced h g = true ∧
      e.spr.rack = some { spare := k, pg := g, old := h, move := true, begun := false, since := d.time.tsc }) ∧
  (∀ (s : State), Answers .bar0 Reg.SPR_FORCE s → s.dev.locked 2 = false → s.dev.forceActs = false →
    s.dev.spr.cellar = false →
    Completes .sprForceCellar s fun _ e => e.spr.cellar = true ∧ e.spr.cellarCause = 5 ∧ e.spr.rack = none ∧
      bit (e.reg Reg.SPR_STATUS) 12 = true ∧ e.reg Reg.SPR_FORCE = 0x30000000#32) ∧
  (∀ (s : State), Answers .bar0 Reg.SPR_FORCE s → s.dev.locked 2 = true →
    Yields .sprForceCellar s (s.dev.keep (s.dev.lockedWrite .bar0 Reg.SPR_FORCE))) ∧
  (∀ (s : State) (r : Taste), Clocked pllF s → s.dev.spr.rack.isSome = true →
    Yields (.tastingRoundEnd r) s s.dev ∧ Yields .tastingRoundTimeout s s.dev)

/-- A request that waits at a source that may make it, and is the first to have come (log entry 127), is served and ends with the result
and response of its rules: INFO and SENSORS; records of the event log; a nonce; a clear that is authorised by the owner's signature over
a nonce less than 300 s old begins its erase, and any other is refused, in the order of the checks (log entry 128 for a payload too short);
the owner's hash is fused once; flash is read; a half of the configuration is selected, the selected half is kept from writing, and the
other half and the calibration region are erased by a write without data; a request that its source may not make ends BAD_REQ, and one
that has waited too long BUSY. -/
def Obligations.Mailbox : Prop :=
  (∀ (s : State) (src : MbxSrc), Waits src 1 s → Ends (.mbxInfo src) s src mOk s.dev.infoBytes) ∧
  (∀ (s : State) (src : MbxSrc), Waits src 2 s → Ends (.mbxSensors src) s src mOk s.dev.sensorBytes) ∧
  (∀ (s : State) (src : MbxSrc) (given p : Bytes) (a n : Nat), Waits src 3 s → p = s.dev.mbxPayload (srcCode src) given →
    8 ≤ p.length → a = unle (Machine.slice p 0 4) → n = unle (Machine.slice p 4 4) → 0 < n → n ≤ 1024 →
    a + n ≤ s.dev.mgmt.nextSlot →
    Ends (.evtRead src given) s src mOk ((List.range n).flatMap fun i => s.dev.eventAt (a + i))) ∧
  (∀ (s : State) (src : MbxSrc) (given p : Bytes), Waits src 3 s → p = s.dev.mbxPayload (srcCode src) given →
    s.dev.mgmt.nextSlot ≤ unle (Machine.slice p 0 4) → Ends (.evtRead src given) s src mBadArg []) ∧
  (∀ (s : State) (src : MbxSrc), Waits src 4 s →
    Yields (.evtNonce src) s (s.dev.keep (s.dev.evtNonce (srcCode src))) ∧
    Completes (.evtNonce src) s fun d e => ∃ n : Bytes, n.length = 32 ∧ e.mgmt.nonce = some (n, d.time.tsc)) ∧
  (∀ (s : State) (src : MbxSrc), Waits src 5 s → s.dev.mgmt.fw.state ≠ 0 ∨ s.dev.mgmt.clearing ≠ none →
    Ends (.evtClear src) s src mBusy []) ∧
  (∀ (s : State) (src : MbxSrc), Waits src 5 s → s.dev.mgmt.fw.state = 0 → s.dev.mgmt.clearing = none →
    (s.dev.locked lockNvm = true → Ends (.evtClear src) s src mLocked []) ∧
    (s.dev.locked lockNvm = false → s.dev.mgmt.ownerHash = none → Ends (.evtClear src) s src mNoOwner [])) ∧
  (∀ (s : State) (src : MbxSrc) (hash p : Bytes), Waits src 5 s → s.dev.mgmt.fw.state = 0 → s.dev.mgmt.clearing = none →
    s.dev.locked lockNvm = false → s.dev.mgmt.ownerHash = some hash → p = s.dev.mbxPayload (srcCode src) [] →
    (p.length < 193 → Ends (.evtClear src) s src mBadArg []) ∧
    (193 ≤ p.length → s.dev.liveNonce = none → Yields (.evtClear src) s (s.dev.keep (s.dev.authFail (srcCode src)))) ∧
    (193 ≤ p.length → ∀ nonce : Bytes, s.dev.liveNonce = some nonce →
      Yields (.evtClear src) s (s.dev.keep (if clearAuthorised hash nonce p then s.dev.clearStarts (srcCode src) hash nonce
        else s.dev.authFail (srcCode src))))) ∧
  (∀ (d : Dev) (c : Nat) (hash nonce : Bytes), d.mgmt.nextSlot ≠ 0 → (d.clearStarts c hash nonce).mgmt.nonce = none ∧
    (d.clearStarts c hash nonce).mgmt.clearing = some (c, d.mgmt.nextSlot - 1, hash.take 8, nonce.take 8)) ∧
  (∀ (s : State) (src : MbxSrc) (p : Bytes), Waits src 8 s → p = s.dev.mbxPayload (srcCode src) [] →
    s.dev.locked lockFuse = false → s.dev.mgmt.ownerHash = none → 48 ≤ p.length →
    Yields (.ownerFuse src) s (s.dev.keep (Dev.mbxEnd { s.dev with mgmt := { s.dev.mgmt with
      ownerHash := some (p.take 48) } } (srcCode src) mOk []))) ∧
  (∀ (s : State) (src : MbxSrc), Waits src 8 s → s.dev.locked lockFuse = true →
    Ends (.ownerFuse src) s src mLocked []) ∧
  (∀ (s : State) (src : MbxSrc) (p : Bytes) (a n : Nat), Waits src 9 s → p = s.dev.mbxPayload (srcCode src) [] →
    8 ≤ p.length → a = unle (Machine.slice p 0 4) → n = unle (Machine.slice p 4 4) → 0 < n → n ≤ 4096 → a + n ≤ nvEnd →
    Ends (.nvmRead src) s src mOk (s.dev.nvRead a n)) ∧
  (∀ (s : State) (src : MbxSrc) (p : Bytes) (half : Nat), Waits src 10 s → p = s.dev.mbxPayload (srcCode src) [] →
    5 ≤ p.length → p.length = 5 ∨ 3 ≤ srcCode src → (p.getD 0 0).toNat = 0 → half = unle (Machine.slice p 1 4) → half ≤ 1 → s.dev.mgmt.fw.state = 0 →
    s.dev.mgmt.clearing = none → s.dev.locked lockNvm = false →
    Completes (.nvmCfgSelect src .good) s fun _ e => e.boot.selected = half) ∧
  (∀ (s : State) (src : MbxSrc) (p : Bytes) (code : Nat), Waits src 10 s → p = s.dev.mbxPayload (srcCode src) [] →
    5 ≤ p.length → code = (p.getD 0 0).toNat → code = 1 ∨ code = 2 → s.dev.mgmt.fw.state = 0 → s.dev.mgmt.clearing = none →
    s.dev.locked lockNvm = false → hdrCfg s.dev.hdr = code - 1 → ∀ nvm,
    Yields (.nvmWriteConfigHalf src nvm) s (s.dev.keepNvm (s.dev.mbxEnd (srcCode src) mBadArg []))) ∧
  (∀ (s : State) (src : MbxSrc) (p : Bytes) (code a : Nat), Waits src 10 s → p = s.dev.mbxPayload (srcCode src) [] →
    p.length = 5 → code = (p.getD 0 0).toNat → code = 1 ∨ code = 2 → unle (Machine.slice p 1 4) = 0 → s.dev.mgmt.fw.state = 0 →
    s.dev.mgmt.clearing = none → s.dev.locked lockNvm = false → hdrCfg s.dev.hdr ≠ code - 1 → a = nvHalf (code - 1) →
    Completes (.nvmWriteConfigHalf src .good) s fun d e => (∀ b, a ≤ b → b < a + 0x04000000 → Tbl.get 0xFF#8 e.nvm b = 0xFF#8) ∧
      (∀ b, b < a ∨ a + 0x04000000 ≤ b → Tbl.get 0xFF#8 e.nvm b = Tbl.get 0xFF#8 d.nvm b)) ∧
  (∀ (s : State) (src : MbxSrc) (p : Bytes), Waits src 10 s → p = s.dev.mbxPayload (srcCode src) [] →
    5 ≤ p.length → (p.getD 0 0).toNat = 3 → unle (Machine.slice p 1 4) = 0 → p.length = 5 → s.dev.mgmt.fw.state = 0 →
    s.dev.mgmt.clearing = none → s.dev.locked lockNvm = false →
    Completes (.nvmWriteCalibration src .good) s fun d e =>
      (∀ a, nvCal ≤ a → a < nvCal + 0x00100000 → Tbl.get 0xFF#8 e.nvm a = 0xFF#8) ∧
      (∀ a, a < nvCal ∨ nvCal + 0x00100000 ≤ a → Tbl.get 0xFF#8 e.nvm a = Tbl.get 0xFF#8 d.nvm a)) ∧
  (∀ (s : State) (src : MbxSrc) (req : BitVec 16), Serves s → s.dev.mbxReqOf (srcCode src) req.toNat = some req.toNat →
    mbxAllowed (srcCode src) req.toNat = false → s.dev.mbxFirst (srcCode src) = true → Ends (.mbxBadReq src req) s src mBadReq []) ∧
  (∀ (s : State) (src : MbxSrc) (r : Nat), Serves s → s.dev.mbxReqOf (srcCode src) 0 = some r →
    Yields (.mbxWaitTimeout src) s (s.dev.keep ((s.dev.inc bankMgmt 4).mbxGive (srcCode src) mBusy [])))

/-- An update whose file passes its checks begins to stage into the inactive slot, and one without a card, a file or a file
system ends with its code; a restart stops
service, and counts; firmware that is ready serves; a trial commits once its 600 s are over; the card's removal ends a staging, with a
code that the spec leaves open; the oldest event becomes the next record, and a full recorder discards it and counts it lost (log entry
128, DEDUCED); the end of a clear leaves record 0; a nonce expires after its 300 s; a sample brings the readings up to date, and three in
a row at 118 °C trip; rails are sampled. -/
def Obligations.FirmwareAndEvents : Prop :=
  (∀ (s : State) (src : MbxSrc) (f : Bytes) (g uhs : Bool) (nvm : NvmCheck), Waits src 6 s → s.dev.mgmt.fw.state = 0 →
    s.dev.mgmt.clearing = none → s.dev.locked lockNvm = false → imgHeaderOk f (some f.length) = true →
    s.dev.mgmt.fuseCount ≤ imgEpoch f → imgEpoch f ≤ 64 →
    Completes (.fwUpdate src (.file f) g nvm uhs) s fun d e => e.mgmt.fw.state = 1 ∧ e.mgmt.fw.active = d.mgmt.fw.active ∧
      e.mgmt.fw.job = some { src := srcCode src, file := f, sigOk := g, nvm := nvm } ∧ e.mgmt.sdVsel = (d.mgmt.sdVsel || uhs)) ∧
  (∀ (s : State) (src : MbxSrc) (g uhs : Bool) (nvm : NvmCheck), Waits src 6 s → s.dev.mgmt.fw.state = 0 →
    s.dev.mgmt.clearing = none → s.dev.locked lockNvm = false →
    Yields (.fwUpdate src .noCard g nvm uhs) s (s.dev.keepNvm ((s.dev.setFw fun f => { f with lastResult := mNoCard }).mbxEnd
      (srcCode src) mNoCard []))) ∧
  (∀ (s : State) (src : MbxSrc) (g : Bool) (nvm : NvmCheck), Waits src 6 s → s.dev.mgmt.fw.state = 0 →
    s.dev.mgmt.clearing = none → s.dev.locked lockNvm = false →
    Yields (.fwUpdate src .noFile g nvm false) s (s.dev.keepNvm (s.dev.updateRefused (srcCode src) mNoFile)) ∧
    Yields (.fwUpdate src .fsError g nvm false) s (s.dev.keepNvm (s.dev.updateRefused (srcCode src) mFsError))) ∧
  (∀ (s : State) (src : MbxSrc), Waits src 7 s → s.dev.mgmt.fw.state ≠ 3 →
    Yields (.mbxRestart src) s (s.dev.keepNvm ((s.dev.mbxEnd (srcCode src) mOk []).mgmtRestart 4)) ∧
    Completes (.mbxRestart src) s fun _ e => e.mgmt.serving = false ∧ e.mgmt.nonce = none ∧ e.mgmt.restartCause = 4 ∧
      bit (e.reg Reg.MGMT_STATUS) 14 = true) ∧
  (∀ (s : State), Clocked pllMgmt s → 4 ≤ s.dev.boot.step → s.dev.mgmt.fw.state ≠ 3 →
    Yields .mgmtWdogExpire s (s.dev.keepNvm (s.dev.mgmtRestart 3))) ∧
  (∀ (s : State), Clocked pllMgmt s → s.dev.boot.step < 4 → Yields .mgmtWdogExpire s s.dev) ∧
  (∀ (s : State), Clocked pllMgmt s → 4 ≤ s.dev.boot.step → s.dev.mgmt.serving = false → s.dev.mgmt.fw.state = 0 →
    s.dev.mgmt.fw.owed = none → s.dev.mgmt.clearing = none → s.dev.fab.rootPend = none →
    Yields .mgmtFwReady s (s.dev.keepNvm (Dev.logBit { s.dev with mgmt := { s.dev.mgmt with serving := true } } srcMgmt 0 14 0
      (le 1 s.dev.mgmt.restartCause)))) ∧
  (∀ (s : State), Serves s → s.dev.mgmt.fw.state = 3 → s.dev.trialOver = true →
    Completes .trialCommit s fun d e => e.mgmt.fw.state = 0 ∧ e.mgmt.fw.active = d.mgmt.fw.active ∧
      e.mgmt.fuseCount = max d.mgmt.fuseCount (min 64 (hdrVersion d.hdr d.mgmt.fw.active / 2 ^ 56)) ∧
      bit (e.reg Reg.MGMT_STATUS) 16 = true) ∧
  (∀ (s : State), Serves s → s.dev.mgmt.fw.state ≠ 3 ∨ s.dev.trialOver = false → Yields .trialCommit s s.dev) ∧
  (∀ (s : State) (j : FwJob), Serves s → s.dev.mgmt.fw.job = some j →
    Completes .cardRemoved s fun _ e => e.mgmt.fw.job = none ∧ e.mgmt.fw.state = 0 ∧
      (e.mgmt.fw.lastResult = mNoCard ∨ e.mgmt.fw.lastResult = mFsError)) ∧
  (∀ (s : State), Clocked pllMgmt s → s.dev.liveNonce = none →
    Yields .nonceExpire s { s.dev with mgmt := { s.dev.mgmt with nonce := none } }) ∧
  (∀ (s : State), Clocked pllMgmt s → s.dev.liveNonce ≠ none → Yields .nonceExpire s s.dev) ∧
  (∀ (s : State) (e : Event) (es : List Event), Serves s → s.dev.events = e :: es → s.dev.mgmt.clearing = none →
    s.dev.mgmt.full = false → s.dev.mgmt.nextSlot + 1 ≠ eventSlots → 
    Completes .eventRecordWrite s fun d f => f.events = es ∧ f.mgmt.nextSlot = d.mgmt.nextSlot + 1 ∧
      (∀ a, a < nvEvents + 64 * d.mgmt.nextSlot ∨ nvEvents + 64 * d.mgmt.nextSlot + 64 ≤ a →
        Tbl.get 0xFF#8 f.nvm a = Tbl.get 0xFF#8 d.nvm a) ∧ SameRegs d f) ∧
  (∀ (s : State) (e : Event) (es : List Event), Serves s → s.dev.events = e :: es → s.dev.mgmt.clearing = none →
    s.dev.mgmt.full = true →
    Yields .eventRecordWrite s ((Dev.setReg { s.dev with events := es } Reg.MGMT_EVT_LOST (s.dev.reg Reg.MGMT_EVT_LOST + 1#32)).inc bankMgmt 1)) ∧
  (∀ (s : State) (c last : Nat) (hash nonce : Bytes), Serves s → s.dev.mgmt.clearing = some (c, last, hash, nonce) →
    Completes .evtClearEraseComplete s fun _ e => e.mgmt.clearing = none ∧ e.mgmt.nextSlot = 1 ∧ e.mgmt.full = false ∧
      bit (e.reg Reg.MGMT_STATUS) 18 = true) ∧
  (∀ (s : State) (ts : List (BitVec 12)), s.dev.powered = true → s.dev.mgmt.aonOn = true → s.dev.inReset = true →
    Completes (.sensorSample ts) s fun _ e => (∀ i, i < 40 → Tbl.get 0#12 e.mgmt.temps i = ts.getD i 0#12) ∧
      e.mgmt.sampled = true ∧ e.inReset = true) ∧
  (∀ (s : State) (ts : List (BitVec 12)) (i : Nat), s.dev.powered = true → s.dev.mgmt.aonOn = true → i < 40 →
    dieSensor i = true → s.dev.mgmt.thermtripN = false → hotAt (ts.getD i 0#12) 118 = true →
    Tbl.get 0 s.dev.mgmt.tripRun i = 2 → (∀ p ∈ s.dev.mgmt.tripRun, p.1 < 40) →
    Completes (.sensorSample ts) s fun _ e => e.inReset = true ∧ e.mgmt.thermtripN = true ∧ bit e.mgmt.trip 31 = true) ∧
  (∀ (s : State) (ts : List (BitVec 12)), s.dev.mgmt.aonOn = false → Yields (.sensorSample ts) s s.dev) ∧
  (∀ (s : State) (mv : List (BitVec 16)) (p : BitVec 16), Clocked pllMgmt s →
    Completes (.vmonSample mv p) s fun _ e => e.mgmt.power = p.toNat ∧
      ∀ r, r < 12 → (e.rail r).mv = (mv.getD r 0#16).toNat)

/-- A write that reaches a plain register of SCHD stores its writable bits and changes no other register; one with missing byte
enables leaves the record of its refusal alone, one that meets a stopped clock on its way waits, and one before BAR0 answers has no
effect. A sequence-clear write clears the bits written 1 when its count matches, and otherwise only counts; GLB_LOCK takes the bits
written 1 and keeps the others; a read delivers the word, a low word latching its high word, and a clear-on-read counter becomes 0. -/
def Obligations.RegisterRows : Prop :=
  (∀ (s : State) (p : Path) (off : BitVec 26) (v : Word) (h : RegHit), Reaches p off.toNat s →
    s.dev.lnch.entries = [] → s.dev.refuse p off.toNat = none → decodeReg off.toNat = some h → h.row.sqc = 0#32 →
    h.block = .schd → h.alias_ = false →
    Yields (.registerWrite p off v false) s
      (s.dev.setReg h.key ((s.dev.reg h.key &&& ~~~h.row.rw) ||| (v &&& h.row.rw)))) ∧
  (∀ (s : State) (p : Path) (off : BitVec 26) (v : Word), Runs s → s.dev.busUp p = true → s.dev.hostWakes p = s.dev →
    s.dev.stopped (pathClocks p) = none →
    Yields (.registerWrite p off v true) s (((s.dev.inc bankGlb 4).latchBit Reg.GLB_STATUS 9).lastFault 3 p off.toNat)) ∧
  (∀ (s : State) (p : Path) (off : BitVec 26) (v : Word) (b : Nat), Runs s → s.dev.busUp p = true →
    s.dev.stopped (s.dev.busClocks p off.toNat) = some b → s.dev.hostWakes p = s.dev →
    Yields (.registerWrite p off v false) s (s.dev.park b (.registerWrite p off v false))) ∧
  (∀ (s : State) (p : Path) (off : BitVec 26) (v : Word) (b : Bool), Runs s → s.dev.busUp p = false →
    Yields (.registerWrite p off v b) s s.dev) ∧
  (∀ (s : State) (p : Path) (off : BitVec 26) (v : Word) (h : RegHit), Reaches p off.toNat s →
    s.dev.lnch.entries = [] → s.dev.refuse p off.toNat = none → decodeReg off.toNat = some h → h.row.sqc ≠ 0#32 →
    h.alias_ = false → fld v 31 24 = fld (s.dev.reg h.key) 31 24 →
    Completes (.sqcWrite p off v) s fun d e => RegsBut [h.key] d e ∧ e = { d with regs := e.regs } ∧
      e.reg h.key = ((d.reg h.key &&& ~~~h.row.rw) ||| (v &&& h.row.rw)) &&& ~~~(v &&& h.row.sqc)) ∧
  (∀ (s : State) (p : Path) (off : BitVec 26) (v : Word) (h : RegHit), Reaches p off.toNat s →
    s.dev.lnch.entries = [] → s.dev.refuse p off.toNat = none → decodeReg off.toNat = some h → h.row.sqc ≠ 0#32 →
    h.alias_ = false → fld v 31 24 ≠ fld (s.dev.reg h.key) 31 24 →
    Yields (.sqcWrite p off v) s (s.dev.inc bankGlb 0)) ∧
  (∀ (s : State) (v : Word), Answers .bar0 0x08 s →
    Yields (.glbLockWrite v) s { s.dev with lock := s.dev.lock ||| v.truncate 5 }) ∧
  (∀ (s : State) (p : Path) (off : BitVec 26) (h : RegHit), Reaches p off.toNat s →
    s.dev.silent off.toNat = false → fdieOffset off.toNat = false → decodeReg off.toNat = some h → h.alias_ = false →
    counterOf h = none → h.block = .host → pairHalf h = 1 →
    Completes (.lowWordRead p off) s fun d e => e = { d with latch := e.latch, out := e.out } ∧
      (∀ g : RegHit, decodeReg (h.key + 4) = some g → Tbl.get (0, 0#32) e.latch (pathCode p) = (h.key + 4, d.peek g)) ∧
      e.out = .readData (pathCode p) (d.peek h) :: d.out) ∧
  (∀ (s : State) (p : Path) (off : BitVec 26) (h : RegHit) (b i : Nat), Reaches p off.toNat s →
    s.dev.silent off.toNat = false → fdieOffset off.toNat = false → decodeReg off.toNat = some h → h.alias_ = false →
    counterOf h = some (b, i) → s.dev.chained b i = false → bit (s.dev.reg (Reg.CNT_BANK_CFG b)) 31 = true →
    Completes (.rcCounterRead p off) s fun d e => e.counter b i = 0#32 ∧ e = { d with cnt := e.cnt, out := e.out } ∧
      e.out = .readData (pathCode p) (d.counter b i) :: d.out ∧ ∀ c j, cntKey c j ≠ cntKey b i → e.counter c j = d.counter c j) ∧
  (∀ (s : State) (p : Path) (off : BitVec 26) (h : RegHit) (b i : Nat), Reaches p off.toNat s →
    s.dev.silent off.toNat = false → fdieOffset off.toNat = false → decodeReg off.toNat = some h → h.alias_ = false →
    counterOf h = some (b, i) → s.dev.chained b i = false → bit (s.dev.reg (Reg.CNT_BANK_CFG b)) 31 = false →
    Yields (.rcCounterRead p off) s (s.dev.deliver p (s.dev.counter b i)))

/-- A clear of a bank makes its counters 0 and no other's, and ends OK; a bank that does not exist ends with the error
and clears none; a clear of sets clears the banks of the sets in the mask; the harvest engine passes from a block to the next,
and with none active does nothing; a meter's counts are taken as it is selected. -/
def Obligations.CounterRows : Prop :=
  (∀ (s : State) (b : BitVec 9), Answers .bar0 Reg.CNT_CMD s → b.toNat < bankCount → b.toNat ≠ bankCnt →
    Completes (.cntClearBank b) s fun d e => (∀ i, i < 256 → e.counter b.toNat i = 0#32) ∧
      (∀ c i, i < 256 → c ≠ b.toNat → c ≠ bankCnt → e.counter c i = d.counter c i) ∧ e.reg Reg.CNT_CMD = 0#32 ∧
      RegsBut [Reg.CNT_CMD] d e) ∧
  (∀ (s : State) (b : BitVec 9), Answers .bar0 Reg.CNT_CMD s → bankCount ≤ b.toNat →
    Yields (.cntClearBank b) s ((s.dev.setReg Reg.CNT_CMD (put 1 28)).latchBit Reg.CNT_STATUS 8)) ∧
  (∀ (s : State), Answers .bar0 Reg.CNT_CMD s →
    Completes .cntClearSet s fun d e => (∀ t b i, t < 19 → bit (d.reg Reg.CNT_CMD_MASK) t = true → b ∈ setBanks t → i < 256 →
        e.counter b i = 0#32) ∧
      (∀ b i, i < 256 → b ≠ bankCnt → (∀ t, t < 20 → bit (d.reg Reg.CNT_CMD_MASK) t = true → b ∉ setBanks t) →
        e.counter b i = d.counter b i) ∧ e.reg Reg.CNT_CMD = 0#32) ∧
  (∀ (s : State), Clocked pllT s → s.dev.harv.active = [] → Yields .harvestBlockWrite s s.dev) ∧
  (∀ (s : State) (h : Harvest) (hs : List Harvest) (b c : HvBlock) (bs : List HvBlock), Clocked pllT s →
    s.dev.harv.active = h :: hs → h.blocks = b :: c :: bs →
    Completes .harvestBlockWrite s fun d e => ∃ st : Bool, e.harv.active =
        { h with blocks := c :: bs, index := h.index + 1, stopped := st } :: hs ∧ e.qm.noms = d.qm.noms) ∧
  (∀ (s : State) (v : Word), Answers .bar0 Reg.CNT_MTR_SEL s →
    Completes (.cntMtrSelect v) s fun d e => e.reg Reg.CNT_MTR_SEL = wd (fld v 16 0) ∧
      e.harv.mtrData = (d.meterWords (fld v 16 0)).map wd ∧ RegsBut [Reg.CNT_MTR_SEL] d e ∧
      e = { d with regs := e.regs, harv := { d.harv with mtrData := e.harv.mtrData } })
end

