-- ==== Sys2Proof/Laws/State.lean ====
section
/-! SUPPORT. One lemma for each field of the device and each shared update: what the update leaves as it was. -/
namespace Sys2Proof.Machine

/-! ### setReg -/

@[simp] theorem Dev.setReg_powered (d : Dev) (key : Nat) (v : Word) : (d.setReg key v).powered = d.powered := rfl
@[simp] theorem Dev.setReg_inReset (d : Dev) (key : Nat) (v : Word) : (d.setReg key v).inReset = d.inReset := rfl
@[simp] theorem Dev.setReg_rstAsserted (d : Dev) (key : Nat) (v : Word) : (d.setReg key v).rstAsserted = d.rstAsserted := rfl
@[simp] theorem Dev.setReg_cnt (d : Dev) (key : Nat) (v : Word) : (d.setReg key v).cnt = d.cnt := rfl
@[simp] theorem Dev.setReg_latch (d : Dev) (key : Nat) (v : Word) : (d.setReg key v).latch = d.latch := rfl
@[simp] theorem Dev.setReg_lock (d : Dev) (key : Nat) (v : Word) : (d.setReg key v).lock = d.lock := rfl
@[simp] theorem Dev.setReg_events (d : Dev) (key : Nat) (v : Word) : (d.setReg key v).events = d.events := rfl
@[simp] theorem Dev.setReg_out (d : Dev) (key : Nat) (v : Word) : (d.setReg key v).out = d.out := rfl
@[simp] theorem Dev.setReg_free (d : Dev) (key : Nat) (v : Word) : (d.setReg key v).free = d.free := rfl
@[simp] theorem Dev.setReg_nextUid (d : Dev) (key : Nat) (v : Word) : (d.setReg key v).nextUid = d.nextUid := rfl
@[simp] theorem Dev.setReg_parked (d : Dev) (key : Nat) (v : Word) : (d.setReg key v).parked = d.parked := rfl
@[simp] theorem Dev.setReg_time (d : Dev) (key : Nat) (v : Word) : (d.setReg key v).time = d.time := rfl
@[simp] theorem Dev.setReg_lnch (d : Dev) (key : Nat) (v : Word) : (d.setReg key v).lnch = d.lnch := rfl
@[simp] theorem Dev.setReg_ports (d : Dev) (key : Nat) (v : Word) : (d.setReg key v).ports = d.ports := rfl
@[simp] theorem Dev.setReg_prog (d : Dev) (key : Nat) (v : Word) : (d.setReg key v).prog = d.prog := rfl
@[simp] theorem Dev.setReg_vint (d : Dev) (key : Nat) (v : Word) : (d.setReg key v).vint = d.vint := rfl
@[simp] theorem Dev.setReg_bpm (d : Dev) (key : Nat) (v : Word) : (d.setReg key v).bpm = d.bpm := rfl
@[simp] theorem Dev.setReg_slices (d : Dev) (key : Nat) (v : Word) : (d.setReg key v).slices = d.slices := rfl
@[simp] theorem Dev.setReg_dukLost (d : Dev) (key : Nat) (v : Word) : (d.setReg key v).dukLost = d.dukLost := rfl
@[simp] theorem Dev.setReg_dukUp (d : Dev) (key : Nat) (v : Word) : (d.setReg key v).dukUp = d.dukUp := rfl
@[simp] theorem Dev.setReg_dukDown (d : Dev) (key : Nat) (v : Word) : (d.setReg key v).dukDown = d.dukDown := rfl
@[simp] theorem Dev.setReg_crossLost (d : Dev) (key : Nat) (v : Word) : (d.setReg key v).crossLost = d.crossLost := rfl
@[simp] theorem Dev.setReg_qm (d : Dev) (key : Nat) (v : Word) : (d.setReg key v).qm = d.qm := rfl
@[simp] theorem Dev.setReg_gsm (d : Dev) (key : Nat) (v : Word) : (d.setReg key v).gsm = d.gsm := rfl
@[simp] theorem Dev.setReg_part (d : Dev) (key : Nat) (v : Word) : (d.setReg key v).part = d.part := rfl
@[simp] theorem Dev.setReg_mc (d : Dev) (key : Nat) (v : Word) : (d.setReg key v).mc = d.mc := rfl
@[simp] theorem Dev.setReg_dram (d : Dev) (key : Nat) (v : Word) : (d.setReg key v).dram = d.dram := rfl
@[simp] theorem Dev.setReg_spr (d : Dev) (key : Nat) (v : Word) : (d.setReg key v).spr = d.spr := rfl
@[simp] theorem Dev.setReg_reach (d : Dev) (key : Nat) (v : Word) : (d.setReg key v).reach = d.reach := rfl
@[simp] theorem Dev.setReg_fab (d : Dev) (key : Nat) (v : Word) : (d.setReg key v).fab = d.fab := rfl
@[simp] theorem Dev.setReg_host (d : Dev) (key : Nat) (v : Word) : (d.setReg key v).host = d.host := rfl
@[simp] theorem Dev.setReg_mgmt (d : Dev) (key : Nat) (v : Word) : (d.setReg key v).mgmt = d.mgmt := rfl
@[simp] theorem Dev.setReg_boot (d : Dev) (key : Nat) (v : Word) : (d.setReg key v).boot = d.boot := rfl
@[simp] theorem Dev.setReg_harv (d : Dev) (key : Nat) (v : Word) : (d.setReg key v).harv = d.harv := rfl
@[simp] theorem Dev.setReg_nvm (d : Dev) (key : Nat) (v : Word) : (d.setReg key v).nvm = d.nvm := rfl
@[simp] theorem Dev.setReg_nvmOctal (d : Dev) (key : Nat) (v : Word) : (d.setReg key v).nvmOctal = d.nvmOctal := rfl
@[simp] theorem Dev.setReg_smem (d : Dev) (key : Nat) (v : Word) : (d.setReg key v).smem = d.smem := rfl

/-! ### setRegFld -/

@[simp] theorem Dev.setRegFld_powered (d : Dev) (key hi lo x : Nat) : (d.setRegFld key hi lo x).powered = d.powered := rfl
@[simp] theorem Dev.setRegFld_inReset (d : Dev) (key hi lo x : Nat) : (d.setRegFld key hi lo x).inReset = d.inReset := rfl
@[simp] theorem Dev.setRegFld_rstAsserted (d : Dev) (key hi lo x : Nat) : (d.setRegFld key hi lo x).rstAsserted = d.rstAsserted := rfl
@[simp] theorem Dev.setRegFld_cnt (d : Dev) (key hi lo x : Nat) : (d.setRegFld key hi lo x).cnt = d.cnt := rfl
@[simp] theorem Dev.setRegFld_latch (d : Dev) (key hi lo x : Nat) : (d.setRegFld key hi lo x).latch = d.latch := rfl
@[simp] theorem Dev.setRegFld_lock (d : Dev) (key hi lo x : Nat) : (d.setRegFld key hi lo x).lock = d.lock := rfl
@[simp] theorem Dev.setRegFld_events (d : Dev) (key hi lo x : Nat) : (d.setRegFld key hi lo x).events = d.events := rfl
@[simp] theorem Dev.setRegFld_out (d : Dev) (key hi lo x : Nat) : (d.setRegFld key hi lo x).out = d.out := rfl
@[simp] theorem Dev.setRegFld_free (d : Dev) (key hi lo x : Nat) : (d.setRegFld key hi lo x).free = d.free := rfl
@[simp] theorem Dev.setRegFld_nextUid (d : Dev) (key hi lo x : Nat) : (d.setRegFld key hi lo x).nextUid = d.nextUid := rfl
@[simp] theorem Dev.setRegFld_parked (d : Dev) (key hi lo x : Nat) : (d.setRegFld key hi lo x).parked = d.parked := rfl
@[simp] theorem Dev.setRegFld_time (d : Dev) (key hi lo x : Nat) : (d.setRegFld key hi lo x).time = d.time := rfl
@[simp] theorem Dev.setRegFld_lnch (d : Dev) (key hi lo x : Nat) : (d.setRegFld key hi lo x).lnch = d.lnch := rfl
@[simp] theorem Dev.setRegFld_ports (d : Dev) (key hi lo x : Nat) : (d.setRegFld key hi lo x).ports = d.ports := rfl
@[simp] theorem Dev.setRegFld_prog (d : Dev) (key hi lo x : Nat) : (d.setRegFld key hi lo x).prog = d.prog := rfl
@[simp] theorem Dev.setRegFld_vint (d : Dev) (key hi lo x : Nat) : (d.setRegFld key hi lo x).vint = d.vint := rfl
@[simp] theorem Dev.setRegFld_bpm (d : Dev) (key hi lo x : Nat) : (d.setRegFld key hi lo x).bpm = d.bpm := rfl
@[simp] theorem Dev.setRegFld_slices (d : Dev) (key hi lo x : Nat) : (d.setRegFld key hi lo x).slices = d.slices := rfl
@[simp] theorem Dev.setRegFld_dukLost (d : Dev) (key hi lo x : Nat) : (d.setRegFld key hi lo x).dukLost = d.dukLost := rfl
@[simp] theorem Dev.setRegFld_dukUp (d : Dev) (key hi lo x : Nat) : (d.setRegFld key hi lo x).dukUp = d.dukUp := rfl
@[simp] theorem Dev.setRegFld_dukDown (d : Dev) (key hi lo x : Nat) : (d.setRegFld key hi lo x).dukDown = d.dukDown := rfl
@[simp] theorem Dev.setRegFld_crossLost (d : Dev) (key hi lo x : Nat) : (d.setRegFld key hi lo x).crossLost = d.crossLost := rfl
@[simp] theorem Dev.setRegFld_qm (d : Dev) (key hi lo x : Nat) : (d.setRegFld key hi lo x).qm = d.qm := rfl
@[simp] theorem Dev.setRegFld_gsm (d : Dev) (key hi lo x : Nat) : (d.setRegFld key hi lo x).gsm = d.gsm := rfl
@[simp] theorem Dev.setRegFld_part (d : Dev) (key hi lo x : Nat) : (d.setRegFld key hi lo x).part = d.part := rfl
@[simp] theorem Dev.setRegFld_mc (d : Dev) (key hi lo x : Nat) : (d.setRegFld key hi lo x).mc = d.mc := rfl
@[simp] theorem Dev.setRegFld_dram (d : Dev) (key hi lo x : Nat) : (d.setRegFld key hi lo x).dram = d.dram := rfl
@[simp] theorem Dev.setRegFld_spr (d : Dev) (key hi lo x : Nat) : (d.setRegFld key hi lo x).spr = d.spr := rfl
@[simp] theorem Dev.setRegFld_reach (d : Dev) (key hi lo x : Nat) : (d.setRegFld key hi lo x).reach = d.reach := rfl
@[simp] theorem Dev.setRegFld_fab (d : Dev) (key hi lo x : Nat) : (d.setRegFld key hi lo x).fab = d.fab := rfl
@[simp] theorem Dev.setRegFld_host (d : Dev) (key hi lo x : Nat) : (d.setRegFld key hi lo x).host = d.host := rfl
@[simp] theorem Dev.setRegFld_mgmt (d : Dev) (key hi lo x : Nat) : (d.setRegFld key hi lo x).mgmt = d.mgmt := rfl
@[simp] theorem Dev.setRegFld_boot (d : Dev) (key hi lo x : Nat) : (d.setRegFld key hi lo x).boot = d.boot := rfl
@[simp] theorem Dev.setRegFld_harv (d : Dev) (key hi lo x : Nat) : (d.setRegFld key hi lo x).harv = d.harv := rfl
@[simp] theorem Dev.setRegFld_nvm (d : Dev) (key hi lo x : Nat) : (d.setRegFld key hi lo x).nvm = d.nvm := rfl
@[simp] theorem Dev.setRegFld_nvmOctal (d : Dev) (key hi lo x : Nat) : (d.setRegFld key hi lo x).nvmOctal = d.nvmOctal := rfl
@[simp] theorem Dev.setRegFld_smem (d : Dev) (key hi lo x : Nat) : (d.setRegFld key hi lo x).smem = d.smem := rfl

/-! ### writeRw -/

@[simp] theorem Dev.writeRw_powered (d : Dev) (key : Nat) (rw v : Word) : (d.writeRw key rw v).powered = d.powered := rfl
@[simp] theorem Dev.writeRw_inReset (d : Dev) (key : Nat) (rw v : Word) : (d.writeRw key rw v).inReset = d.inReset := rfl
@[simp] theorem Dev.writeRw_rstAsserted (d : Dev) (key : Nat) (rw v : Word) : (d.writeRw key rw v).rstAsserted = d.rstAsserted := rfl
@[simp] theorem Dev.writeRw_cnt (d : Dev) (key : Nat) (rw v : Word) : (d.writeRw key rw v).cnt = d.cnt := rfl
@[simp] theorem Dev.writeRw_latch (d : Dev) (key : Nat) (rw v : Word) : (d.writeRw key rw v).latch = d.latch := rfl
@[simp] theorem Dev.writeRw_lock (d : Dev) (key : Nat) (rw v : Word) : (d.writeRw key rw v).lock = d.lock := rfl
@[simp] theorem Dev.writeRw_events (d : Dev) (key : Nat) (rw v : Word) : (d.writeRw key rw v).events = d.events := rfl
@[simp] theorem Dev.writeRw_out (d : Dev) (key : Nat) (rw v : Word) : (d.writeRw key rw v).out = d.out := rfl
@[simp] theorem Dev.writeRw_free (d : Dev) (key : Nat) (rw v : Word) : (d.writeRw key rw v).free = d.free := rfl
@[simp] theorem Dev.writeRw_nextUid (d : Dev) (key : Nat) (rw v : Word) : (d.writeRw key rw v).nextUid = d.nextUid := rfl
@[simp] theorem Dev.writeRw_parked (d : Dev) (key : Nat) (rw v : Word) : (d.writeRw key rw v).parked = d.parked := rfl
@[simp] theorem Dev.writeRw_time (d : Dev) (key : Nat) (rw v : Word) : (d.writeRw key rw v).time = d.time := rfl
@[simp] theorem Dev.writeRw_lnch (d : Dev) (key : Nat) (rw v : Word) : (d.writeRw key rw v).lnch = d.lnch := rfl
@[simp] theorem Dev.writeRw_ports (d : Dev) (key : Nat) (rw v : Word) : (d.writeRw key rw v).ports = d.ports := rfl
@[simp] theorem Dev.writeRw_prog (d : Dev) (key : Nat) (rw v : Word) : (d.writeRw key rw v).prog = d.prog := rfl
@[simp] theorem Dev.writeRw_vint (d : Dev) (key : Nat) (rw v : Word) : (d.writeRw key rw v).vint = d.vint := rfl
@[simp] theorem Dev.writeRw_bpm (d : Dev) (key : Nat) (rw v : Word) : (d.writeRw key rw v).bpm = d.bpm := rfl
@[simp] theorem Dev.writeRw_slices (d : Dev) (key : Nat) (rw v : Word) : (d.writeRw key rw v).slices = d.slices := rfl
@[simp] theorem Dev.writeRw_dukLost (d : Dev) (key : Nat) (rw v : Word) : (d.writeRw key rw v).dukLost = d.dukLost := rfl
@[simp] theorem Dev.writeRw_dukUp (d : Dev) (key : Nat) (rw v : Word) : (d.writeRw key rw v).dukUp = d.dukUp := rfl
@[simp] theorem Dev.writeRw_dukDown (d : Dev) (key : Nat) (rw v : Word) : (d.writeRw key rw v).dukDown = d.dukDown := rfl
@[simp] theorem Dev.writeRw_crossLost (d : Dev) (key : Nat) (rw v : Word) : (d.writeRw key rw v).crossLost = d.crossLost := rfl
@[simp] theorem Dev.writeRw_qm (d : Dev) (key : Nat) (rw v : Word) : (d.writeRw key rw v).qm = d.qm := rfl
@[simp] theorem Dev.writeRw_gsm (d : Dev) (key : Nat) (rw v : Word) : (d.writeRw key rw v).gsm = d.gsm := rfl
@[simp] theorem Dev.writeRw_part (d : Dev) (key : Nat) (rw v : Word) : (d.writeRw key rw v).part = d.part := rfl
@[simp] theorem Dev.writeRw_mc (d : Dev) (key : Nat) (rw v : Word) : (d.writeRw key rw v).mc = d.mc := rfl
@[simp] theorem Dev.writeRw_dram (d : Dev) (key : Nat) (rw v : Word) : (d.writeRw key rw v).dram = d.dram := rfl
@[simp] theorem Dev.writeRw_spr (d : Dev) (key : Nat) (rw v : Word) : (d.writeRw key rw v).spr = d.spr := rfl
@[simp] theorem Dev.writeRw_reach (d : Dev) (key : Nat) (rw v : Word) : (d.writeRw key rw v).reach = d.reach := rfl
@[simp] theorem Dev.writeRw_fab (d : Dev) (key : Nat) (rw v : Word) : (d.writeRw key rw v).fab = d.fab := rfl
@[simp] theorem Dev.writeRw_host (d : Dev) (key : Nat) (rw v : Word) : (d.writeRw key rw v).host = d.host := rfl
@[simp] theorem Dev.writeRw_mgmt (d : Dev) (key : Nat) (rw v : Word) : (d.writeRw key rw v).mgmt = d.mgmt := rfl
@[simp] theorem Dev.writeRw_boot (d : Dev) (key : Nat) (rw v : Word) : (d.writeRw key rw v).boot = d.boot := rfl
@[simp] theorem Dev.writeRw_harv (d : Dev) (key : Nat) (rw v : Word) : (d.writeRw key rw v).harv = d.harv := rfl
@[simp] theorem Dev.writeRw_nvm (d : Dev) (key : Nat) (rw v : Word) : (d.writeRw key rw v).nvm = d.nvm := rfl
@[simp] theorem Dev.writeRw_nvmOctal (d : Dev) (key : Nat) (rw v : Word) : (d.writeRw key rw v).nvmOctal = d.nvmOctal := rfl
@[simp] theorem Dev.writeRw_smem (d : Dev) (key : Nat) (rw v : Word) : (d.writeRw key rw v).smem = d.smem := rfl

/-! ### clearSqc -/

@[simp] theorem Dev.clearSqc_powered (d : Dev) (key : Nat) (sqc v : Word) : (d.clearSqc key sqc v).powered = d.powered := rfl
@[simp] theorem Dev.clearSqc_inReset (d : Dev) (key : Nat) (sqc v : Word) : (d.clearSqc key sqc v).inReset = d.inReset := rfl
@[simp] theorem Dev.clearSqc_rstAsserted (d : Dev) (key : Nat) (sqc v : Word) : (d.clearSqc key sqc v).rstAsserted = d.rstAsserted := rfl
@[simp] theorem Dev.clearSqc_cnt (d : Dev) (key : Nat) (sqc v : Word) : (d.clearSqc key sqc v).cnt = d.cnt := rfl
@[simp] theorem Dev.clearSqc_latch (d : Dev) (key : Nat) (sqc v : Word) : (d.clearSqc key sqc v).latch = d.latch := rfl
@[simp] theorem Dev.clearSqc_lock (d : Dev) (key : Nat) (sqc v : Word) : (d.clearSqc key sqc v).lock = d.lock := rfl
@[simp] theorem Dev.clearSqc_events (d : Dev) (key : Nat) (sqc v : Word) : (d.clearSqc key sqc v).events = d.events := rfl
@[simp] theorem Dev.clearSqc_out (d : Dev) (key : Nat) (sqc v : Word) : (d.clearSqc key sqc v).out = d.out := rfl
@[simp] theorem Dev.clearSqc_free (d : Dev) (key : Nat) (sqc v : Word) : (d.clearSqc key sqc v).free = d.free := rfl
@[simp] theorem Dev.clearSqc_nextUid (d : Dev) (key : Nat) (sqc v : Word) : (d.clearSqc key sqc v).nextUid = d.nextUid := rfl
@[simp] theorem Dev.clearSqc_parked (d : Dev) (key : Nat) (sqc v : Word) : (d.clearSqc key sqc v).parked = d.parked := rfl
@[simp] theorem Dev.clearSqc_time (d : Dev) (key : Nat) (sqc v : Word) : (d.clearSqc key sqc v).time = d.time := rfl
@[simp] theorem Dev.clearSqc_lnch (d : Dev) (key : Nat) (sqc v : Word) : (d.clearSqc key sqc v).lnch = d.lnch := rfl
@[simp] theorem Dev.clearSqc_ports (d : Dev) (key : Nat) (sqc v : Word) : (d.clearSqc key sqc v).ports = d.ports := rfl
@[simp] theorem Dev.clearSqc_prog (d : Dev) (key : Nat) (sqc v : Word) : (d.clearSqc key sqc v).prog = d.prog := rfl
@[simp] theorem Dev.clearSqc_vint (d : Dev) (key : Nat) (sqc v : Word) : (d.clearSqc key sqc v).vint = d.vint := rfl
@[simp] theorem Dev.clearSqc_bpm (d : Dev) (key : Nat) (sqc v : Word) : (d.clearSqc key sqc v).bpm = d.bpm := rfl
@[simp] theorem Dev.clearSqc_slices (d : Dev) (key : Nat) (sqc v : Word) : (d.clearSqc key sqc v).slices = d.slices := rfl
@[simp] theorem Dev.clearSqc_dukLost (d : Dev) (key : Nat) (sqc v : Word) : (d.clearSqc key sqc v).dukLost = d.dukLost := rfl
@[simp] theorem Dev.clearSqc_dukUp (d : Dev) (key : Nat) (sqc v : Word) : (d.clearSqc key sqc v).dukUp = d.dukUp := rfl
@[simp] theorem Dev.clearSqc_dukDown (d : Dev) (key : Nat) (sqc v : Word) : (d.clearSqc key sqc v).dukDown = d.dukDown := rfl
@[simp] theorem Dev.clearSqc_crossLost (d : Dev) (key : Nat) (sqc v : Word) : (d.clearSqc key sqc v).crossLost = d.crossLost := rfl
@[simp] theorem Dev.clearSqc_qm (d : Dev) (key : Nat) (sqc v : Word) : (d.clearSqc key sqc v).qm = d.qm := rfl
@[simp] theorem Dev.clearSqc_gsm (d : Dev) (key : Nat) (sqc v : Word) : (d.clearSqc key sqc v).gsm = d.gsm := rfl
@[simp] theorem Dev.clearSqc_part (d : Dev) (key : Nat) (sqc v : Word) : (d.clearSqc key sqc v).part = d.part := rfl
@[simp] theorem Dev.clearSqc_mc (d : Dev) (key : Nat) (sqc v : Word) : (d.clearSqc key sqc v).mc = d.mc := rfl
@[simp] theorem Dev.clearSqc_dram (d : Dev) (key : Nat) (sqc v : Word) : (d.clearSqc key sqc v).dram = d.dram := rfl
@[simp] theorem Dev.clearSqc_spr (d : Dev) (key : Nat) (sqc v : Word) : (d.clearSqc key sqc v).spr = d.spr := rfl
@[simp] theorem Dev.clearSqc_reach (d : Dev) (key : Nat) (sqc v : Word) : (d.clearSqc key sqc v).reach = d.reach := rfl
@[simp] theorem Dev.clearSqc_fab (d : Dev) (key : Nat) (sqc v : Word) : (d.clearSqc key sqc v).fab = d.fab := rfl
@[simp] theorem Dev.clearSqc_host (d : Dev) (key : Nat) (sqc v : Word) : (d.clearSqc key sqc v).host = d.host := rfl
@[simp] theorem Dev.clearSqc_mgmt (d : Dev) (key : Nat) (sqc v : Word) : (d.clearSqc key sqc v).mgmt = d.mgmt := rfl
@[simp] theorem Dev.clearSqc_boot (d : Dev) (key : Nat) (sqc v : Word) : (d.clearSqc key sqc v).boot = d.boot := rfl
@[simp] theorem Dev.clearSqc_harv (d : Dev) (key : Nat) (sqc v : Word) : (d.clearSqc key sqc v).harv = d.harv := rfl
@[simp] theorem Dev.clearSqc_nvm (d : Dev) (key : Nat) (sqc v : Word) : (d.clearSqc key sqc v).nvm = d.nvm := rfl
@[simp] theorem Dev.clearSqc_nvmOctal (d : Dev) (key : Nat) (sqc v : Word) : (d.clearSqc key sqc v).nvmOctal = d.nvmOctal := rfl
@[simp] theorem Dev.clearSqc_smem (d : Dev) (key : Nat) (sqc v : Word) : (d.clearSqc key sqc v).smem = d.smem := rfl

/-! ### latchBit -/

@[simp] theorem Dev.latchBit_powered (d : Dev) (key b : Nat) : (d.latchBit key b).powered = d.powered := rfl
@[simp] theorem Dev.latchBit_inReset (d : Dev) (key b : Nat) : (d.latchBit key b).inReset = d.inReset := rfl
@[simp] theorem Dev.latchBit_rstAsserted (d : Dev) (key b : Nat) : (d.latchBit key b).rstAsserted = d.rstAsserted := rfl
@[simp] theorem Dev.latchBit_cnt (d : Dev) (key b : Nat) : (d.latchBit key b).cnt = d.cnt := rfl
@[simp] theorem Dev.latchBit_latch (d : Dev) (key b : Nat) : (d.latchBit key b).latch = d.latch := rfl
@[simp] theorem Dev.latchBit_lock (d : Dev) (key b : Nat) : (d.latchBit key b).lock = d.lock := rfl
@[simp] theorem Dev.latchBit_events (d : Dev) (key b : Nat) : (d.latchBit key b).events = d.events := rfl
@[simp] theorem Dev.latchBit_out (d : Dev) (key b : Nat) : (d.latchBit key b).out = d.out := rfl
@[simp] theorem Dev.latchBit_free (d : Dev) (key b : Nat) : (d.latchBit key b).free = d.free := rfl
@[simp] theorem Dev.latchBit_nextUid (d : Dev) (key b : Nat) : (d.latchBit key b).nextUid = d.nextUid := rfl
@[simp] theorem Dev.latchBit_parked (d : Dev) (key b : Nat) : (d.latchBit key b).parked = d.parked := rfl
@[simp] theorem Dev.latchBit_time (d : Dev) (key b : Nat) : (d.latchBit key b).time = d.time := rfl
@[simp] theorem Dev.latchBit_lnch (d : Dev) (key b : Nat) : (d.latchBit key b).lnch = d.lnch := rfl
@[simp] theorem Dev.latchBit_ports (d : Dev) (key b : Nat) : (d.latchBit key b).ports = d.ports := rfl
@[simp] theorem Dev.latchBit_prog (d : Dev) (key b : Nat) : (d.latchBit key b).prog = d.prog := rfl
@[simp] theorem Dev.latchBit_vint (d : Dev) (key b : Nat) : (d.latchBit key b).vint = d.vint := rfl
@[simp] theorem Dev.latchBit_bpm (d : Dev) (key b : Nat) : (d.latchBit key b).bpm = d.bpm := rfl
@[simp] theorem Dev.latchBit_slices (d : Dev) (key b : Nat) : (d.latchBit key b).slices = d.slices := rfl
@[simp] theorem Dev.latchBit_dukLost (d : Dev) (key b : Nat) : (d.latchBit key b).dukLost = d.dukLost := rfl
@[simp] theorem Dev.latchBit_dukUp (d : Dev) (key b : Nat) : (d.latchBit key b).dukUp = d.dukUp := rfl
@[simp] theorem Dev.latchBit_dukDown (d : Dev) (key b : Nat) : (d.latchBit key b).dukDown = d.dukDown := rfl
@[simp] theorem Dev.latchBit_crossLost (d : Dev) (key b : Nat) : (d.latchBit key b).crossLost = d.crossLost := rfl
@[simp] theorem Dev.latchBit_qm (d : Dev) (key b : Nat) : (d.latchBit key b).qm = d.qm := rfl
@[simp] theorem Dev.latchBit_gsm (d : Dev) (key b : Nat) : (d.latchBit key b).gsm = d.gsm := rfl
@[simp] theorem Dev.latchBit_part (d : Dev) (key b : Nat) : (d.latchBit key b).part = d.part := rfl
@[simp] theorem Dev.latchBit_mc (d : Dev) (key b : Nat) : (d.latchBit key b).mc = d.mc := rfl
@[simp] theorem Dev.latchBit_dram (d : Dev) (key b : Nat) : (d.latchBit key b).dram = d.dram := rfl
@[simp] theorem Dev.latchBit_spr (d : Dev) (key b : Nat) : (d.latchBit key b).spr = d.spr := rfl
@[simp] theorem Dev.latchBit_reach (d : Dev) (key b : Nat) : (d.latchBit key b).reach = d.reach := rfl
@[simp] theorem Dev.latchBit_fab (d : Dev) (key b : Nat) : (d.latchBit key b).fab = d.fab := rfl
@[simp] theorem Dev.latchBit_host (d : Dev) (key b : Nat) : (d.latchBit key b).host = d.host := rfl
@[simp] theorem Dev.latchBit_mgmt (d : Dev) (key b : Nat) : (d.latchBit key b).mgmt = d.mgmt := rfl
@[simp] theorem Dev.latchBit_boot (d : Dev) (key b : Nat) : (d.latchBit key b).boot = d.boot := rfl
@[simp] theorem Dev.latchBit_harv (d : Dev) (key b : Nat) : (d.latchBit key b).harv = d.harv := rfl
@[simp] theorem Dev.latchBit_nvm (d : Dev) (key b : Nat) : (d.latchBit key b).nvm = d.nvm := rfl
@[simp] theorem Dev.latchBit_nvmOctal (d : Dev) (key b : Nat) : (d.latchBit key b).nvmOctal = d.nvmOctal := rfl
@[simp] theorem Dev.latchBit_smem (d : Dev) (key b : Nat) : (d.latchBit key b).smem = d.smem := rfl

/-! ### bump -/

@[simp] theorem Dev.bump_powered (d : Dev) (b i n : Nat) : (d.bump b i n).powered = d.powered := by unfold Dev.bump; split <;> [split; skip] <;> rfl
@[simp] theorem Dev.bump_inReset (d : Dev) (b i n : Nat) : (d.bump b i n).inReset = d.inReset := by unfold Dev.bump; split <;> [split; skip] <;> rfl
@[simp] theorem Dev.bump_rstAsserted (d : Dev) (b i n : Nat) : (d.bump b i n).rstAsserted = d.rstAsserted := by unfold Dev.bump; split <;> [split; skip] <;> rfl
@[simp] theorem Dev.bump_regs (d : Dev) (b i n : Nat) : (d.bump b i n).regs = d.regs := by unfold Dev.bump; split <;> [split; skip] <;> rfl
@[simp] theorem Dev.bump_latch (d : Dev) (b i n : Nat) : (d.bump b i n).latch = d.latch := by unfold Dev.bump; split <;> [split; skip] <;> rfl
@[simp] theorem Dev.bump_lock (d : Dev) (b i n : Nat) : (d.bump b i n).lock = d.lock := by unfold Dev.bump; split <;> [split; skip] <;> rfl
@[simp] theorem Dev.bump_events (d : Dev) (b i n : Nat) : (d.bump b i n).events = d.events := by unfold Dev.bump; split <;> [split; skip] <;> rfl
@[simp] theorem Dev.bump_out (d : Dev) (b i n : Nat) : (d.bump b i n).out = d.out := by unfold Dev.bump; split <;> [split; skip] <;> rfl
@[simp] theorem Dev.bump_free (d : Dev) (b i n : Nat) : (d.bump b i n).free = d.free := by unfold Dev.bump; split <;> [split; skip] <;> rfl
@[simp] theorem Dev.bump_nextUid (d : Dev) (b i n : Nat) : (d.bump b i n).nextUid = d.nextUid := by unfold Dev.bump; split <;> [split; skip] <;> rfl
@[simp] theorem Dev.bump_parked (d : Dev) (b i n : Nat) : (d.bump b i n).parked = d.parked := by unfold Dev.bump; split <;> [split; skip] <;> rfl
@[simp] theorem Dev.bump_time (d : Dev) (b i n : Nat) : (d.bump b i n).time = d.time := by unfold Dev.bump; split <;> [split; skip] <;> rfl
@[simp] theorem Dev.bump_lnch (d : Dev) (b i n : Nat) : (d.bump b i n).lnch = d.lnch := by unfold Dev.bump; split <;> [split; skip] <;> rfl
@[simp] theorem Dev.bump_ports (d : Dev) (b i n : Nat) : (d.bump b i n).ports = d.ports := by unfold Dev.bump; split <;> [split; skip] <;> rfl
@[simp] theorem Dev.bump_prog (d : Dev) (b i n : Nat) : (d.bump b i n).prog = d.prog := by unfold Dev.bump; split <;> [split; skip] <;> rfl
@[simp] theorem Dev.bump_vint (d : Dev) (b i n : Nat) : (d.bump b i n).vint = d.vint := by unfold Dev.bump; split <;> [split; skip] <;> rfl
@[simp] theorem Dev.bump_bpm (d : Dev) (b i n : Nat) : (d.bump b i n).bpm = d.bpm := by unfold Dev.bump; split <;> [split; skip] <;> rfl
@[simp] theorem Dev.bump_slices (d : Dev) (b i n : Nat) : (d.bump b i n).slices = d.slices := by unfold Dev.bump; split <;> [split; skip] <;> rfl
@[simp] theorem Dev.bump_dukLost (d : Dev) (b i n : Nat) : (d.bump b i n).dukLost = d.dukLost := by unfold Dev.bump; split <;> [split; skip] <;> rfl
@[simp] theorem Dev.bump_dukUp (d : Dev) (b i n : Nat) : (d.bump b i n).dukUp = d.dukUp := by unfold Dev.bump; split <;> [split; skip] <;> rfl
@[simp] theorem Dev.bump_dukDown (d : Dev) (b i n : Nat) : (d.bump b i n).dukDown = d.dukDown := by unfold Dev.bump; split <;> [split; skip] <;> rfl
@[simp] theorem Dev.bump_crossLost (d : Dev) (b i n : Nat) : (d.bump b i n).crossLost = d.crossLost := by unfold Dev.bump; split <;> [split; skip] <;> rfl
@[simp] theorem Dev.bump_qm (d : Dev) (b i n : Nat) : (d.bump b i n).qm = d.qm := by unfold Dev.bump; split <;> [split; skip] <;> rfl
@[simp] theorem Dev.bump_gsm (d : Dev) (b i n : Nat) : (d.bump b i n).gsm = d.gsm := by unfold Dev.bump; split <;> [split; skip] <;> rfl
@[simp] theorem Dev.bump_part (d : Dev) (b i n : Nat) : (d.bump b i n).part = d.part := by unfold Dev.bump; split <;> [split; skip] <;> rfl
@[simp] theorem Dev.bump_mc (d : Dev) (b i n : Nat) : (d.bump b i n).mc = d.mc := by unfold Dev.bump; split <;> [split; skip] <;> rfl
@[simp] theorem Dev.bump_dram (d : Dev) (b i n : Nat) : (d.bump b i n).dram = d.dram := by unfold Dev.bump; split <;> [split; skip] <;> rfl
@[simp] theorem Dev.bump_spr (d : Dev) (b i n : Nat) : (d.bump b i n).spr = d.spr := by unfold Dev.bump; split <;> [split; skip] <;> rfl
@[simp] theorem Dev.bump_reach (d : Dev) (b i n : Nat) : (d.bump b i n).reach = d.reach := by unfold Dev.bump; split <;> [split; skip] <;> rfl
@[simp] theorem Dev.bump_fab (d : Dev) (b i n : Nat) : (d.bump b i n).fab = d.fab := by unfold Dev.bump; split <;> [split; skip] <;> rfl
@[simp] theorem Dev.bump_host (d : Dev) (b i n : Nat) : (d.bump b i n).host = d.host := by unfold Dev.bump; split <;> [split; skip] <;> rfl
@[simp] theorem Dev.bump_mgmt (d : Dev) (b i n : Nat) : (d.bump b i n).mgmt = d.mgmt := by unfold Dev.bump; split <;> [split; skip] <;> rfl
@[simp] theorem Dev.bump_boot (d : Dev) (b i n : Nat) : (d.bump b i n).boot = d.boot := by unfold Dev.bump; split <;> [split; skip] <;> rfl
@[simp] theorem Dev.bump_harv (d : Dev) (b i n : Nat) : (d.bump b i n).harv = d.harv := by unfold Dev.bump; split <;> [split; skip] <;> rfl
@[simp] theorem Dev.bump_nvm (d : Dev) (b i n : Nat) : (d.bump b i n).nvm = d.nvm := by unfold Dev.bump; split <;> [split; skip] <;> rfl
@[simp] theorem Dev.bump_nvmOctal (d : Dev) (b i n : Nat) : (d.bump b i n).nvmOctal = d.nvmOctal := by unfold Dev.bump; split <;> [split; skip] <;> rfl
@[simp] theorem Dev.bump_smem (d : Dev) (b i n : Nat) : (d.bump b i n).smem = d.smem := by unfold Dev.bump; split <;> [split; skip] <;> rfl

/-! ### inc -/

@[simp] theorem Dev.inc_powered (d : Dev) (b i : Nat) : (d.inc b i).powered = d.powered := d.bump_powered b i 1
@[simp] theorem Dev.inc_inReset (d : Dev) (b i : Nat) : (d.inc b i).inReset = d.inReset := d.bump_inReset b i 1
@[simp] theorem Dev.inc_rstAsserted (d : Dev) (b i : Nat) : (d.inc b i).rstAsserted = d.rstAsserted := d.bump_rstAsserted b i 1
@[simp] theorem Dev.inc_regs (d : Dev) (b i : Nat) : (d.inc b i).regs = d.regs := d.bump_regs b i 1
@[simp] theorem Dev.inc_latch (d : Dev) (b i : Nat) : (d.inc b i).latch = d.latch := d.bump_latch b i 1
@[simp] theorem Dev.inc_lock (d : Dev) (b i : Nat) : (d.inc b i).lock = d.lock := d.bump_lock b i 1
@[simp] theorem Dev.inc_events (d : Dev) (b i : Nat) : (d.inc b i).events = d.events := d.bump_events b i 1
@[simp] theorem Dev.inc_out (d : Dev) (b i : Nat) : (d.inc b i).out = d.out := d.bump_out b i 1
@[simp] theorem Dev.inc_free (d : Dev) (b i : Nat) : (d.inc b i).free = d.free := d.bump_free b i 1
@[simp] theorem Dev.inc_nextUid (d : Dev) (b i : Nat) : (d.inc b i).nextUid = d.nextUid := d.bump_nextUid b i 1
@[simp] theorem Dev.inc_parked (d : Dev) (b i : Nat) : (d.inc b i).parked = d.parked := d.bump_parked b i 1
@[simp] theorem Dev.inc_time (d : Dev) (b i : Nat) : (d.inc b i).time = d.time := d.bump_time b i 1
@[simp] theorem Dev.inc_lnch (d : Dev) (b i : Nat) : (d.inc b i).lnch = d.lnch := d.bump_lnch b i 1
@[simp] theorem Dev.inc_ports (d : Dev) (b i : Nat) : (d.inc b i).ports = d.ports := d.bump_ports b i 1
@[simp] theorem Dev.inc_prog (d : Dev) (b i : Nat) : (d.inc b i).prog = d.prog := d.bump_prog b i 1
@[simp] theorem Dev.inc_vint (d : Dev) (b i : Nat) : (d.inc b i).vint = d.vint := d.bump_vint b i 1
@[simp] theorem Dev.inc_bpm (d : Dev) (b i : Nat) : (d.inc b i).bpm = d.bpm := d.bump_bpm b i 1
@[simp] theorem Dev.inc_slices (d : Dev) (b i : Nat) : (d.inc b i).slices = d.slices := d.bump_slices b i 1
@[simp] theorem Dev.inc_dukLost (d : Dev) (b i : Nat) : (d.inc b i).dukLost = d.dukLost := d.bump_dukLost b i 1
@[simp] theorem Dev.inc_dukUp (d : Dev) (b i : Nat) : (d.inc b i).dukUp = d.dukUp := d.bump_dukUp b i 1
@[simp] theorem Dev.inc_dukDown (d : Dev) (b i : Nat) : (d.inc b i).dukDown = d.dukDown := d.bump_dukDown b i 1
@[simp] theorem Dev.inc_crossLost (d : Dev) (b i : Nat) : (d.inc b i).crossLost = d.crossLost := d.bump_crossLost b i 1
@[simp] theorem Dev.inc_qm (d : Dev) (b i : Nat) : (d.inc b i).qm = d.qm := d.bump_qm b i 1
@[simp] theorem Dev.inc_gsm (d : Dev) (b i : Nat) : (d.inc b i).gsm = d.gsm := d.bump_gsm b i 1
@[simp] theorem Dev.inc_part (d : Dev) (b i : Nat) : (d.inc b i).part = d.part := d.bump_part b i 1
@[simp] theorem Dev.inc_mc (d : Dev) (b i : Nat) : (d.inc b i).mc = d.mc := d.bump_mc b i 1
@[simp] theorem Dev.inc_dram (d : Dev) (b i : Nat) : (d.inc b i).dram = d.dram := d.bump_dram b i 1
@[simp] theorem Dev.inc_spr (d : Dev) (b i : Nat) : (d.inc b i).spr = d.spr := d.bump_spr b i 1
@[simp] theorem Dev.inc_reach (d : Dev) (b i : Nat) : (d.inc b i).reach = d.reach := d.bump_reach b i 1
@[simp] theorem Dev.inc_fab (d : Dev) (b i : Nat) : (d.inc b i).fab = d.fab := d.bump_fab b i 1
@[simp] theorem Dev.inc_host (d : Dev) (b i : Nat) : (d.inc b i).host = d.host := d.bump_host b i 1
@[simp] theorem Dev.inc_mgmt (d : Dev) (b i : Nat) : (d.inc b i).mgmt = d.mgmt := d.bump_mgmt b i 1
@[simp] theorem Dev.inc_boot (d : Dev) (b i : Nat) : (d.inc b i).boot = d.boot := d.bump_boot b i 1
@[simp] theorem Dev.inc_harv (d : Dev) (b i : Nat) : (d.inc b i).harv = d.harv := d.bump_harv b i 1
@[simp] theorem Dev.inc_nvm (d : Dev) (b i : Nat) : (d.inc b i).nvm = d.nvm := d.bump_nvm b i 1
@[simp] theorem Dev.inc_nvmOctal (d : Dev) (b i : Nat) : (d.inc b i).nvmOctal = d.nvmOctal := d.bump_nvmOctal b i 1
@[simp] theorem Dev.inc_smem (d : Dev) (b i : Nat) : (d.inc b i).smem = d.smem := d.bump_smem b i 1

/-! ### log -/

@[simp] theorem Dev.log_powered (d : Dev) (src code : Nat) (x : Bytes) : (d.log src code x).powered = d.powered := by unfold Dev.log; split <;> simp
@[simp] theorem Dev.log_inReset (d : Dev) (src code : Nat) (x : Bytes) : (d.log src code x).inReset = d.inReset := by unfold Dev.log; split <;> simp
@[simp] theorem Dev.log_rstAsserted (d : Dev) (src code : Nat) (x : Bytes) : (d.log src code x).rstAsserted = d.rstAsserted := by unfold Dev.log; split <;> simp
@[simp] theorem Dev.log_latch (d : Dev) (src code : Nat) (x : Bytes) : (d.log src code x).latch = d.latch := by unfold Dev.log; split <;> simp
@[simp] theorem Dev.log_lock (d : Dev) (src code : Nat) (x : Bytes) : (d.log src code x).lock = d.lock := by unfold Dev.log; split <;> simp
@[simp] theorem Dev.log_out (d : Dev) (src code : Nat) (x : Bytes) : (d.log src code x).out = d.out := by unfold Dev.log; split <;> simp
@[simp] theorem Dev.log_free (d : Dev) (src code : Nat) (x : Bytes) : (d.log src code x).free = d.free := by unfold Dev.log; split <;> simp
@[simp] theorem Dev.log_nextUid (d : Dev) (src code : Nat) (x : Bytes) : (d.log src code x).nextUid = d.nextUid := by unfold Dev.log; split <;> simp
@[simp] theorem Dev.log_parked (d : Dev) (src code : Nat) (x : Bytes) : (d.log src code x).parked = d.parked := by unfold Dev.log; split <;> simp
@[simp] theorem Dev.log_time (d : Dev) (src code : Nat) (x : Bytes) : (d.log src code x).time = d.time := by unfold Dev.log; split <;> simp
@[simp] theorem Dev.log_lnch (d : Dev) (src code : Nat) (x : Bytes) : (d.log src code x).lnch = d.lnch := by unfold Dev.log; split <;> simp
@[simp] theorem Dev.log_ports (d : Dev) (src code : Nat) (x : Bytes) : (d.log src code x).ports = d.ports := by unfold Dev.log; split <;> simp
@[simp] theorem Dev.log_prog (d : Dev) (src code : Nat) (x : Bytes) : (d.log src code x).prog = d.prog := by unfold Dev.log; split <;> simp
@[simp] theorem Dev.log_vint (d : Dev) (src code : Nat) (x : Bytes) : (d.log src code x).vint = d.vint := by unfold Dev.log; split <;> simp
@[simp] theorem Dev.log_bpm (d : Dev) (src code : Nat) (x : Bytes) : (d.log src code x).bpm = d.bpm := by unfold Dev.log; split <;> simp
@[simp] theorem Dev.log_slices (d : Dev) (src code : Nat) (x : Bytes) : (d.log src code x).slices = d.slices := by unfold Dev.log; split <;> simp
@[simp] theorem Dev.log_dukLost (d : Dev) (src code : Nat) (x : Bytes) : (d.log src code x).dukLost = d.dukLost := by unfold Dev.log; split <;> simp
@[simp] theorem Dev.log_dukUp (d : Dev) (src code : Nat) (x : Bytes) : (d.log src code x).dukUp = d.dukUp := by unfold Dev.log; split <;> simp
@[simp] theorem Dev.log_dukDown (d : Dev) (src code : Nat) (x : Bytes) : (d.log src code x).dukDown = d.dukDown := by unfold Dev.log; split <;> simp
@[simp] theorem Dev.log_crossLost (d : Dev) (src code : Nat) (x : Bytes) : (d.log src code x).crossLost = d.crossLost := by unfold Dev.log; split <;> simp
@[simp] theorem Dev.log_qm (d : Dev) (src code : Nat) (x : Bytes) : (d.log src code x).qm = d.qm := by unfold Dev.log; split <;> simp
@[simp] theorem Dev.log_gsm (d : Dev) (src code : Nat) (x : Bytes) : (d.log src code x).gsm = d.gsm := by unfold Dev.log; split <;> simp
@[simp] theorem Dev.log_part (d : Dev) (src code : Nat) (x : Bytes) : (d.log src code x).part = d.part := by unfold Dev.log; split <;> simp
@[simp] theorem Dev.log_mc (d : Dev) (src code : Nat) (x : Bytes) : (d.log src code x).mc = d.mc := by unfold Dev.log; split <;> simp
@[simp] theorem Dev.log_dram (d : Dev) (src code : Nat) (x : Bytes) : (d.log src code x).dram = d.dram := by unfold Dev.log; split <;> simp
@[simp] theorem Dev.log_spr (d : Dev) (src code : Nat) (x : Bytes) : (d.log src code x).spr = d.spr := by unfold Dev.log; split <;> simp
@[simp] theorem Dev.log_reach (d : Dev) (src code : Nat) (x : Bytes) : (d.log src code x).reach = d.reach := by unfold Dev.log; split <;> simp
@[simp] theorem Dev.log_fab (d : Dev) (src code : Nat) (x : Bytes) : (d.log src code x).fab = d.fab := by unfold Dev.log; split <;> simp
@[simp] theorem Dev.log_host (d : Dev) (src code : Nat) (x : Bytes) : (d.log src code x).host = d.host := by unfold Dev.log; split <;> simp
@[simp] theorem Dev.log_mgmt (d : Dev) (src code : Nat) (x : Bytes) : (d.log src code x).mgmt = d.mgmt := by unfold Dev.log; split <;> simp
@[simp] theorem Dev.log_boot (d : Dev) (src code : Nat) (x : Bytes) : (d.log src code x).boot = d.boot := by unfold Dev.log; split <;> simp
@[simp] theorem Dev.log_harv (d : Dev) (src code : Nat) (x : Bytes) : (d.log src code x).harv = d.harv := by unfold Dev.log; split <;> simp
@[simp] theorem Dev.log_nvm (d : Dev) (src code : Nat) (x : Bytes) : (d.log src code x).nvm = d.nvm := by unfold Dev.log; split <;> simp
@[simp] theorem Dev.log_nvmOctal (d : Dev) (src code : Nat) (x : Bytes) : (d.log src code x).nvmOctal = d.nvmOctal := by unfold Dev.log; split <;> simp
@[simp] theorem Dev.log_smem (d : Dev) (src code : Nat) (x : Bytes) : (d.log src code x).smem = d.smem := by unfold Dev.log; split <;> simp

/-! ### logBit -/

@[simp] theorem Dev.logBit_powered (d : Dev) (src idx b inst : Nat) (x : Bytes) : (d.logBit src idx b inst x).powered = d.powered := d.log_powered _ _ _
@[simp] theorem Dev.logBit_inReset (d : Dev) (src idx b inst : Nat) (x : Bytes) : (d.logBit src idx b inst x).inReset = d.inReset := d.log_inReset _ _ _
@[simp] theorem Dev.logBit_rstAsserted (d : Dev) (src idx b inst : Nat) (x : Bytes) : (d.logBit src idx b inst x).rstAsserted = d.rstAsserted := d.log_rstAsserted _ _ _
@[simp] theorem Dev.logBit_latch (d : Dev) (src idx b inst : Nat) (x : Bytes) : (d.logBit src idx b inst x).latch = d.latch := d.log_latch _ _ _
@[simp] theorem Dev.logBit_lock (d : Dev) (src idx b inst : Nat) (x : Bytes) : (d.logBit src idx b inst x).lock = d.lock := d.log_lock _ _ _
@[simp] theorem Dev.logBit_out (d : Dev) (src idx b inst : Nat) (x : Bytes) : (d.logBit src idx b inst x).out = d.out := d.log_out _ _ _
@[simp] theorem Dev.logBit_free (d : Dev) (src idx b inst : Nat) (x : Bytes) : (d.logBit src idx b inst x).free = d.free := d.log_free _ _ _
@[simp] theorem Dev.logBit_nextUid (d : Dev) (src idx b inst : Nat) (x : Bytes) : (d.logBit src idx b inst x).nextUid = d.nextUid := d.log_nextUid _ _ _
@[simp] theorem Dev.logBit_parked (d : Dev) (src idx b inst : Nat) (x : Bytes) : (d.logBit src idx b inst x).parked = d.parked := d.log_parked _ _ _
@[simp] theorem Dev.logBit_time (d : Dev) (src idx b inst : Nat) (x : Bytes) : (d.logBit src idx b inst x).time = d.time := d.log_time _ _ _
@[simp] theorem Dev.logBit_lnch (d : Dev) (src idx b inst : Nat) (x : Bytes) : (d.logBit src idx b inst x).lnch = d.lnch := d.log_lnch _ _ _
@[simp] theorem Dev.logBit_ports (d : Dev) (src idx b inst : Nat) (x : Bytes) : (d.logBit src idx b inst x).ports = d.ports := d.log_ports _ _ _
@[simp] theorem Dev.logBit_prog (d : Dev) (src idx b inst : Nat) (x : Bytes) : (d.logBit src idx b inst x).prog = d.prog := d.log_prog _ _ _
@[simp] theorem Dev.logBit_vint (d : Dev) (src idx b inst : Nat) (x : Bytes) : (d.logBit src idx b inst x).vint = d.vint := d.log_vint _ _ _
@[simp] theorem Dev.logBit_bpm (d : Dev) (src idx b inst : Nat) (x : Bytes) : (d.logBit src idx b inst x).bpm = d.bpm := d.log_bpm _ _ _
@[simp] theorem Dev.logBit_slices (d : Dev) (src idx b inst : Nat) (x : Bytes) : (d.logBit src idx b inst x).slices = d.slices := d.log_slices _ _ _
@[simp] theorem Dev.logBit_dukLost (d : Dev) (src idx b inst : Nat) (x : Bytes) : (d.logBit src idx b inst x).dukLost = d.dukLost := d.log_dukLost _ _ _
@[simp] theorem Dev.logBit_dukUp (d : Dev) (src idx b inst : Nat) (x : Bytes) : (d.logBit src idx b inst x).dukUp = d.dukUp := d.log_dukUp _ _ _
@[simp] theorem Dev.logBit_dukDown (d : Dev) (src idx b inst : Nat) (x : Bytes) : (d.logBit src idx b inst x).dukDown = d.dukDown := d.log_dukDown _ _ _
@[simp] theorem Dev.logBit_crossLost (d : Dev) (src idx b inst : Nat) (x : Bytes) : (d.logBit src idx b inst x).crossLost = d.crossLost := d.log_crossLost _ _ _
@[simp] theorem Dev.logBit_qm (d : Dev) (src idx b inst : Nat) (x : Bytes) : (d.logBit src idx b inst x).qm = d.qm := d.log_qm _ _ _
@[simp] theorem Dev.logBit_gsm (d : Dev) (src idx b inst : Nat) (x : Bytes) : (d.logBit src idx b inst x).gsm = d.gsm := d.log_gsm _ _ _
@[simp] theorem Dev.logBit_part (d : Dev) (src idx b inst : Nat) (x : Bytes) : (d.logBit src idx b inst x).part = d.part := d.log_part _ _ _
@[simp] theorem Dev.logBit_mc (d : Dev) (src idx b inst : Nat) (x : Bytes) : (d.logBit src idx b inst x).mc = d.mc := d.log_mc _ _ _
@[simp] theorem Dev.logBit_dram (d : Dev) (src idx b inst : Nat) (x : Bytes) : (d.logBit src idx b inst x).dram = d.dram := d.log_dram _ _ _
@[simp] theorem Dev.logBit_spr (d : Dev) (src idx b inst : Nat) (x : Bytes) : (d.logBit src idx b inst x).spr = d.spr := d.log_spr _ _ _
@[simp] theorem Dev.logBit_reach (d : Dev) (src idx b inst : Nat) (x : Bytes) : (d.logBit src idx b inst x).reach = d.reach := d.log_reach _ _ _
@[simp] theorem Dev.logBit_fab (d : Dev) (src idx b inst : Nat) (x : Bytes) : (d.logBit src idx b inst x).fab = d.fab := d.log_fab _ _ _
@[simp] theorem Dev.logBit_host (d : Dev) (src idx b inst : Nat) (x : Bytes) : (d.logBit src idx b inst x).host = d.host := d.log_host _ _ _
@[simp] theorem Dev.logBit_mgmt (d : Dev) (src idx b inst : Nat) (x : Bytes) : (d.logBit src idx b inst x).mgmt = d.mgmt := d.log_mgmt _ _ _
@[simp] theorem Dev.logBit_boot (d : Dev) (src idx b inst : Nat) (x : Bytes) : (d.logBit src idx b inst x).boot = d.boot := d.log_boot _ _ _
@[simp] theorem Dev.logBit_harv (d : Dev) (src idx b inst : Nat) (x : Bytes) : (d.logBit src idx b inst x).harv = d.harv := d.log_harv _ _ _
@[simp] theorem Dev.logBit_nvm (d : Dev) (src idx b inst : Nat) (x : Bytes) : (d.logBit src idx b inst x).nvm = d.nvm := d.log_nvm _ _ _
@[simp] theorem Dev.logBit_nvmOctal (d : Dev) (src idx b inst : Nat) (x : Bytes) : (d.logBit src idx b inst x).nvmOctal = d.nvmOctal := d.log_nvmOctal _ _ _
@[simp] theorem Dev.logBit_smem (d : Dev) (src idx b inst : Nat) (x : Bytes) : (d.logBit src idx b inst x).smem = d.smem := d.log_smem _ _ _

/-! ### logNum -/

@[simp] theorem Dev.logNum_powered (d : Dev) (src k inst : Nat) (x : Bytes) : (d.logNum src k inst x).powered = d.powered := d.log_powered _ _ _
@[simp] theorem Dev.logNum_inReset (d : Dev) (src k inst : Nat) (x : Bytes) : (d.logNum src k inst x).inReset = d.inReset := d.log_inReset _ _ _
@[simp] theorem Dev.logNum_rstAsserted (d : Dev) (src k inst : Nat) (x : Bytes) : (d.logNum src k inst x).rstAsserted = d.rstAsserted := d.log_rstAsserted _ _ _
@[simp] theorem Dev.logNum_latch (d : Dev) (src k inst : Nat) (x : Bytes) : (d.logNum src k inst x).latch = d.latch := d.log_latch _ _ _
@[simp] theorem Dev.logNum_lock (d : Dev) (src k inst : Nat) (x : Bytes) : (d.logNum src k inst x).lock = d.lock := d.log_lock _ _ _
@[simp] theorem Dev.logNum_out (d : Dev) (src k inst : Nat) (x : Bytes) : (d.logNum src k inst x).out = d.out := d.log_out _ _ _
@[simp] theorem Dev.logNum_free (d : Dev) (src k inst : Nat) (x : Bytes) : (d.logNum src k inst x).free = d.free := d.log_free _ _ _
@[simp] theorem Dev.logNum_nextUid (d : Dev) (src k inst : Nat) (x : Bytes) : (d.logNum src k inst x).nextUid = d.nextUid := d.log_nextUid _ _ _
@[simp] theorem Dev.logNum_parked (d : Dev) (src k inst : Nat) (x : Bytes) : (d.logNum src k inst x).parked = d.parked := d.log_parked _ _ _
@[simp] theorem Dev.logNum_time (d : Dev) (src k inst : Nat) (x : Bytes) : (d.logNum src k inst x).time = d.time := d.log_time _ _ _
@[simp] theorem Dev.logNum_lnch (d : Dev) (src k inst : Nat) (x : Bytes) : (d.logNum src k inst x).lnch = d.lnch := d.log_lnch _ _ _
@[simp] theorem Dev.logNum_ports (d : Dev) (src k inst : Nat) (x : Bytes) : (d.logNum src k inst x).ports = d.ports := d.log_ports _ _ _
@[simp] theorem Dev.logNum_prog (d : Dev) (src k inst : Nat) (x : Bytes) : (d.logNum src k inst x).prog = d.prog := d.log_prog _ _ _
@[simp] theorem Dev.logNum_vint (d : Dev) (src k inst : Nat) (x : Bytes) : (d.logNum src k inst x).vint = d.vint := d.log_vint _ _ _
@[simp] theorem Dev.logNum_bpm (d : Dev) (src k inst : Nat) (x : Bytes) : (d.logNum src k inst x).bpm = d.bpm := d.log_bpm _ _ _
@[simp] theorem Dev.logNum_slices (d : Dev) (src k inst : Nat) (x : Bytes) : (d.logNum src k inst x).slices = d.slices := d.log_slices _ _ _
@[simp] theorem Dev.logNum_dukLost (d : Dev) (src k inst : Nat) (x : Bytes) : (d.logNum src k inst x).dukLost = d.dukLost := d.log_dukLost _ _ _
@[simp] theorem Dev.logNum_dukUp (d : Dev) (src k inst : Nat) (x : Bytes) : (d.logNum src k inst x).dukUp = d.dukUp := d.log_dukUp _ _ _
@[simp] theorem Dev.logNum_dukDown (d : Dev) (src k inst : Nat) (x : Bytes) : (d.logNum src k inst x).dukDown = d.dukDown := d.log_dukDown _ _ _
@[simp] theorem Dev.logNum_crossLost (d : Dev) (src k inst : Nat) (x : Bytes) : (d.logNum src k inst x).crossLost = d.crossLost := d.log_crossLost _ _ _
@[simp] theorem Dev.logNum_qm (d : Dev) (src k inst : Nat) (x : Bytes) : (d.logNum src k inst x).qm = d.qm := d.log_qm _ _ _
@[simp] theorem Dev.logNum_gsm (d : Dev) (src k inst : Nat) (x : Bytes) : (d.logNum src k inst x).gsm = d.gsm := d.log_gsm _ _ _
@[simp] theorem Dev.logNum_part (d : Dev) (src k inst : Nat) (x : Bytes) : (d.logNum src k inst x).part = d.part := d.log_part _ _ _
@[simp] theorem Dev.logNum_mc (d : Dev) (src k inst : Nat) (x : Bytes) : (d.logNum src k inst x).mc = d.mc := d.log_mc _ _ _
@[simp] theorem Dev.logNum_dram (d : Dev) (src k inst : Nat) (x : Bytes) : (d.logNum src k inst x).dram = d.dram := d.log_dram _ _ _
@[simp] theorem Dev.logNum_spr (d : Dev) (src k inst : Nat) (x : Bytes) : (d.logNum src k inst x).spr = d.spr := d.log_spr _ _ _
@[simp] theorem Dev.logNum_reach (d : Dev) (src k inst : Nat) (x : Bytes) : (d.logNum src k inst x).reach = d.reach := d.log_reach _ _ _
@[simp] theorem Dev.logNum_fab (d : Dev) (src k inst : Nat) (x : Bytes) : (d.logNum src k inst x).fab = d.fab := d.log_fab _ _ _
@[simp] theorem Dev.logNum_host (d : Dev) (src k inst : Nat) (x : Bytes) : (d.logNum src k inst x).host = d.host := d.log_host _ _ _
@[simp] theorem Dev.logNum_mgmt (d : Dev) (src k inst : Nat) (x : Bytes) : (d.logNum src k inst x).mgmt = d.mgmt := d.log_mgmt _ _ _
@[simp] theorem Dev.logNum_boot (d : Dev) (src k inst : Nat) (x : Bytes) : (d.logNum src k inst x).boot = d.boot := d.log_boot _ _ _
@[simp] theorem Dev.logNum_harv (d : Dev) (src k inst : Nat) (x : Bytes) : (d.logNum src k inst x).harv = d.harv := d.log_harv _ _ _
@[simp] theorem Dev.logNum_nvm (d : Dev) (src k inst : Nat) (x : Bytes) : (d.logNum src k inst x).nvm = d.nvm := d.log_nvm _ _ _
@[simp] theorem Dev.logNum_nvmOctal (d : Dev) (src k inst : Nat) (x : Bytes) : (d.logNum src k inst x).nvmOctal = d.nvmOctal := d.log_nvmOctal _ _ _
@[simp] theorem Dev.logNum_smem (d : Dev) (src k inst : Nat) (x : Bytes) : (d.logNum src k inst x).smem = d.smem := d.log_smem _ _ _

/-! ### emit -/

@[simp] theorem Dev.emit_powered (d : Dev) (o : Output) : (d.emit o).powered = d.powered := rfl
@[simp] theorem Dev.emit_inReset (d : Dev) (o : Output) : (d.emit o).inReset = d.inReset := rfl
@[simp] theorem Dev.emit_rstAsserted (d : Dev) (o : Output) : (d.emit o).rstAsserted = d.rstAsserted := rfl
@[simp] theorem Dev.emit_regs (d : Dev) (o : Output) : (d.emit o).regs = d.regs := rfl
@[simp] theorem Dev.emit_cnt (d : Dev) (o : Output) : (d.emit o).cnt = d.cnt := rfl
@[simp] theorem Dev.emit_latch (d : Dev) (o : Output) : (d.emit o).latch = d.latch := rfl
@[simp] theorem Dev.emit_lock (d : Dev) (o : Output) : (d.emit o).lock = d.lock := rfl
@[simp] theorem Dev.emit_events (d : Dev) (o : Output) : (d.emit o).events = d.events := rfl
@[simp] theorem Dev.emit_free (d : Dev) (o : Output) : (d.emit o).free = d.free := rfl
@[simp] theorem Dev.emit_nextUid (d : Dev) (o : Output) : (d.emit o).nextUid = d.nextUid := rfl
@[simp] theorem Dev.emit_parked (d : Dev) (o : Output) : (d.emit o).parked = d.parked := rfl
@[simp] theorem Dev.emit_time (d : Dev) (o : Output) : (d.emit o).time = d.time := rfl
@[simp] theorem Dev.emit_lnch (d : Dev) (o : Output) : (d.emit o).lnch = d.lnch := rfl
@[simp] theorem Dev.emit_ports (d : Dev) (o : Output) : (d.emit o).ports = d.ports := rfl
@[simp] theorem Dev.emit_prog (d : Dev) (o : Output) : (d.emit o).prog = d.prog := rfl
@[simp] theorem Dev.emit_vint (d : Dev) (o : Output) : (d.emit o).vint = d.vint := rfl
@[simp] theorem Dev.emit_bpm (d : Dev) (o : Output) : (d.emit o).bpm = d.bpm := rfl
@[simp] theorem Dev.emit_slices (d : Dev) (o : Output) : (d.emit o).slices = d.slices := rfl
@[simp] theorem Dev.emit_dukLost (d : Dev) (o : Output) : (d.emit o).dukLost = d.dukLost := rfl
@[simp] theorem Dev.emit_dukUp (d : Dev) (o : Output) : (d.emit o).dukUp = d.dukUp := rfl
@[simp] theorem Dev.emit_dukDown (d : Dev) (o : Output) : (d.emit o).dukDown = d.dukDown := rfl
@[simp] theorem Dev.emit_crossLost (d : Dev) (o : Output) : (d.emit o).crossLost = d.crossLost := rfl
@[simp] theorem Dev.emit_qm (d : Dev) (o : Output) : (d.emit o).qm = d.qm := rfl
@[simp] theorem Dev.emit_gsm (d : Dev) (o : Output) : (d.emit o).gsm = d.gsm := rfl
@[simp] theorem Dev.emit_part (d : Dev) (o : Output) : (d.emit o).part = d.part := rfl
@[simp] theorem Dev.emit_mc (d : Dev) (o : Output) : (d.emit o).mc = d.mc := rfl
@[simp] theorem Dev.emit_dram (d : Dev) (o : Output) : (d.emit o).dram = d.dram := rfl
@[simp] theorem Dev.emit_spr (d : Dev) (o : Output) : (d.emit o).spr = d.spr := rfl
@[simp] theorem Dev.emit_reach (d : Dev) (o : Output) : (d.emit o).reach = d.reach := rfl
@[simp] theorem Dev.emit_fab (d : Dev) (o : Output) : (d.emit o).fab = d.fab := rfl
@[simp] theorem Dev.emit_host (d : Dev) (o : Output) : (d.emit o).host = d.host := rfl
@[simp] theorem Dev.emit_mgmt (d : Dev) (o : Output) : (d.emit o).mgmt = d.mgmt := rfl
@[simp] theorem Dev.emit_boot (d : Dev) (o : Output) : (d.emit o).boot = d.boot := rfl
@[simp] theorem Dev.emit_harv (d : Dev) (o : Output) : (d.emit o).harv = d.harv := rfl
@[simp] theorem Dev.emit_nvm (d : Dev) (o : Output) : (d.emit o).nvm = d.nvm := rfl
@[simp] theorem Dev.emit_nvmOctal (d : Dev) (o : Output) : (d.emit o).nvmOctal = d.nvmOctal := rfl
@[simp] theorem Dev.emit_smem (d : Dev) (o : Output) : (d.emit o).smem = d.smem := rfl

/-! ### deliver -/

@[simp] theorem Dev.deliver_powered (d : Dev) (p : Path) (v : Word) : (d.deliver p v).powered = d.powered := rfl
@[simp] theorem Dev.deliver_inReset (d : Dev) (p : Path) (v : Word) : (d.deliver p v).inReset = d.inReset := rfl
@[simp] theorem Dev.deliver_rstAsserted (d : Dev) (p : Path) (v : Word) : (d.deliver p v).rstAsserted = d.rstAsserted := rfl
@[simp] theorem Dev.deliver_regs (d : Dev) (p : Path) (v : Word) : (d.deliver p v).regs = d.regs := rfl
@[simp] theorem Dev.deliver_cnt (d : Dev) (p : Path) (v : Word) : (d.deliver p v).cnt = d.cnt := rfl
@[simp] theorem Dev.deliver_latch (d : Dev) (p : Path) (v : Word) : (d.deliver p v).latch = d.latch := rfl
@[simp] theorem Dev.deliver_lock (d : Dev) (p : Path) (v : Word) : (d.deliver p v).lock = d.lock := rfl
@[simp] theorem Dev.deliver_events (d : Dev) (p : Path) (v : Word) : (d.deliver p v).events = d.events := rfl
@[simp] theorem Dev.deliver_free (d : Dev) (p : Path) (v : Word) : (d.deliver p v).free = d.free := rfl
@[simp] theorem Dev.deliver_nextUid (d : Dev) (p : Path) (v : Word) : (d.deliver p v).nextUid = d.nextUid := rfl
@[simp] theorem Dev.deliver_parked (d : Dev) (p : Path) (v : Word) : (d.deliver p v).parked = d.parked := rfl
@[simp] theorem Dev.deliver_time (d : Dev) (p : Path) (v : Word) : (d.deliver p v).time = d.time := rfl
@[simp] theorem Dev.deliver_lnch (d : Dev) (p : Path) (v : Word) : (d.deliver p v).lnch = d.lnch := rfl
@[simp] theorem Dev.deliver_ports (d : Dev) (p : Path) (v : Word) : (d.deliver p v).ports = d.ports := rfl
@[simp] theorem Dev.deliver_prog (d : Dev) (p : Path) (v : Word) : (d.deliver p v).prog = d.prog := rfl
@[simp] theorem Dev.deliver_vint (d : Dev) (p : Path) (v : Word) : (d.deliver p v).vint = d.vint := rfl
@[simp] theorem Dev.deliver_bpm (d : Dev) (p : Path) (v : Word) : (d.deliver p v).bpm = d.bpm := rfl
@[simp] theorem Dev.deliver_slices (d : Dev) (p : Path) (v : Word) : (d.deliver p v).slices = d.slices := rfl
@[simp] theorem Dev.deliver_dukLost (d : Dev) (p : Path) (v : Word) : (d.deliver p v).dukLost = d.dukLost := rfl
@[simp] theorem Dev.deliver_dukUp (d : Dev) (p : Path) (v : Word) : (d.deliver p v).dukUp = d.dukUp := rfl
@[simp] theorem Dev.deliver_dukDown (d : Dev) (p : Path) (v : Word) : (d.deliver p v).dukDown = d.dukDown := rfl
@[simp] theorem Dev.deliver_crossLost (d : Dev) (p : Path) (v : Word) : (d.deliver p v).crossLost = d.crossLost := rfl
@[simp] theorem Dev.deliver_qm (d : Dev) (p : Path) (v : Word) : (d.deliver p v).qm = d.qm := rfl
@[simp] theorem Dev.deliver_gsm (d : Dev) (p : Path) (v : Word) : (d.deliver p v).gsm = d.gsm := rfl
@[simp] theorem Dev.deliver_part (d : Dev) (p : Path) (v : Word) : (d.deliver p v).part = d.part := rfl
@[simp] theorem Dev.deliver_mc (d : Dev) (p : Path) (v : Word) : (d.deliver p v).mc = d.mc := rfl
@[simp] theorem Dev.deliver_dram (d : Dev) (p : Path) (v : Word) : (d.deliver p v).dram = d.dram := rfl
@[simp] theorem Dev.deliver_spr (d : Dev) (p : Path) (v : Word) : (d.deliver p v).spr = d.spr := rfl
@[simp] theorem Dev.deliver_reach (d : Dev) (p : Path) (v : Word) : (d.deliver p v).reach = d.reach := rfl
@[simp] theorem Dev.deliver_fab (d : Dev) (p : Path) (v : Word) : (d.deliver p v).fab = d.fab := rfl
@[simp] theorem Dev.deliver_host (d : Dev) (p : Path) (v : Word) : (d.deliver p v).host = d.host := rfl
@[simp] theorem Dev.deliver_mgmt (d : Dev) (p : Path) (v : Word) : (d.deliver p v).mgmt = d.mgmt := rfl
@[simp] theorem Dev.deliver_boot (d : Dev) (p : Path) (v : Word) : (d.deliver p v).boot = d.boot := rfl
@[simp] theorem Dev.deliver_harv (d : Dev) (p : Path) (v : Word) : (d.deliver p v).harv = d.harv := rfl
@[simp] theorem Dev.deliver_nvm (d : Dev) (p : Path) (v : Word) : (d.deliver p v).nvm = d.nvm := rfl
@[simp] theorem Dev.deliver_nvmOctal (d : Dev) (p : Path) (v : Word) : (d.deliver p v).nvmOctal = d.nvmOctal := rfl
@[simp] theorem Dev.deliver_smem (d : Dev) (p : Path) (v : Word) : (d.deliver p v).smem = d.smem := rfl

/-! ### takeFree -/

@[simp] theorem Dev.takeFree_powered (d : Dev) : (d.takeFree.2).powered = d.powered := rfl
@[simp] theorem Dev.takeFree_inReset (d : Dev) : (d.takeFree.2).inReset = d.inReset := rfl
@[simp] theorem Dev.takeFree_rstAsserted (d : Dev) : (d.takeFree.2).rstAsserted = d.rstAsserted := rfl
@[simp] theorem Dev.takeFree_regs (d : Dev) : (d.takeFree.2).regs = d.regs := rfl
@[simp] theorem Dev.takeFree_cnt (d : Dev) : (d.takeFree.2).cnt = d.cnt := rfl
@[simp] theorem Dev.takeFree_latch (d : Dev) : (d.takeFree.2).latch = d.latch := rfl
@[simp] theorem Dev.takeFree_lock (d : Dev) : (d.takeFree.2).lock = d.lock := rfl
@[simp] theorem Dev.takeFree_events (d : Dev) : (d.takeFree.2).events = d.events := rfl
@[simp] theorem Dev.takeFree_out (d : Dev) : (d.takeFree.2).out = d.out := rfl
@[simp] theorem Dev.takeFree_nextUid (d : Dev) : (d.takeFree.2).nextUid = d.nextUid := rfl
@[simp] theorem Dev.takeFree_parked (d : Dev) : (d.takeFree.2).parked = d.parked := rfl
@[simp] theorem Dev.takeFree_time (d : Dev) : (d.takeFree.2).time = d.time := rfl
@[simp] theorem Dev.takeFree_lnch (d : Dev) : (d.takeFree.2).lnch = d.lnch := rfl
@[simp] theorem Dev.takeFree_ports (d : Dev) : (d.takeFree.2).ports = d.ports := rfl
@[simp] theorem Dev.takeFree_prog (d : Dev) : (d.takeFree.2).prog = d.prog := rfl
@[simp] theorem Dev.takeFree_vint (d : Dev) : (d.takeFree.2).vint = d.vint := rfl
@[simp] theorem Dev.takeFree_bpm (d : Dev) : (d.takeFree.2).bpm = d.bpm := rfl
@[simp] theorem Dev.takeFree_slices (d : Dev) : (d.takeFree.2).slices = d.slices := rfl
@[simp] theorem Dev.takeFree_dukLost (d : Dev) : (d.takeFree.2).dukLost = d.dukLost := rfl
@[simp] theorem Dev.takeFree_dukUp (d : Dev) : (d.takeFree.2).dukUp = d.dukUp := rfl
@[simp] theorem Dev.takeFree_dukDown (d : Dev) : (d.takeFree.2).dukDown = d.dukDown := rfl
@[simp] theorem Dev.takeFree_crossLost (d : Dev) : (d.takeFree.2).crossLost = d.crossLost := rfl
@[simp] theorem Dev.takeFree_qm (d : Dev) : (d.takeFree.2).qm = d.qm := rfl
@[simp] theorem Dev.takeFree_gsm (d : Dev) : (d.takeFree.2).gsm = d.gsm := rfl
@[simp] theorem Dev.takeFree_part (d : Dev) : (d.takeFree.2).part = d.part := rfl
@[simp] theorem Dev.takeFree_mc (d : Dev) : (d.takeFree.2).mc = d.mc := rfl
@[simp] theorem Dev.takeFree_dram (d : Dev) : (d.takeFree.2).dram = d.dram := rfl
@[simp] theorem Dev.takeFree_spr (d : Dev) : (d.takeFree.2).spr = d.spr := rfl
@[simp] theorem Dev.takeFree_reach (d : Dev) : (d.takeFree.2).reach = d.reach := rfl
@[simp] theorem Dev.takeFree_fab (d : Dev) : (d.takeFree.2).fab = d.fab := rfl
@[simp] theorem Dev.takeFree_host (d : Dev) : (d.takeFree.2).host = d.host := rfl
@[simp] theorem Dev.takeFree_mgmt (d : Dev) : (d.takeFree.2).mgmt = d.mgmt := rfl
@[simp] theorem Dev.takeFree_boot (d : Dev) : (d.takeFree.2).boot = d.boot := rfl
@[simp] theorem Dev.takeFree_harv (d : Dev) : (d.takeFree.2).harv = d.harv := rfl
@[simp] theorem Dev.takeFree_nvm (d : Dev) : (d.takeFree.2).nvm = d.nvm := rfl
@[simp] theorem Dev.takeFree_nvmOctal (d : Dev) : (d.takeFree.2).nvmOctal = d.nvmOctal := rfl
@[simp] theorem Dev.takeFree_smem (d : Dev) : (d.takeFree.2).smem = d.smem := rfl

/-! ### setPort -/

@[simp] theorem Dev.setPort_powered (d : Dev) (p : Nat) (x : Port) : (d.setPort p x).powered = d.powered := rfl
@[simp] theorem Dev.setPort_inReset (d : Dev) (p : Nat) (x : Port) : (d.setPort p x).inReset = d.inReset := rfl
@[simp] theorem Dev.setPort_rstAsserted (d : Dev) (p : Nat) (x : Port) : (d.setPort p x).rstAsserted = d.rstAsserted := rfl
@[simp] theorem Dev.setPort_regs (d : Dev) (p : Nat) (x : Port) : (d.setPort p x).regs = d.regs := rfl
@[simp] theorem Dev.setPort_cnt (d : Dev) (p : Nat) (x : Port) : (d.setPort p x).cnt = d.cnt := rfl
@[simp] theorem Dev.setPort_latch (d : Dev) (p : Nat) (x : Port) : (d.setPort p x).latch = d.latch := rfl
@[simp] theorem Dev.setPort_lock (d : Dev) (p : Nat) (x : Port) : (d.setPort p x).lock = d.lock := rfl
@[simp] theorem Dev.setPort_events (d : Dev) (p : Nat) (x : Port) : (d.setPort p x).events = d.events := rfl
@[simp] theorem Dev.setPort_out (d : Dev) (p : Nat) (x : Port) : (d.setPort p x).out = d.out := rfl
@[simp] theorem Dev.setPort_free (d : Dev) (p : Nat) (x : Port) : (d.setPort p x).free = d.free := rfl
@[simp] theorem Dev.setPort_nextUid (d : Dev) (p : Nat) (x : Port) : (d.setPort p x).nextUid = d.nextUid := rfl
@[simp] theorem Dev.setPort_parked (d : Dev) (p : Nat) (x : Port) : (d.setPort p x).parked = d.parked := rfl
@[simp] theorem Dev.setPort_time (d : Dev) (p : Nat) (x : Port) : (d.setPort p x).time = d.time := rfl
@[simp] theorem Dev.setPort_lnch (d : Dev) (p : Nat) (x : Port) : (d.setPort p x).lnch = d.lnch := rfl
@[simp] theorem Dev.setPort_prog (d : Dev) (p : Nat) (x : Port) : (d.setPort p x).prog = d.prog := rfl
@[simp] theorem Dev.setPort_vint (d : Dev) (p : Nat) (x : Port) : (d.setPort p x).vint = d.vint := rfl
@[simp] theorem Dev.setPort_bpm (d : Dev) (p : Nat) (x : Port) : (d.setPort p x).bpm = d.bpm := rfl
@[simp] theorem Dev.setPort_slices (d : Dev) (p : Nat) (x : Port) : (d.setPort p x).slices = d.slices := rfl
@[simp] theorem Dev.setPort_dukLost (d : Dev) (p : Nat) (x : Port) : (d.setPort p x).dukLost = d.dukLost := rfl
@[simp] theorem Dev.setPort_dukUp (d : Dev) (p : Nat) (x : Port) : (d.setPort p x).dukUp = d.dukUp := rfl
@[simp] theorem Dev.setPort_dukDown (d : Dev) (p : Nat) (x : Port) : (d.setPort p x).dukDown = d.dukDown := rfl
@[simp] theorem Dev.setPort_crossLost (d : Dev) (p : Nat) (x : Port) : (d.setPort p x).crossLost = d.crossLost := rfl
@[simp] theorem Dev.setPort_qm (d : Dev) (p : Nat) (x : Port) : (d.setPort p x).qm = d.qm := rfl
@[simp] theorem Dev.setPort_gsm (d : Dev) (p : Nat) (x : Port) : (d.setPort p x).gsm = d.gsm := rfl
@[simp] theorem Dev.setPort_part (d : Dev) (p : Nat) (x : Port) : (d.setPort p x).part = d.part := rfl
@[simp] theorem Dev.setPort_mc (d : Dev) (p : Nat) (x : Port) : (d.setPort p x).mc = d.mc := rfl
@[simp] theorem Dev.setPort_dram (d : Dev) (p : Nat) (x : Port) : (d.setPort p x).dram = d.dram := rfl
@[simp] theorem Dev.setPort_spr (d : Dev) (p : Nat) (x : Port) : (d.setPort p x).spr = d.spr := rfl
@[simp] theorem Dev.setPort_reach (d : Dev) (p : Nat) (x : Port) : (d.setPort p x).reach = d.reach := rfl
@[simp] theorem Dev.setPort_fab (d : Dev) (p : Nat) (x : Port) : (d.setPort p x).fab = d.fab := rfl
@[simp] theorem Dev.setPort_host (d : Dev) (p : Nat) (x : Port) : (d.setPort p x).host = d.host := rfl
@[simp] theorem Dev.setPort_mgmt (d : Dev) (p : Nat) (x : Port) : (d.setPort p x).mgmt = d.mgmt := rfl
@[simp] theorem Dev.setPort_boot (d : Dev) (p : Nat) (x : Port) : (d.setPort p x).boot = d.boot := rfl
@[simp] theorem Dev.setPort_harv (d : Dev) (p : Nat) (x : Port) : (d.setPort p x).harv = d.harv := rfl
@[simp] theorem Dev.setPort_nvm (d : Dev) (p : Nat) (x : Port) : (d.setPort p x).nvm = d.nvm := rfl
@[simp] theorem Dev.setPort_nvmOctal (d : Dev) (p : Nat) (x : Port) : (d.setPort p x).nvmOctal = d.nvmOctal := rfl
@[simp] theorem Dev.setPort_smem (d : Dev) (p : Nat) (x : Port) : (d.setPort p x).smem = d.smem := rfl

/-! ### modPort -/

@[simp] theorem Dev.modPort_powered (d : Dev) (p : Nat) (g : Port → Port) : (d.modPort p g).powered = d.powered := rfl
@[simp] theorem Dev.modPort_inReset (d : Dev) (p : Nat) (g : Port → Port) : (d.modPort p g).inReset = d.inReset := rfl
@[simp] theorem Dev.modPort_rstAsserted (d : Dev) (p : Nat) (g : Port → Port) : (d.modPort p g).rstAsserted = d.rstAsserted := rfl
@[simp] theorem Dev.modPort_regs (d : Dev) (p : Nat) (g : Port → Port) : (d.modPort p g).regs = d.regs := rfl
@[simp] theorem Dev.modPort_cnt (d : Dev) (p : Nat) (g : Port → Port) : (d.modPort p g).cnt = d.cnt := rfl
@[simp] theorem Dev.modPort_latch (d : Dev) (p : Nat) (g : Port → Port) : (d.modPort p g).latch = d.latch := rfl
@[simp] theorem Dev.modPort_lock (d : Dev) (p : Nat) (g : Port → Port) : (d.modPort p g).lock = d.lock := rfl
@[simp] theorem Dev.modPort_events (d : Dev) (p : Nat) (g : Port → Port) : (d.modPort p g).events = d.events := rfl
@[simp] theorem Dev.modPort_out (d : Dev) (p : Nat) (g : Port → Port) : (d.modPort p g).out = d.out := rfl
@[simp] theorem Dev.modPort_free (d : Dev) (p : Nat) (g : Port → Port) : (d.modPort p g).free = d.free := rfl
@[simp] theorem Dev.modPort_nextUid (d : Dev) (p : Nat) (g : Port → Port) : (d.modPort p g).nextUid = d.nextUid := rfl
@[simp] theorem Dev.modPort_parked (d : Dev) (p : Nat) (g : Port → Port) : (d.modPort p g).parked = d.parked := rfl
@[simp] theorem Dev.modPort_time (d : Dev) (p : Nat) (g : Port → Port) : (d.modPort p g).time = d.time := rfl
@[simp] theorem Dev.modPort_lnch (d : Dev) (p : Nat) (g : Port → Port) : (d.modPort p g).lnch = d.lnch := rfl
@[simp] theorem Dev.modPort_prog (d : Dev) (p : Nat) (g : Port → Port) : (d.modPort p g).prog = d.prog := rfl
@[simp] theorem Dev.modPort_vint (d : Dev) (p : Nat) (g : Port → Port) : (d.modPort p g).vint = d.vint := rfl
@[simp] theorem Dev.modPort_bpm (d : Dev) (p : Nat) (g : Port → Port) : (d.modPort p g).bpm = d.bpm := rfl
@[simp] theorem Dev.modPort_slices (d : Dev) (p : Nat) (g : Port → Port) : (d.modPort p g).slices = d.slices := rfl
@[simp] theorem Dev.modPort_dukLost (d : Dev) (p : Nat) (g : Port → Port) : (d.modPort p g).dukLost = d.dukLost := rfl
@[simp] theorem Dev.modPort_dukUp (d : Dev) (p : Nat) (g : Port → Port) : (d.modPort p g).dukUp = d.dukUp := rfl
@[simp] theorem Dev.modPort_dukDown (d : Dev) (p : Nat) (g : Port → Port) : (d.modPort p g).dukDown = d.dukDown := rfl
@[simp] theorem Dev.modPort_crossLost (d : Dev) (p : Nat) (g : Port → Port) : (d.modPort p g).crossLost = d.crossLost := rfl
@[simp] theorem Dev.modPort_qm (d : Dev) (p : Nat) (g : Port → Port) : (d.modPort p g).qm = d.qm := rfl
@[simp] theorem Dev.modPort_gsm (d : Dev) (p : Nat) (g : Port → Port) : (d.modPort p g).gsm = d.gsm := rfl
@[simp] theorem Dev.modPort_part (d : Dev) (p : Nat) (g : Port → Port) : (d.modPort p g).part = d.part := rfl
@[simp] theorem Dev.modPort_mc (d : Dev) (p : Nat) (g : Port → Port) : (d.modPort p g).mc = d.mc := rfl
@[simp] theorem Dev.modPort_dram (d : Dev) (p : Nat) (g : Port → Port) : (d.modPort p g).dram = d.dram := rfl
@[simp] theorem Dev.modPort_spr (d : Dev) (p : Nat) (g : Port → Port) : (d.modPort p g).spr = d.spr := rfl
@[simp] theorem Dev.modPort_reach (d : Dev) (p : Nat) (g : Port → Port) : (d.modPort p g).reach = d.reach := rfl
@[simp] theorem Dev.modPort_fab (d : Dev) (p : Nat) (g : Port → Port) : (d.modPort p g).fab = d.fab := rfl
@[simp] theorem Dev.modPort_host (d : Dev) (p : Nat) (g : Port → Port) : (d.modPort p g).host = d.host := rfl
@[simp] theorem Dev.modPort_mgmt (d : Dev) (p : Nat) (g : Port → Port) : (d.modPort p g).mgmt = d.mgmt := rfl
@[simp] theorem Dev.modPort_boot (d : Dev) (p : Nat) (g : Port → Port) : (d.modPort p g).boot = d.boot := rfl
@[simp] theorem Dev.modPort_harv (d : Dev) (p : Nat) (g : Port → Port) : (d.modPort p g).harv = d.harv := rfl
@[simp] theorem Dev.modPort_nvm (d : Dev) (p : Nat) (g : Port → Port) : (d.modPort p g).nvm = d.nvm := rfl
@[simp] theorem Dev.modPort_nvmOctal (d : Dev) (p : Nat) (g : Port → Port) : (d.modPort p g).nvmOctal = d.nvmOctal := rfl
@[simp] theorem Dev.modPort_smem (d : Dev) (p : Nat) (g : Port → Port) : (d.modPort p g).smem = d.smem := rfl

/-! ### setSlice -/

@[simp] theorem Dev.setSlice_powered (d : Dev) (n : Nat) (x : Slice) : (d.setSlice n x).powered = d.powered := rfl
@[simp] theorem Dev.setSlice_inReset (d : Dev) (n : Nat) (x : Slice) : (d.setSlice n x).inReset = d.inReset := rfl
@[simp] theorem Dev.setSlice_rstAsserted (d : Dev) (n : Nat) (x : Slice) : (d.setSlice n x).rstAsserted = d.rstAsserted := rfl
@[simp] theorem Dev.setSlice_regs (d : Dev) (n : Nat) (x : Slice) : (d.setSlice n x).regs = d.regs := rfl
@[simp] theorem Dev.setSlice_cnt (d : Dev) (n : Nat) (x : Slice) : (d.setSlice n x).cnt = d.cnt := rfl
@[simp] theorem Dev.setSlice_latch (d : Dev) (n : Nat) (x : Slice) : (d.setSlice n x).latch = d.latch := rfl
@[simp] theorem Dev.setSlice_lock (d : Dev) (n : Nat) (x : Slice) : (d.setSlice n x).lock = d.lock := rfl
@[simp] theorem Dev.setSlice_events (d : Dev) (n : Nat) (x : Slice) : (d.setSlice n x).events = d.events := rfl
@[simp] theorem Dev.setSlice_out (d : Dev) (n : Nat) (x : Slice) : (d.setSlice n x).out = d.out := rfl
@[simp] theorem Dev.setSlice_free (d : Dev) (n : Nat) (x : Slice) : (d.setSlice n x).free = d.free := rfl
@[simp] theorem Dev.setSlice_nextUid (d : Dev) (n : Nat) (x : Slice) : (d.setSlice n x).nextUid = d.nextUid := rfl
@[simp] theorem Dev.setSlice_parked (d : Dev) (n : Nat) (x : Slice) : (d.setSlice n x).parked = d.parked := rfl
@[simp] theorem Dev.setSlice_time (d : Dev) (n : Nat) (x : Slice) : (d.setSlice n x).time = d.time := rfl
@[simp] theorem Dev.setSlice_lnch (d : Dev) (n : Nat) (x : Slice) : (d.setSlice n x).lnch = d.lnch := rfl
@[simp] theorem Dev.setSlice_ports (d : Dev) (n : Nat) (x : Slice) : (d.setSlice n x).ports = d.ports := rfl
@[simp] theorem Dev.setSlice_prog (d : Dev) (n : Nat) (x : Slice) : (d.setSlice n x).prog = d.prog := rfl
@[simp] theorem Dev.setSlice_vint (d : Dev) (n : Nat) (x : Slice) : (d.setSlice n x).vint = d.vint := rfl
@[simp] theorem Dev.setSlice_bpm (d : Dev) (n : Nat) (x : Slice) : (d.setSlice n x).bpm = d.bpm := rfl
@[simp] theorem Dev.setSlice_dukLost (d : Dev) (n : Nat) (x : Slice) : (d.setSlice n x).dukLost = d.dukLost := rfl
@[simp] theorem Dev.setSlice_dukUp (d : Dev) (n : Nat) (x : Slice) : (d.setSlice n x).dukUp = d.dukUp := rfl
@[simp] theorem Dev.setSlice_dukDown (d : Dev) (n : Nat) (x : Slice) : (d.setSlice n x).dukDown = d.dukDown := rfl
@[simp] theorem Dev.setSlice_crossLost (d : Dev) (n : Nat) (x : Slice) : (d.setSlice n x).crossLost = d.crossLost := rfl
@[simp] theorem Dev.setSlice_qm (d : Dev) (n : Nat) (x : Slice) : (d.setSlice n x).qm = d.qm := rfl
@[simp] theorem Dev.setSlice_gsm (d : Dev) (n : Nat) (x : Slice) : (d.setSlice n x).gsm = d.gsm := rfl
@[simp] theorem Dev.setSlice_part (d : Dev) (n : Nat) (x : Slice) : (d.setSlice n x).part = d.part := rfl
@[simp] theorem Dev.setSlice_mc (d : Dev) (n : Nat) (x : Slice) : (d.setSlice n x).mc = d.mc := rfl
@[simp] theorem Dev.setSlice_dram (d : Dev) (n : Nat) (x : Slice) : (d.setSlice n x).dram = d.dram := rfl
@[simp] theorem Dev.setSlice_spr (d : Dev) (n : Nat) (x : Slice) : (d.setSlice n x).spr = d.spr := rfl
@[simp] theorem Dev.setSlice_reach (d : Dev) (n : Nat) (x : Slice) : (d.setSlice n x).reach = d.reach := rfl
@[simp] theorem Dev.setSlice_fab (d : Dev) (n : Nat) (x : Slice) : (d.setSlice n x).fab = d.fab := rfl
@[simp] theorem Dev.setSlice_host (d : Dev) (n : Nat) (x : Slice) : (d.setSlice n x).host = d.host := rfl
@[simp] theorem Dev.setSlice_mgmt (d : Dev) (n : Nat) (x : Slice) : (d.setSlice n x).mgmt = d.mgmt := rfl
@[simp] theorem Dev.setSlice_boot (d : Dev) (n : Nat) (x : Slice) : (d.setSlice n x).boot = d.boot := rfl
@[simp] theorem Dev.setSlice_harv (d : Dev) (n : Nat) (x : Slice) : (d.setSlice n x).harv = d.harv := rfl
@[simp] theorem Dev.setSlice_nvm (d : Dev) (n : Nat) (x : Slice) : (d.setSlice n x).nvm = d.nvm := rfl
@[simp] theorem Dev.setSlice_nvmOctal (d : Dev) (n : Nat) (x : Slice) : (d.setSlice n x).nvmOctal = d.nvmOctal := rfl
@[simp] theorem Dev.setSlice_smem (d : Dev) (n : Nat) (x : Slice) : (d.setSlice n x).smem = d.smem := rfl

/-! ### modSlice -/

@[simp] theorem Dev.modSlice_powered (d : Dev) (n : Nat) (g : Slice → Slice) : (d.modSlice n g).powered = d.powered := rfl
@[simp] theorem Dev.modSlice_inReset (d : Dev) (n : Nat) (g : Slice → Slice) : (d.modSlice n g).inReset = d.inReset := rfl
@[simp] theorem Dev.modSlice_rstAsserted (d : Dev) (n : Nat) (g : Slice → Slice) : (d.modSlice n g).rstAsserted = d.rstAsserted := rfl
@[simp] theorem Dev.modSlice_regs (d : Dev) (n : Nat) (g : Slice → Slice) : (d.modSlice n g).regs = d.regs := rfl
@[simp] theorem Dev.modSlice_cnt (d : Dev) (n : Nat) (g : Slice → Slice) : (d.modSlice n g).cnt = d.cnt := rfl
@[simp] theorem Dev.modSlice_latch (d : Dev) (n : Nat) (g : Slice → Slice) : (d.modSlice n g).latch = d.latch := rfl
@[simp] theorem Dev.modSlice_lock (d : Dev) (n : Nat) (g : Slice → Slice) : (d.modSlice n g).lock = d.lock := rfl
@[simp] theorem Dev.modSlice_events (d : Dev) (n : Nat) (g : Slice → Slice) : (d.modSlice n g).events = d.events := rfl
@[simp] theorem Dev.modSlice_out (d : Dev) (n : Nat) (g : Slice → Slice) : (d.modSlice n g).out = d.out := rfl
@[simp] theorem Dev.modSlice_free (d : Dev) (n : Nat) (g : Slice → Slice) : (d.modSlice n g).free = d.free := rfl
@[simp] theorem Dev.modSlice_nextUid (d : Dev) (n : Nat) (g : Slice → Slice) : (d.modSlice n g).nextUid = d.nextUid := rfl
@[simp] theorem Dev.modSlice_parked (d : Dev) (n : Nat) (g : Slice → Slice) : (d.modSlice n g).parked = d.parked := rfl
@[simp] theorem Dev.modSlice_time (d : Dev) (n : Nat) (g : Slice → Slice) : (d.modSlice n g).time = d.time := rfl
@[simp] theorem Dev.modSlice_lnch (d : Dev) (n : Nat) (g : Slice → Slice) : (d.modSlice n g).lnch = d.lnch := rfl
@[simp] theorem Dev.modSlice_ports (d : Dev) (n : Nat) (g : Slice → Slice) : (d.modSlice n g).ports = d.ports := rfl
@[simp] theorem Dev.modSlice_prog (d : Dev) (n : Nat) (g : Slice → Slice) : (d.modSlice n g).prog = d.prog := rfl
@[simp] theorem Dev.modSlice_vint (d : Dev) (n : Nat) (g : Slice → Slice) : (d.modSlice n g).vint = d.vint := rfl
@[simp] theorem Dev.modSlice_bpm (d : Dev) (n : Nat) (g : Slice → Slice) : (d.modSlice n g).bpm = d.bpm := rfl
@[simp] theorem Dev.modSlice_dukLost (d : Dev) (n : Nat) (g : Slice → Slice) : (d.modSlice n g).dukLost = d.dukLost := rfl
@[simp] theorem Dev.modSlice_dukUp (d : Dev) (n : Nat) (g : Slice → Slice) : (d.modSlice n g).dukUp = d.dukUp := rfl
@[simp] theorem Dev.modSlice_dukDown (d : Dev) (n : Nat) (g : Slice → Slice) : (d.modSlice n g).dukDown = d.dukDown := rfl
@[simp] theorem Dev.modSlice_crossLost (d : Dev) (n : Nat) (g : Slice → Slice) : (d.modSlice n g).crossLost = d.crossLost := rfl
@[simp] theorem Dev.modSlice_qm (d : Dev) (n : Nat) (g : Slice → Slice) : (d.modSlice n g).qm = d.qm := rfl
@[simp] theorem Dev.modSlice_gsm (d : Dev) (n : Nat) (g : Slice → Slice) : (d.modSlice n g).gsm = d.gsm := rfl
@[simp] theorem Dev.modSlice_part (d : Dev) (n : Nat) (g : Slice → Slice) : (d.modSlice n g).part = d.part := rfl
@[simp] theorem Dev.modSlice_mc (d : Dev) (n : Nat) (g : Slice → Slice) : (d.modSlice n g).mc = d.mc := rfl
@[simp] theorem Dev.modSlice_dram (d : Dev) (n : Nat) (g : Slice → Slice) : (d.modSlice n g).dram = d.dram := rfl
@[simp] theorem Dev.modSlice_spr (d : Dev) (n : Nat) (g : Slice → Slice) : (d.modSlice n g).spr = d.spr := rfl
@[simp] theorem Dev.modSlice_reach (d : Dev) (n : Nat) (g : Slice → Slice) : (d.modSlice n g).reach = d.reach := rfl
@[simp] theorem Dev.modSlice_fab (d : Dev) (n : Nat) (g : Slice → Slice) : (d.modSlice n g).fab = d.fab := rfl
@[simp] theorem Dev.modSlice_host (d : Dev) (n : Nat) (g : Slice → Slice) : (d.modSlice n g).host = d.host := rfl
@[simp] theorem Dev.modSlice_mgmt (d : Dev) (n : Nat) (g : Slice → Slice) : (d.modSlice n g).mgmt = d.mgmt := rfl
@[simp] theorem Dev.modSlice_boot (d : Dev) (n : Nat) (g : Slice → Slice) : (d.modSlice n g).boot = d.boot := rfl
@[simp] theorem Dev.modSlice_harv (d : Dev) (n : Nat) (g : Slice → Slice) : (d.modSlice n g).harv = d.harv := rfl
@[simp] theorem Dev.modSlice_nvm (d : Dev) (n : Nat) (g : Slice → Slice) : (d.modSlice n g).nvm = d.nvm := rfl
@[simp] theorem Dev.modSlice_nvmOctal (d : Dev) (n : Nat) (g : Slice → Slice) : (d.modSlice n g).nvmOctal = d.nvmOctal := rfl
@[simp] theorem Dev.modSlice_smem (d : Dev) (n : Nat) (g : Slice → Slice) : (d.modSlice n g).smem = d.smem := rfl

/-! ### setEntry -/

@[simp] theorem Dev.setEntry_powered (d : Dev) (i : Nat) (x : LEntry) : (d.setEntry i x).powered = d.powered := rfl
@[simp] theorem Dev.setEntry_inReset (d : Dev) (i : Nat) (x : LEntry) : (d.setEntry i x).inReset = d.inReset := rfl
@[simp] theorem Dev.setEntry_rstAsserted (d : Dev) (i : Nat) (x : LEntry) : (d.setEntry i x).rstAsserted = d.rstAsserted := rfl
@[simp] theorem Dev.setEntry_regs (d : Dev) (i : Nat) (x : LEntry) : (d.setEntry i x).regs = d.regs := rfl
@[simp] theorem Dev.setEntry_cnt (d : Dev) (i : Nat) (x : LEntry) : (d.setEntry i x).cnt = d.cnt := rfl
@[simp] theorem Dev.setEntry_latch (d : Dev) (i : Nat) (x : LEntry) : (d.setEntry i x).latch = d.latch := rfl
@[simp] theorem Dev.setEntry_lock (d : Dev) (i : Nat) (x : LEntry) : (d.setEntry i x).lock = d.lock := rfl
@[simp] theorem Dev.setEntry_events (d : Dev) (i : Nat) (x : LEntry) : (d.setEntry i x).events = d.events := rfl
@[simp] theorem Dev.setEntry_out (d : Dev) (i : Nat) (x : LEntry) : (d.setEntry i x).out = d.out := rfl
@[simp] theorem Dev.setEntry_free (d : Dev) (i : Nat) (x : LEntry) : (d.setEntry i x).free = d.free := rfl
@[simp] theorem Dev.setEntry_nextUid (d : Dev) (i : Nat) (x : LEntry) : (d.setEntry i x).nextUid = d.nextUid := rfl
@[simp] theorem Dev.setEntry_parked (d : Dev) (i : Nat) (x : LEntry) : (d.setEntry i x).parked = d.parked := rfl
@[simp] theorem Dev.setEntry_time (d : Dev) (i : Nat) (x : LEntry) : (d.setEntry i x).time = d.time := rfl
@[simp] theorem Dev.setEntry_ports (d : Dev) (i : Nat) (x : LEntry) : (d.setEntry i x).ports = d.ports := rfl
@[simp] theorem Dev.setEntry_prog (d : Dev) (i : Nat) (x : LEntry) : (d.setEntry i x).prog = d.prog := rfl
@[simp] theorem Dev.setEntry_vint (d : Dev) (i : Nat) (x : LEntry) : (d.setEntry i x).vint = d.vint := rfl
@[simp] theorem Dev.setEntry_bpm (d : Dev) (i : Nat) (x : LEntry) : (d.setEntry i x).bpm = d.bpm := rfl
@[simp] theorem Dev.setEntry_slices (d : Dev) (i : Nat) (x : LEntry) : (d.setEntry i x).slices = d.slices := rfl
@[simp] theorem Dev.setEntry_dukLost (d : Dev) (i : Nat) (x : LEntry) : (d.setEntry i x).dukLost = d.dukLost := rfl
@[simp] theorem Dev.setEntry_dukUp (d : Dev) (i : Nat) (x : LEntry) : (d.setEntry i x).dukUp = d.dukUp := rfl
@[simp] theorem Dev.setEntry_dukDown (d : Dev) (i : Nat) (x : LEntry) : (d.setEntry i x).dukDown = d.dukDown := rfl
@[simp] theorem Dev.setEntry_crossLost (d : Dev) (i : Nat) (x : LEntry) : (d.setEntry i x).crossLost = d.crossLost := rfl
@[simp] theorem Dev.setEntry_qm (d : Dev) (i : Nat) (x : LEntry) : (d.setEntry i x).qm = d.qm := rfl
@[simp] theorem Dev.setEntry_gsm (d : Dev) (i : Nat) (x : LEntry) : (d.setEntry i x).gsm = d.gsm := rfl
@[simp] theorem Dev.setEntry_part (d : Dev) (i : Nat) (x : LEntry) : (d.setEntry i x).part = d.part := rfl
@[simp] theorem Dev.setEntry_mc (d : Dev) (i : Nat) (x : LEntry) : (d.setEntry i x).mc = d.mc := rfl
@[simp] theorem Dev.setEntry_dram (d : Dev) (i : Nat) (x : LEntry) : (d.setEntry i x).dram = d.dram := rfl
@[simp] theorem Dev.setEntry_spr (d : Dev) (i : Nat) (x : LEntry) : (d.setEntry i x).spr = d.spr := rfl
@[simp] theorem Dev.setEntry_reach (d : Dev) (i : Nat) (x : LEntry) : (d.setEntry i x).reach = d.reach := rfl
@[simp] theorem Dev.setEntry_fab (d : Dev) (i : Nat) (x : LEntry) : (d.setEntry i x).fab = d.fab := rfl
@[simp] theorem Dev.setEntry_host (d : Dev) (i : Nat) (x : LEntry) : (d.setEntry i x).host = d.host := rfl
@[simp] theorem Dev.setEntry_mgmt (d : Dev) (i : Nat) (x : LEntry) : (d.setEntry i x).mgmt = d.mgmt := rfl
@[simp] theorem Dev.setEntry_boot (d : Dev) (i : Nat) (x : LEntry) : (d.setEntry i x).boot = d.boot := rfl
@[simp] theorem Dev.setEntry_harv (d : Dev) (i : Nat) (x : LEntry) : (d.setEntry i x).harv = d.harv := rfl
@[simp] theorem Dev.setEntry_nvm (d : Dev) (i : Nat) (x : LEntry) : (d.setEntry i x).nvm = d.nvm := rfl
@[simp] theorem Dev.setEntry_nvmOctal (d : Dev) (i : Nat) (x : LEntry) : (d.setEntry i x).nvmOctal = d.nvmOctal := rfl
@[simp] theorem Dev.setEntry_smem (d : Dev) (i : Nat) (x : LEntry) : (d.setEntry i x).smem = d.smem := rfl

/-! ### modEntry -/

@[simp] theorem Dev.modEntry_powered (d : Dev) (i : Nat) (g : LEntry → LEntry) : (d.modEntry i g).powered = d.powered := rfl
@[simp] theorem Dev.modEntry_inReset (d : Dev) (i : Nat) (g : LEntry → LEntry) : (d.modEntry i g).inReset = d.inReset := rfl
@[simp] theorem Dev.modEntry_rstAsserted (d : Dev) (i : Nat) (g : LEntry → LEntry) : (d.modEntry i g).rstAsserted = d.rstAsserted := rfl
@[simp] theorem Dev.modEntry_regs (d : Dev) (i : Nat) (g : LEntry → LEntry) : (d.modEntry i g).regs = d.regs := rfl
@[simp] theorem Dev.modEntry_cnt (d : Dev) (i : Nat) (g : LEntry → LEntry) : (d.modEntry i g).cnt = d.cnt := rfl
@[simp] theorem Dev.modEntry_latch (d : Dev) (i : Nat) (g : LEntry → LEntry) : (d.modEntry i g).latch = d.latch := rfl
@[simp] theorem Dev.modEntry_lock (d : Dev) (i : Nat) (g : LEntry → LEntry) : (d.modEntry i g).lock = d.lock := rfl
@[simp] theorem Dev.modEntry_events (d : Dev) (i : Nat) (g : LEntry → LEntry) : (d.modEntry i g).events = d.events := rfl
@[simp] theorem Dev.modEntry_out (d : Dev) (i : Nat) (g : LEntry → LEntry) : (d.modEntry i g).out = d.out := rfl
@[simp] theorem Dev.modEntry_free (d : Dev) (i : Nat) (g : LEntry → LEntry) : (d.modEntry i g).free = d.free := rfl
@[simp] theorem Dev.modEntry_nextUid (d : Dev) (i : Nat) (g : LEntry → LEntry) : (d.modEntry i g).nextUid = d.nextUid := rfl
@[simp] theorem Dev.modEntry_parked (d : Dev) (i : Nat) (g : LEntry → LEntry) : (d.modEntry i g).parked = d.parked := rfl
@[simp] theorem Dev.modEntry_time (d : Dev) (i : Nat) (g : LEntry → LEntry) : (d.modEntry i g).time = d.time := rfl
@[simp] theorem Dev.modEntry_ports (d : Dev) (i : Nat) (g : LEntry → LEntry) : (d.modEntry i g).ports = d.ports := rfl
@[simp] theorem Dev.modEntry_prog (d : Dev) (i : Nat) (g : LEntry → LEntry) : (d.modEntry i g).prog = d.prog := rfl
@[simp] theorem Dev.modEntry_vint (d : Dev) (i : Nat) (g : LEntry → LEntry) : (d.modEntry i g).vint = d.vint := rfl
@[simp] theorem Dev.modEntry_bpm (d : Dev) (i : Nat) (g : LEntry → LEntry) : (d.modEntry i g).bpm = d.bpm := rfl
@[simp] theorem Dev.modEntry_slices (d : Dev) (i : Nat) (g : LEntry → LEntry) : (d.modEntry i g).slices = d.slices := rfl
@[simp] theorem Dev.modEntry_dukLost (d : Dev) (i : Nat) (g : LEntry → LEntry) : (d.modEntry i g).dukLost = d.dukLost := rfl
@[simp] theorem Dev.modEntry_dukUp (d : Dev) (i : Nat) (g : LEntry → LEntry) : (d.modEntry i g).dukUp = d.dukUp := rfl
@[simp] theorem Dev.modEntry_dukDown (d : Dev) (i : Nat) (g : LEntry → LEntry) : (d.modEntry i g).dukDown = d.dukDown := rfl
@[simp] theorem Dev.modEntry_crossLost (d : Dev) (i : Nat) (g : LEntry → LEntry) : (d.modEntry i g).crossLost = d.crossLost := rfl
@[simp] theorem Dev.modEntry_qm (d : Dev) (i : Nat) (g : LEntry → LEntry) : (d.modEntry i g).qm = d.qm := rfl
@[simp] theorem Dev.modEntry_gsm (d : Dev) (i : Nat) (g : LEntry → LEntry) : (d.modEntry i g).gsm = d.gsm := rfl
@[simp] theorem Dev.modEntry_part (d : Dev) (i : Nat) (g : LEntry → LEntry) : (d.modEntry i g).part = d.part := rfl
@[simp] theorem Dev.modEntry_mc (d : Dev) (i : Nat) (g : LEntry → LEntry) : (d.modEntry i g).mc = d.mc := rfl
@[simp] theorem Dev.modEntry_dram (d : Dev) (i : Nat) (g : LEntry → LEntry) : (d.modEntry i g).dram = d.dram := rfl
@[simp] theorem Dev.modEntry_spr (d : Dev) (i : Nat) (g : LEntry → LEntry) : (d.modEntry i g).spr = d.spr := rfl
@[simp] theorem Dev.modEntry_reach (d : Dev) (i : Nat) (g : LEntry → LEntry) : (d.modEntry i g).reach = d.reach := rfl
@[simp] theorem Dev.modEntry_fab (d : Dev) (i : Nat) (g : LEntry → LEntry) : (d.modEntry i g).fab = d.fab := rfl
@[simp] theorem Dev.modEntry_host (d : Dev) (i : Nat) (g : LEntry → LEntry) : (d.modEntry i g).host = d.host := rfl
@[simp] theorem Dev.modEntry_mgmt (d : Dev) (i : Nat) (g : LEntry → LEntry) : (d.modEntry i g).mgmt = d.mgmt := rfl
@[simp] theorem Dev.modEntry_boot (d : Dev) (i : Nat) (g : LEntry → LEntry) : (d.modEntry i g).boot = d.boot := rfl
@[simp] theorem Dev.modEntry_harv (d : Dev) (i : Nat) (g : LEntry → LEntry) : (d.modEntry i g).harv = d.harv := rfl
@[simp] theorem Dev.modEntry_nvm (d : Dev) (i : Nat) (g : LEntry → LEntry) : (d.modEntry i g).nvm = d.nvm := rfl
@[simp] theorem Dev.modEntry_nvmOctal (d : Dev) (i : Nat) (g : LEntry → LEntry) : (d.modEntry i g).nvmOctal = d.nvmOctal := rfl
@[simp] theorem Dev.modEntry_smem (d : Dev) (i : Nat) (g : LEntry → LEntry) : (d.modEntry i g).smem = d.smem := rfl

/-! ### vintAdd -/

@[simp] theorem Dev.vintAdd_powered (d : Dev) (v : Nat) : (d.vintAdd v).powered = d.powered := rfl
@[simp] theorem Dev.vintAdd_inReset (d : Dev) (v : Nat) : (d.vintAdd v).inReset = d.inReset := rfl
@[simp] theorem Dev.vintAdd_rstAsserted (d : Dev) (v : Nat) : (d.vintAdd v).rstAsserted = d.rstAsserted := rfl
@[simp] theorem Dev.vintAdd_regs (d : Dev) (v : Nat) : (d.vintAdd v).regs = d.regs := rfl
@[simp] theorem Dev.vintAdd_cnt (d : Dev) (v : Nat) : (d.vintAdd v).cnt = d.cnt := rfl
@[simp] theorem Dev.vintAdd_latch (d : Dev) (v : Nat) : (d.vintAdd v).latch = d.latch := rfl
@[simp] theorem Dev.vintAdd_lock (d : Dev) (v : Nat) : (d.vintAdd v).lock = d.lock := rfl
@[simp] theorem Dev.vintAdd_events (d : Dev) (v : Nat) : (d.vintAdd v).events = d.events := rfl
@[simp] theorem Dev.vintAdd_out (d : Dev) (v : Nat) : (d.vintAdd v).out = d.out := rfl
@[simp] theorem Dev.vintAdd_free (d : Dev) (v : Nat) : (d.vintAdd v).free = d.free := rfl
@[simp] theorem Dev.vintAdd_nextUid (d : Dev) (v : Nat) : (d.vintAdd v).nextUid = d.nextUid := rfl
@[simp] theorem Dev.vintAdd_parked (d : Dev) (v : Nat) : (d.vintAdd v).parked = d.parked := rfl
@[simp] theorem Dev.vintAdd_time (d : Dev) (v : Nat) : (d.vintAdd v).time = d.time := rfl
@[simp] theorem Dev.vintAdd_lnch (d : Dev) (v : Nat) : (d.vintAdd v).lnch = d.lnch := rfl
@[simp] theorem Dev.vintAdd_ports (d : Dev) (v : Nat) : (d.vintAdd v).ports = d.ports := rfl
@[simp] theorem Dev.vintAdd_prog (d : Dev) (v : Nat) : (d.vintAdd v).prog = d.prog := rfl
@[simp] theorem Dev.vintAdd_bpm (d : Dev) (v : Nat) : (d.vintAdd v).bpm = d.bpm := rfl
@[simp] theorem Dev.vintAdd_slices (d : Dev) (v : Nat) : (d.vintAdd v).slices = d.slices := rfl
@[simp] theorem Dev.vintAdd_dukLost (d : Dev) (v : Nat) : (d.vintAdd v).dukLost = d.dukLost := rfl
@[simp] theorem Dev.vintAdd_dukUp (d : Dev) (v : Nat) : (d.vintAdd v).dukUp = d.dukUp := rfl
@[simp] theorem Dev.vintAdd_dukDown (d : Dev) (v : Nat) : (d.vintAdd v).dukDown = d.dukDown := rfl
@[simp] theorem Dev.vintAdd_crossLost (d : Dev) (v : Nat) : (d.vintAdd v).crossLost = d.crossLost := rfl
@[simp] theorem Dev.vintAdd_qm (d : Dev) (v : Nat) : (d.vintAdd v).qm = d.qm := rfl
@[simp] theorem Dev.vintAdd_gsm (d : Dev) (v : Nat) : (d.vintAdd v).gsm = d.gsm := rfl
@[simp] theorem Dev.vintAdd_part (d : Dev) (v : Nat) : (d.vintAdd v).part = d.part := rfl
@[simp] theorem Dev.vintAdd_mc (d : Dev) (v : Nat) : (d.vintAdd v).mc = d.mc := rfl
@[simp] theorem Dev.vintAdd_dram (d : Dev) (v : Nat) : (d.vintAdd v).dram = d.dram := rfl
@[simp] theorem Dev.vintAdd_spr (d : Dev) (v : Nat) : (d.vintAdd v).spr = d.spr := rfl
@[simp] theorem Dev.vintAdd_reach (d : Dev) (v : Nat) : (d.vintAdd v).reach = d.reach := rfl
@[simp] theorem Dev.vintAdd_host (d : Dev) (v : Nat) : (d.vintAdd v).host = d.host := rfl
@[simp] theorem Dev.vintAdd_mgmt (d : Dev) (v : Nat) : (d.vintAdd v).mgmt = d.mgmt := rfl
@[simp] theorem Dev.vintAdd_boot (d : Dev) (v : Nat) : (d.vintAdd v).boot = d.boot := rfl
@[simp] theorem Dev.vintAdd_harv (d : Dev) (v : Nat) : (d.vintAdd v).harv = d.harv := rfl
@[simp] theorem Dev.vintAdd_nvm (d : Dev) (v : Nat) : (d.vintAdd v).nvm = d.nvm := rfl
@[simp] theorem Dev.vintAdd_nvmOctal (d : Dev) (v : Nat) : (d.vintAdd v).nvmOctal = d.nvmOctal := rfl
@[simp] theorem Dev.vintAdd_smem (d : Dev) (v : Nat) : (d.vintAdd v).smem = d.smem := rfl

/-! ### park -/

@[simp] theorem Dev.park_powered (d : Dev) (b : Nat) (c : Instr) : (d.park b c).powered = d.powered := rfl
@[simp] theorem Dev.park_inReset (d : Dev) (b : Nat) (c : Instr) : (d.park b c).inReset = d.inReset := rfl
@[simp] theorem Dev.park_rstAsserted (d : Dev) (b : Nat) (c : Instr) : (d.park b c).rstAsserted = d.rstAsserted := rfl
@[simp] theorem Dev.park_regs (d : Dev) (b : Nat) (c : Instr) : (d.park b c).regs = d.regs := rfl
@[simp] theorem Dev.park_cnt (d : Dev) (b : Nat) (c : Instr) : (d.park b c).cnt = d.cnt := rfl
@[simp] theorem Dev.park_latch (d : Dev) (b : Nat) (c : Instr) : (d.park b c).latch = d.latch := rfl
@[simp] theorem Dev.park_lock (d : Dev) (b : Nat) (c : Instr) : (d.park b c).lock = d.lock := rfl
@[simp] theorem Dev.park_events (d : Dev) (b : Nat) (c : Instr) : (d.park b c).events = d.events := rfl
@[simp] theorem Dev.park_out (d : Dev) (b : Nat) (c : Instr) : (d.park b c).out = d.out := rfl
@[simp] theorem Dev.park_free (d : Dev) (b : Nat) (c : Instr) : (d.park b c).free = d.free := rfl
@[simp] theorem Dev.park_nextUid (d : Dev) (b : Nat) (c : Instr) : (d.park b c).nextUid = d.nextUid := rfl
@[simp] theorem Dev.park_time (d : Dev) (b : Nat) (c : Instr) : (d.park b c).time = d.time := rfl
@[simp] theorem Dev.park_lnch (d : Dev) (b : Nat) (c : Instr) : (d.park b c).lnch = d.lnch := rfl
@[simp] theorem Dev.park_ports (d : Dev) (b : Nat) (c : Instr) : (d.park b c).ports = d.ports := rfl
@[simp] theorem Dev.park_prog (d : Dev) (b : Nat) (c : Instr) : (d.park b c).prog = d.prog := rfl
@[simp] theorem Dev.park_vint (d : Dev) (b : Nat) (c : Instr) : (d.park b c).vint = d.vint := rfl
@[simp] theorem Dev.park_bpm (d : Dev) (b : Nat) (c : Instr) : (d.park b c).bpm = d.bpm := rfl
@[simp] theorem Dev.park_slices (d : Dev) (b : Nat) (c : Instr) : (d.park b c).slices = d.slices := rfl
@[simp] theorem Dev.park_dukLost (d : Dev) (b : Nat) (c : Instr) : (d.park b c).dukLost = d.dukLost := rfl
@[simp] theorem Dev.park_dukUp (d : Dev) (b : Nat) (c : Instr) : (d.park b c).dukUp = d.dukUp := rfl
@[simp] theorem Dev.park_dukDown (d : Dev) (b : Nat) (c : Instr) : (d.park b c).dukDown = d.dukDown := rfl
@[simp] theorem Dev.park_crossLost (d : Dev) (b : Nat) (c : Instr) : (d.park b c).crossLost = d.crossLost := rfl
@[simp] theorem Dev.park_qm (d : Dev) (b : Nat) (c : Instr) : (d.park b c).qm = d.qm := rfl
@[simp] theorem Dev.park_gsm (d : Dev) (b : Nat) (c : Instr) : (d.park b c).gsm = d.gsm := rfl
@[simp] theorem Dev.park_part (d : Dev) (b : Nat) (c : Instr) : (d.park b c).part = d.part := rfl
@[simp] theorem Dev.park_mc (d : Dev) (b : Nat) (c : Instr) : (d.park b c).mc = d.mc := rfl
@[simp] theorem Dev.park_dram (d : Dev) (b : Nat) (c : Instr) : (d.park b c).dram = d.dram := rfl
@[simp] theorem Dev.park_spr (d : Dev) (b : Nat) (c : Instr) : (d.park b c).spr = d.spr := rfl
@[simp] theorem Dev.park_reach (d : Dev) (b : Nat) (c : Instr) : (d.park b c).reach = d.reach := rfl
@[simp] theorem Dev.park_fab (d : Dev) (b : Nat) (c : Instr) : (d.park b c).fab = d.fab := rfl
@[simp] theorem Dev.park_host (d : Dev) (b : Nat) (c : Instr) : (d.park b c).host = d.host := rfl
@[simp] theorem Dev.park_mgmt (d : Dev) (b : Nat) (c : Instr) : (d.park b c).mgmt = d.mgmt := rfl
@[simp] theorem Dev.park_boot (d : Dev) (b : Nat) (c : Instr) : (d.park b c).boot = d.boot := rfl
@[simp] theorem Dev.park_harv (d : Dev) (b : Nat) (c : Instr) : (d.park b c).harv = d.harv := rfl
@[simp] theorem Dev.park_nvm (d : Dev) (b : Nat) (c : Instr) : (d.park b c).nvm = d.nvm := rfl
@[simp] theorem Dev.park_nvmOctal (d : Dev) (b : Nat) (c : Instr) : (d.park b c).nvmOctal = d.nvmOctal := rfl
@[simp] theorem Dev.park_smem (d : Dev) (b : Nat) (c : Instr) : (d.park b c).smem = d.smem := rfl

/-! ### vintSub -/

@[simp] theorem Dev.vintSub_powered (d : Dev) (v : Nat) : (d.vintSub v).powered = d.powered := rfl
@[simp] theorem Dev.vintSub_inReset (d : Dev) (v : Nat) : (d.vintSub v).inReset = d.inReset := rfl
@[simp] theorem Dev.vintSub_rstAsserted (d : Dev) (v : Nat) : (d.vintSub v).rstAsserted = d.rstAsserted := rfl
@[simp] theorem Dev.vintSub_regs (d : Dev) (v : Nat) : (d.vintSub v).regs = d.regs := rfl
@[simp] theorem Dev.vintSub_cnt (d : Dev) (v : Nat) : (d.vintSub v).cnt = d.cnt := rfl
@[simp] theorem Dev.vintSub_latch (d : Dev) (v : Nat) : (d.vintSub v).latch = d.latch := rfl
@[simp] theorem Dev.vintSub_lock (d : Dev) (v : Nat) : (d.vintSub v).lock = d.lock := rfl
@[simp] theorem Dev.vintSub_events (d : Dev) (v : Nat) : (d.vintSub v).events = d.events := rfl
@[simp] theorem Dev.vintSub_out (d : Dev) (v : Nat) : (d.vintSub v).out = d.out := rfl
@[simp] theorem Dev.vintSub_free (d : Dev) (v : Nat) : (d.vintSub v).free = d.free := rfl
@[simp] theorem Dev.vintSub_nextUid (d : Dev) (v : Nat) : (d.vintSub v).nextUid = d.nextUid := rfl
@[simp] theorem Dev.vintSub_parked (d : Dev) (v : Nat) : (d.vintSub v).parked = d.parked := rfl
@[simp] theorem Dev.vintSub_time (d : Dev) (v : Nat) : (d.vintSub v).time = d.time := rfl
@[simp] theorem Dev.vintSub_lnch (d : Dev) (v : Nat) : (d.vintSub v).lnch = d.lnch := rfl
@[simp] theorem Dev.vintSub_ports (d : Dev) (v : Nat) : (d.vintSub v).ports = d.ports := rfl
@[simp] theorem Dev.vintSub_prog (d : Dev) (v : Nat) : (d.vintSub v).prog = d.prog := rfl
@[simp] theorem Dev.vintSub_bpm (d : Dev) (v : Nat) : (d.vintSub v).bpm = d.bpm := rfl
@[simp] theorem Dev.vintSub_slices (d : Dev) (v : Nat) : (d.vintSub v).slices = d.slices := rfl
@[simp] theorem Dev.vintSub_dukLost (d : Dev) (v : Nat) : (d.vintSub v).dukLost = d.dukLost := rfl
@[simp] theorem Dev.vintSub_dukUp (d : Dev) (v : Nat) : (d.vintSub v).dukUp = d.dukUp := rfl
@[simp] theorem Dev.vintSub_dukDown (d : Dev) (v : Nat) : (d.vintSub v).dukDown = d.dukDown := rfl
@[simp] theorem Dev.vintSub_crossLost (d : Dev) (v : Nat) : (d.vintSub v).crossLost = d.crossLost := rfl
@[simp] theorem Dev.vintSub_qm (d : Dev) (v : Nat) : (d.vintSub v).qm = d.qm := rfl
@[simp] theorem Dev.vintSub_gsm (d : Dev) (v : Nat) : (d.vintSub v).gsm = d.gsm := rfl
@[simp] theorem Dev.vintSub_part (d : Dev) (v : Nat) : (d.vintSub v).part = d.part := rfl
@[simp] theorem Dev.vintSub_mc (d : Dev) (v : Nat) : (d.vintSub v).mc = d.mc := rfl
@[simp] theorem Dev.vintSub_dram (d : Dev) (v : Nat) : (d.vintSub v).dram = d.dram := rfl
@[simp] theorem Dev.vintSub_spr (d : Dev) (v : Nat) : (d.vintSub v).spr = d.spr := rfl
@[simp] theorem Dev.vintSub_reach (d : Dev) (v : Nat) : (d.vintSub v).reach = d.reach := rfl
@[simp] theorem Dev.vintSub_fab (d : Dev) (v : Nat) : (d.vintSub v).fab = d.fab := rfl
@[simp] theorem Dev.vintSub_host (d : Dev) (v : Nat) : (d.vintSub v).host = d.host := rfl
@[simp] theorem Dev.vintSub_mgmt (d : Dev) (v : Nat) : (d.vintSub v).mgmt = d.mgmt := rfl
@[simp] theorem Dev.vintSub_boot (d : Dev) (v : Nat) : (d.vintSub v).boot = d.boot := rfl
@[simp] theorem Dev.vintSub_harv (d : Dev) (v : Nat) : (d.vintSub v).harv = d.harv := rfl
@[simp] theorem Dev.vintSub_nvm (d : Dev) (v : Nat) : (d.vintSub v).nvm = d.nvm := rfl
@[simp] theorem Dev.vintSub_nvmOctal (d : Dev) (v : Nat) : (d.vintSub v).nvmOctal = d.nvmOctal := rfl
@[simp] theorem Dev.vintSub_smem (d : Dev) (v : Nat) : (d.vintSub v).smem = d.smem := rfl

/-! ### keep -/

@[simp] theorem Dev.keep_powered (d e : Dev) : (d.keep e).powered = d.powered := rfl
@[simp] theorem Dev.keep_inReset (d e : Dev) : (d.keep e).inReset = d.inReset := rfl
@[simp] theorem Dev.keep_rstAsserted (d e : Dev) : (d.keep e).rstAsserted = d.rstAsserted := rfl
@[simp] theorem Dev.keep_regs (d e : Dev) : (d.keep e).regs = e.regs := rfl
@[simp] theorem Dev.keep_cnt (d e : Dev) : (d.keep e).cnt = e.cnt := rfl
@[simp] theorem Dev.keep_latch (d e : Dev) : (d.keep e).latch = e.latch := rfl
@[simp] theorem Dev.keep_lock (d e : Dev) : (d.keep e).lock = d.lock := rfl
@[simp] theorem Dev.keep_events (d e : Dev) : (d.keep e).events = e.events := rfl
@[simp] theorem Dev.keep_out (d e : Dev) : (d.keep e).out = e.out := rfl
@[simp] theorem Dev.keep_free (d e : Dev) : (d.keep e).free = e.free := rfl
@[simp] theorem Dev.keep_nextUid (d e : Dev) : (d.keep e).nextUid = e.nextUid := rfl
@[simp] theorem Dev.keep_parked (d e : Dev) : (d.keep e).parked = e.parked := rfl
@[simp] theorem Dev.keep_time_now (d e : Dev) : (d.keep e).time.now = d.time.now := rfl
@[simp] theorem Dev.keep_lnch (d e : Dev) : (d.keep e).lnch = e.lnch := rfl
@[simp] theorem Dev.keep_ports (d e : Dev) : (d.keep e).ports = e.ports := rfl
@[simp] theorem Dev.keep_prog (d e : Dev) : (d.keep e).prog = e.prog := rfl
@[simp] theorem Dev.keep_vint (d e : Dev) : (d.keep e).vint = e.vint := rfl
@[simp] theorem Dev.keep_bpm (d e : Dev) : (d.keep e).bpm = e.bpm := rfl
@[simp] theorem Dev.keep_slices (d e : Dev) : (d.keep e).slices = e.slices := rfl
@[simp] theorem Dev.keep_dukLost (d e : Dev) : (d.keep e).dukLost = e.dukLost := rfl
@[simp] theorem Dev.keep_dukUp (d e : Dev) : (d.keep e).dukUp = e.dukUp := rfl
@[simp] theorem Dev.keep_dukDown (d e : Dev) : (d.keep e).dukDown = e.dukDown := rfl
@[simp] theorem Dev.keep_crossLost (d e : Dev) : (d.keep e).crossLost = e.crossLost := rfl
@[simp] theorem Dev.keep_qm (d e : Dev) : (d.keep e).qm = e.qm := rfl
@[simp] theorem Dev.keep_gsm (d e : Dev) : (d.keep e).gsm = e.gsm := rfl
@[simp] theorem Dev.keep_part (d e : Dev) : (d.keep e).part = e.part := rfl
@[simp] theorem Dev.keep_mc (d e : Dev) : (d.keep e).mc = e.mc := rfl
@[simp] theorem Dev.keep_dram (d e : Dev) : (d.keep e).dram = e.dram := rfl
@[simp] theorem Dev.keep_spr (d e : Dev) : (d.keep e).spr = e.spr := rfl
@[simp] theorem Dev.keep_reach (d e : Dev) : (d.keep e).reach = e.reach := rfl
@[simp] theorem Dev.keep_fab (d e : Dev) : (d.keep e).fab = e.fab := rfl
@[simp] theorem Dev.keep_host (d e : Dev) : (d.keep e).host = e.host := rfl
@[simp] theorem Dev.keep_mgmt (d e : Dev) : (d.keep e).mgmt = e.mgmt := rfl
@[simp] theorem Dev.keep_boot (d e : Dev) : (d.keep e).boot = e.boot := rfl
@[simp] theorem Dev.keep_harv (d e : Dev) : (d.keep e).harv = e.harv := rfl
@[simp] theorem Dev.keep_nvm (d e : Dev) : (d.keep e).nvm = d.nvm := rfl
@[simp] theorem Dev.keep_nvmOctal (d e : Dev) : (d.keep e).nvmOctal = e.nvmOctal := rfl
@[simp] theorem Dev.keep_smem (d e : Dev) : (d.keep e).smem = e.smem := rfl

/-! ### keepBus -/

@[simp] theorem Dev.keepBus_powered (d e : Dev) : (d.keepBus e).powered = d.powered := rfl
@[simp] theorem Dev.keepBus_inReset (d e : Dev) : (d.keepBus e).inReset = d.inReset := rfl
@[simp] theorem Dev.keepBus_rstAsserted (d e : Dev) : (d.keepBus e).rstAsserted = d.rstAsserted := rfl
@[simp] theorem Dev.keepBus_regs (d e : Dev) : (d.keepBus e).regs = e.regs := rfl
@[simp] theorem Dev.keepBus_cnt (d e : Dev) : (d.keepBus e).cnt = e.cnt := rfl
@[simp] theorem Dev.keepBus_latch (d e : Dev) : (d.keepBus e).latch = e.latch := rfl
@[simp] theorem Dev.keepBus_lock (d e : Dev) : (d.keepBus e).lock = d.lock ||| e.lock := rfl
@[simp] theorem Dev.keepBus_events (d e : Dev) : (d.keepBus e).events = e.events := rfl
@[simp] theorem Dev.keepBus_out (d e : Dev) : (d.keepBus e).out = e.out := rfl
@[simp] theorem Dev.keepBus_free (d e : Dev) : (d.keepBus e).free = e.free := rfl
@[simp] theorem Dev.keepBus_nextUid (d e : Dev) : (d.keepBus e).nextUid = e.nextUid := rfl
@[simp] theorem Dev.keepBus_parked (d e : Dev) : (d.keepBus e).parked = e.parked := rfl
@[simp] theorem Dev.keepBus_time (d e : Dev) : (d.keepBus e).time = e.time := rfl
@[simp] theorem Dev.keepBus_lnch (d e : Dev) : (d.keepBus e).lnch = e.lnch := rfl
@[simp] theorem Dev.keepBus_ports (d e : Dev) : (d.keepBus e).ports = e.ports := rfl
@[simp] theorem Dev.keepBus_prog (d e : Dev) : (d.keepBus e).prog = e.prog := rfl
@[simp] theorem Dev.keepBus_vint (d e : Dev) : (d.keepBus e).vint = e.vint := rfl
@[simp] theorem Dev.keepBus_bpm (d e : Dev) : (d.keepBus e).bpm = e.bpm := rfl
@[simp] theorem Dev.keepBus_slices (d e : Dev) : (d.keepBus e).slices = e.slices := rfl
@[simp] theorem Dev.keepBus_dukLost (d e : Dev) : (d.keepBus e).dukLost = e.dukLost := rfl
@[simp] theorem Dev.keepBus_dukUp (d e : Dev) : (d.keepBus e).dukUp = e.dukUp := rfl
@[simp] theorem Dev.keepBus_dukDown (d e : Dev) : (d.keepBus e).dukDown = e.dukDown := rfl
@[simp] theorem Dev.keepBus_crossLost (d e : Dev) : (d.keepBus e).crossLost = e.crossLost := rfl
@[simp] theorem Dev.keepBus_qm (d e : Dev) : (d.keepBus e).qm = e.qm := rfl
@[simp] theorem Dev.keepBus_gsm (d e : Dev) : (d.keepBus e).gsm = e.gsm := rfl
@[simp] theorem Dev.keepBus_part (d e : Dev) : (d.keepBus e).part = e.part := rfl
@[simp] theorem Dev.keepBus_mc (d e : Dev) : (d.keepBus e).mc = e.mc := rfl
@[simp] theorem Dev.keepBus_dram (d e : Dev) : (d.keepBus e).dram = e.dram := rfl
@[simp] theorem Dev.keepBus_spr (d e : Dev) : (d.keepBus e).spr = e.spr := rfl
@[simp] theorem Dev.keepBus_reach (d e : Dev) : (d.keepBus e).reach = e.reach := rfl
@[simp] theorem Dev.keepBus_fab (d e : Dev) : (d.keepBus e).fab = e.fab := rfl
@[simp] theorem Dev.keepBus_host (d e : Dev) : (d.keepBus e).host = e.host := rfl
@[simp] theorem Dev.keepBus_mgmt (d e : Dev) : (d.keepBus e).mgmt = e.mgmt := rfl
@[simp] theorem Dev.keepBus_boot (d e : Dev) : (d.keepBus e).boot = e.boot := rfl
@[simp] theorem Dev.keepBus_harv (d e : Dev) : (d.keepBus e).harv = e.harv := rfl
@[simp] theorem Dev.keepBus_nvm (d e : Dev) : (d.keepBus e).nvm = d.nvm := rfl
@[simp] theorem Dev.keepBus_nvmOctal (d e : Dev) : (d.keepBus e).nvmOctal = e.nvmOctal := rfl
@[simp] theorem Dev.keepBus_smem (d e : Dev) : (d.keepBus e).smem = e.smem := rfl

/-! ### keepNvm -/

@[simp] theorem Dev.keepNvm_powered (d e : Dev) : (d.keepNvm e).powered = d.powered := rfl
@[simp] theorem Dev.keepNvm_inReset (d e : Dev) : (d.keepNvm e).inReset = d.inReset := rfl
@[simp] theorem Dev.keepNvm_rstAsserted (d e : Dev) : (d.keepNvm e).rstAsserted = d.rstAsserted := rfl
@[simp] theorem Dev.keepNvm_regs (d e : Dev) : (d.keepNvm e).regs = e.regs := rfl
@[simp] theorem Dev.keepNvm_cnt (d e : Dev) : (d.keepNvm e).cnt = e.cnt := rfl
@[simp] theorem Dev.keepNvm_latch (d e : Dev) : (d.keepNvm e).latch = e.latch := rfl
@[simp] theorem Dev.keepNvm_lock (d e : Dev) : (d.keepNvm e).lock = d.lock := rfl
@[simp] theorem Dev.keepNvm_events (d e : Dev) : (d.keepNvm e).events = e.events := rfl
@[simp] theorem Dev.keepNvm_out (d e : Dev) : (d.keepNvm e).out = e.out := rfl
@[simp] theorem Dev.keepNvm_free (d e : Dev) : (d.keepNvm e).free = e.free := rfl
@[simp] theorem Dev.keepNvm_nextUid (d e : Dev) : (d.keepNvm e).nextUid = e.nextUid := rfl
@[simp] theorem Dev.keepNvm_parked (d e : Dev) : (d.keepNvm e).parked = e.parked := rfl
@[simp] theorem Dev.keepNvm_time_now (d e : Dev) : (d.keepNvm e).time.now = d.time.now := rfl
@[simp] theorem Dev.keepNvm_lnch (d e : Dev) : (d.keepNvm e).lnch = e.lnch := rfl
@[simp] theorem Dev.keepNvm_ports (d e : Dev) : (d.keepNvm e).ports = e.ports := rfl
@[simp] theorem Dev.keepNvm_prog (d e : Dev) : (d.keepNvm e).prog = e.prog := rfl
@[simp] theorem Dev.keepNvm_vint (d e : Dev) : (d.keepNvm e).vint = e.vint := rfl
@[simp] theorem Dev.keepNvm_bpm (d e : Dev) : (d.keepNvm e).bpm = e.bpm := rfl
@[simp] theorem Dev.keepNvm_slices (d e : Dev) : (d.keepNvm e).slices = e.slices := rfl
@[simp] theorem Dev.keepNvm_dukLost (d e : Dev) : (d.keepNvm e).dukLost = e.dukLost := rfl
@[simp] theorem Dev.keepNvm_dukUp (d e : Dev) : (d.keepNvm e).dukUp = e.dukUp := rfl
@[simp] theorem Dev.keepNvm_dukDown (d e : Dev) : (d.keepNvm e).dukDown = e.dukDown := rfl
@[simp] theorem Dev.keepNvm_crossLost (d e : Dev) : (d.keepNvm e).crossLost = e.crossLost := rfl
@[simp] theorem Dev.keepNvm_qm (d e : Dev) : (d.keepNvm e).qm = e.qm := rfl
@[simp] theorem Dev.keepNvm_gsm (d e : Dev) : (d.keepNvm e).gsm = e.gsm := rfl
@[simp] theorem Dev.keepNvm_part (d e : Dev) : (d.keepNvm e).part = e.part := rfl
@[simp] theorem Dev.keepNvm_mc (d e : Dev) : (d.keepNvm e).mc = e.mc := rfl
@[simp] theorem Dev.keepNvm_dram (d e : Dev) : (d.keepNvm e).dram = e.dram := rfl
@[simp] theorem Dev.keepNvm_spr (d e : Dev) : (d.keepNvm e).spr = e.spr := rfl
@[simp] theorem Dev.keepNvm_reach (d e : Dev) : (d.keepNvm e).reach = e.reach := rfl
@[simp] theorem Dev.keepNvm_fab (d e : Dev) : (d.keepNvm e).fab = e.fab := rfl
@[simp] theorem Dev.keepNvm_host (d e : Dev) : (d.keepNvm e).host = e.host := rfl
@[simp] theorem Dev.keepNvm_mgmt (d e : Dev) : (d.keepNvm e).mgmt = e.mgmt := rfl
@[simp] theorem Dev.keepNvm_boot (d e : Dev) : (d.keepNvm e).boot = e.boot := rfl
@[simp] theorem Dev.keepNvm_harv (d e : Dev) : (d.keepNvm e).harv = e.harv := rfl
@[simp] theorem Dev.keepNvm_nvm (d e : Dev) : (d.keepNvm e).nvm = e.nvm := rfl
@[simp] theorem Dev.keepNvm_nvmOctal (d e : Dev) : (d.keepNvm e).nvmOctal = e.nvmOctal := rfl
@[simp] theorem Dev.keepNvm_smem (d e : Dev) : (d.keepNvm e).smem = e.smem := rfl

end Sys2Proof.Machine
end

