-- ==== Sys2Proof/Laws/Tables.lean ====
section
/-! SUPPORT. Sparse tables: a read after a write, and that every operation keeps the canonical form. -/
namespace Sys2Proof.Machine

variable {α : Type}

theorem Tbl.get_of_not_mem (dflt : α) (t : List (Nat × α)) (k : Nat) (h : ∀ p ∈ t, p.1 ≠ k) : Tbl.get dflt t k = dflt := by
  induction t with
  | nil => rfl
  | cons p t ih =>
    obtain ⟨j, v⟩ := p
    have hj : j ≠ k := h (j, v) (by simp)
    simp only [Tbl.get, hj, if_false]
    exact ih fun q hq => h q (List.mem_cons_of_mem _ hq)

theorem Tbl.get_erase_same (dflt : α) (t : List (Nat × α)) (k : Nat) : Tbl.get dflt (Tbl.erase t k) k = dflt :=
  Tbl.get_of_not_mem dflt _ k fun p hp => by simpa [Tbl.erase] using (List.mem_filter.mp hp).2

theorem Tbl.get_erase_ne (dflt : α) (t : List (Nat × α)) {j k : Nat} (h : k ≠ j) :
    Tbl.get dflt (Tbl.erase t j) k = Tbl.get dflt t k := by
  induction t with
  | nil => rfl
  | cons p t ih =>
    obtain ⟨i, v⟩ := p
    unfold Tbl.erase at ih ⊢
    by_cases hi : i = j
    · subst hi
      simp only [List.filter_cons, bne_self_eq_false, Tbl.get, h.symm, if_false]
      simpa using ih
    · have hb : (i != j) = true := by simpa using hi
      simp only [List.filter_cons, hb, if_true, Tbl.get]
      split
      · rfl
      · exact ih

theorem Tbl.get_insert_same (dflt : α) (t : List (Nat × α)) (k : Nat) (v : α) (h : ∀ p ∈ t, p.1 ≠ k) :
    Tbl.get dflt (Tbl.insert t k v) k = v := by
  induction t with
  | nil => simp [Tbl.insert, Tbl.get]
  | cons p t ih =>
    obtain ⟨j, w⟩ := p
    have hj : j ≠ k := h (j, w) (by simp)
    simp only [Tbl.insert]
    split
    · simp [Tbl.get]
    · simp only [Tbl.get, hj, if_false]
      exact ih fun q hq => h q (List.mem_cons_of_mem _ hq)

theorem Tbl.get_insert_ne (dflt : α) (t : List (Nat × α)) {j k : Nat} (v : α) (h : k ≠ j) :
    Tbl.get dflt (Tbl.insert t j v) k = Tbl.get dflt t k := by
  induction t with
  | nil => simp [Tbl.insert, Tbl.get, h.symm]
  | cons p t ih =>
    obtain ⟨i, w⟩ := p
    simp only [Tbl.insert]
    split
    · simp [Tbl.get, h.symm]
    · simp only [Tbl.get]
      split
      · rfl
      · exact ih

variable [DecidableEq α]

/-- A read of the key just written. -/
@[simp] theorem Tbl.get_set_same (dflt : α) (t : List (Nat × α)) (k : Nat) (v : α) :
    Tbl.get dflt (Tbl.set dflt t k v) k = v := by
  unfold Tbl.set
  split
  · rename_i h; rw [h]; exact Tbl.get_erase_same dflt t k
  · exact Tbl.get_insert_same dflt _ k v fun p hp => by simpa [Tbl.erase] using (List.mem_filter.mp hp).2

/-- A read of any other key. -/
theorem Tbl.get_set_ne' (dflt dflt' : α) (t : List (Nat × α)) {j k : Nat} (v : α) (h : k ≠ j) :
    Tbl.get dflt (Tbl.set dflt' t j v) k = Tbl.get dflt t k := by
  unfold Tbl.set
  split
  · exact Tbl.get_erase_ne dflt t h
  · rw [Tbl.get_insert_ne dflt _ v h, Tbl.get_erase_ne dflt t h]

theorem Tbl.get_set_ne (dflt : α) (t : List (Nat × α)) {j k : Nat} (v : α) (h : k ≠ j) :
    Tbl.get dflt (Tbl.set dflt t j v) k = Tbl.get dflt t k := Tbl.get_set_ne' dflt dflt t v h

/-! ## The canonical form -/

omit [DecidableEq α] in
theorem Tbl.mem_insert {t : List (Nat × α)} {k : Nat} {v : α} {p : Nat × α} (h : p ∈ Tbl.insert t k v) :
    p = (k, v) ∨ p ∈ t := by
  induction t with
  | nil => simpa [Tbl.insert] using h
  | cons q t ih =>
    obtain ⟨j, w⟩ := q
    simp only [Tbl.insert] at h
    split at h
    · simpa using h
    · rcases List.mem_cons.mp h with rfl | h
      · exact .inr (by simp)
      · rcases ih h with r | r
        · exact .inl r
        · exact .inr (List.mem_cons_of_mem _ r)

theorem Tbl.Wf.filter {dflt : α} {t : List (Nat × α)} (f : Nat × α → Bool) (h : Tbl.Wf dflt t) : Tbl.Wf dflt (t.filter f) :=
  ⟨h.1.sublist List.filter_sublist, fun p hp => h.2 p (List.mem_filter.mp hp).1⟩

theorem Tbl.Wf.erase {dflt : α} {t : List (Nat × α)} (k : Nat) (h : Tbl.Wf dflt t) : Tbl.Wf dflt (Tbl.erase t k) := h.filter _

theorem Tbl.Wf.insert {dflt : α} {t : List (Nat × α)} {k : Nat} {v : α} (h : Tbl.Wf dflt t) (hk : ∀ p ∈ t, p.1 ≠ k)
    (hv : v ≠ dflt) : Tbl.Wf dflt (Tbl.insert t k v) := by
  induction t with
  | nil => exact ⟨by simp [Tbl.insert], by simpa [Tbl.insert] using hv⟩
  | cons p t ih =>
    obtain ⟨j, w⟩ := p
    have hj : j ≠ k := hk (j, w) (by simp)
    have h1 := List.pairwise_cons.mp h.1
    have ih' := ih ⟨h1.2, fun q hq => h.2 q (List.mem_cons_of_mem _ hq)⟩ fun q hq => hk q (List.mem_cons_of_mem _ hq)
    simp only [Tbl.insert]
    split
    · rename_i hlt
      refine ⟨List.pairwise_cons.mpr ⟨fun q hq => ?_, h.1⟩, fun q hq => ?_⟩
      · rcases List.mem_cons.mp hq with rfl | hq
        · exact hlt
        · exact Nat.lt_trans hlt (h1.1 q hq)
      · rcases List.mem_cons.mp hq with rfl | hq
        · exact hv
        · exact h.2 q hq
    · rename_i hge
      refine ⟨List.pairwise_cons.mpr ⟨fun q hq => ?_, ih'.1⟩, fun q hq => ?_⟩
      · rcases Tbl.mem_insert hq with rfl | hq
        · exact Nat.lt_of_le_of_ne (Nat.le_of_not_lt hge) hj
        · exact h1.1 q hq
      · rcases List.mem_cons.mp hq with rfl | hq
        · exact h.2 _ (by simp)
        · exact ih'.2 q hq

/-- A write keeps the canonical form. -/
theorem Tbl.Wf.set {dflt : α} {t : List (Nat × α)} (k : Nat) (v : α) (h : Tbl.Wf dflt t) : Tbl.Wf dflt (Tbl.set dflt t k v) := by
  unfold Tbl.set
  split
  · exact h.erase k
  · rename_i hv
    exact (h.erase k).insert (fun p hp => by simpa [Tbl.erase] using (List.mem_filter.mp hp).2) hv

theorem Tbl.Wf.modify {dflt : α} {t : List (Nat × α)} (k : Nat) (f : α → α) (h : Tbl.Wf dflt t) :
    Tbl.Wf dflt (Tbl.modify dflt t k f) := h.set k _

/-- A run of bytes written keeps the canonical form. -/
theorem Tbl.Wf.setRun {dflt : Byte} {t : List Host.Cell} (a : Nat) (bs : Bytes) (h : Tbl.Wf dflt t) :
    Tbl.Wf dflt (Tbl.setRun dflt t a bs) := by
  induction bs generalizing t a with
  | nil => exact h
  | cons b bs ih => exact ih (a + 1) (h.set a b)

/-- A byte outside a run that is written reads as before. -/
theorem Tbl.get_setRun_ne (dflt : Byte) (t : List Host.Cell) (a : Nat) (bs : Bytes) {k : Nat}
    (h : k < a ∨ a + bs.length ≤ k) : Tbl.get dflt (Tbl.setRun dflt t a bs) k = Tbl.get dflt t k := by
  induction bs generalizing t a with
  | nil => rfl
  | cons b bs ih =>
    simp only [Tbl.setRun]
    rw [ih, Tbl.get_set_ne]
    · simp only [List.length_cons] at h; omega
    · simp only [List.length_cons] at h; omega

/-- A byte of a run that is written reads as the byte of the run. -/
theorem Tbl.get_setRun_mem (dflt : Byte) (t : List Host.Cell) (a : Nat) (bs : Bytes) (i : Nat) (h : i < bs.length) :
    Tbl.get dflt (Tbl.setRun dflt t a bs) (a + i) = bs[i] := by
  induction bs generalizing t a i with
  | nil => simp at h
  | cons b bs ih =>
    simp only [Tbl.setRun]
    cases i with
    | zero => simp only [Nat.add_zero, List.getElem_cons_zero]; rw [Tbl.get_setRun_ne _ _ _ _ (.inl (Nat.lt_succ_self a)), Tbl.get_set_same]
    | succ i =>
      have := ih (Tbl.set dflt t a b) (a + 1) i (by simpa using h)
      simpa [Nat.add_assoc, Nat.add_comm 1 i] using this

/-! ## Registers, counters and tables of the device -/

@[simp] theorem Dev.reg_setReg_same (d : Dev) (k : Nat) (v : Word) : (d.setReg k v).reg k = v := by
  simp [Dev.reg, Dev.setReg]

theorem Dev.reg_setReg_ne (d : Dev) {j k : Nat} (v : Word) (h : k ≠ j) : (d.setReg j v).reg k = d.reg k := by
  simp [Dev.reg, Dev.setReg, Tbl.get_set_ne _ _ _ h]

theorem Dev.reg_latchBit_ne (d : Dev) {j k b : Nat} (h : k ≠ j) : (d.latchBit j b).reg k = d.reg k := d.reg_setReg_ne _ h

@[simp] theorem Dev.port_setPort_same (d : Dev) (p : Nat) (x : Port) : (d.setPort p x).port p = x := by
  simp [Dev.port, Dev.setPort]

theorem Dev.port_setPort_ne (d : Dev) {p q : Nat} (x : Port) (h : q ≠ p) : (d.setPort p x).port q = d.port q := by
  simp [Dev.port, Dev.setPort, Tbl.get_set_ne _ _ _ h]

@[simp] theorem Dev.port_modPort_same (d : Dev) (p : Nat) (f : Port → Port) : (d.modPort p f).port p = f (d.port p) := by
  simp [Dev.modPort]

theorem Dev.port_modPort_ne (d : Dev) {p q : Nat} (f : Port → Port) (h : q ≠ p) : (d.modPort p f).port q = d.port q :=
  d.port_setPort_ne _ h

@[simp] theorem Dev.slice_setSlice_same (d : Dev) (n : Nat) (x : Slice) : (d.setSlice n x).slice n = x := by
  simp [Dev.slice, Dev.setSlice]

theorem Dev.slice_setSlice_ne (d : Dev) {n m : Nat} (x : Slice) (h : m ≠ n) : (d.setSlice n x).slice m = d.slice m := by
  simp [Dev.slice, Dev.setSlice, Tbl.get_set_ne' _ _ _ _ h]

@[simp] theorem Dev.slice_modSlice_same (d : Dev) (n : Nat) (f : Slice → Slice) : (d.modSlice n f).slice n = f (d.slice n) := by
  simp [Dev.modSlice]

theorem Dev.slice_modSlice_ne (d : Dev) {n m : Nat} (f : Slice → Slice) (h : m ≠ n) : (d.modSlice n f).slice m = d.slice m :=
  d.slice_setSlice_ne _ h

@[simp] theorem Dev.entry_setEntry_same (d : Dev) (i : Nat) (e : LEntry) : (d.setEntry i e).entry i = e := by
  simp [Dev.entry, Dev.setEntry]

theorem Dev.entry_setEntry_ne (d : Dev) {i j : Nat} (e : LEntry) (h : j ≠ i) : (d.setEntry i e).entry j = d.entry j := by
  simp [Dev.entry, Dev.setEntry, Tbl.get_set_ne _ _ _ h]

@[simp] theorem Dev.entry_modEntry_same (d : Dev) (i : Nat) (f : LEntry → LEntry) : (d.modEntry i f).entry i = f (d.entry i) := by
  simp [Dev.modEntry]

end Sys2Proof.Machine
end

