-- ==== Sys2Proof/Laws/Forms.lean ====
section
/-! SUPPORT. The forms of a meaning: what each answers when the device runs and when it does not, when what it needs takes the
transfer, and when it has to wait. -/
namespace Sys2Proof.Machine

theorem act_up {s : State} (f : Dev → Dev) (h : s.dev.up = true) : act s f = .next { s with dev := s.dev.keep (f s.dev) } := by
  simp [act, h]
theorem act_down {s : State} (f : Dev → Dev) (h : s.dev.up = false) : act s f = .next s := by simp [act, h]

theorem actBus_up {s : State} (f : Dev → Dev) (h : s.dev.up = true) :
    actBus s f = .next { s with dev := s.dev.keepBus (f s.dev) } := by simp [actBus, h]
theorem actBus_down {s : State} (f : Dev → Dev) (h : s.dev.up = false) : actBus s f = .next s := by simp [actBus, h]

theorem actNvm_up {s : State} (f : Dev → Dev) (h : s.dev.up = true) :
    actNvm s f = .next { s with dev := s.dev.keepNvm (f s.dev) } := by simp [actNvm, h]
theorem actNvm_down {s : State} (f : Dev → Dev) (h : s.dev.up = false) : actNvm s f = .next s := by simp [actNvm, h]

/-! ## Transfers through clock domains (R34) -/

/-- A transfer acts when every domain on its way takes it. -/
theorem across_flows {d : Dev} {bs : List Nat} (c : Instr) (f : Dev → Dev) (h : d.stopped bs = none) : d.across bs c f = f d := by
  simp [Dev.across, h]

/-- It waits before the first domain that does not. -/
theorem across_waits {d : Dev} {bs : List Nat} {b : Nat} (c : Instr) (f : Dev → Dev) (h : d.stopped bs = some b) :
    d.across bs c f = d.park b c := by simp [Dev.across, h]

/-- One domain takes a transfer, or stops it. -/
@[simp] theorem stopped_one (d : Dev) (b : Nat) : d.stopped [b] = if d.flows b then none else some b := by
  unfold Dev.stopped; cases h : d.flows b <;> simp [h]

/-- Waiting changes nothing but the list of what waits. -/
theorem park_effect (d : Dev) (b : Nat) (c : Instr) : d.park b c = { d with parked := d.parked ++ [(b, c)] } := rfl

theorem across_one {d : Dev} {b : Nat} (c : Instr) (f : Dev → Dev) (h : d.flows b = true) : d.across [b] c f = f d :=
  across_flows c f (by simp [h])

theorem actIn_up {s : State} {b : Nat} {c : Instr} (f : Dev → Dev) (h : s.dev.up = true) (hc : s.dev.flows b = true) :
    actIn b c s f = .next { s with dev := s.dev.keep (f s.dev) } := by rw [actIn, act_up _ h, across_one c f hc]
theorem actBusIn_up {s : State} {b : Nat} {c : Instr} (f : Dev → Dev) (h : s.dev.up = true) (hc : s.dev.flows b = true) :
    actBusIn b c s f = .next { s with dev := s.dev.keepBus (f s.dev) } := by rw [actBusIn, actBus_up _ h, across_one c f hc]
theorem actNvmIn_up {s : State} {b : Nat} {c : Instr} (f : Dev → Dev) (h : s.dev.up = true) (hc : s.dev.flows b = true) :
    actNvmIn b c s f = .next { s with dev := s.dev.keepNvm (f s.dev) } := by rw [actNvmIn, actNvm_up _ h, across_one c f hc]
theorem actLive_up {s : State} {b : Nat} (f : Dev → Dev) (h : s.dev.up = true) (hc : s.dev.clocked b = true) :
    actLive b s f = .next { s with dev := s.dev.keep (f s.dev) } := by rw [actLive, act_up _ h]; simp [hc]

/-- A row of a domain that stands still, or before which something waits, waits itself and changes nothing else. -/
theorem actIn_waits {s : State} {b : Nat} {c : Instr} (f : Dev → Dev) (h : s.dev.up = true) (hc : s.dev.flows b = false) :
    actIn b c s f = .next { s with dev := s.dev.park b c } := by
  rw [actIn, act_up _ h, across_waits c f (b := b) (by simp [hc])]; rfl

/-! ## Accesses to registers (R34, R470, R473, R495) -/

/-- An access acts when BAR0 answers, the link is awake and every domain on its way takes it. -/
theorem request_flows {d : Dev} {p : Path} {off : Nat} (c : Instr) (f : Dev → Dev) (h1 : d.busUp p = true)
    (h2 : d.busFlows p off = true) (h3 : d.hostWakes p = d) : d.request p off c f = f d := by
  unfold Dev.request
  rw [h1, if_pos rfl, h3]
  exact across_flows c f (by simpa [Dev.busFlows] using h2)

/-- An access that BAR0 does not answer has no effect. -/
theorem request_down {d : Dev} {p : Path} {off : Nat} (c : Instr) (f : Dev → Dev) (h : d.busUp p = false) :
    d.request p off c f = d := by simp [Dev.request, h]

theorem actReg_up {s : State} {p : Path} {off : Nat} {c : Instr} (f : Dev → Dev) (h : s.dev.up = true)
    (h1 : s.dev.busUp p = true) (h2 : s.dev.busFlows p off = true) (h3 : s.dev.hostWakes p = s.dev)
    (h4 : s.dev.silent off = false) (h5 : fdieOffset off = false ∨ s.dev.fdieUp = true) :
    actReg p off c s f = .next { s with dev := s.dev.keep (f s.dev) } := by
  rw [actReg, act_up _ h, request_flows c _ h1 h2 h3]
  rcases h5 with h5 | h5 <;> simp [h4, h5]

theorem actBusReg_up {s : State} {p : Path} {off : Nat} {c : Instr} (f : Dev → Dev) (h : s.dev.up = true)
    (h1 : s.dev.busUp p = true) (h2 : s.dev.busFlows p off = true) (h3 : s.dev.hostWakes p = s.dev)
    (h4 : s.dev.silent off = false) :
    actBusReg p off c s f = .next { s with dev := s.dev.keepBus (f s.dev) } := by
  rw [actBusReg, actBus_up _ h, request_flows c _ h1 h2 h3]
  simp [h4]

theorem actRead_up {s : State} {p : Path} {off : Nat} {c : Instr} (f : Dev → Word × Dev) (h : s.dev.up = true)
    (h1 : s.dev.busUp p = true) (h2 : s.dev.busFlows p off = true) (h3 : s.dev.hostWakes p = s.dev)
    (h4 : s.dev.silent off = false) :
    actRead p off c s f = .next { s with dev := s.dev.keep ((f s.dev).2.deliver p (f s.dev).1) } := by
  rw [actRead, act_up _ h, request_flows c _ h1 h2 h3]
  simp [h4]

theorem actLocked_up {s : State} {p : Path} {off dom : Nat} {c : Instr} (f : Dev → Dev) (h : s.dev.up = true)
    (h1 : s.dev.busUp p = true) (h2 : s.dev.busFlows p off = true) (h3 : s.dev.hostWakes p = s.dev)
    (h4 : s.dev.silent off = false) (h5 : fdieOffset off = false ∨ s.dev.fdieUp = true) :
    actLocked p off dom c s f =
      .next { s with dev := s.dev.keep (if s.dev.locked dom then s.dev.lockedWrite p off else f s.dev) } := by
  rw [actLocked, actReg_up _ h h1 h2 h3 h4 h5]

end Sys2Proof.Machine
end

