-- ==== Sys2Proof/Laws/Effects.lean ====
section
/-! SUPPORT. What each shared operation does, said once: status bits, counters, events, outputs, free values, and the
records of a refused access. -/
namespace Sys2Proof.Machine

/-! ## Status registers (R497) -/

/-- A latched event leaves every other register as it is. -/
theorem latchBit_effect (d : Dev) (k b : Nat) : d.latchBit k b = { d with regs := (d.latchBit k b).regs } ∧
    ∀ j, j ≠ k → (d.latchBit k b).reg j = d.reg j :=
  ⟨rfl, fun _ h => d.reg_latchBit_ne h⟩

/-- A sequence-clear write changes one register, in which the bits written 1 become 0. -/
theorem clearSqc_effect (d : Dev) (k : Nat) (sqc v : Word) : (d.clearSqc k sqc v).reg k = d.reg k &&& ~~~(v &&& sqc) ∧
    ∀ j, j ≠ k → (d.clearSqc k sqc v).reg j = d.reg j :=
  ⟨d.reg_setReg_same _ _, fun _ h => d.reg_setReg_ne _ h⟩

/-- A plain write changes one register, in the bits of its mask. -/
theorem writeRw_effect (d : Dev) (k : Nat) (rw v : Word) :
    (d.writeRw k rw v).reg k = ((d.reg k &&& ~~~rw) ||| (v &&& rw)) ∧ ∀ j, j ≠ k → (d.writeRw k rw v).reg j = d.reg j :=
  ⟨d.reg_setReg_same _ _, fun _ h => d.reg_setReg_ne _ h⟩

/-- A bit of a word after a field of it is replaced. -/
theorem setFld_bit (w : Word) (hi lo x i : Nat) (h : hi < 32) (hl : lo ≤ hi) :
    bit (setFld w hi lo x) i = if lo ≤ i ∧ i ≤ hi then x.testBit (i - lo) else bit w i := by
  have hm : ∀ j, (2 ^ (hi - lo + 1) - 1 : Nat).testBit j = decide (j < hi - lo + 1) := fun j => Nat.testBit_two_pow_sub_one _ _
  simp only [bit, setFld, BitVec.getLsbD_or, BitVec.getLsbD_and, BitVec.getLsbD_not, BitVec.getLsbD_ofNat, Nat.testBit_shiftLeft, hm]
  by_cases h32 : i < 32
  · by_cases h1 : lo ≤ i
    · have h3 : (i - lo < hi - lo + 1) ↔ i ≤ hi := by omega
      by_cases h2 : i ≤ hi <;> simp [h32, h1, h2, h3]
    · simp [h32, h1]
  · rw [if_neg (by omega), BitVec.getLsbD_of_ge w i (by omega)]; simp [h32]

/-- The bit latched reads 1; the other status bits read as before. -/
theorem latchBit_sets (d : Dev) (k b : Nat) (h : b < 24) : bit ((d.latchBit k b).reg k) b = true := by
  unfold Dev.latchBit
  rw [Dev.reg_setReg_same, setFld_bit _ _ _ _ _ (by omega) (by omega), if_neg (by omega)]
  have : (1 <<< b).testBit b = true := by rw [Nat.one_shiftLeft]; exact Nat.testBit_two_pow_self
  simp only [bit, put, BitVec.getLsbD_or, BitVec.getLsbD_ofNat, this, show b < 32 by omega, decide_true, Bool.and_self, Bool.or_true]

theorem latchBit_low (d : Dev) (k b i : Nat) (h : i < 24) (hb : i ≠ b) :
    bit ((d.latchBit k b).reg k) i = bit (d.reg k) i := by
  unfold Dev.latchBit
  rw [Dev.reg_setReg_same, setFld_bit _ _ _ _ _ (by omega) (by omega), if_neg (by omega)]
  have : (1 <<< b).testBit i = false := by rw [Nat.one_shiftLeft]; exact Nat.testBit_two_pow_of_ne (Ne.symm hb)
  simp only [bit, put, BitVec.getLsbD_or, BitVec.getLsbD_ofNat, this, Bool.and_false, Bool.or_false]

/-! ## Counters (R507, R509) -/

/-- An unchained counter adds the events, mod 2^32, and no other counter changes. -/
theorem bump_effect (d : Dev) (b i n : Nat) (h : d.chained b i = false) :
    (d.bump b i n).counter b i = d.counter b i + wd n ∧
    ∀ c j, cntKey c j ≠ cntKey b i → (d.bump b i n).counter c j = d.counter c j := by
  unfold Dev.bump
  simp only [h, Bool.false_eq_true, if_false]
  exact ⟨Tbl.get_set_same _ _ _ _, fun c j hj => Tbl.get_set_ne _ _ _ hj⟩

theorem inc_effect (d : Dev) (b i : Nat) (h : d.chained b i = false) :
    (d.inc b i).counter b i = d.counter b i + 1#32 ∧
    ∀ c j, cntKey c j ≠ cntKey b i → (d.inc b i).counter c j = d.counter c j := bump_effect d b i 1 h

/-- Counting touches at most the counter named and the one above it, which its pair may chain to it. -/
theorem bump_other (d : Dev) (b i n : Nat) {c j : Nat} (h1 : cntKey c j ≠ cntKey b i) (h2 : cntKey c j ≠ cntKey b (i + 1)) :
    (d.bump b i n).counter c j = d.counter c j := by
  unfold Dev.bump
  split
  · split
    · rfl
    · exact (Tbl.get_set_ne _ _ _ h2).trans (Tbl.get_set_ne _ _ _ h1)
  · exact Tbl.get_set_ne _ _ _ h1

/-- Counting changes nothing but the counters. -/
theorem bump_eq (d : Dev) (b i n : Nat) : d.bump b i n = { d with cnt := (d.bump b i n).cnt } := by
  unfold Dev.bump
  split <;> [split; skip] <;> rfl

@[simp] theorem reg_bump (d : Dev) (b i n k : Nat) : (d.bump b i n).reg k = d.reg k := by rw [bump_eq]; rfl
@[simp] theorem reg_inc (d : Dev) (b i k : Nat) : (d.inc b i).reg k = d.reg k := reg_bump d b i 1 k
@[simp] theorem reg_emit (d : Dev) (o : Output) (k : Nat) : (d.emit o).reg k = d.reg k := rfl
@[simp] theorem reg_deliver (d : Dev) (p : Path) (v : Word) (k : Nat) : (d.deliver p v).reg k = d.reg k := rfl
@[simp] theorem reg_takeFree (d : Dev) (k : Nat) : (d.takeFree).2.reg k = d.reg k := rfl
@[simp] theorem reg_keep (d e : Dev) (k : Nat) : (d.keep e).reg k = e.reg k := rfl
@[simp] theorem reg_keepBus (d e : Dev) (k : Nat) : (d.keepBus e).reg k = e.reg k := rfl
@[simp] theorem reg_keepNvm (d e : Dev) (k : Nat) : (d.keepNvm e).reg k = e.reg k := rfl
@[simp] theorem counter_setReg (d : Dev) (k : Nat) (v : Word) (b i : Nat) : (d.setReg k v).counter b i = d.counter b i := rfl
@[simp] theorem counter_latchBit (d : Dev) (k j b i : Nat) : (d.latchBit k j).counter b i = d.counter b i := rfl
@[simp] theorem counter_emit (d : Dev) (o : Output) (b i : Nat) : (d.emit o).counter b i = d.counter b i := rfl
@[simp] theorem counter_keep (d e : Dev) (b i : Nat) : (d.keep e).counter b i = e.counter b i := rfl
@[simp] theorem counter_keepBus (d e : Dev) (b i : Nat) : (d.keepBus e).counter b i = e.counter b i := rfl

/-- Counting FEC codewords changes nothing but the counters. -/
theorem pcsCount_eq (d : Dev) (p a b c : Nat) :
    d.pcsCount p a b c = { d with cnt := (d.pcsCount p a b c).cnt } := by
  unfold Dev.pcsCount
  rw [bump_eq (Dev.bump _ _ _ _), bump_eq (Dev.bump d _ _ _), bump_eq d]

/-! ## Events (R446, R448) -/

/-- An event is queued with device time while the FIFO has room. -/
theorem log_room (d : Dev) (src code : Nat) (data : Bytes) (h : d.events.length < 1024) :
    d.log src code data = { d with events := d.events ++
      [{ src := src, code := code, sec := d.time.now.sec, ns := d.time.now.ns, data := data }] } := by
  simp [Dev.log, h]

/-- A full FIFO loses the event, which MGMT_EVT_LOST and EVENTS_LOST count. -/
theorem log_full (d : Dev) (src code : Nat) (data : Bytes) (h : ¬ d.events.length < 1024) :
    d.log src code data = (d.setReg Reg.MGMT_EVT_LOST (d.reg Reg.MGMT_EVT_LOST + 1#32)).inc bankMgmt 1 := by
  simp [Dev.log, h]

/-- Logging changes no register but MGMT_EVT_LOST. -/
theorem log_reg (d : Dev) (src code : Nat) (data : Bytes) {k : Nat} (h : k ≠ Reg.MGMT_EVT_LOST) :
    (d.log src code data).reg k = d.reg k := by
  by_cases hl : d.events.length < 1024
  · rw [log_room d _ _ _ hl]; rfl
  · rw [log_full d _ _ _ hl]
    unfold Dev.reg
    rw [Dev.inc_regs]
    exact d.reg_setReg_ne _ h

/-! ## Outputs and free values -/

theorem emit_effect (d : Dev) (o : Output) : d.emit o = { d with out := o :: d.out } := rfl

theorem deliver_effect (d : Dev) (p : Path) (v : Word) :
    d.deliver p v = { d with out := .readData (pathCode p) v :: d.out } := rfl

theorem takeFree_effect (d : Dev) : d.takeFree = (Config.freeNat d.free, { d with free := d.free + 1 }) := rfl

/-! ## Refused accesses (R491, R495, R499) -/

/-- An access without a register, and a write with missing byte enables, record themselves and change no other register. -/
theorem noRegister_reg (d : Dev) (p : Path) (off : Nat) {k : Nat} (h1 : k ≠ Reg.GLB_STATUS) (h2 : k ≠ Reg.GLB_LAST_FAULT) :
    (d.noRegister p off).reg k = d.reg k := by
  unfold Dev.noRegister Dev.lastFault
  rw [Dev.reg_setReg_ne _ _ h2, Dev.reg_latchBit_ne _ h1]
  unfold Dev.reg
  rw [Dev.inc_regs]

theorem partialWrite_reg (d : Dev) (p : Path) (off : Nat) {k : Nat} (h1 : k ≠ Reg.GLB_STATUS) (h2 : k ≠ Reg.GLB_LAST_FAULT) :
    (d.partialWrite p off).reg k = d.reg k := by
  unfold Dev.partialWrite Dev.lastFault
  rw [Dev.reg_setReg_ne _ _ h2, Dev.reg_latchBit_ne _ h1]
  unfold Dev.reg
  rw [Dev.inc_regs]

/-! ## The forms of a meaning (R34, R467, R470) -/

/-- Whatever a row of the plain form does, it leaves power, reset, GLB_LOCK, the flash and device time as they are. -/
theorem act_keeps {s t : State} {f : Dev → Dev} (h : act s f = .next t) :
    t.pending = s.pending ∧ t.dev.powered = s.dev.powered ∧ t.dev.inReset = s.dev.inReset ∧
    t.dev.rstAsserted = s.dev.rstAsserted ∧ t.dev.lock = s.dev.lock ∧ t.dev.nvm = s.dev.nvm ∧
    t.dev.time.now = s.dev.time.now := by
  unfold act at h
  injection h with h
  subst h
  dsimp only
  split <;> exact ⟨rfl, rfl, rfl, rfl, rfl, rfl, rfl⟩

/-- A row that may write registers leaves power, reset and the flash as they are, and every set lock bit set. -/
theorem actBus_keeps {s t : State} {f : Dev → Dev} (h : actBus s f = .next t) :
    t.pending = s.pending ∧ t.dev.powered = s.dev.powered ∧ t.dev.inReset = s.dev.inReset ∧
    t.dev.rstAsserted = s.dev.rstAsserted ∧ t.dev.nvm = s.dev.nvm ∧
    ∀ i, s.dev.lock.getLsbD i = true → t.dev.lock.getLsbD i = true := by
  unfold actBus at h
  injection h with h
  subst h
  dsimp only
  split
  · exact ⟨rfl, rfl, rfl, rfl, rfl, fun i hi => by simp [Dev.keepBus, hi]⟩
  · exact ⟨rfl, rfl, rfl, rfl, rfl, fun i hi => hi⟩

/-- A row that may write the flash leaves power, reset, GLB_LOCK and device time as they are. -/
theorem actNvm_keeps {s t : State} {f : Dev → Dev} (h : actNvm s f = .next t) :
    t.pending = s.pending ∧ t.dev.powered = s.dev.powered ∧ t.dev.inReset = s.dev.inReset ∧
    t.dev.rstAsserted = s.dev.rstAsserted ∧ t.dev.lock = s.dev.lock ∧ t.dev.time.now = s.dev.time.now := by
  unfold actNvm at h
  injection h with h
  subst h
  dsimp only
  split <;> exact ⟨rfl, rfl, rfl, rfl, rfl, rfl⟩

end Sys2Proof.Machine
end

