-- ==== Sys2Proof/Laws/Exec.lean ====
section
/-! SUPPORT. What a command can be: every meaning has one of four forms, by the sets of rows that Safety.lean names. -/
namespace Sys2Proof.Machine

/-! ## The forms with a domain, a register or a request are forms of the device -/

theorem actIn_act (b : Nat) (c : Instr) (s : State) (g : Dev → Dev) : ∃ f, actIn b c s g = act s f := ⟨_, rfl⟩
theorem actBusIn_actBus (b : Nat) (c : Instr) (s : State) (g : Dev → Dev) : ∃ f, actBusIn b c s g = actBus s f := ⟨_, rfl⟩
theorem actNvmIn_actNvm (b : Nat) (c : Instr) (s : State) (g : Dev → Dev) : ∃ f, actNvmIn b c s g = actNvm s f := ⟨_, rfl⟩
theorem actLive_act (b : Nat) (s : State) (g : Dev → Dev) : ∃ f, actLive b s g = act s f := ⟨_, rfl⟩
theorem actReg_act (p : Path) (off : Nat) (c : Instr) (s : State) (g : Dev → Dev) : ∃ f, actReg p off c s g = act s f := ⟨_, rfl⟩
theorem actRead_act (p : Path) (off : Nat) (c : Instr) (s : State) (g : Dev → Word × Dev) : ∃ f, actRead p off c s g = act s f :=
  ⟨_, rfl⟩
theorem actBusReg_actBus (p : Path) (off : Nat) (c : Instr) (s : State) (g : Dev → Dev) : ∃ f, actBusReg p off c s g = actBus s f :=
  ⟨_, rfl⟩
theorem actTable_act (src : TblSrc) (op : Nat) (c : Instr) (s : State) : ∃ f, actTable src op c s = act s f := ⟨_, rfl⟩
theorem onRecord_actBus (c : Instr) (s : State) (t : Nat) (form : CfgRec → Bool) (g : Dev → CfgRec → Nat × Dev) :
    ∃ f, onRecord c s t form g = actBus s f := ⟨_, rfl⟩

/-- The two ways of an operation of the launch list have the plain form. -/
theorem actLaunch_act (p : Path) (op i : Nat) (c : Instr) (s : State) : ∃ f, actLaunch p op i c s = act s f := by
  unfold actLaunch
  split <;> exact ⟨_, rfl⟩

set_option maxHeartbeats 2000000 in
/-- A row that writes no register by the bus, no flash, and does nothing in reset has the plain form. -/
theorem exec_act (c : Instr) (s : State) (h1 : writesBus c = false) (h2 : writesFlash c = false) (h3 : actsInReset c = false) :
    ∃ f, exec c s = act s f := by
  cases c
  all_goals first
    | (cases h1; done)
    | (cases h2; done)
    | (cases h3; done)
    | (unfold exec; dsimp only; exact actIn_act ..)
    | (unfold exec; dsimp only; exact actReg_act ..)
    | (unfold exec; dsimp only; exact actLive_act ..)
    | (unfold exec; dsimp only; exact actRead_act ..)
    | (unfold exec; dsimp only; exact actTable_act ..)
    | (unfold exec; dsimp only; exact actLaunch_act ..)
    | (refine ⟨?_, ?_⟩; rotate_left; unfold exec; dsimp only; exact rfl)

set_option maxHeartbeats 1000000 in
theorem exec_actBus (c : Instr) (s : State) (h : writesBus c = true) : ∃ f, exec c s = actBus s f := by
  cases c
  all_goals first
    | (cases h; done)
    | (unfold exec; dsimp only; exact actBusReg_actBus ..)
    | (unfold exec; dsimp only; exact onRecord_actBus ..)
    | (refine ⟨?_, ?_⟩; rotate_left; unfold exec; dsimp only; exact rfl)

set_option maxHeartbeats 1000000 in
/-- A row that may write the flash has the form for it; a power loss acts without power too. -/
theorem exec_actNvm (c : Instr) (s : State) (h : writesFlash c = true) (hp : c ≠ .powerLoss) : ∃ f, exec c s = actNvm s f := by
  cases c
  all_goals first
    | (cases h; done)
    | exact absurd rfl hp
    | (unfold exec; dsimp only; exact actNvmIn_actNvm ..)

set_option maxHeartbeats 1000000 in
theorem exec_actRaw (c : Instr) (s : State) (h : actsInReset c = true) : ∃ f, exec c s = actRaw s f := by
  cases c
  all_goals first
    | (cases h; done)
    | (refine ⟨?_, ?_⟩; rotate_left; unfold exec; dsimp only; exact rfl)

end Sys2Proof.Machine
end

