-- ==== Sys2Proof/Laws/Homes.lean ====
section
/-! SUPPORT. The homes of typed state: a read after a write gives what was written, and another place reads as before. -/
namespace Sys2Proof.Machine

@[simp] theorem Dev.mcOf_setMc_same (d : Dev) (i : Nat) (x : Mc) : (d.setMc i x).mcOf i = x := Tbl.get_set_same _ _ _ _
theorem Dev.mcOf_setMc_ne (d : Dev) {i j : Nat} (x : Mc) (h : j ≠ i) : (d.setMc i x).mcOf j = d.mcOf j := Tbl.get_set_ne _ _ _ h
@[simp] theorem Dev.mcOf_modMc_same (d : Dev) (i : Nat) (f : Mc → Mc) : (d.modMc i f).mcOf i = f (d.mcOf i) := Tbl.get_set_same _ _ _ _
theorem Dev.mcOf_modMc_ne (d : Dev) {i j : Nat} (f : Mc → Mc) (h : j ≠ i) : (d.modMc i f).mcOf j = d.mcOf j := Tbl.get_set_ne _ _ _ h

@[simp] theorem Dev.link_setLink_same (d : Dev) (i : Nat) (x : Link) : (d.setLink i x).link i = x := Tbl.get_set_same _ _ _ _
theorem Dev.link_setLink_ne (d : Dev) {i j : Nat} (x : Link) (h : j ≠ i) : (d.setLink i x).link j = d.link j := Tbl.get_set_ne _ _ _ h
@[simp] theorem Dev.link_modLink_same (d : Dev) (i : Nat) (f : Link → Link) : (d.modLink i f).link i = f (d.link i) := Tbl.get_set_same _ _ _ _
theorem Dev.link_modLink_ne (d : Dev) {i j : Nat} (f : Link → Link) (h : j ≠ i) : (d.modLink i f).link j = d.link j := Tbl.get_set_ne _ _ _ h

@[simp] theorem Dev.ctx_setCtx_same (d : Dev) (i : Nat) (x : Ctx) : (d.setCtx i x).ctx i = x := Tbl.get_set_same _ _ _ _
theorem Dev.ctx_setCtx_ne (d : Dev) {i j : Nat} (x : Ctx) (h : j ≠ i) : (d.setCtx i x).ctx j = d.ctx j := Tbl.get_set_ne _ _ _ h

@[simp] theorem Dev.freeList_setFreeList_same (d : Dev) (i : Nat) (x : List Seg) : (d.setFreeList i x).freeList i = x := Tbl.get_set_same _ _ _ _
theorem Dev.freeList_setFreeList_ne (d : Dev) {i j : Nat} (x : List Seg) (h : j ≠ i) : (d.setFreeList i x).freeList j = d.freeList j := Tbl.get_set_ne _ _ _ h

@[simp] theorem Dev.buf_setBuf_same (d : Dev) (i : Nat) (x : BufEntry) : (d.setBuf i x).buf i = x := Tbl.get_set_same _ _ _ _
theorem Dev.buf_setBuf_ne (d : Dev) {i j : Nat} (x : BufEntry) (h : j ≠ i) : (d.setBuf i x).buf j = d.buf j := Tbl.get_set_ne _ _ _ h

@[simp] theorem Dev.shaper_setShaper_same (d : Dev) (i : Nat) (x : Shaper) : (d.setShaper i x).shaper i = x := Tbl.get_set_same _ _ _ _
theorem Dev.shaper_setShaper_ne (d : Dev) {i j : Nat} (x : Shaper) (h : j ≠ i) : (d.setShaper i x).shaper j = d.shaper j := Tbl.get_set_ne _ _ _ h

@[simp] theorem Dev.meter_setMeter_same (d : Dev) (i : Nat) (x : Meter) : (d.setMeter i x).meter i = x := Tbl.get_set_same _ _ _ _
theorem Dev.meter_setMeter_ne (d : Dev) {i j : Nat} (x : Meter) (h : j ≠ i) : (d.setMeter i x).meter j = d.meter j := Tbl.get_set_ne _ _ _ h

@[simp] theorem Dev.sq_setSq_same (d : Dev) (i : Nat) (x : Sq) : (d.setSq i x).sq i = x := Tbl.get_set_same _ _ _ _
theorem Dev.sq_setSq_ne (d : Dev) {i j : Nat} (x : Sq) (h : j ≠ i) : (d.setSq i x).sq j = d.sq j := Tbl.get_set_ne _ _ _ h
@[simp] theorem Dev.sq_modSq_same (d : Dev) (i : Nat) (f : Sq → Sq) : (d.modSq i f).sq i = f (d.sq i) := Tbl.get_set_same _ _ _ _
theorem Dev.sq_modSq_ne (d : Dev) {i j : Nat} (f : Sq → Sq) (h : j ≠ i) : (d.modSq i f).sq j = d.sq j := Tbl.get_set_ne _ _ _ h

@[simp] theorem Dev.cq_setCq_same (d : Dev) (i : Nat) (x : Cq) : (d.setCq i x).cq i = x := Tbl.get_set_same _ _ _ _
theorem Dev.cq_setCq_ne (d : Dev) {i j : Nat} (x : Cq) (h : j ≠ i) : (d.setCq i x).cq j = d.cq j := Tbl.get_set_ne _ _ _ h
@[simp] theorem Dev.cq_modCq_same (d : Dev) (i : Nat) (f : Cq → Cq) : (d.modCq i f).cq i = f (d.cq i) := Tbl.get_set_same _ _ _ _
theorem Dev.cq_modCq_ne (d : Dev) {i j : Nat} (f : Cq → Cq) (h : j ≠ i) : (d.modCq i f).cq j = d.cq j := Tbl.get_set_ne _ _ _ h

@[simp] theorem Dev.vec_setVec_same (d : Dev) (i : Nat) (x : Vec) : (d.setVec i x).vec i = x := Tbl.get_set_same _ _ _ _
theorem Dev.vec_setVec_ne (d : Dev) {i j : Nat} (x : Vec) (h : j ≠ i) : (d.setVec i x).vec j = d.vec j := Tbl.get_set_ne _ _ _ h

@[simp] theorem Dev.queue_setQueue_same (d : Dev) (i : Nat) (x : Queue) : (d.setQueue i x).queue i = x := Tbl.get_set_same _ _ _ _
theorem Dev.queue_setQueue_ne (d : Dev) {i j : Nat} (x : Queue) (h : j ≠ i) : (d.setQueue i x).queue j = d.queue j := Tbl.get_set_ne _ _ _ h

@[simp] theorem Dev.noms_setNoms_same (d : Dev) (i : Nat) (x : List Pkt) : (d.setNoms i x).noms i = x := Tbl.get_set_same _ _ _ _
theorem Dev.noms_setNoms_ne (d : Dev) {i j : Nat} (x : List Pkt) (h : j ≠ i) : (d.setNoms i x).noms j = d.noms j := Tbl.get_set_ne _ _ _ h

@[simp] theorem Dev.hold_setHold_same (d : Dev) (i : Nat) (x : Hold) : (d.setHold i x).hold i = x := Tbl.get_set_same _ _ _ _
theorem Dev.hold_setHold_ne (d : Dev) {i j : Nat} (x : Hold) (h : j ≠ i) : (d.setHold i x).hold j = d.hold j := Tbl.get_set_ne _ _ _ h

@[simp] theorem Mc.chan_setChan_same (m : Mc) (c : Nat) (x : Chan) : (m.setChan c x).chan c = x := Tbl.get_set_same _ _ _ _
theorem Mc.chan_setChan_ne (m : Mc) {c e : Nat} (x : Chan) (h : e ≠ c) : (m.setChan c x).chan e = m.chan e := Tbl.get_set_ne _ _ _ h
@[simp] theorem Dev.chan_modChan_same (d : Dev) (k c : Nat) (f : Chan → Chan) : (d.modChan k c f).chan k c = f (d.chan k c) := by
  unfold Dev.chan Dev.modChan
  rw [Dev.mcOf_modMc_same, Mc.chan_setChan_same]
theorem Dev.chan_modChan_ne (d : Dev) (k : Nat) {c e : Nat} (f : Chan → Chan) (h : e ≠ c) : (d.modChan k c f).chan k e = d.chan k e := by
  unfold Dev.chan Dev.modChan
  rw [Dev.mcOf_modMc_same, Mc.chan_setChan_ne _ _ h]

end Sys2Proof.Machine
end

