-- ==== Sys2Proof/Laws/Memory.lean ====
section
/-! SUPPORT. Every operation over the memories (the flash, the DRAM regions, stage memory) keeps their canonical form, and
what each leaves alone. -/
namespace Sys2Proof.Machine

/-- The flash, the DRAM regions and stage memory are in canonical form. -/
abbrev Memory.wf (d : Dev) : Prop := Tbl.Wf 0xFF#8 d.nvm ∧ Tbl.Wf 0#8 d.dram ∧ Tbl.Wf 0#8 d.smem

theorem reset_memory_wf : Memory.wf State.reset.dev := by decide

/-! ## The flash -/

theorem nvErase_wf {d : Dev} (a n : Nat) (h : Tbl.Wf 0xFF#8 d.nvm) : Tbl.Wf 0xFF#8 (d.nvErase a n).nvm := h.filter _

theorem nvProgram_wf {d : Dev} (a : Nat) (bs : Bytes) (h : Tbl.Wf 0xFF#8 d.nvm) : Tbl.Wf 0xFF#8 (d.nvProgram a bs).nvm :=
  h.setRun a _

theorem nvSpoil_wf {d : Dev} (a n : Nat) (h : Tbl.Wf 0xFF#8 d.nvm) : Tbl.Wf 0xFF#8 (d.nvSpoil a n).nvm := by
  unfold Dev.nvSpoil
  exact Tbl.Wf.setRun (dflt := 0xFF#8) a _ h

theorem tear_wf {d : Dev} (a n : Nat) (good : Bytes → Bool) (h : Tbl.Wf 0xFF#8 d.nvm) : Tbl.Wf 0xFF#8 (d.tear a n good).nvm := by
  unfold Dev.tear
  dsimp only
  split
  · exact h
  · exact Tbl.Wf.setRun (dflt := 0xFF#8) a _ h

/-- An erase, a program and a failed operation change the flash and the cursor of free values only. -/
theorem nvErase_frame (d : Dev) (a n : Nat) : d.nvErase a n = { d with nvm := (d.nvErase a n).nvm } := rfl
theorem nvProgram_frame (d : Dev) (a : Nat) (bs : Bytes) : d.nvProgram a bs = { d with nvm := (d.nvProgram a bs).nvm } := rfl
theorem nvSpoil_frame (d : Dev) (a n : Nat) :
    d.nvSpoil a n = { d with nvm := (d.nvSpoil a n).nvm, free := d.free + 1 } := rfl

/-- A byte outside the programmed ones reads as before. -/
theorem nvProgram_other (d : Dev) (a : Nat) (bs : Bytes) {k : Nat} (h : k < a ∨ a + bs.length ≤ k) :
    Tbl.get 0xFF#8 (d.nvProgram a bs).nvm k = Tbl.get 0xFF#8 d.nvm k := by
  unfold Dev.nvProgram
  refine Tbl.get_setRun_ne _ _ _ _ ?_
  simpa [Dev.nvRead, Tbl.getRun] using h

/-! ## DRAM (R347, R352, R353) -/

theorem foldl_wf {α : Type} {dflt : Byte} (f : List Host.Cell → α → List Host.Cell)
    (hf : ∀ t x, Tbl.Wf dflt t → Tbl.Wf dflt (f t x)) (l : List α) (t : List Host.Cell) (h : Tbl.Wf dflt t) :
    Tbl.Wf dflt (l.foldl f t) := by
  induction l generalizing t with
  | nil => exact h
  | cons x l ih => exact ih _ (hf t x h)

/-- A field that no step of a fold changes stays as it was. -/
theorem foldl_field {α β : Type} (g : Dev → β) (f : Dev → α → Dev) (hf : ∀ d x, g (f d x) = g d) (l : List α) (d : Dev) :
    g (l.foldl f d) = g d := by
  induction l generalizing d with
  | nil => rfl
  | cons x l ih => exact (ih _).trans (hf d x)

/-- The requests on the channels move no byte: they wake ranks, fill retry buffers and count. -/
theorem issueRead_frame (d : Dev) (k n : Nat) : d.issueRead k n = { d with mc := (d.issueRead k n).mc, cnt := (d.issueRead k n).cnt } := by
  unfold Dev.issueRead Dev.inc
  rw [bump_eq]
  rfl
theorem issueWrite_frame (d : Dev) (k n : Nat) :
    d.issueWrite k n = { d with mc := (d.issueWrite k n).mc, cnt := (d.issueWrite k n).cnt } := by
  unfold Dev.issueWrite Dev.inc
  rw [bump_eq]
  rfl
theorem writeCopy_frame (d : Dev) (n k : Nat) :
    d.writeCopy n k = { d with mc := (d.writeCopy n k).mc, cnt := (d.writeCopy n k).cnt } := by
  unfold Dev.writeCopy Dev.inc
  split
  · rw [bump_eq]
  · exact issueWrite_frame d k n
theorem sendRead_frame (d : Dev) (r m k : Nat) :
    d.sendRead r m k = { d with mc := (d.sendRead r m k).mc, cnt := (d.sendRead r m k).cnt } := by
  unfold Dev.sendRead
  dsimp only
  split
  · exact issueRead_frame _ _ _
  · rw [issueRead_frame]
    unfold Dev.inc
    rw [bump_eq d]

/-- A byte is stored in its copies only: the registers, the counters and every other part of the device stay. -/
theorem storeByte_frame (d : Dev) (r a : Nat) (b : Byte) : d.storeByte r a b = { d with dram := (d.storeByte r a b).dram } := by
  unfold Dev.storeByte
  split <;> rfl
theorem dramStore_frame (d : Dev) (r a : Nat) (bs : Bytes) : d.dramStore r a bs = { d with dram := (d.dramStore r a bs).dram } := by
  induction bs generalizing d a with
  | nil => rfl
  | cons b bs ih =>
    unfold Dev.dramStore
    rw [ih, storeByte_frame]

theorem storeByte_wf {d : Dev} (r a : Nat) (b : Byte) (h : Tbl.Wf 0#8 d.dram) : Tbl.Wf 0#8 (d.storeByte r a b).dram := by
  unfold Dev.storeByte
  split
  · exact h
  · exact foldl_wf _ (fun t _ ht => ht.set _ _) _ _ h
theorem dramStore_wf {d : Dev} (r a : Nat) (bs : Bytes) (h : Tbl.Wf 0#8 d.dram) : Tbl.Wf 0#8 (d.dramStore r a bs).dram := by
  induction bs generalizing d a with
  | nil => exact h
  | cons b bs ih => exact ih _ (storeByte_wf r a b h)

/-- A write of the device leaves the bytes that the store leaves, and counts its lines. -/
theorem dramWrite_dram (d : Dev) (r a : Nat) (bs : Bytes) : (d.dramWrite r a bs).dram = (d.dramStore r a bs).dram := by
  unfold Dev.dramWrite
  refine foldl_field (·.dram) _ (fun d m => ?_) _ _
  exact foldl_field (·.dram) _ (fun d k => by rw [writeCopy_frame]) _ _
theorem dramWrite_wf {d : Dev} (r a : Nat) (bs : Bytes) (h : Tbl.Wf 0#8 d.dram) : Tbl.Wf 0#8 (d.dramWrite r a bs).dram := by
  rw [dramWrite_dram]
  exact dramStore_wf r a bs h
theorem dramWrite_smem (d : Dev) (r a : Nat) (bs : Bytes) : (d.dramWrite r a bs).smem = d.smem := by
  unfold Dev.dramWrite
  rw [foldl_field (·.smem)]
  · rw [dramStore_frame]
  · exact fun d m => foldl_field (·.smem) _ (fun d k => by rw [writeCopy_frame]) _ _
theorem dramWrite_nvm (d : Dev) (r a : Nat) (bs : Bytes) : (d.dramWrite r a bs).nvm = d.nvm := by
  unfold Dev.dramWrite
  rw [foldl_field (·.nvm)]
  · rw [dramStore_frame]
  · exact fun d m => foldl_field (·.nvm) _ (fun d k => by rw [writeCopy_frame]) _ _

/-! ## Stage memory (R130, R417) -/

/-- A slice's replicas, loaded from the masters. -/
theorem replicasOf_wf {d : Dev} (n : Nat) (h : Tbl.Wf 0#8 d.smem) : Tbl.Wf 0#8 (d.replicasOf n) := by
  unfold Dev.replicasOf
  refine foldl_wf _ (fun t c ht => ?_) _ _ (h.filter _)
  split
  · split
    · exact ht.set _ _
    · exact ht
  · exact ht

theorem writeReplicas_wf {d : Dev} (a : Nat) (bs : Bytes) (h : Memory.wf d) : Memory.wf (d.writeReplicas a bs) :=
  ⟨h.1, h.2.1, foldl_wf _ (fun _ _ ht => ht.setRun _ _) _ _ h.2.2⟩

/-- A write of a table reaches the master and the replicas, and both stay in canonical form. -/
theorem tblWrite_wf {d : Dev} (dsc : BitVec 256) (off : Nat) (bs : Bytes) (h : Memory.wf d) :
    Memory.wf (d.tblWrite dsc off bs) := by
  have h1 : ∀ a, Memory.wf (d.dramWrite rTable a bs) := fun a =>
    ⟨by rw [dramWrite_nvm]; exact h.1, dramWrite_wf _ _ _ h.2.1, by rw [dramWrite_smem]; exact h.2.2⟩
  unfold Dev.tblWrite
  dsimp only
  split
  · exact h1 _
  · exact writeReplicas_wf _ _ (h1 _)

theorem countReads_dram (d : Dev) (r a n : Nat) : (d.countReads r a n).dram = d.dram ∧ (d.countReads r a n).smem = d.smem ∧
    (d.countReads r a n).nvm = d.nvm := by
  unfold Dev.countReads
  refine ⟨foldl_field (·.dram) _ (fun d m => ?_) _ _, foldl_field (·.smem) _ (fun d m => ?_) _ _,
    foldl_field (·.nvm) _ (fun d m => ?_) _ _⟩ <;> · split
                                                     · rw [sendRead_frame]
                                                     · rfl

/-- A slice that loads its replicas keeps every memory in canonical form. -/
theorem fillSlice_wf {d : Dev} (n : Nat) (h : Memory.wf d) : Memory.wf (d.fillSlice n) := by
  unfold Dev.fillSlice
  have h1 : ∀ (g : Dev → List Host.Cell), (∀ d a n, g (Dev.countReads d rTable a n) = g d) → ∀ (l : List (BitVec 256)) d,
      g (l.foldl (fun d x => d.countReads rTable (64 * descBase x) (descExtent x)) d) = g d :=
    fun g hg l d => foldl_field g _ (fun d x => hg d _ _) l d
  refine ⟨?_, ?_, ?_⟩
  · rw [h1 (·.nvm) fun d a n => (countReads_dram d _ a n).2.2]; exact h.1
  · rw [h1 (·.dram) fun d a n => (countReads_dram d _ a n).1]; exact h.2.1
  · rw [h1 (·.smem) fun d a n => (countReads_dram d _ a n).2.1]; exact replicasOf_wf n h.2.2

end Sys2Proof.Machine
end

