-- ==== Sys2Proof/WellFormed.lean ====
section
/-! DEFINITION. Well-formed commands: the bounds on operands that their types do not carry. A command outside them is one
that the surroundings of the block cannot send. -/
namespace Sys2Proof

/-- The longest frame a port can be set to take (Table 3.4, PG_PORT_CFG.max_frame), and its FCS. -/
def maxWireFrame : Nat := 16387

/-- Lines of the stage memory of a slice: 12 MiB of 64 bytes (R130). -/
def stageLineCount : Nat := 196608

/-- Bytes that came, if any, are exactly `n`, or at most `n`. -/
def lenIs (b : Option Bytes) (n : Nat) : Bool :=
  match b with
  | some x => x.length = n
  | none => true

def lenAtMost (b : Option Bytes) (n : Nat) : Bool :=
  match b with
  | some x => x.length ≤ n
  | none => true

/-- The operands of a command are within their bounds. -/
def Instr.wellFormed (i : Instr) : Bool :=
  match i with
  | .powerOn => true
  | .powerLoss => true
  | .sysRstAssert => true
  | .sysRstRelease _ => true
  | .pllLockLoss _ => true
  | .pllRelock _ => true
  | .aonClockLoss => true
  | .bootRomVerifyComplete _ _ => true
  | .bootRecovery _ _ _ => true
  | .calibrationLoad => true
  | .stackTrainingComplete _ _ => true
  | .dukiderTrainingComplete _ => true
  | .configImageStart => true
  | .cfgRegWrite => true
  | .cfgFieldModify => true
  | .cfgTableLoadRaw => true
  | .cfgTableLoadCommands => true
  | .cfgParserProgram => true
  | .cfgStageConfig => true
  | .cfgCalendarPage => true
  | .cfgGateList => true
  | .cfgLaunchEntry => true
  | .cfgCellarTable => true
  | .cfgPartition => true
  | .cfgEnd => true
  | .cfgUnknownRecord => true
  | .stageMemoryFill => true
  | .bootStartCmd _ => true
  | .bootSerdesStepEnd => true
  | .bootAlignStepEnd => true
  | .forwardingStart => true
  | .dramPoolReady _ => true
  | .optimeRecordWrite => true
  | .timeBaseTick => true
  | .slewConsumed => true
  | .timeFreqAdjWrite _ => true
  | .timeSlewWrite _ => true
  | .timeStepSet => true
  | .timeStepAdd => true
  | .timeNowRead _ => true
  | .timeCtrlWrite _ => true
  | .timeSample _ _ => true
  | .timeSourceLoss => true
  | .holdoverExpire => true
  | .ppsInEdge _ _ => true
  | .ppsMissingTimeout => true
  | .ppsCaptRead _ => true
  | .todLineReceive line => line.length ≤ 128
  | .ppsOutEdge => true
  | .todTxSend => true
  | .leapSecondApply => true
  | .announceUtcUpdate _ _ _ => true
  | .txtsData0Read _ => true
  | .synceSquelch _ => true
  | .synceResume _ => true
  | .esmcFrame _ _ => true
  | .launchArm _ _ => true
  | .launchCancel _ _ => true
  | .launchRead _ _ => true
  | .lnchEnableWrite _ => true
  | .launchRelativeRelease => true
  | .launchDispatch => true
  | .vintageCommit _ => true
  | .calendarSwitch _ => true
  | .gateSwap _ => true
  | .harvest _ => true
  | .meterProfile _ => true
  | .shaperProfile _ => true
  | .dramRetrain _ => true
  | .mirrorStart _ => true
  | .mirrorStop _ => true
  | .regWrite _ => true
  | .mark _ => true
  | .armMessageReceive => true
  | .armRepeat => true
  | .answerReceive => true
  | .confirmReceive _ => true
  | .distConfirmDeadline _ => true
  | .lineFrameReceive _ frame _ _ _ _ _ => 14 ≤ frame.length && frame.length ≤ maxWireFrame
  | .pauseFrameReceive _ frame => frame.length = 60
  | .pauseQuantaExpire _ _ => true
  | .pauseWdogTrip _ _ => true
  | .pauseWdogRecover _ _ => true
  | .fcFrameSend _ => true
  | .fcXoffRepeat _ _ => true
  | .lineFrameTransmit _ => true
  | .portEnable _ => true
  | .portDisable _ => true
  | .portSignalDetect _ => true
  | .anResolved _ _ _ => true
  | .anFail _ => true
  | .portLockAcquired _ _ => true
  | .portLockTimeout _ => true
  | .portDebounceExpire _ => true
  | .portLockLoss _ _ => true
  | .portHoldoffExpire _ => true
  | .portFlushComplete _ => true
  | .ingressAccept _ parityBad => decide parityBad.Nodup
  | .pressEntryReload _ _ => true
  | .dramLookupResponse _ _ => true
  | .stageMemoryRefetch _ line => line < stageLineCount
  | .assocEntryReload _ _ => true
  | .actionResolve _ _ => true
  | .dukiderHandoff _ => true
  | .dukiderCycleReceive _ _ => true
  | .dukiderReplay _ => true
  | .dukiderLinkLost _ => true
  | .crossingParityError _ inst _ lost => inst < 65536 && lost < 2 ^ 32
  | .egressEdit _ => true
  | .prsWrite _ _ => true
  | .prsRead _ _ => true
  | .msWrite _ _ _ => true
  | .msRead _ _ _ => true
  | .asWrite _ _ => true
  | .asRead _ _ => true
  | .asInvalidate _ _ => true
  | .asSearch _ => true
  | .asNextMatch _ => true
  | .vintageReclaim => true
  | .reclaimSend => true
  | .reclaimReceive _ => true
  | .drainLimitExpire => true
  | .learnItemProcess => true
  | .epochAdvance => true
  | .agerSweepOperation => true
  | .tableWrite _ => true
  | .tableDelete _ => true
  | .tableRead _ => true
  | .routeAdd _ => true
  | .routeDel _ => true
  | .tableDump _ => true
  | .tableFlush _ => true
  | .bufferAllocate _ _ => true
  | .bufferHandOver _ _ _ _ => true
  | .bufferSetRefs _ _ count _ => count < 65536
  | .bufferFree _ _ _ => true
  | .bpmRsvWrite _ _ _ _ => true
  | .revokeDrainExpire _ => true
  | .revocationScanComplete _ _ => true
  | .auditPassStart => true
  | .auditPassComplete _ => true
  | .admission _ => true
  | .evacuationWriteComplete q => q < 4 * 2 ^ 18
  | .nominate _ _ => true
  | .evacReadComplete _ _ => true
  | .crossbarCellTime => true
  | .dispatch _ => true
  | .cutThroughTail _ frame _ => frame.length ≤ maxWireFrame
  | .replicate => true
  | .gateEdge _ => true
  | .unreachHeadDrop _ => true
  | .tmqWrite _ _ => true
  | .tmqRead _ _ => true
  | .replWrite _ _ => true
  | .replRead _ _ => true
  | .qstatRead _ => true
  | .shpWrite _ _ => true
  | .shpRead _ _ => true
  | .shpCredRead _ => true
  | .mtrWrite _ _ => true
  | .mtrRead _ _ => true
  | .mtrBktRead _ => true
  | .trlLinkEnable _ => true
  | .trlLinkDisable _ => true
  | .pmClear _ => true
  | .fabricTxResume _ => true
  | .codewordLock _ _ => true
  | .cellSlotTransmit _ _ => true
  | .overheadTransmit _ => true
  | .cellReceive _ _ bytes _ _ => bytes.length = 272
  | .overheadReceive _ pos bytes _ _ => pos < 17680 && bytes.length = 272
  | .defectDeclare _ _ => true
  | .defectClear _ _ => true
  | .ttOffsetRead _ _ => true
  | .pmSecondFinal _ => true
  | .pmBinRead _ _ _ => true
  | .calWrite _ _ _ _ => true
  | .calRead _ _ _ _ => true
  | .calTxPageSwitch _ => true
  | .calRxPageSwitch _ => true
  | .calRxSwitchTimeout _ => true
  | .reorderGapTimeout _ _ => true
  | .contextIdleTimeout _ _ => true
  | .reportSend => true
  | .reportReceive _ => true
  | .calendarRecompute => true
  | .planReceive => true
  | .electTimeout => true
  | .managerLoss => true
  | .snapshotBroadcast => true
  | .snapshotReceive => true
  | .dramRead _ m _ => m < 2 ^ 31
  | .dramWrite _ m line => m < 2 ^ 31 && line.length = 64
  | .scrubRead _ _ => true
  | .dramAlert _ _ _ _ _ => true
  | .channelRecoveryComplete _ _ _ => true
  | .refresh _ _ _ => true
  | .rankPowerDown _ _ _ => true
  | .retrainPauseEnd _ _ => true
  | .stackLost _ _ => true
  | .partitionCommit => true
  | .pcieLinkUp _ _ _ => true
  | .perst => true
  | .flr => true
  | .sqDoorbell _ _ _ => true
  | .cqDoorbell _ _ _ => true
  | .sqUnit0Read _ unit => lenIs unit 32
  | .sqPoll _ => true
  | .sqEntryRead _ rest => lenAtMost rest 4064
  | .skipEntry _ => true
  | .submissionBadOp _ => true
  | .injectRaw _ => true
  | .injectPipe _ => true
  | .injectFrameReadComplete _ frame => lenAtMost frame 16383
  | .postBuffer _ => true
  | .regBatch _ => true
  | .puntItemWrite => true
  | .puntDmaComplete => true
  | .completionWrite _ => true
  | .vectorTimerExpire _ => true
  | .msixUnmask _ _ _ => true
  | .d3hotEntry => true
  | .d0Return => true
  | .sqEnable _ => true
  | .sqDisable _ => true
  | .sqDrainComplete _ => true
  | .cqEnable _ => true
  | .cqDisable _ => true
  | .sliceHangTimeout _ => true
  | .rackingStart => true
  | .rackingComplete _ => true
  | .rackingTimeout => true
  | .claimWriteRefused _ _ => true
  | .sliceDrainComplete _ => true
  | .tastingRoundStart => true
  | .tastingRoundEnd _ => true
  | .tastingRoundTimeout => true
  | .sprForceFail _ => true
  | .sprForceMove _ => true
  | .sprForceCellar => true
  | .cellarFrameReceive _ frame => 14 ≤ frame.length && frame.length ≤ maxWireFrame
  | .mbxInfo _ => true
  | .mbxSensors _ => true
  | .evtRead _ payload => payload.length ≤ 65536
  | .evtNonce _ => true
  | .evtClear _ => true
  | .fwUpdate _ _ _ _ _ => true
  | .mbxRestart _ => true
  | .ownerFuse _ => true
  | .nvmRead _ => true
  | .nvmCfgSelect _ _ => true
  | .nvmWriteConfigHalf _ _ => true
  | .nvmWriteCalibration _ _ => true
  | .mbxBadReq _ _ => true
  | .mbxWaitTimeout _ => true
  | .mgmtWdogExpire => true
  | .mgmtFwReady => true
  | .trialCommit => true
  | .nonceExpire => true
  | .evtClearEraseComplete => true
  | .eventRecordWrite => true
  | .sensorSample temps => temps.length = 40
  | .vmonSample mv _ => mv.length = 12
  | .registerWrite _ _ _ _ => true
  | .sqcWrite _ _ _ => true
  | .glbLockWrite _ => true
  | .lowWordRead _ _ => true
  | .rcCounterRead _ _ => true
  | .cntClearBank _ => true
  | .cntClearSet => true
  | .harvestBlockWrite => true
  | .cntMtrSelect _ => true
  | .pcieCompletionTimeout _ => true
  | .cardRemoved => true
  | .aonXinRestart => true

end Sys2Proof
end

