-- ==== Sys2Proof/Tests/Slice0.lean ====
section
/-! SUPPORT. Tests: a concrete witness of the premises of every clause of every statement (wit_…), commands that are not
well formed, and the worked examples and tables of the spec (test_…). -/
namespace Sys2Proof.Machine

-- One theorem at a time: each of them waiting on a thread of its own would take more memory than a check allows.
set_option Elab.async false

def wDev : Dev :=
  { boot := { step := 9, plls := 0x3FFFF#18, tdieReady := true, fdieReady := true, dukTrained := true },
    mgmt := { serving := true }, vint := { started := true } }
def wOn (f : Dev → Dev) : State := { dev := f wDev }
def wRun : State := wOn id
def wBoot (f : Boot → Boot) : State := wOn fun d => { d with boot := f d.boot }
def wReg (k : Nat) (v : Word) (d : Dev) : Dev := d.setReg k v
def wTime (f : TimeBase → TimeBase) : State := wOn fun d => { d with time := f d.time }
def wEntry (i : Nat) (e : LEntry) : State := wOn fun d => d.setEntry i e
def wHit (off : Nat) : RegHit := (decodeReg off).getD { block := .glb, inst := 0, win := 0, row := { off := 0 }, idx := [], key := 0, alias_ := false }
/-- Bytes 0 to 21 of the header of a firmware image of `n` bytes, version 0. -/
def wImgHead (n : Nat) : Bytes := [90#8, 70#8, 87#8, 73#8] ++ le 2 1 ++ le 2 0x9128 ++ le 8 0 ++ le 4 n ++ le 2 1
/-- An image with a payload of one byte. -/
def wImg : Bytes := wImgHead 1 ++ List.replicate 106 0#8 ++ le 4 (crc32c [7#8]).toNat ++ List.replicate 3964 0#8 ++ [7#8]
def wNvm (a : Nat) (bs : Bytes) (d : Dev) : Dev := { d with nvm := Tbl.setRun 0xFF#8 d.nvm a bs }
/-- The loader before a record with this head, whose payload is erased flash but for its first bytes. -/
def wLoads (typ len target : Nat) (pre : Bytes) : State :=
  wOn fun d => wNvm (nvHalf 0 + 16) (le 1 typ ++ [0#8] ++ le 2 len ++ le 4 target ++ pre)
    { d with boot := { d.boot with step := 5, loading := true, pos := 16 } }
def wRec (typ len target : Nat) (pre : Bytes) : CfgRec :=
  { typ := typ, halt := false, len := len, target := target, payload := pre ++ List.replicate (len - pre.length) 0xFF#8 }
/-- Launch entry 3 of this kind, dispatched, whose instant is reached. -/
def wReady (k : Nat) : State := wEntry 3 { kind := k, st := .dispatched }
def wHeld (i : Nat) (e : LEntry) : State := wEntry i e
def wPort (p : Nat) (x : Port) : State := wOn fun d => d.setPort p x
def wFrame : Bytes := List.replicate 60 0x11#8
def wSlice (n : Nat) (f : Slice → Slice) : State := wOn fun d => d.modSlice n f
/-- Ring 5 of this kind with entry `e` in front. -/
def wRing (kind : Nat) (e : SqEnt) : State :=
  wOn fun d => wReg (Reg.HOST_SQ_CTRL 5) (put kind 28) (d.setSq 5 { st := .active, ents := [e] })
def wTbl (op : Nat) : SqEnt := { id := 1, op := 0x10, units := 4, st := .ready, bytes := List.replicate 32 0#8 ++ le 1 op ++ List.replicate 95 0#8 }
def wLnch (op i : Nat) : SqEnt := { id := 1, op := 0x12, units := if op = 1 then 2 else 1, st := .ready, bytes := List.replicate 8 0#8 ++ le 2 op ++ le 2 i ++ List.replicate 52 0#8 }
def wLink (n : Nat) (x : Link) : State := wOn fun d => d.setLink n x
def wSrch : SearchCtx := { key := 0, first := 0, count := 1, vint := 0 }
/-- A valid hash table descriptor of 32-byte entries in one set. -/
def wDesc : BitVec 256 := BitVec.ofNat 256 (2 * 2 ^ 253 + 2 * 2 ^ 250 + 3 * 2 ^ 245 + 2 ^ 244 + 2 ^ 200)
def wBuf (h : Nat) (b : BufEntry) : State := wOn fun d => d.setBuf h b
def wQm (f : Qm → Qm) : State := wOn fun d => { d with qm := f d.qm }
def wQueue (q : Nat) (k : Pkt) : State := wOn fun d => d.setQueue q { pkts := [k] }
/-- A packet to port 0, class 0, with buffer 9. -/
def wPkt : Pkt := { len := 60, frame := wFrame, bus := List.replicate 18 0#8 ++ [32#8] ++ List.replicate 45 0#8, handle := some 9, tag := 2 }
def wReq (k : Nat) : AllocReq := { pool := k, tag := 0, pkt := { len := 10240 } }
def wPick : Option Pick := (wOn fun d => (d.setPort 0 { st := .up }).setQueue (qKey 0 0) { pkts := [wPkt] }).dev.pickOutput 0 (fun p => (BitVec.allOnes 128).getLsbD p)
def wFab (f : Fabric → Fabric) : State := wOn fun d => { d with fab := f d.fab }
def wMc (k : Nat) (m : Mc) : State := wOn fun d => { d with mc := [(k, m)] }
/-- Every stack READY. -/
def wDram (d : Dev) : Dev := { d with mc := (List.range 8).map fun k => (k, { st := .ready }) }
def wPlan : Bytes := 1#8 :: List.replicate 24711 0#8
def wSnap : Bytes := List.replicate 41688 0#8
/-- Ring 16383, enabled, of kind `kind` and with CQ 0 of 16 places on, in a link that is up. -/
def wHost (kind : Nat) (x : Sq) : State :=
  wOn fun d => wReg (Reg.HOST_SQ_CTRL 16383) (put 1 31 ||| put kind 28) (wReg (Reg.HOST_SQ_SIZE 16383) 64 (wReg (Reg.HOST_CQ_SIZE 0) 16
    ({ d with host := { d.host with linkUp := true, link := 0, bme := true, msix := true, cqs := [(0, { on := true, phase := true })] } }.setSq 16383 x)))
/-- A MGMT entry of a command ring with this request and payload. -/
def wMbx (req : Nat) (payload : Bytes) : SqEnt :=
  { id := 1, op := 0x13, units := 4, st := .ready, bytes := List.replicate 16 0#8 ++ le 2 req ++ [0, 0] ++ le 4 4096 ++ List.replicate 8 0#8 ++ payload }
def wReq13 (req : Nat) (payload : Bytes) (f : Mgmt → Mgmt) : State :=
  wOn fun d => wReg (Reg.HOST_SQ_CTRL 5) (put 2 28) ({ d with mgmt := f d.mgmt }.setSq 5 { st := .active, ents := [wMbx req payload] })
def wMg (f : Mgmt → Mgmt) : State := wOn fun d => { d with mgmt := f d.mgmt }
def wInj (op : Nat) (inline_ : Bool) : SqEnt :=
  { id := 1, op := op, units := if inline_ then 3 else 1, st := .ready,
    bytes := [0, 0, 0, if inline_ then 1 else 0] ++ List.replicate 12 0#8 ++ le 2 60 ++ List.replicate 78 0#8 }
def wRack (begun : Bool) : State := wOn fun d => { d with spr := { d.spr with rack := some ⟨8, 3, 3, false, begun, 0⟩ } }
def wEv : Event := ⟨0, 0, 0, 0, []⟩
def wPost : SqEnt := { id := 1, op := 3, units := 1, st := .ready, bytes := List.replicate 16 0#8 ++ le 4 256 ++ List.replicate 12 0#8 }
def wBlk : HvBlock := (0, 0, 0, [], 0, false)
/-- A lookup whose request has crossed the Dukider link. -/
def wLook : Lookup := { stage := 0, line := 0, asked := true }
/-- A packet whose first stage has begun, with a direct table in DRAM. -/
def wAsk : Pkt := { begun := some (0, BitVec.ofNat 256 (2 ^ 253 + 2 ^ 252 + 2 ^ 244), 0) }
/-- A table command with operation `op` in the register mailbox. -/
def wMbxT (op : Nat) : State :=
  wOn fun d => wReg (Reg.MGMT_MBX_DATA 0) (wd op) (wReg Reg.MGMT_MBX_LEN 96 { d with mgmt := { d.mgmt with mbxBusy := true, mbxReq := 16 } })
/-- Every stack trains still. -/
def wTrain : State := wOn fun d => { d with mc := (List.range 8).map fun k => (k, { st := .training }) }

theorem takeInbox_one (src : Option Nat) {d d1 : Dev} {t v : Nat} {bs : Bytes} (h : d.fab.inbox = [(t, v, bs)])
    (h1 : d1 = { d with fab := { d.fab with inbox := [] } }) (hs : src.isNone = true ∨ src = some v := by simp) :
    d.takeInbox t src = (some (v, bs), d1) := by
  rcases hs with hs | hs <;> simp [Dev.takeInbox, h, h1, hs]
theorem some_getD {α : Type} {o : Option α} {x : α} (h : o.isSome = true) : o = some (o.getD x) := by
  cases o <;> simp at h ⊢
theorem wHit_eq {off : Nat} (h : (decodeReg off).isSome = true) : decodeReg off = some (wHit off) := some_getD h

theorem wit_StepRunsTheFront :
  ∃ (s : State) (t : State) (c : Instr) (cs : List Instr), step { s with pending := c :: cs } = .next t :=
  ⟨wRun, wRun, .powerOn, [], rfl⟩

theorem wit_EmptyQueueIdles :
  (∃ (s : State), s.pending = [] ∧ s.dev.resumes = none) ∧
  (∃ (s : State) (t : State) (before : List (Nat × Instr)) (after : List (Nat × Instr)) (b : Nat) (c : Instr),
    s.pending = [] ∧ s.dev.parked = before ++ (b, c) :: after ∧ (∀ x ∈ before, s.dev.opens x.1 = false) ∧ s.dev.opens
    b = true ∧ exec c { s with dev := { s.dev with parked := [] } } = .next t) ∧
  (∃ (d : Dev), d.up = false) :=
  ⟨⟨wRun, by decide +kernel⟩,
  ⟨wOn fun d => { d with parked := [(0, .powerOn)] }, wRun, [], [], 0, .powerOn, by decide +kernel, by decide +kernel,
    by decide +kernel, by decide +kernel, rfl⟩,
  ⟨{ powered := false }, by decide +kernel⟩⟩

theorem wit_ResetValues :
  ∃ (n : Nat), n < 8 :=
  ⟨0, by decide +kernel⟩

theorem wit_InvariantEveryStep :
  ∃ (s : State) (t : State), Inv s ∧ step s = .next t :=
  ⟨wRun, wRun, by decide +kernel, rfl⟩

theorem wit_OnlyTheseRows :
  ∃ (c : Instr) (s : State) (t : State), exec c s = .next t :=
  ⟨.powerOn, wRun, wRun, rfl⟩

theorem wit_LocksStaySet :
  (∃ (c : Instr) (s : State) (t : State) (i : Nat), exec c s = .next t ∧ resets c = false ∧ s.dev.lock.getLsbD i =
    true) ∧
  (∃ (s : State), s.dev.powered = true) ∧
  (∃ (s : State), s.dev.powered = false) ∧
  (∃ (s : State) (p : Path) (off : BitVec 26) (v : Word) (h : RegHit) (dom : Nat), Answers p off.toNat s ∧ decodeReg
    off.toNat = some h ∧ h.row.lock = some dom ∧ s.dev.lock.getLsbD dom = true) ∧
  (∃ (d : Dev) (p : Path) (off : Nat), d.chained bankGlb 1 = false) :=
  ⟨⟨.timeBaseTick, wOn fun d => { d with lock := 31#5 }, wOn fun d => { d with lock := 31#5 }, 4, rfl,
    by decide +kernel, by decide +kernel⟩,
  ⟨wRun, by decide +kernel⟩,
  ⟨{ dev := { powered := false } }, by decide +kernel⟩,
  ⟨wOn fun d => { d with lock := 31#5 }, .bar0, 0x44, 0, wHit 0x44, 0, by decide +kernel, wHit_eq (by decide +kernel),
    by decide +kernel, by decide +kernel⟩,
  ⟨wDev, .ring, 0, by decide +kernel⟩⟩

theorem wit_ResetHoldsStill :
  ∃ (c : Instr) (s : State), s.dev.up = false ∧ actsInReset c = false :=
  ⟨.timeBaseTick, { dev := { inReset := true } }, by decide +kernel⟩

theorem wit_RepeatingEntries :
  (∃ (d : Dev) (i : Nat) (late : Bool), d.unreceivable (d.entry i) = false ∧ (d.entry i).period ≠ 0 ∧ (d.entry i).due
    = false ∧ (d.entry i).instant + (d.entry i).period < 2 ^ 48 * 10 ^ 9) ∧
  (∃ (s : State) (i : BitVec 12), Runs s ∧ s.dev.firstEntry s.dev.mayAct = some i.toNat ∧ (s.dev.entry i.toNat).kind =
    0x0F ∧ (s.dev.entry i.toNat).st = .dispatched ∧ (s.dev.entry i.toNat).period ≠ 0 ∧ (s.dev.entry i.toNat).tardy =
    false ∧ (∀ p ∈ s.dev.lnch.entries, p.2.due = false) ∧ (s.dev.entry i.toNat).instant + (s.dev.entry i.toNat).period
    < 2 ^ 48 * 10 ^ 9) :=
  ⟨⟨(wEntry 3 { kind := 0x0F, st := .dispatched, period := 5 }).dev, 3, false, by decide +kernel⟩,
  ⟨wEntry 3 { kind := 0x0F, st := .dispatched, period := 5 }, 3, by decide +kernel⟩⟩

theorem wit_TimeValidity :
  ∃ (s : State) (p : Path) (off : BitVec 26) (h : RegHit), Answers p off.toNat s ∧ fdieOffset off.toNat = false ∧
    decodeReg off.toNat = some h ∧ h.block = .time ∧ h.row.off = 0x04 ∧ counterOf h = none :=
  ⟨wRun, .bar0, BitVec.ofNat 26 Reg.TIME_STATUS, wHit Reg.TIME_STATUS, by decide +kernel, by decide +kernel,
    wHit_eq (by decide +kernel), by decide +kernel, by decide +kernel, by decide +kernel⟩

theorem wit_PowerAndReset :
  (∃ (s : State), s.dev.powered = false) ∧
  (∃ (s : State), s.dev.powered = true) ∧
  (∃ (s : State), s.dev.powered = true ∧ s.dev.inReset = true) ∧
  (∃ (s : State), s.dev.powered = true) :=
  ⟨⟨{ dev := { powered := false } }, by decide +kernel⟩,
  ⟨wRun, by decide +kernel⟩,
  ⟨{ dev := { inReset := true } }, by decide +kernel⟩,
  ⟨wRun, by decide +kernel⟩⟩

theorem wit_ResetRelease :
  (∃ (s : State) (straps : Word), s.dev.powered = true ∧ s.dev.rstAsserted = true ∧ s.dev.mgmt.thermtripN = false) ∧
  (∃ (s : State) (straps : Word), s.dev.powered = true ∧ s.dev.rstAsserted = true ∧ s.dev.mgmt.thermtripN = true ∧
    s.dev.tooHot = false) ∧
  (∃ (s : State) (straps : Word), s.dev.powered = true ∧ s.dev.rstAsserted = true ∧ s.dev.tooHot = true) :=
  ⟨⟨{ dev := { inReset := true, rstAsserted := true } }, 5, by decide +kernel⟩,
  ⟨{ dev := { inReset := true, rstAsserted := true, mgmt := { thermtripN := true } } }, 5, by decide +kernel⟩,
  ⟨{ dev := { inReset := true, rstAsserted := true, mgmt := { thermtripN := true, temps := [(0, 400#12)] } } }, 5,
    by decide +kernel⟩⟩

theorem wit_PllRows :
  (∃ (s : State) (p : Pll), Runs s ∧ s.dev.pllLocked p = true ∧ (p = .fclk ∨ p = .tclk ∨ (∃ k, p = .mclk k) ∨ p =
    .line ∨ p = .fabric ∨ p = .host ∨ p = .pciePhy ∨ p = .mgmt)) ∧
  (∃ (s : State), Runs s ∧ s.dev.pllLocked .time = true) ∧
  (∃ (s : State) (p : Pll) (b : Nat), Runs s ∧ s.dev.pllLocked p = false ∧ p ≠ .time ∧ pllBit p = .inl b ∧ 1 <
    s.dev.boot.step) ∧
  (∃ (s : State) (p : Pll) (l : Nat), Runs s ∧ s.dev.pllLocked p = false ∧ pllBit p = .inr l ∧ 1 < s.dev.boot.step) ∧
  (∃ (s : State), Runs s ∧ s.dev.pllLocked .time = false ∧ 1 < s.dev.boot.step) ∧
  (∃ (s : State) (p : Pll) (b : Nat), Runs s ∧ s.dev.pllLocked p = false ∧ pllBit p = .inl b ∧ s.dev.boot.step ≤ 1) :=
  ⟨⟨wRun, .mgmt, by decide +kernel⟩,
  ⟨wRun, by decide +kernel⟩,
  ⟨wBoot fun b => { b with plls := 0 }, .line, 12, by decide +kernel⟩,
  ⟨wBoot fun b => { b with plls := 0, lanesOut := [0] }, .lineLane 0, 0, by decide +kernel⟩,
  ⟨wBoot fun b => { b with plls := 0 }, by decide +kernel⟩,
  ⟨wBoot fun b => { b with plls := 0, step := 1 }, .line, 12, by decide +kernel⟩⟩

set_option maxRecDepth 65536 in
theorem wit_StartUp :
  (∃ (s : State) (a : Bool) (b : Bool) (x : Nat), Clocked pllMgmt s ∧ s.dev.boot.step = 2 ∧ s.dev.boot.fail = 0 ∧
    s.dev.bootMode ≠ 2 ∧ s.dev.chooseSlot a b = some x) ∧
  (∃ (s : State) (a : Bool) (b : Bool) (x : Nat), Clocked pllMgmt s ∧ s.dev.boot.step = 2 ∧ s.dev.boot.fail = 0 ∧
    s.dev.bootMode = 2 ∧ s.dev.chooseSlot a b = some x) ∧
  (∃ (s : State) (a : Bool) (b : Bool), Clocked pllMgmt s ∧ s.dev.boot.step = 2 ∧ s.dev.boot.fail = 0 ∧
    s.dev.chooseSlot a b = none) ∧
  (∃ (s : State) (file : CardFile) (ok : Bool) (uhs : Bool) (f : Bytes), Clocked pllMgmt s ∧ s.dev.boot.step = 2 ∧
    s.dev.boot.fail = 0 ∧ (s.dev.bootMode = 2 ∨ s.dev.boot.noSlot = true) ∧ s.dev.cardImage file ok = some f) ∧
  (∃ (s : State) (file : CardFile) (ok : Bool) (uhs : Bool), Clocked pllMgmt s ∧ s.dev.boot.step = 2 ∧ s.dev.boot.fail
    = 0 ∧ (s.dev.bootMode = 2 ∨ s.dev.boot.noSlot = true) ∧ s.dev.cardImage file ok = none) ∧
  (∃ (s : State), Clocked pllMgmt s ∧ s.dev.boot.step = 3) ∧
  (∃ (s : State) (k : Fin 8), Clocked (pllMclk k) s ∧ s.dev.boot.step = 4 ∧ (s.dev.mcOf k).st = .training) ∧
  (∃ (s : State), Runs s ∧ s.dev.boot.step = 4 ∧ s.dev.boot.dukTrained = false ∧ s.dev.boot.dukFailed = false ∧
    s.dev.clocked 2 = true ∧ s.dev.clocked 3 = true) :=
  ⟨⟨wOn fun d => wNvm (nvSlot 0) (wImgHead 1) { d with boot := { d.boot with step := 2 } }, true, true, 0,
    by decide +kernel⟩,
  ⟨wOn fun d => wReg Reg.GLB_STRAP 2 (wNvm (nvSlot 0) (wImgHead 1) { d with boot := { d.boot with step := 2 } }),
    true, true, 0, by decide +kernel⟩,
  ⟨wBoot fun b => { b with step := 2 }, true, true, by decide +kernel⟩,
  ⟨wBoot fun b => { b with step := 2, noSlot := true }, .file wImg, true, true, wImg, by decide +kernel⟩,
  ⟨wBoot fun b => { b with step := 2, noSlot := true }, .noFile, true, true, by decide +kernel⟩,
  ⟨wBoot fun b => { b with step := 3 }, by decide +kernel⟩,
  ⟨wOn fun d => { d with boot := { d.boot with step := 4 } }.modMc 7 fun m => { m with st := .training }, 7,
    by decide +kernel⟩,
  ⟨wBoot fun b => { b with step := 4, dukTrained := false }, by decide +kernel⟩⟩

set_option maxRecDepth 65536 in
theorem wit_StartUpSteps :
  (∃ (s : State), Clocked pllMgmt s ∧ s.dev.boot.step = 5 ∧ s.dev.boot.loading = false ∧ s.dev.boot.endCause = 0 ∧
    s.dev.boot.hostWait = false ∧ s.dev.bootMode = 1) ∧
  (∃ (s : State) (x : Bytes), Clocked pllMgmt s ∧ s.dev.boot.step = 5 ∧ s.dev.boot.loading = false ∧
    s.dev.boot.endCause = 0 ∧ s.dev.boot.hostWait = false ∧ s.dev.bootMode ≠ 1 ∧ x = s.dev.nvRead (nvHalf (hdrCfg
    s.dev.hdr)) 16 ∧ Machine.slice x 0 4 = [90#8, 67#8, 70#8, 71#8] ∧ unle (Machine.slice x 4 2) = 1 ∧ unle
    (Machine.slice x 6 2) = 0x9128) ∧
  (∃ (s : State) (x : Bytes), Clocked pllMgmt s ∧ s.dev.boot.step = 5 ∧ s.dev.boot.loading = false ∧
    s.dev.boot.endCause = 0 ∧ s.dev.boot.hostWait = false ∧ s.dev.bootMode ≠ 1 ∧ x = s.dev.nvRead (nvHalf (hdrCfg
    s.dev.hdr)) 16 ∧ ¬ (Machine.slice x 0 4 = [90#8, 67#8, 70#8, 71#8] ∧ unle (Machine.slice x 4 2) = 1 ∧ unle
    (Machine.slice x 6 2) = 0x9128)) ∧
  (∃ (s : State), Clocked pllMgmt s ∧ s.dev.boot.step = 5 ∧ s.dev.boot.endCause ≠ 0 ∧ s.dev.boot.loading = false) ∧
  (∃ (s : State) (v : Word), Answers .bar0 Reg.GLB_BOOT_CMD s ∧ s.dev.boot.hostWait = true ∧ bit v 0 = true) ∧
  (∃ (s : State), Clocked pllMgmt s ∧ s.dev.boot.step = 6) ∧
  (∃ (s : State), Clocked pllMgmt s ∧ s.dev.boot.step = 7) ∧
  (∃ (s : State) (r : Bytes), Serves s ∧ r = le 4 s.dev.opSeq ++ le 4 s.dev.optime ++ le 3 s.dev.mgmt.pcc ++ le 1 (b2n
    !s.dev.mgmt.opRecord)) :=
  ⟨⟨wOn fun d => wReg Reg.GLB_STRAP 1 { d with boot := { d.boot with step := 5 } }, by decide +kernel⟩,
  ⟨wOn fun d => wNvm (nvHalf 0) ([90, 67, 70, 71] ++ le 2 1 ++ le 2 0x9128)
    { d with boot := { d.boot with step := 5 } }, _, by decide +kernel, by decide +kernel, by decide +kernel,
    by decide +kernel, by decide +kernel, by decide +kernel, rfl, by decide +kernel, by decide +kernel,
    by decide +kernel⟩,
  ⟨wBoot fun b => { b with step := 5 }, _, by decide +kernel, by decide +kernel, by decide +kernel, by decide +kernel,
    by decide +kernel, by decide +kernel, rfl, by decide +kernel⟩,
  ⟨wBoot fun b => { b with step := 5, endCause := 1 }, by decide +kernel⟩,
  ⟨wBoot fun b => { b with step := 5, hostWait := true }, 1, by decide +kernel⟩,
  ⟨wBoot fun b => { b with step := 6 }, by decide +kernel⟩,
  ⟨wBoot fun b => { b with step := 7 }, by decide +kernel⟩,
  ⟨wRun, _, by decide +kernel, rfl⟩⟩

theorem wit_ForwardingStart :
  (∃ (s : State), Clocked pllMgmt s ∧ s.dev.boot.step = 8 ∧ s.dev.vint.started = false ∧ s.dev.boot.dukFailed = false
    ∧ s.dev.dukLost = false ∧ s.dev.tableLost = false) ∧
  (∃ (s : State) (c : Fin 4), Clocked pllT s ∧ s.dev.vint.started = true ∧ s.dev.poolDone c = false ∧ (List.range
    c).all s.dev.poolDone = true) :=
  ⟨⟨wOn fun d => { d with boot := { d.boot with step := 8 }, vint := {} }, by decide +kernel⟩,
  ⟨wRun, 0, by decide +kernel⟩⟩

set_option maxRecDepth 65536 in
theorem wit_ConfigRecords :
  (∃ (s : State) (r : CfgRec), Loads s r ∧ r.typ = 0x01 ∧ r.whole 4 = true) ∧
  (∃ (s : State) (r : CfgRec), Loads s r ∧ r.typ = 0x02 ∧ r.len = 8) ∧
  (∃ (s : State) (r : CfgRec), Loads s r ∧ r.typ = 0x03 ∧ r.target.testBit 31 = false ∧ r.whole 64 = true) ∧
  (∃ (s : State) (r : CfgRec), Loads s r ∧ r.typ = 0x03 ∧ r.target.testBit 31 = true ∧ r.whole 96 = true) ∧
  (∃ (s : State) (r : CfgRec), Loads s r ∧ r.typ = 0x04 ∧ r.whole 32 = true) ∧
  (∃ (s : State) (r : CfgRec) (n : Nat), Loads s r ∧ r.typ = 0x05 ∧ r.target / 2 ^ 28 % 16 < 4 ∧ n = stageItemBytes
    (r.target / 2 ^ 28 % 16) ∧ r.whole n = true) ∧
  (∃ (s : State) (r : CfgRec), Loads s r ∧ r.typ = 0x05 ∧ r.target / 2 ^ 28 % 16 = 4 ∧ r.whole 96 = true) ∧
  (∃ (s : State) (r : CfgRec), Loads s r ∧ r.typ = 0x06 ∧ r.len = 4100) ∧
  (∃ (s : State) (r : CfgRec) (n : Nat), Loads s r ∧ r.typ = 0x07 ∧ n = unle (Machine.slice r.payload 0 2) % 2 ^ 11 ∧
    r.len = 16 + 4 * n) ∧
  (∃ (s : State) (r : CfgRec), Loads s r ∧ r.typ = 0x08 ∧ r.len = 32) ∧
  (∃ (s : State) (r : CfgRec), Loads s r ∧ r.typ = 0x09 ∧ r.whole 4 = true) ∧
  (∃ (s : State) (r : CfgRec), Loads s r ∧ r.typ = 0x0A ∧ r.len = 16) :=
  ⟨⟨wLoads 1 4 0 [], wRec 1 4 0 [], by decide +kernel⟩,
  ⟨wLoads 2 8 0 [], wRec 2 8 0 [], by decide +kernel⟩,
  ⟨wLoads 3 64 0 [], wRec 3 64 0 [], by decide +kernel⟩,
  ⟨wLoads 3 96 0x80000000 [], wRec 3 96 0x80000000 [], by decide +kernel⟩,
  ⟨wLoads 4 32 0 [], wRec 4 32 0 [], by decide +kernel⟩,
  ⟨wLoads 5 32 0 [], wRec 5 32 0 [], 32, by decide +kernel⟩,
  ⟨wLoads 5 96 0x40000000 [], wRec 5 96 0x40000000 [], by decide +kernel⟩,
  ⟨wLoads 6 4100 0 [], wRec 6 4100 0 [], by decide +kernel⟩,
  ⟨wLoads 7 16 0 [0, 0], wRec 7 16 0 [0, 0], 0, by decide +kernel⟩,
  ⟨wLoads 8 32 0 [], wRec 8 32 0 [], by decide +kernel⟩,
  ⟨wLoads 9 4 127 [], wRec 9 4 127 [], by decide +kernel⟩,
  ⟨wLoads 10 16 0 [], wRec 10 16 0 [], by decide +kernel⟩⟩

set_option maxRecDepth 65536 in
theorem wit_ConfigEnds :
  (∃ (d : Dev) (r : CfgRec) (n : Nat), n ≠ 0) ∧
  (∃ (s : State) (c : Nat), Clocked pllMgmt s ∧ s.dev.cfgLoads = true ∧ s.dev.cfgNext = .stop c) ∧
  (∃ (s : State) (r : CfgRec), Clocked pllMgmt s ∧ s.dev.cfgLoads = true ∧ s.dev.cfgNext = .record r ∧ cfgType r.typ =
    false) :=
  ⟨⟨wDev, wRec 1 4 0 [], 2, by decide +kernel⟩,
  ⟨wBoot fun b => { b with step := 5, loading := true, pos := 16 }, 1, by decide +kernel⟩,
  ⟨wLoads 12 4 0 [], wRec 12 4 0 [], by decide +kernel⟩⟩

theorem wit_TimeBase :
  (∃ (s : State), Runs s ∧ s.dev.time.running = true) ∧
  (∃ (s : State), Runs s ∧ s.dev.time.running = true ∧ s.dev.time.slewRem = 0 ∧ s.dev.time.state ≠ .holdover ∧
    s.dev.reg Reg.TIME_FREQ_ADJ = 0#32) ∧
  (∃ (s : State), Runs s ∧ s.dev.time.running = true ∧ s.dev.time.slewRem ≠ 0 ∧ (tickPart s.dev.time.slewRem
    s.dev.rate).2 = 0) ∧
  (∃ (s : State) (v : Word), Answers .bar0 Reg.TIME_FREQ_ADJ s ∧ s.dev.time.slewRem = 0 ∧ s.dev.time.state ≠ .locked) ∧
  (∃ (s : State) (v : Word), Answers .bar0 Reg.TIME_SLEW s ∧ slewCut (v.toInt * nsUnit) s.dev.rate = false) ∧
  (∃ (s : State) (v : Word), Answers .bar0 Reg.TIME_SLEW s ∧ slewCut (v.toInt * nsUnit) s.dev.rate = true) ∧
  (∃ (s : State) (v : Word), Answers .bar0 Reg.TIME_CTRL s ∧ fld (s.dev.reg Reg.TIME_CTRL) 2 0 = fld v 2 0 ∧ bit
    (s.dev.reg Reg.TIME_CTRL) 4 = bit v 4 ∧ (s.dev.timeValid = true → s.dev.time.firstValid ≠ none)) ∧
  (∃ (s : State) (p : Path), Answers p Reg.TIME_NOW_NS s) :=
  ⟨⟨wTime fun t => { t with running := true }, by decide +kernel⟩,
  ⟨wTime fun t => { t with running := true }, by decide +kernel⟩,
  ⟨wTime fun t => { t with running := true, slewRem := 1 }, by decide +kernel⟩,
  ⟨wRun, 0, by decide +kernel⟩,
  ⟨wRun, 0, by decide +kernel⟩,
  ⟨wOn (wReg Reg.TIME_FREQ_ADJ 0x0A000000), 5, by decide +kernel⟩,
  ⟨wRun, 0, by decide +kernel⟩,
  ⟨wRun, .ring, by decide +kernel⟩⟩

theorem wit_TimeSources :
  (∃ (s : State) (off : Int) (v : Bool), Serves s ∧ s.dev.src ≠ 0 ∧ s.dev.src ≠ 3 ∧ off.natAbs ≤ 100 ∧
    s.dev.time.state = .acquiring ∧ s.dev.time.goodSamples < 15) ∧
  (∃ (s : State) (off : Int) (v : Bool), Serves s ∧ s.dev.src ≠ 0 ∧ s.dev.src ≠ 3 ∧ off.natAbs ≤ 100 ∧
    s.dev.time.state = .acquiring ∧ s.dev.time.goodSamples = 15) ∧
  (∃ (s : State) (off : Int) (v : Bool), Serves s ∧ s.dev.src = 3 ∧ s.dev.trellisSample off v = none) ∧
  (∃ (s : State) (off : Int) (v : Bool) (x : Int), Serves s ∧ s.dev.src = 3 ∧ s.dev.trellisSample off v = some (x,
    true) ∧ x.natAbs ≤ 25600 ∧ s.dev.time.state = .acquiring ∧ s.dev.time.goodSamples < 15) ∧
  (∃ (s : State), Serves s ∧ s.dev.time.state = .locked) ∧
  (∃ (s : State), Serves s ∧ s.dev.time.state = .holdover) ∧
  (∃ (s : State) (p : Path) (r : TxTs) (rest : List TxTs), Answers p (Reg.TIME_TXTS_DATA 0) s ∧ Tbl.get []
    s.dev.time.txts (fld (s.dev.reg Reg.TIME_TXTS_SEL) 6 0) = r :: rest) :=
  ⟨⟨wOn fun d => wReg Reg.TIME_CTRL 1 { d with time := { d.time with state := .acquiring } }, 100, true,
    by decide +kernel⟩,
  ⟨wOn fun d => wReg Reg.TIME_CTRL 1 { d with time := { d.time with state := .acquiring, goodSamples := 15 } },
    (-100), true, by decide +kernel⟩,
  ⟨wOn (wReg Reg.TIME_CTRL 3), 100, true, by decide +kernel⟩,
  ⟨wOn fun d => wReg Reg.TIME_CTRL 3
    { d with time := { d.time with state := .acquiring }, fab := { d.fab with timeLink := some (2, false), links := [(2, { ttInfo := 0xC0000000 })] } },
    100, true, 0, by decide +kernel⟩,
  ⟨wTime fun t => { t with state := .locked }, by decide +kernel⟩,
  ⟨wTime fun t => { t with state := .holdover }, by decide +kernel⟩,
  ⟨wTime fun t => { t with txts := [(0, [⟨0, 0, 0, {}⟩])] }, .bar0, ⟨0, 0, 0, {}⟩, [], by decide +kernel⟩⟩

theorem wit_PulseAndDay :
  (∃ (s : State) (rising : Bool) (w : Nat), Locked pllTime s ∧ bit (s.dev.reg Reg.TIME_PPS_CTRL) 0 = true ∧ rising ≠
    bit (s.dev.reg Reg.TIME_PPS_CTRL) 1 ∧ 100 ≤ w ∧ (∀ c, s.dev.time.ppsEdgeTsc = some c → c + 5 * 10 ^ 8 ≤
    s.dev.time.tsc) ∧ s.dev.time.state ≠ .locked) ∧
  (∃ (s : State), Clocked pllTime s ∧ bit (s.dev.reg Reg.TIME_PPS_CTRL) 0 = true) ∧
  (∃ (s : State) (p : Path), Answers p Reg.TIME_PPS_CAPT_NS s) ∧
  (∃ (s : State), Locked pllTime s ∧ s.dev.ppsDrives = true ∧ s.dev.ppsTime.sec ≠ s.dev.time.ppsOutSec) ∧
  (∃ (s : State), Locked pllTime s ∧ s.dev.ppsTime.sec = s.dev.time.ppsOutSec) ∧
  (∃ (s : State) (line : Bytes) (i : TodInfo) (c : Nat), Locked pllMgmt s ∧ todParse line = some i ∧
    s.dev.time.ppsEdgeTsc = some c ∧ c + 10 ^ 8 ≤ s.dev.time.tsc ∧ s.dev.time.tsc ≤ c + 9 * 10 ^ 8 ∧ s.dev.src ≠ 2) ∧
  (∃ (s : State) (line : Bytes), Locked pllMgmt s ∧ todParse line = none) ∧
  (∃ (s : State), Clocked pllMgmt s ∧ bit (s.dev.reg Reg.TIME_PPS_CTRL) 4 = true ∧ s.dev.ppsDrives = true) ∧
  (∃ (s : State) (old : Nat) (new : Nat), Clocked pllTime s ∧ s.dev.leapDue = true ∧ old = fld (s.dev.reg
    Reg.TIME_UTC) 15 0 ∧ new = unsignedOf 16 (signed 16 old + (if bit (s.dev.reg Reg.TIME_UTC) 17 then -1 else 1))) ∧
  (∃ (s : State) (off : BitVec 16), Serves s ∧ s.dev.src = 1) ∧
  (∃ (s : State) (off : BitVec 16) (neg : Bool), Serves s ∧ s.dev.src = 1) ∧
  (∃ (s : State) (off : BitVec 16) (a : Bool) (b : Bool), Serves s ∧ s.dev.src ≠ 1) :=
  ⟨⟨wOn (wReg Reg.TIME_PPS_CTRL 1), true, 100, by decide +kernel, by decide +kernel, by decide +kernel,
    by decide +kernel, by simp [wOn, wReg, wDev, Dev.setReg], by decide +kernel⟩,
  ⟨wOn (wReg Reg.TIME_PPS_CTRL 1), by decide +kernel⟩,
  ⟨wRun, .ring, by decide +kernel⟩,
  ⟨wOn fun d => wReg Reg.TIME_PPS_CTRL 4
    { d with time := { d.time with running := true, state := .locked, now := { sec := 5 } } }, by decide +kernel⟩,
  ⟨wOn fun d => wReg Reg.TIME_PPS_CTRL 4
    { d with time := { d.time with running := true, state := .locked, now := { sec := 5 }, ppsOutSec := 5 } },
    by decide +kernel⟩,
  ⟨wTime fun t => { t with ppsEdgeTsc := some 0, tsc := 10 ^ 8 }, todLineFor { sec := 5, taiUtc := 37, flags := 3 },
    { sec := 5, taiUtc := 37, flags := 3 }, 0, by decide +kernel⟩,
  ⟨wRun, [], by decide +kernel⟩,
  ⟨wOn fun d => wReg Reg.TIME_PPS_CTRL 0x14
    { d with time := { d.time with running := true, state := .locked, now := { sec := 5 } } }, by decide +kernel⟩,
  ⟨wOn fun d => wReg Reg.TIME_UTC 0x10025 { d with time := { d.time with now := { sec := 86437 } } }, 37, 38,
    by decide +kernel⟩,
  ⟨wOn (wReg Reg.TIME_CTRL 1), 37, by decide +kernel⟩,
  ⟨wOn (wReg Reg.TIME_CTRL 1), 37, false, by decide +kernel⟩,
  ⟨wOn (wReg Reg.TIME_CTRL 2), 37, false, false, by decide +kernel⟩⟩

theorem wit_SyncE :
  (∃ (s : State) (o : Fin 2), Runs s ∧ bit (s.dev.reg (syncECtrl o)) 16 = true ∧ bit (s.dev.reg (syncECtrl o)) 17 =
    false) ∧
  (∃ (s : State) (o : Fin 2), Runs s) ∧
  (∃ (s : State) (port : Fin 128) (o : Fin 2) (lane : Fin 128), Serves s) ∧
  (∃ (s : State) (port : Fin 128), Serves s) :=
  ⟨⟨wOn (wReg (syncECtrl 1) 0x10000), 1, by decide +kernel⟩,
  ⟨wTime fun t => { t with squelch := [(1, true)] }, 1, by decide +kernel⟩,
  ⟨wRun, 0, 0, 0, by decide +kernel⟩,
  ⟨wRun, 0, by decide +kernel⟩⟩

theorem wit_LaunchActions :
  (∃ (s : State) (x : BitVec 12), LaunchReady 0x01 x.toNat s) ∧
  (∃ (s : State) (x : BitVec 12), LaunchReady 0x02 x.toNat s) ∧
  (∃ (s : State) (x : BitVec 12), LaunchReady 0x03 x.toNat s) ∧
  (∃ (s : State) (x : BitVec 12), LaunchReady 0x04 x.toNat s) ∧
  (∃ (s : State) (x : BitVec 12), LaunchReady 0x05 x.toNat s) ∧
  (∃ (s : State) (x : BitVec 12), LaunchReady 0x06 x.toNat s) ∧
  (∃ (s : State) (x : BitVec 12), LaunchReady 0x07 x.toNat s) ∧
  (∃ (s : State) (x : BitVec 12), LaunchReady 0x08 x.toNat s) ∧
  (∃ (s : State) (x : BitVec 12), LaunchReady 0x09 x.toNat s) ∧
  (∃ (s : State) (x : BitVec 12), LaunchReady 0x0A x.toNat s) ∧
  (∃ (s : State) (x : BitVec 12), LaunchReady 0x0F x.toNat s) :=
  ⟨⟨wReady 1, 3, by decide +kernel⟩,
  ⟨wReady 2, 3, by decide +kernel⟩,
  ⟨wReady 3, 3, by decide +kernel⟩,
  ⟨wReady 4, 3, by decide +kernel⟩,
  ⟨wReady 5, 3, by decide +kernel⟩,
  ⟨wReady 6, 3, by decide +kernel⟩,
  ⟨wReady 7, 3, by decide +kernel⟩,
  ⟨wReady 8, 3, by decide +kernel⟩,
  ⟨wReady 9, 3, by decide +kernel⟩,
  ⟨wReady 10, 3, by decide +kernel⟩,
  ⟨wReady 15, 3, by decide +kernel⟩⟩

theorem wit_LaunchList :
  (∃ (s : State) (p : Path) (x : BitVec 12), Answers p Reg.LNCH_CMD s ∧ p ≠ .ring ∧ x.toNat < 3584 ∧ s.dev.armFails
    x.toNat (LEntry.ofBits s.dev.lnchStage) (p == .mgmt) = 0) ∧
  (∃ (s : State) (p : Path) (x : BitVec 12) (r : Nat), Answers p Reg.LNCH_CMD s ∧ p ≠ .ring ∧ r ≠ 0 ∧ s.dev.armFails
    x.toNat (LEntry.ofBits s.dev.lnchStage) (p == .mgmt) = r) ∧
  (∃ (s : State) (p : Path) (x : BitVec 12), Answers p Reg.LNCH_CMD s ∧ p ≠ .ring ∧ s.dev.cancelFails x.toNat (p ==
    .mgmt) = 0) ∧
  (∃ (s : State) (p : Path) (x : BitVec 12), Answers p Reg.LNCH_CMD s ∧ p ≠ .ring) ∧
  (∃ (s : State) (x : BitVec 12) (q : Nat) (e : SqEnt), Runs s ∧ s.dev.stopped [pllHost, pllTime] = none ∧
    s.dev.launchEnt 1 x.toNat = some (q, e)) ∧
  (∃ (s : State) (x : BitVec 12) (q : Nat) (e : SqEnt), Runs s ∧ s.dev.stopped [pllHost, pllTime] = none ∧
    s.dev.launchEnt 2 x.toNat = some (q, e)) ∧
  (∃ (s : State) (x : BitVec 12) (q : Nat) (e : SqEnt), Runs s ∧ s.dev.stopped [pllHost, pllTime] = none ∧
    s.dev.launchEnt 3 x.toNat = some (q, e)) ∧
  (∃ (s : State) (v : Word), Answers .bar0 Reg.LNCH_CTRL s) ∧
  (∃ (s : State) (t : DevTime), Clocked pllTime s ∧ s.dev.time.firstValid = some t) ∧
  (∃ (s : State) (i : Nat), Runs s ∧ bit (s.dev.reg Reg.LNCH_CTRL) 0 = true ∧ s.dev.clocked pllTime = true ∧
    s.dev.time.running = true ∧ (s.dev.firstEntry fun e => s.dev.eligible e && s.dev.fifoFull e) = none ∧
    (s.dev.firstEntry fun e => s.dev.eligible e && !s.dev.fifoFull e) = some i ∧ s.dev.unreceivable (s.dev.entry i) =
    false ∧ s.dev.time.now.nsTotal < (s.dev.entry i).instant) ∧
  (∃ (s : State) (t : DevTime), Answers .bar0 Reg.TIME_STEP_CMD s ∧ s.dev.stepTarget false = some t ∧
    s.dev.lnch.entries = []) ∧
  (∃ (s : State) (t : DevTime), Answers .bar0 Reg.TIME_STEP_CMD s ∧ s.dev.stepTarget true = some t ∧
    s.dev.lnch.entries = []) ∧
  (∃ (s : State), Answers .bar0 Reg.TIME_STEP_CMD s ∧ s.dev.stepTarget false = none ∧ s.dev.lnch.entries = []) :=
  ⟨⟨wOn (wReg (Reg.LNCH_STAGE 5) 0x0F00), .bar0, 3071, by decide +kernel⟩,
  ⟨wRun, .bar0, 3072, 2, by decide +kernel⟩,
  ⟨wEntry 3 { kind := 15, st := .armed }, .bar0, 3, by decide +kernel⟩,
  ⟨wRun, .bar0, 4095, by decide +kernel⟩,
  ⟨wRing 2 (wLnch 1 7), 7, 5, wLnch 1 7, by decide +kernel⟩,
  ⟨wRing 2 (wLnch 2 7), 7, 5, wLnch 2 7, by decide +kernel⟩,
  ⟨wRing 2 (wLnch 3 7), 7, 5, wLnch 3 7, by decide +kernel⟩,
  ⟨wRun, 0, by decide +kernel⟩,
  ⟨wTime fun t => { t with firstValid := some {} }, {}, by decide +kernel⟩,
  ⟨wOn fun d => wReg Reg.LNCH_CTRL 1 ({ d with time := { d.time with running := true } }.setEntry 3
    { kind := 15, st := .armed, ns := 5 }), 3, by decide +kernel⟩,
  ⟨wRun, {}, by decide +kernel⟩,
  ⟨wRun, {}, by decide +kernel⟩,
  ⟨wOn (wReg Reg.TIME_CTRL 3), by decide +kernel⟩⟩

theorem wit_DistributedLaunch :
  (∃ (s : State) (m : Nat × Bytes) (d1 : Dev) (x : Nat) (i : Nat), Clocked pllFabric s ∧ s.dev.takeInbox 1 none =
    (some m, d1) ∧ x = unbe (Machine.slice m.2 0 32) ∧ i = x % 2 ^ 16 ∧ d1.fromManager m.1 = true ∧ (d1.entry i).st ≠
    .held ∧ d1.armRefused i = 0) ∧
  (∃ (s : State) (m : Nat × Bytes) (d1 : Dev) (x : Nat) (i : Nat) (r : Nat), Clocked pllFabric s ∧ s.dev.takeInbox 1
    none = (some m, d1) ∧ x = unbe (Machine.slice m.2 0 32) ∧ i = x % 2 ^ 16 ∧ d1.fromManager m.1 = true ∧ (d1.entry
    i).st ≠ .held ∧ d1.armRefused i = r ∧ r ≠ 0) ∧
  (∃ (s : State) (m : Nat × Bytes) (d1 : Dev), Clocked pllFabric s ∧ s.dev.takeInbox 1 none = (some m, d1) ∧
    d1.fromManager m.1 = false) ∧
  (∃ (s : State), Clocked pllFabric s) ∧
  (∃ (s : State) (m : Nat × Bytes) (d1 : Dev) (x : Nat), Clocked pllFabric s ∧ s.dev.takeInbox 2 none = (some m, d1) ∧
    (m.2.getD 1 0).toNat ≠ 1 ∧ x = unbe (Machine.slice m.2 2 2) ∧ d1.awaits x = true) ∧
  (∃ (s : State) (n : Fin 256), Clocked pllFabric s ∧ (s.dev.link n).bConfirm = true ∧ (s.dev.link n).bRole = 2 ∧
    s.dev.fromManager (s.dev.link n).nbrDev = true ∧ (s.dev.link n).bClaim = s.dev.fab.obeyed) ∧
  (∃ (s : State) (x : BitVec 12), Clocked pllTime s ∧ 3584 ≤ x.toNat ∧ (s.dev.entry x.toNat).st = .held ∧ (s.dev.entry
    x.toNat).origin = 2 ∧ (s.dev.entry x.toNat).instant ≤ s.dev.time.now.nsTotal + 20000) :=
  ⟨⟨wOn fun d => wReg Reg.TIME_CTRL 0x13
    { d with fab := { d.fab with obeyed := 41, inbox := [(1, 9, be 32 (15 * 2 ^ 168 + 3584))] } }, (9, be 32 (15 * 2 ^
    168 + 3584)), (wOn fun d => wReg Reg.TIME_CTRL 0x13 { d with fab := { d.fab with obeyed := 41 } }).dev, 15 * 2 ^
    168 + 3584, 3584, by decide +kernel, takeInbox_one none rfl rfl, by decide +kernel, by decide +kernel,
    by decide +kernel, by decide +kernel, by decide +kernel⟩,
  ⟨wOn fun d => { d with fab := { d.fab with obeyed := 41, inbox := [(1, 9, be 32 (15 * 2 ^ 168 + 3584))] } }, (9, be
    32 (15 * 2 ^ 168 + 3584)), (wFab fun f => { f with obeyed := 41 }).dev, 15 * 2 ^ 168 + 3584, 3584, 1,
    by decide +kernel, takeInbox_one none rfl rfl, by decide +kernel, by decide +kernel, by decide +kernel,
    by decide +kernel, by decide +kernel, by decide +kernel⟩,
  ⟨wOn fun d => { d with fab := { d.fab with inbox := [(1, 9, be 32 (15 * 2 ^ 168 + 3584))] } }, (9, be 32 (15 * 2 ^
    168 + 3584)), wDev, by decide +kernel, takeInbox_one none rfl rfl, by decide +kernel⟩,
  ⟨wRun, by decide +kernel⟩,
  ⟨wOn fun d =>
    { d with fab := { d.fab with inbox := [(2, 9, answerBytes true false 3600 0)], roleOn := true, role := 2 } }.setEntry
    3600 { st := .held }, (9, answerBytes true false 3600 0), (wOn fun d =>
    { d with fab := { d.fab with roleOn := true, role := 2 } }.setEntry 3600 { st := .held }).dev, 3600,
    by decide +kernel, takeInbox_one none rfl rfl, by decide +kernel, by decide +kernel, by decide +kernel⟩,
  ⟨wOn fun d =>
    { d with fab := { d.fab with obeyed := 33, links := [(2, { nbrDev := 1, beacon := be 2 33 ++ [128, 4] ++ List.replicate 4 0 ++ be 4 1 })] } }.setEntry
    3584 { st := .held, origin := 2 }, 2, by decide +kernel⟩,
  ⟨wOn fun d => d.setEntry 3584 { kind := 15, st := .held, origin := 2 }, 3584, by decide +kernel⟩⟩

theorem wit_PortLink :
  (∃ (s : State) (p : Fin 128), Answers .bar0 (Reg.PG_PORT_CTRL p) s ∧ bit (s.dev.reg (Reg.PG_PORT_CTRL p)) 0 = false
    ∧ s.dev.refuseReason p = 0) ∧
  (∃ (s : State) (p : Fin 128) (r : Nat), Answers .bar0 (Reg.PG_PORT_CTRL p) s ∧ bit (s.dev.reg (Reg.PG_PORT_CTRL p))
    0 = false ∧ s.dev.refuseReason p = r ∧ r ≠ 0) ∧
  (∃ (s : State) (p : Fin 128), Answers .bar0 (Reg.PG_PORT_CTRL p) s ∧ bit (s.dev.reg (Reg.PG_PORT_CTRL p)) 0 = true ∧
    (s.dev.port p).st ≠ .up ∧ (s.dev.port p).st ≠ .holdoff ∧ (s.dev.port p).st ≠ .down) ∧
  (∃ (s : State) (p : Fin 128), Clocked pllLine s ∧ ((s.dev.port p).st = .signalWait ∨ (s.dev.port p).st = .down) ∧
    ((s.dev.port p).flushing || !s.dev.vint.started) = true) ∧
  (∃ (s : State) (p : Fin 128), Clocked pllLine s ∧ ((s.dev.port p).st = .signalWait ∨ (s.dev.port p).st = .down) ∧
    ((s.dev.port p).flushing || !s.dev.vint.started) = false) ∧
  (∃ (s : State) (p : Fin 128) (pg : BasePage) (ack : Bool), Clocked pllLine s ∧ (s.dev.port p).st = .an ∧ pageFits pg
    ack = true) ∧
  (∃ (s : State) (p : Fin 128), Clocked pllLine s ∧ (s.dev.port p).st = .an) ∧
  (∃ (s : State) (p : Fin 128) (pg : BasePage) (ack : Bool), Clocked pllLine s ∧ (s.dev.port p).st = .an ∧ pageFits pg
    ack = false) ∧
  (∃ (s : State) (p : Fin 128) (sw : BitVec 4), Clocked pllLine s ∧ s.dev.portLaneOut p = false ∧ s.dev.polarityOk p
    sw = true ∧ (s.dev.port p).st = .lockWait) ∧
  (∃ (s : State) (p : Fin 128), Clocked pllLine s ∧ (s.dev.port p).st = .lockWait) ∧
  (∃ (s : State) (p : Fin 128), Clocked pllLine s ∧ ((s.dev.port p).st = .debounce ∨ (s.dev.port p).st = .holdoff)) ∧
  (∃ (s : State) (p : Fin 128), Clocked pllLine s ∧ (s.dev.port p).st = .up ∧ (s.dev.port p).txFifo = []) ∧
  (∃ (s : State) (p : Fin 128), Clocked pllLine s ∧ (s.dev.port p).st = .up ∧ (s.dev.port p).txFifo ≠ []) ∧
  (∃ (s : State) (p : Fin 128), Clocked pllLine s ∧ (s.dev.port p).st = .holdoff) ∧
  (∃ (s : State) (p : Fin 128), Clocked pllLine s ∧ s.dev.portHas p = false) ∧
  (∃ (s : State) (p : Fin 128), Clocked pllLine s ∧ s.dev.portHas p = true) :=
  ⟨⟨wOn (wReg (Reg.PG_PORT_CFG 0) 1), 0, by decide +kernel⟩,
  ⟨wOn (wReg (Reg.PG_PORT_CFG 0) 7), 0, 1, by decide +kernel⟩,
  ⟨wOn fun d => wReg (Reg.PG_PORT_CTRL 0) 1 (d.setPort 0 { st := .debounce }), 0, by decide +kernel⟩,
  ⟨wPort 0 { st := .signalWait, flushing := true }, 0, by decide +kernel⟩,
  ⟨wPort 0 { st := .signalWait }, 0, by decide +kernel⟩,
  ⟨wPort 0 { st := .an }, 0, ⟨true,true,true,false⟩, false, by decide +kernel⟩,
  ⟨wPort 0 { st := .an }, 0, by decide +kernel⟩,
  ⟨wPort 0 { st := .an }, 0, ⟨false,false,true,false⟩, true, by decide +kernel⟩,
  ⟨wPort 0 { st := .lockWait }, 0, 0, by decide +kernel⟩,
  ⟨wPort 127 { st := .lockWait }, 127, by decide +kernel⟩,
  ⟨wPort 0 { st := .holdoff }, 0, by decide +kernel⟩,
  ⟨wPort 0 { st := .up }, 0, by decide +kernel⟩,
  ⟨wPort 0 { st := .up, txFifo := [{}] }, 0, by decide +kernel⟩,
  ⟨wPort 0 { st := .holdoff }, 0, by decide +kernel⟩,
  ⟨wRun, 0, by decide +kernel⟩,
  ⟨wOn fun d => d.setNoms 0 [{ outPort := some 0 }], 0, by decide +kernel⟩⟩

theorem wit_FlowControl :
  (∃ (s : State) (p : Fin 128) (frame : Bytes), Locked pllLine s ∧ (s.dev.port p).st = .up ∧ isPause frame = true ∧
    (s.dev.port p).fcMode = 1 ∧ (∀ n < 8, (s.dev.port p).wdog.getD n false = false)) ∧
  (∃ (s : State) (p : Fin 128) (n : Fin 8), Clocked pllLine s) ∧
  (∃ (s : State) (p : Fin 128) (n : Fin 8), Clocked pllLine s ∧ (s.dev.port p).paused.getD n false = true ∧
    (s.dev.port p).wdog.getD n false = false ∧ fld (s.dev.reg (Reg.PG_FC_WDOG p)) 15 0 ≠ 0) ∧
  (∃ (s : State) (p : Fin 128) (n : Fin 8), Clocked pllLine s) ∧
  (∃ (s : State) (p : Fin 128) (n : Nat) (xo : Bool) (rest : List (Nat × Bool)), Clocked pllLine s ∧ (s.dev.port p).st
    = .up ∧ (s.dev.port p).fcOwed = (n, xo) :: rest ∧ fld (s.dev.reg (Reg.PG_FC_THR p n)) 31 16 ≠ 0) ∧
  (∃ (s : State) (p : Fin 128) (n : Nat) (xo : Bool) (rest : List (Nat × Bool)), Clocked pllLine s ∧ (s.dev.port p).st
    = .up ∧ (s.dev.port p).fcOwed = (n, xo) :: rest ∧ fld (s.dev.reg (Reg.PG_FC_THR p n)) 31 16 = 0) ∧
  (∃ (s : State) (p : Fin 128) (n : Fin 8), Clocked pllLine s ∧ (s.dev.port p).xoff.getD n false = true ∧ fld
    (s.dev.reg (Reg.PG_FC_THR p n)) 31 16 ≠ 0 ∧ (fcClass (s.dev.port p).fcMode (s.dev.reg (Reg.PG_FC_CFG p)) n).isSome
    = true ∧ fld (s.dev.reg (Reg.PG_FC_CFG p)) 15 0 ≠ 0 ∧ 256 * fld (s.dev.reg (Reg.PG_FC_THR p n)) 15 0 < fcOcc
    (s.dev.port p).fcMode (s.dev.port p).occ n) :=
  ⟨⟨wPort 127 { st := .up, fcMode := 1 }, 127, List.replicate 12 0#8 ++ [0x88#8, 0x08#8, 0x00#8, 0x01#8] ++
    List.replicate 44 0#8, by decide +kernel⟩,
  ⟨wRun, 0, 0, by decide +kernel⟩,
  ⟨wOn fun d => wReg (Reg.PG_FC_WDOG 0) 1 (d.setPort 0 { paused := List.replicate 8 true }), 0, 7, by decide +kernel⟩,
  ⟨wRun, 0, 0, by decide +kernel⟩,
  ⟨wOn fun d => wReg (Reg.PG_FC_THR 0 7) 0x10000 (d.setPort 0 { st := .up, fcOwed := [(7, true)] }), 0, 7, true, [],
    by decide +kernel⟩,
  ⟨wPort 0 { st := .up, fcOwed := [(7, true)] }, 0, 7, true, [], by decide +kernel⟩,
  ⟨wOn fun d => wReg (Reg.PG_FC_THR 0 7) 0x10000 (wReg (Reg.PG_FC_CFG 0) 0x80000001 (d.setPort 0
    { fcMode := 2, xoff := List.replicate 8 true, occ := List.replicate 8 (2 ^ 24) })), 0, 7, by decide +kernel⟩⟩

theorem wit_LineFrames :
  (∃ (s : State) (p : Fin 128) (frame : Bytes) (a : Nat) (b : Nat) (c : Nat), Locked pllLine s ∧ (s.dev.port p).st =
    .up ∧ s.dev.polarityOk p (s.dev.port p).swapped = true ∧ frame.length + 4 < 64) ∧
  (∃ (s : State) (p : Fin 128) (frame : Bytes) (a : Nat) (b : Nat) (c : Nat), Locked pllLine s ∧ (s.dev.port p).st =
    .up ∧ s.dev.polarityOk p (s.dev.port p).swapped = true ∧ 64 ≤ frame.length + 4 ∧ s.dev.maxFrame p < frame.length +
    4) ∧
  (∃ (s : State) (p : Fin 128) (frame : Bytes) (a : Nat) (b : Nat) (c : Nat), Locked pllLine s ∧ (s.dev.port p).st =
    .up ∧ s.dev.polarityOk p (s.dev.port p).swapped = true ∧ 64 ≤ frame.length + 4 ∧ frame.length + 4 ≤ s.dev.maxFrame
    p) ∧
  (∃ (s : State) (p : Fin 128) (frame : Bytes) (n : Nat) (a : Nat) (b : Nat) (c : Nat), Locked pllLine s ∧ (s.dev.port
    p).st = .up ∧ s.dev.polarityOk p (s.dev.port p).swapped = true ∧ 64 ≤ frame.length + 4 ∧ frame.length + 4 ≤
    s.dev.maxFrame p ∧ isPause frame = false ∧ isPfc frame = false ∧ s.dev.spr.cellar = false ∧ s.dev.holder (p / 16)
    = some n) ∧
  (∃ (s : State) (p : Fin 128) (frame : Bytes) (n : Nat) (a : Nat) (b : Nat) (c : Nat), Locked pllLine s ∧ (s.dev.port
    p).st = .up ∧ s.dev.polarityOk p (s.dev.port p).swapped = true ∧ (s.dev.port p).rxOpen = none ∧ s.dev.spr.cellar =
    false ∧ isPause frame = false ∧ isPfc frame = false ∧ s.dev.holder (p / 16) = some n) ∧
  (∃ (s : State) (p : Fin 128) (frame : Bytes), Locked pllLine s ∧ (s.dev.port p).st = .up ∧ s.dev.polarityOk p
    (s.dev.port p).swapped = true ∧ s.dev.spr.cellar = true ∧ 64 ≤ frame.length + 4 ∧ frame.length + 4 ≤
    s.dev.maxFrame p ∧ isPause frame = false ∧ isPfc frame = false) ∧
  (∃ (s : State) (p : Fin 128) (k : Pkt), Clocked pllLine s ∧ (s.dev.port p).st = .up ∧ (s.dev.port p).nextTx = some
    k) ∧
  (∃ (s : State) (p : Fin 128) (k : Pkt), Clocked pllLine s ∧ (s.dev.port p).st = .up ∧ (s.dev.port p).nextTx = some k
    ∧ k.ptp = 0 ∧ (k.frame.getD 0 0).getLsbD 0 = false ∧ k.stomp = false ∧ s.dev.spr.cellar = false) :=
  ⟨⟨wPort 0 { st := .up }, 0, List.replicate 59 0x11#8, 1, 2, 3, by decide +kernel⟩,
  ⟨wPort 0 { st := .up }, 0, List.replicate 61 0x11#8, 1, 2, 3, by decide +kernel⟩,
  ⟨wPort 0 { st := .up }, 0, wFrame, 1, 2, 3, by decide +kernel⟩,
  ⟨wPort 0 { st := .up }, 0, wFrame, 0, 1, 2, 3, by decide +kernel⟩,
  ⟨wPort 0 { st := .up }, 0, wFrame, 0, 1, 2, 3, by decide +kernel⟩,
  ⟨wOn fun d => { d with spr := { d.spr with cellar := true } }.setPort 0 { st := .up }, 0, wFrame, by decide +kernel⟩,
  ⟨wPort 0 { st := .up, txFifo := [{}] }, 0, {}, by decide +kernel⟩,
  ⟨wPort 0 { st := .up, txFifo := [{}] }, 0, {}, by decide +kernel⟩⟩

theorem wit_SlicePipeline :
  (∃ (s : State) (n : Fin 9) (bad : List (Fin 512)) (k : Pkt) (rest : List Pkt), Clocked pllF s ∧ (s.dev.slice n).runs
    = true ∧ (s.dev.slice n).ingress = k :: rest ∧ k.windowReady = true ∧ (s.dev.slice n).order.length < 512 ∧ k.pass
    = 0) ∧
  (∃ (s : State) (n : Fin 9) (bad : List (Fin 512)) (k : Pkt) (rest : List Pkt), Clocked pllF s ∧ (s.dev.slice n).runs
    = true ∧ (s.dev.slice n).ingress = k :: rest ∧ k.windowReady = true ∧ 512 ≤ (s.dev.slice n).order.length) ∧
  (∃ (s : State) (n : Fin 9) (bad : List (Fin 512)), Clocked pllF s ∧ (s.dev.slice n).ingress = []) ∧
  (∃ (s : State) (n : Fin 9) (e : Fin 512), Clocked pllF s ∧ (s.dev.slice n).pressReload.contains e.val = true) ∧
  (∃ (s : State) (n : Fin 9) (ecc : DramEcc), Clocked pllF s ∧ s.dev.lookupOut n = none) ∧
  (∃ (s : State) (n : Fin 9) (ecc : DramEcc) (l : Lookup), Clocked pllF s ∧ s.dev.lookupOut n = some l ∧
    s.dev.writeWaits rTable l.line = none ∧ s.dev.lookupCopy l = none) ∧
  (∃ (s : State) (n : Fin 9) (ecc : DramEcc) (l : Lookup) (k : Nat), Clocked pllF s ∧ s.dev.lookupOut n = some l ∧
    s.dev.writeWaits rTable l.line = none ∧ s.dev.lookupCopy l = some k) ∧
  (∃ (s : State) (n : Fin 9) (line : Nat), Clocked pllF s ∧ (s.dev.slice n).badLines.contains line = true ∧
    s.dev.lineAlive rTable line = true) ∧
  (∃ (s : State) (n : Fin 9) (e : Fin 32768), Clocked pllF s ∧ (s.dev.slice n).assocReload.contains e.val = true) ∧
  (∃ (s : State) (n : Fin 9) (f : ResolveFault) (k : Pkt), Clocked pllF s ∧ (s.dev.slice n).runs = true ∧ (s.dev.slice
    n).nextStage = some k ∧ (s.dev.runStages n f 17 k).1.waits = false) ∧
  (∃ (s : State) (n : Fin 9) (f : ResolveFault) (k : Pkt), Clocked pllF s ∧ (s.dev.slice n).runs = true ∧ (s.dev.slice
    n).nextStage = some k ∧ (s.dev.runStages n f 17 k).1.waits = true) ∧
  (∃ (s : State) (n : Fin 9) (k : Pkt), Clocked pllF s ∧ (s.dev.slice n).runs = true ∧ s.dev.dukLost = false ∧
    s.dev.spr.cellar = false ∧ chanRoom (s.dev.slice n).up = true ∧ handoffNext (s.dev.slice n).order [] = some k ∧
    k.bad = false) ∧
  (∃ (s : State) (n : Fin 9) (k : Pkt) (rest : List Pkt), Clocked pllF s ∧ (s.dev.slice n).egress = k :: rest ∧
    k.headOnly = false) ∧
  (∃ (d : Dev) (n : Nat) (k : Pkt), (d.slice n).runs = true ∧ d.isLive k.recVint = false) :=
  ⟨⟨wSlice 0 fun x => { x with ingress := [{}] }, 0, [], {}, [], by decide +kernel⟩,
  ⟨wSlice 0 fun x => { x with ingress := [{}], order := List.replicate 512 {} }, 0, [], {}, [], by decide +kernel⟩,
  ⟨wRun, 0, [], by decide +kernel⟩,
  ⟨wSlice 0 fun x => { x with pressReload := [511] }, 0, 511, by decide +kernel⟩,
  ⟨wSlice 0 fun x => { x with order := [{ lookups := [{ stage := 0, line := 0 }] }] }, 0, .symbols 0,
    by decide +kernel⟩,
  ⟨wOn fun d => ({ d with mc := [(0, { st := .lost }), (4, { st := .lost })] }).modSlice 0 fun x =>
    { x with order := [{ lookups := [wLook] }] }, 0, .symbols 0, wLook, by decide +kernel⟩,
  ⟨wOn fun d => (wDram d).modSlice 0 fun x => { x with order := [{ lookups := [wLook] }] }, 0, .symbols 0, wLook, 0,
    by decide +kernel⟩,
  ⟨wSlice 0 fun x => { x with badLines := [9] }, 0, 9, by decide +kernel⟩,
  ⟨wSlice 0 fun x => { x with assocReload := [32767] }, 0, 32767, by decide +kernel⟩,
  ⟨wSlice 0 fun x => { x with order := [{ stage := 16 }] }, 0, {}, { stage := 16 }, by decide +kernel⟩,
  ⟨wSlice 0 fun x => { x with order := [wAsk] }, 0, {}, wAsk, by decide +kernel⟩,
  ⟨wSlice 0 fun x => { x with order := [{ resolved := true }] }, 0, { resolved := true }, by decide +kernel⟩,
  ⟨wSlice 0 fun x => { x with egress := [{}] }, 0, {}, [], by decide +kernel⟩,
  ⟨wDev, 0, { bus := List.replicate 64 0xFF#8 }, by decide +kernel⟩⟩

theorem wit_DukiderRows :
  (∃ (s : State) (t : Bool), Clocked (dukInto t) s ∧ s.dev.dukRuns = true ∧ (s.dev.duk t).failing = none) ∧
  (∃ (s : State) (t : Bool) (crc : BitVec 8), Clocked (dukInto t) s ∧ s.dev.dukRuns = true ∧ (s.dev.duk t).failing =
    none ∧ crc ≠ 0xFF#8) ∧
  (∃ (s : State) (t : Bool) (c : Nat) (crc : BitVec 8), Clocked (dukInto t) s ∧ s.dev.dukRuns = true ∧ (s.dev.duk
    t).failing = some c ∧ crc ≠ 0xFF#8 ∧ (s.dev.duk t).replays < 16) ∧
  (∃ (s : State) (t : Bool) (c : Nat) (crc : BitVec 8), Clocked (dukInto t) s ∧ s.dev.dukRuns = true ∧ (s.dev.duk
    t).failing = some c ∧ crc ≠ 0xFF#8 ∧ 16 ≤ (s.dev.duk t).replays) ∧
  (∃ (s : State) (t : Bool) (c : Nat) (x : List (Nat × Nat)), Clocked (dukInto t) s ∧ s.dev.dukRuns = true ∧
    (s.dev.duk t).failing = some c ∧ 0 < (s.dev.duk t).replays ∧ ((s.dev.duk t).kept.find? fun p => p.1 = c) = some
    (c, x)) ∧
  (∃ (s : State) (t : Bool) (c : Nat), Runs s ∧ s.dev.dukRuns = true ∧ (s.dev.duk t).failing = some c ∧ (s.dev.duk
    t).replays < 16) ∧
  (∃ (s : State) (c : DukCause), Runs s ∧ s.dev.dukLost = false ∧ s.dev.vint.started = false) ∧
  (∃ (s : State) (c : DukCause), Runs s ∧ s.dev.dukLost = false ∧ s.dev.vint.started = true) ∧
  (∃ (s : State) (x : Fin 26) (inst : Nat) (back : Bool) (lost : Nat), Runs s ∧ x.val ≠ 2 ∧ x.val ≠ 3 ∧ x.val ≠ 6 ∧
    x.val ≠ 21) ∧
  (∃ (s : State) (g : Fin 8) (n : Nat) (lost : Nat) (r : Nat × List Pkt × List Pkt), Runs s ∧ s.dev.holder g = some n
    ∧ r = fifoLoss wordsOf 64 (s.dev.slice n).ingress) :=
  ⟨⟨wRun, false, by decide +kernel⟩,
  ⟨wRun, false, 0, by decide +kernel⟩,
  ⟨wOn fun d => d.setDuk false { failing := some 3 }, false, 3, 0, by decide +kernel⟩,
  ⟨wOn fun d => d.setDuk false { failing := some 3, replays := 16 }, false, 3, 0, by decide +kernel⟩,
  ⟨wOn fun d => d.setDuk false { failing := some 3, replays := 1, kept := [(3, [(0, 1)])] }, false, 3, [(0,1)],
    by decide +kernel⟩,
  ⟨wOn fun d => { d with dukUp := { failing := some 3, replays := 15 } }, true, 3, by decide +kernel⟩,
  ⟨wOn fun d => { d with vint := {} }, .replays, by decide +kernel⟩,
  ⟨wRun, .replays, by decide +kernel⟩,
  ⟨wRun, 0, 0, false, 0, by decide +kernel⟩,
  ⟨wOn fun d => d.modSlice 0 fun x => { x with st := .active, pg := some 0 }, 0, 0, 5, _, by decide +kernel,
    by decide +kernel, rfl⟩⟩

theorem wit_SliceCommands :
  (∃ (s : State) (n : Fin 9) (x : BitVec 10) (w : BitVec 256), Answers .bar0 (viaSlice Reg.SL_PRS_CMD n) s ∧ x.toNat <
    512 ∧ s.dev.stage256 Reg.SL_PRS_STAGE = w ∧ pressBad w = false ∧ seesSame s.dev.liveVints pressVints pressValid
    (Tbl.get 0#256 s.dev.prog.press x.toNat) w = true) ∧
  (∃ (s : State) (n : Fin 9) (x : BitVec 10), Answers .bar0 (viaSlice Reg.SL_PRS_CMD n) s ∧ 512 ≤ x.toNat) ∧
  (∃ (s : State) (n : Fin 9) (x : BitVec 10), Answers .bar0 (viaSlice Reg.SL_PRS_CMD n) s ∧ x.toNat < 512) ∧
  (∃ (s : State) (n : Fin 9) (t : BitVec 2) (x : BitVec 12), Answers .bar0 (viaSlice Reg.SL_MS_CMD n) s ∧ msBadIndex
    t.toNat x.toNat = false) ∧
  (∃ (s : State) (n : Fin 9) (t : BitVec 2) (x : BitVec 12), Answers .bar0 (viaSlice Reg.SL_MS_CMD n) s ∧ msBadIndex
    t.toNat x.toNat = true) ∧
  (∃ (s : State) (n : Fin 9) (x : BitVec 12), Answers .bar0 (viaSlice Reg.SL_MS_CMD n) s ∧ x.toNat < 32) ∧
  (∃ (s : State) (n : Fin 9) (x : BitVec 12), Answers .bar0 (viaSlice Reg.SL_MS_CMD n) s ∧ x.toNat < 64) ∧
  (∃ (s : State) (n : Fin 9) (x : BitVec 12), Answers .bar0 (viaSlice Reg.SL_MS_CMD n) s ∧ 0 < x.toNat ∧ x.toNat <
    256) ∧
  (∃ (s : State) (n : Fin 9) (x : BitVec 12), Answers .bar0 (viaSlice Reg.SL_MS_CMD n) s) ∧
  (∃ (s : State) (n : Fin 9) (x : BitVec 15) (a : AssocEntry), Answers .bar0 (viaSlice Reg.SL_AS_CMD n) s ∧
    s.dev.stagedAssoc = a ∧ (a.valid = true → a.key &&& a.mask = a.key) ∧ assocSame s.dev.liveVints (Tbl.get {}
    s.dev.prog.assoc x.toNat) a = true) ∧
  (∃ (s : State) (n : Fin 9) (x : BitVec 15), Answers .bar0 (viaSlice Reg.SL_AS_CMD n) s) ∧
  (∃ (s : State) (n : Fin 9) (x : BitVec 15) (a : AssocEntry), Answers .bar0 (viaSlice Reg.SL_AS_CMD n) s ∧ a =
    Tbl.get {} s.dev.prog.assoc x.toNat) ∧
  (∃ (s : State) (n : Fin 9), Answers .bar0 (viaSlice Reg.SL_AS_CMD n) s ∧ (s.dev.slice n).serving = true ∧ fld
    (s.dev.reg Reg.SL_AS_SRCH) 24 17 ≠ 0 ∧ fld (s.dev.reg Reg.SL_AS_SRCH) 31 25 + fld (s.dev.reg Reg.SL_AS_SRCH) 24 17
    ≤ 128) ∧
  (∃ (s : State) (n : Fin 9) (c : SearchCtx), Answers .bar0 (viaSlice Reg.SL_AS_CMD n) s ∧ (s.dev.slice n).serving =
    true ∧ (s.dev.slice n).srch = some c) ∧
  (∃ (s : State) (n : Fin 9), Answers .bar0 (viaSlice Reg.SL_AS_CMD n) s ∧ (s.dev.slice n).srch = none) :=
  ⟨⟨wRun, 0, 0, 0, by decide +kernel⟩,
  ⟨wRun, 0, 512, by decide +kernel⟩,
  ⟨wRun, 0, 0, by decide +kernel⟩,
  ⟨wRun, 0, 0, 0, by decide +kernel⟩,
  ⟨wRun, 0, 2, 0, by decide +kernel⟩,
  ⟨wRun, 0, 0, by decide +kernel⟩,
  ⟨wRun, 0, 0, by decide +kernel⟩,
  ⟨wRun, 0, 255, by decide +kernel⟩,
  ⟨wRun, 0, 0, by decide +kernel⟩,
  ⟨wRun, 0, 32767, {}, by decide +kernel⟩,
  ⟨wRun, 0, 0, by decide +kernel⟩,
  ⟨wRun, 0, 32767, {}, by decide +kernel⟩,
  ⟨wOn (wReg Reg.SL_AS_SRCH (put 128 17)), 0, by decide +kernel⟩,
  ⟨wSlice 0 fun x => { x with srch := some wSrch }, 0, wSrch, by decide +kernel⟩,
  ⟨wRun, 0, by decide +kernel⟩⟩

theorem wit_VintageRows :
  (∃ (s : State) (o : Nat), Clocked pllT s ∧ s.dev.vint.old = some o ∧ s.dev.alone = true ∧ s.dev.inflight o = 0) ∧
  (∃ (s : State) (o : Nat), Clocked pllT s ∧ s.dev.vint.old = some o ∧ fld (s.dev.reg Reg.SL_VNT_CTRL) 31 16 ≠ 0 ∧
    s.dev.vint.oldSince + fld (s.dev.reg Reg.SL_VNT_CTRL) 31 16 * 10 ^ 6 ≤ s.dev.time.tsc) ∧
  (∃ (s : State), Clocked pllT s ∧ s.dev.time.tsc < s.dev.vint.oldSince + fld (s.dev.reg Reg.SL_VNT_CTRL) 31 16 * 10 ^
    6) ∧
  (∃ (s : State) (o : Nat), Clocked pllFabric s ∧ s.dev.vint.old = some o ∧ s.dev.isManager = true ∧ s.dev.allZero =
    true ∧ s.dev.inflight o = 0) ∧
  (∃ (s : State) (n : Fin 256) (o : Nat), Clocked pllFabric s ∧ (s.dev.link n).bReclaim = some o ∧ (s.dev.link
    n).bRole = 2 ∧ s.dev.fromManager (s.dev.link n).nbrDev = true ∧ (s.dev.link n).bClaim = s.dev.fab.obeyed ∧
    s.dev.vint.old = some o) ∧
  (∃ (s : State) (it : LearnItem) (rest : List LearnItem) (dsc : BitVec 256), Clocked pllT s ∧ s.dev.engServes 1 =
    true ∧ s.dev.vint.learn = it :: rest ∧ dsc = Tbl.get 0#256 s.dev.prog.descs it.desc ∧ isHash dsc = true ∧ 2 +
    it.key.length + it.data.length ≤ descEsize dsc ∧ s.dev.spr.cellar = false ∧ hashFind (Dev.engRead
    { s.dev with vint := { s.dev.vint with learn := rest } } dsc) dsc it.key = []) ∧
  (∃ (s : State), Clocked pllT s ∧ s.dev.engServes 1 = false) ∧
  (∃ (s : State), Clocked pllT s ∧ s.dev.vint.sweep = [] ∧ s.dev.spr.cellar = false ∧ s.dev.maxAge ≠ 0) ∧
  (∃ (s : State), Clocked pllT s ∧ s.dev.vint.sweep ≠ [] ∧ s.dev.spr.cellar = false) ∧
  (∃ (s : State), Clocked pllT s ∧ s.dev.engServes 2 = true ∧ s.dev.vint.sweep ≠ [] ∧ s.dev.spr.cellar = false ∧
    s.dev.maxAge ≠ 0) ∧
  (∃ (s : State), Clocked pllT s ∧ s.dev.engServes 2 = true ∧ s.dev.vint.sweep ≠ [] ∧ s.dev.maxAge = 0) :=
  ⟨⟨wOn fun d => { d with vint := { d.vint with old := some 3 } }, 3, by decide +kernel⟩,
  ⟨wOn fun d => wReg Reg.SL_VNT_CTRL 0x10000
    { d with time := { d.time with tsc := 1000000 }, vint := { d.vint with old := some 3 } }, 3, by decide +kernel⟩,
  ⟨wOn fun d => wReg Reg.SL_VNT_CTRL 0x10000 { d with vint := { d.vint with old := some 3 } }, by decide +kernel⟩,
  ⟨wOn fun d =>
    { d with vint := { d.vint with old := some 3 }, fab := { d.fab with roleOn := true, role := 2, zeros := [(32, (3, 0))] } },
    3, by decide +kernel⟩,
  ⟨wOn fun d =>
    { d with vint := { d.vint with old := some 3 }, fab := { d.fab with obeyed := 33, links := [(2, { nbrDev := 1, beacon := be 2 33 ++ [128, 152] ++ List.replicate 8 0 })] } },
    2, 3, by decide +kernel⟩,
  ⟨wOn fun d =>
    { d with vint := { d.vint with learn := [⟨0, 0, 4, [1], [2]⟩] }, prog := { d.prog with descs := [(4, wDesc)] } },
    ⟨0, 0, 4, [1], [2]⟩, [], wDesc, by decide +kernel⟩,
  ⟨wRing 2 (wTbl 1), by decide +kernel⟩,
  ⟨wRun, by decide +kernel⟩,
  ⟨wOn fun d => { d with vint := { d.vint with sweep := [(0, 0)] } }, by decide +kernel⟩,
  ⟨wOn fun d => wReg Reg.SL_LRN_AGE_CFG 5 { d with vint := { d.vint with sweep := [(0, 0)] } }, by decide +kernel⟩,
  ⟨wOn fun d => wReg Reg.SL_LRN_AGE_CFG 0 { d with vint := { d.vint with sweep := [(0, 0)] } }, by decide +kernel⟩⟩

theorem wit_TableCommands :
  (∃ (s : State) (q : Fin 16384) (e : SqEnt), Clocked pllT s ∧ TableFront s q 1 e) ∧
  (∃ (s : State) (src : MbxSrc) (p : Bytes), Waits src mbxTable s ∧ s.dev.stopped [pllMgmt, pllT] = none ∧
    s.dev.engServes 0 = true ∧ s.dev.hostWaits = true ∧ (s.dev.mbxPayload (srcCode src) p).length = 96 ∧
    (TblCmd.ofBytes (s.dev.mbxPayload (srcCode src) p)).op = 1) ∧
  (∃ (s : State) (q : Fin 16384) (e : SqEnt), Clocked pllT s ∧ TableFront s q 2 e) ∧
  (∃ (s : State) (src : MbxSrc) (p : Bytes), Waits src mbxTable s ∧ s.dev.stopped [pllMgmt, pllT] = none ∧
    s.dev.engServes 0 = true ∧ s.dev.hostWaits = true ∧ (s.dev.mbxPayload (srcCode src) p).length = 96 ∧
    (TblCmd.ofBytes (s.dev.mbxPayload (srcCode src) p)).op = 2) ∧
  (∃ (s : State) (q : Fin 16384) (e : SqEnt), Clocked pllT s ∧ TableFront s q 3 e) ∧
  (∃ (s : State) (src : MbxSrc) (p : Bytes), Waits src mbxTable s ∧ s.dev.stopped [pllMgmt, pllT] = none ∧
    s.dev.engServes 0 = true ∧ s.dev.hostWaits = true ∧ (s.dev.mbxPayload (srcCode src) p).length = 96 ∧
    (TblCmd.ofBytes (s.dev.mbxPayload (srcCode src) p)).op = 3) ∧
  (∃ (s : State) (q : Fin 16384) (e : SqEnt), Clocked pllT s ∧ TableFront s q 4 e) ∧
  (∃ (s : State) (src : MbxSrc) (p : Bytes), Waits src mbxTable s ∧ s.dev.stopped [pllMgmt, pllT] = none ∧
    s.dev.engServes 0 = true ∧ s.dev.hostWaits = true ∧ (s.dev.mbxPayload (srcCode src) p).length = 96 ∧
    (TblCmd.ofBytes (s.dev.mbxPayload (srcCode src) p)).op = 4) ∧
  (∃ (s : State) (q : Fin 16384) (e : SqEnt), Clocked pllT s ∧ TableFront s q 5 e) ∧
  (∃ (s : State) (src : MbxSrc) (p : Bytes), Waits src mbxTable s ∧ s.dev.stopped [pllMgmt, pllT] = none ∧
    s.dev.engServes 0 = true ∧ s.dev.hostWaits = true ∧ (s.dev.mbxPayload (srcCode src) p).length = 96 ∧
    (TblCmd.ofBytes (s.dev.mbxPayload (srcCode src) p)).op = 5) ∧
  (∃ (s : State) (q : Fin 16384) (e : SqEnt), Clocked pllT s ∧ TableFront s q 6 e) ∧
  (∃ (s : State) (src : MbxSrc) (p : Bytes), Waits src mbxTable s ∧ s.dev.stopped [pllMgmt, pllT] = none ∧
    s.dev.engServes 0 = true ∧ s.dev.hostWaits = true ∧ (s.dev.mbxPayload (srcCode src) p).length = 96 ∧
    (TblCmd.ofBytes (s.dev.mbxPayload (srcCode src) p)).op = 6) ∧
  (∃ (s : State) (q : Fin 16384) (e : SqEnt), Clocked pllT s ∧ TableFront s q 7 e) ∧
  (∃ (s : State) (src : MbxSrc) (p : Bytes), Waits src mbxTable s ∧ s.dev.stopped [pllMgmt, pllT] = none ∧
    s.dev.engServes 0 = true ∧ s.dev.hostWaits = true ∧ (s.dev.mbxPayload (srcCode src) p).length = 96 ∧
    (TblCmd.ofBytes (s.dev.mbxPayload (srcCode src) p)).op = 7) :=
  ⟨⟨wRing 2 (wTbl 1), 5, wTbl 1, by decide +kernel⟩,
  ⟨wMbxT 1, .regs, [], by decide +kernel⟩,
  ⟨wRing 2 (wTbl 2), 5, wTbl 2, by decide +kernel⟩,
  ⟨wMbxT 2, .regs, [], by decide +kernel⟩,
  ⟨wRing 2 (wTbl 3), 5, wTbl 3, by decide +kernel⟩,
  ⟨wMbxT 3, .regs, [], by decide +kernel⟩,
  ⟨wRing 2 (wTbl 4), 5, wTbl 4, by decide +kernel⟩,
  ⟨wMbxT 4, .regs, [], by decide +kernel⟩,
  ⟨wRing 2 (wTbl 5), 5, wTbl 5, by decide +kernel⟩,
  ⟨wMbxT 5, .regs, [], by decide +kernel⟩,
  ⟨wRing 2 (wTbl 6), 5, wTbl 6, by decide +kernel⟩,
  ⟨wMbxT 6, .regs, [], by decide +kernel⟩,
  ⟨wRing 2 (wTbl 7), 5, wTbl 7, by decide +kernel⟩,
  ⟨wMbxT 7, .regs, [], by decide +kernel⟩⟩

theorem wit_TableRefusals :
  ∃ (d : Dev) (c : TblCmd), (d.tblCmd c).1 ≠ 0 :=
  ⟨wDev, (wTbl 1).tblCmd, by decide +kernel⟩

theorem wit_BufferOps :
  (∃ (s : State) (party : Fin 14) (newTag : Fin 14) (h : Word), Clocked pllT s ∧ s.dev.tagState party ≠ .closed ∧
    (s.dev.buf h.toNat).alloc = true ∧ (s.dev.buf h.toNat).tag ≠ 15 ∧ ownsBuf party (s.dev.buf h.toNat).tag = true) ∧
  (∃ (s : State) (party : Fin 14) (h : Word) (n : Nat), Clocked pllT s ∧ s.dev.tagState party ≠ .closed ∧ (s.dev.buf
    h.toNat).alloc = true ∧ (s.dev.buf h.toNat).tag ≠ 15 ∧ ownsBuf party (s.dev.buf h.toNat).tag = true ∧ 0 < n ∧ n ≤
    4095) ∧
  (∃ (s : State) (party : Fin 14) (h : Word), Clocked pllT s ∧ s.dev.tagState party ≠ .closed ∧ (s.dev.buf
    h.toNat).alloc = true ∧ (s.dev.buf h.toNat).tag ≠ 15 ∧ ownsBuf party (s.dev.buf h.toNat).tag = true ∧ 1 <
    (s.dev.buf h.toNat).refs) ∧
  (∃ (s : State) (party : Fin 14) (h : Word), Clocked pllT s ∧ s.dev.tagState party ≠ .closed ∧ (s.dev.buf
    h.toNat).alloc = true ∧ (s.dev.buf h.toNat).tag ≠ 15 ∧ ownsBuf party (s.dev.buf h.toNat).tag = true ∧ (s.dev.buf
    h.toNat).refs ≤ 1 ∧ s.dev.onLostStack h.toNat = false) ∧
  (∃ (s : State) (party : Fin 14) (newTag : Fin 14) (h : Word), Clocked pllT s ∧ s.dev.tagState party = .closed) ∧
  (∃ (s : State) (party : Fin 14) (h : Word), Clocked pllT s ∧ s.dev.tagState party ≠ .closed ∧ (s.dev.buf
    h.toNat).alloc = true ∧ (s.dev.buf h.toNat).tag = 15) ∧
  (∃ (s : State) (party : Fin 14) (h : Word), Clocked pllT s ∧ s.dev.tagState party ≠ .closed ∧ (s.dev.buf
    h.toNat).alloc = false) ∧
  (∃ (s : State) (party : Fin 14) (newTag : Fin 14) (h : Word), Clocked pllT s ∧ s.dev.tagState party ≠ .closed ∧
    (s.dev.buf h.toNat).alloc = true ∧ (s.dev.buf h.toNat).tag ≠ 15 ∧ ownsBuf party (s.dev.buf h.toNat).tag = false) ∧
  (∃ (s : State) (party : Fin 14) (newTag : Fin 14) (h : Word), Clocked pllT s ∧ s.dev.hasEntry h.toNat = true) ∧
  (∃ (s : State) (party : Fin 14) (h : Word) (n : Nat), Clocked pllT s ∧ s.dev.hasEntry h.toNat = true) ∧
  (∃ (s : State) (o : Fin 14) (t : Fin 2) (c : Fin 4) (v : Word), Answers .bar0 (Reg.BPM_RSV o t c) s ∧ s.dev.rsvSum o
    t c (fld v 28 0) ≤ s.dev.rsvLimit t c) ∧
  (∃ (s : State) (o : Fin 14) (t : Fin 2) (c : Fin 4) (v : Word), Answers .bar0 (Reg.BPM_RSV o t c) s ∧ s.dev.rsvLimit
    t c < s.dev.rsvSum o t c (fld v 28 0)) ∧
  (∃ (s : State) (k : Fin 12), Clocked pllT s ∧ s.dev.bpm.waiting = [] ∧ s.dev.host.sqs = []) ∧
  (∃ (s : State) (k : Fin 12) (r : AllocReq) (i : Nat) (rest : List Seg), Clocked pllT s ∧ s.dev.bpm.waiting = [r] ∧
    s.dev.host.sqs = [] ∧ r.pool = k ∧ k.val < 8 ∧ r.use = .handoff ∧ s.dev.spr.cellar = false ∧ r.tag < 14 ∧
    s.dev.tagState r.tag = .live ∧ sizeClass r.pkt.len ≠ none ∧ s.dev.poolOpen k = true ∧ s.dev.held r.tag k <
    s.dev.minOf r.tag k ∧ popSeg (s.dev.freeList k) = some (i, rest)) ∧
  (∃ (s : State) (k : Fin 12) (r : AllocReq), Clocked pllT s ∧ s.dev.bpm.waiting = [r] ∧ s.dev.host.sqs = [] ∧ r.pool
    = k ∧ r.use = .handoff ∧ s.dev.spr.cellar = false ∧ r.tag < 14 ∧ s.dev.tagState r.tag = .live ∧ sizeClass
    r.pkt.len ≠ none ∧ s.dev.poolOpen k = false) :=
  ⟨⟨wBuf 0x80000009 { alloc := true, tag := 12, refs := 1 }, 0, 13, 0x80000009, by decide +kernel⟩,
  ⟨wBuf 9 { alloc := true, tag := 0, refs := 1 }, 0, 9, 4095, by decide +kernel⟩,
  ⟨wBuf 9 { alloc := true, tag := 0, refs := 2 }, 0, 9, by decide +kernel⟩,
  ⟨wBuf 9 { alloc := true, tag := 0, refs := 1 }, 0, 9, by decide +kernel⟩,
  ⟨wOn fun d => d.setTag 0 .closed, 0, 13, 9, by decide +kernel⟩,
  ⟨wBuf 9 { alloc := true, tag := 15, refs := 1 }, 0, 9, by decide +kernel⟩,
  ⟨wRun, 0, 0, by decide +kernel⟩,
  ⟨wBuf 9 { alloc := true, tag := 1, refs := 1 }, 0, 13, 9, by decide +kernel⟩,
  ⟨wOn fun d => d.setTag 0 .closed, 0, 13, 9, by decide +kernel⟩,
  ⟨wBuf 9 { alloc := true, tag := 0, refs := 1 }, 0, 9, 4095, by decide +kernel⟩,
  ⟨wRun, 0, 0, 0, 0, by decide +kernel⟩,
  ⟨wRun, 13, 0, 0, 0x1FFFFFFF, by decide +kernel⟩,
  ⟨wRun, 0, by decide +kernel⟩,
  ⟨wOn fun d =>
    { d with bpm := { d.bpm with waiting := [wReq 3], ready := [(3, true)], free := [(3, [⟨9, 1, 2⟩])] } }, 3, wReq 3,
    9, [⟨10, 1, 1⟩], by decide +kernel⟩,
  ⟨wOn fun d => { d with bpm := { d.bpm with waiting := [wReq 11] } }, 11, wReq 11, by decide +kernel⟩⟩

theorem wit_Revocation :
  (∃ (s : State) (n : Fin 9), Clocked pllT s ∧ s.dev.tagState n = .draining) ∧
  (∃ (s : State) (n : Fin 9), Clocked pllT s ∧ s.dev.tagState n ≠ .draining) ∧
  (∃ (s : State) (t : Fin 14), Clocked pllT s ∧ t.val ∈ s.dev.bpm.scans) ∧
  (∃ (s : State) (t : Fin 14), Clocked pllT s ∧ t.val ∉ s.dev.bpm.scans) ∧
  (∃ (s : State), Clocked pllT s ∧ s.dev.bpm.auditing = false ∧ bit (s.dev.reg Reg.BPM_CTRL) 1 = true) ∧
  (∃ (s : State), Clocked pllT s ∧ s.dev.bpm.auditing = true) ∧
  (∃ (s : State), Clocked pllT s ∧ s.dev.bpm.auditing = false) :=
  ⟨⟨wOn fun d => d.setTag 8 .draining, 8, by decide +kernel⟩,
  ⟨wRun, 0, by decide +kernel⟩,
  ⟨wOn fun d => { d with bpm := { d.bpm with scans := [13] } }, 13, by decide +kernel⟩,
  ⟨wRun, 0, by decide +kernel⟩,
  ⟨wRun, by decide +kernel⟩,
  ⟨wOn fun d => { d with bpm := { d.bpm with auditing := true } }, by decide +kernel⟩,
  ⟨wRun, by decide +kernel⟩⟩

theorem wit_Admission :
  (∃ (s : State) (i : Fin 10), Clocked pllT s ∧ s.dev.qm.arrived = [] ∧ s.dev.host.sqs = []) ∧
  (∃ (s : State) (i : Fin 10) (k : Pkt), Clocked pllT s ∧ s.dev.qm.arrived = [k] ∧ k.input = i ∧ s.dev.host.sqs = []) ∧
  (∃ (s : State) (i : Fin 10) (k : Pkt) (c : Nat), Clocked pllT s ∧ s.dev.qm.arrived = [k] ∧ k.input = i ∧
    s.dev.host.sqs = [] ∧ k.recirc = false ∧ k.act = 1 ∧ k.copy = false ∧ k.queue = 0 ∧ k.origin = .line ∧ k.meterEn =
    false ∧ k.sample = false ∧ s.dev.admitFails (s.dev.queueFor k) { k with colour := 0 } = some c ∧ c ≠ 1 ∧
    s.dev.chained bankTmq (c - 1) = false) ∧
  (∃ (s : State) (i : Fin 10) (k : Pkt) (h : Nat), Clocked pllT s ∧ s.dev.qm.arrived = [k] ∧ k.input = i ∧
    s.dev.host.sqs = [] ∧ k.recirc = false ∧ k.act = 1 ∧ k.copy = false ∧ k.queue = 0 ∧ k.origin = .line ∧ k.meterEn =
    false ∧ k.sample = false ∧ k.handle = some h ∧ k.tag = 2 ∧ ownsBuf 2 (s.dev.buf h).tag = true ∧ (s.dev.buf
    h).alloc = true ∧ (s.dev.buf h).tag ≠ 15 ∧ s.dev.tagState 2 = .live ∧ bit (s.dev.reg Reg.TMQ_CTRL) 1 = false ∧
    s.dev.admitFails (s.dev.queueFor k) { k with colour := 0 } = none) :=
  ⟨⟨wRun, 0, by decide +kernel⟩,
  ⟨wQm fun q => { q with arrived := [{ input := 9 }] }, 9, { input := 9 }, by decide +kernel⟩,
  ⟨wOn fun d => { d with qm := { d.qm with arrived := [wPkt], ishare := [(0, 2 ^ 20)] } }.setPort 0 { st := .up }, 0,
    wPkt, 4, by decide +kernel⟩,
  ⟨wOn fun d => wReg Reg.TMQ_CTRL 0 (({ d with qm := { d.qm with arrived := [wPkt] } }.setPort 0 { st := .up }).setBuf
    9 { alloc := true, tag := 2, refs := 1 }), 0, wPkt, 9, by decide +kernel⟩⟩

theorem wit_Scheduling :
  (∃ (s : State) (q : Nat) (k : Pkt), Clocked pllT s ∧ ((s.dev.queue q).pkts.find? fun k => k.evacTo.isSome &&
    !k.headOnly) = some k) ∧
  (∃ (s : State) (q : Nat), Clocked pllT s ∧ ((s.dev.queue q).pkts.find? fun k => k.evacTo.isSome && !k.headOnly) =
    none) ∧
  (∃ (s : State) (o : Fin 10) (k : Pkt) (d : Dev), Clocked pllT s ∧ ((s.dev.noms o).find? fun k => k.reading) = some k
    ∧ evacCharge k.len ≤ s.dev.evacTokens (evacShare k.queue true) ∧ d = (s.dev.takeTokens (evacShare k.queue true)
    (evacCharge k.len)).countLines k.dram 0 k.len) ∧
  (∃ (s : State) (o : Fin 10) (good : Bool), Clocked pllT s ∧ ((s.dev.noms o).find? fun k => k.reading) = none) ∧
  (∃ (s : State) (g : Fin 8) (c : BitVec 128) (q : Nat) (k : Pkt), Clocked pllT s ∧ s.dev.returnHead g = some (q, k) ∧
    s.dev.nomRoom g k = true) ∧
  (∃ (s : State) (g : Fin 8) (c : BitVec 128) (x : Pick), Clocked pllT s ∧ s.dev.returnHead g = none ∧
    s.dev.pickOutput g (fun p => c.getLsbD p) = some x ∧ s.dev.nomRoom g x.pkt = true) ∧
  (∃ (s : State) (c : BitVec 128), Clocked pllT s) ∧
  (∃ (s : State), Clocked pllT s) ∧
  (∃ (s : State) (t : Fin 17), Clocked pllT s ∧ s.dev.dukLost = true) ∧
  (∃ (s : State) (g : Fin 8) (k : Pkt) (l : List Pkt) (n : Nat) (m : Nat) (d : Dev), Clocked pllT s ∧ s.dev.dukLost =
    false ∧ scanStaged s.dev (s.dev.noms g) [] = (l, n, m, .send k) ∧ d = ((s.dev.setNoms g l).bump bankShp 1 n).bump
    bankShp 2 m) ∧
  (∃ (s : State) (g : Fin 8) (k : Pkt) (l : List Pkt) (n : Nat) (m : Nat) (b : Nat) (i : Nat), Clocked pllT s ∧
    s.dev.dukLost = false ∧ scanStaged s.dev (s.dev.noms g) [] = (l, n, m, .drop k b i)) ∧
  (∃ (s : State) (n : Fin 9) (k : Pkt), Clocked pllT s ∧ s.dev.dukLost = false ∧ (∀ g < 8, s.dev.holder g ≠ some
    n.val) ∧ s.dev.headOf (qKey 4 (8 + n)) = some k ∧ chanRoom (s.dev.slice n).down = true) :=
  ⟨⟨wQueue 0 { evacTo := some 0x80000000 }, 0, { evacTo := some 0x80000000 }, by decide +kernel⟩,
  ⟨wRun, 0, by decide +kernel⟩,
  ⟨wOn fun d => d.setNoms 0 [{ reading := true }], 0, { reading := true }, _, by decide +kernel, by decide +kernel,
    by decide +kernel, rfl⟩,
  ⟨wRun, 0, 0, by decide +kernel⟩,
  ⟨wQueue (qKey 4 0) wPkt, 0, 0, qKey 4 0, wPkt, by decide +kernel⟩,
  ⟨wOn fun d => (d.setPort 0 { st := .up }).setQueue (qKey 0 0) { pkts := [wPkt] }, 0, BitVec.allOnes 128, wPick.getD
    ⟨0, {}, {}⟩, by decide +kernel, by decide +kernel, some_getD (by decide +kernel), by decide +kernel⟩,
  ⟨wRun, 0, by decide +kernel⟩,
  ⟨wRun, by decide +kernel⟩,
  ⟨wOn fun d => { d with dukLost := true }, 0, by decide +kernel⟩,
  ⟨wOn fun d => d.setNoms 0 [{ queue := qKey 4 0 }], 0, { queue := qKey 4 0 }, [{ queue := qKey 4 0 }], 0, 0, _,
    by decide +kernel, by decide +kernel, by decide +kernel, rfl⟩,
  ⟨wOn fun d => d.setNoms 0 [{ outPort := some 0 }], 0, { outPort := some 0 }, [{ outPort := some 0 }], 0, 0, 1, 26,
    by decide +kernel⟩,
  ⟨wQueue (qKey 4 16) {}, 8, {}, by decide +kernel⟩⟩

theorem wit_TailsAndCopies :
  (∃ (s : State) (p : Fin 128) (frame : Bytes) (good : Bool), Clocked pllLine s ∧ (s.dev.port p).rxOpen = none) ∧
  (∃ (s : State) (p : Fin 128) (frame : Bytes) (uid : Nat), Clocked pllLine s ∧ (s.dev.port p).rxOpen = some (some
    uid) ∧ (s.dev.port p).st = .up ∧ frame.length + 4 ≤ s.dev.maxFrame p) ∧
  (∃ (s : State) (p : Fin 128) (frame : Bytes), Clocked pllLine s ∧ (s.dev.port p).rxOpen = some none ∧ (s.dev.port
    p).st = .up ∧ frame.length + 4 ≤ s.dev.maxFrame p) ∧
  (∃ (s : State), Clocked pllT s ∧ s.dev.qm.repl = []) ∧
  (∃ (s : State) (k : Pkt) (rest : List Pkt), Clocked pllT s ∧ s.dev.qm.repl = k :: rest ∧ k.headOnly = false ∧ (65536
    ≤ k.dest % 2 ^ 18 ∨ bit (Tbl.get 0#64 s.dev.qm.groups (k.dest % 2 ^ 18)) 31 = false)) ∧
  (∃ (s : State) (k : Pkt) (rest : List Pkt) (h : Nat) (n : Nat) (e : Nat) (x : List (BitVec 64)), Clocked pllT s ∧
    s.dev.qm.repl = k :: rest ∧ k.headOnly = false ∧ k.dest % 2 ^ 18 < 65536 ∧ k.handle = some h ∧ bit (Tbl.get 0#64
    s.dev.qm.groups (k.dest % 2 ^ 18)) 31 = true ∧ e = fld (Tbl.get 0#64 s.dev.qm.groups (k.dest % 2 ^ 18)) 17 0 ∧
    walkCopies s.dev.qm.copies (k.origin = .fabric) copyFuel 4095 e = some (x, false) ∧ x.length = n ∧ 0 < n) ∧
  (∃ (s : State) (dv : Fin 32), Clocked pllT s ∧ s.dev.reach.getLsbD dv = true) ∧
  (∃ (s : State) (dv : Fin 32), Clocked pllT s ∧ s.dev.reach.getLsbD dv = false ∧ (∀ i ∈ s.dev.busyQueues 2, i / 1024
    ≠ dv.val)) ∧
  (∃ (s : State) (dv : Fin 32), Clocked pllT s ∧ s.dev.reach.getLsbD dv = false) ∧
  (∃ (s : State) (dv : Fin 32) (i : Nat) (k : Pkt), Clocked pllT s ∧ s.dev.reach.getLsbD dv = false ∧ s.dev.busyQueues
    2 = [i] ∧ i / 1024 = dv.val ∧ (s.dev.queue (qKey 2 i)).pkts = [k] ∧ k.handle = none ∧ k.dram = none ∧ k.evacTo =
    none ∧ k.copy = false ∧ k.remoteCopy = false ∧ k.shareKey = none ∧ s.dev.hold k.uid = {} ∧ s.dev.chained bankTrl
    13 = false) :=
  ⟨⟨wRun, 0, [], false, by decide +kernel⟩,
  ⟨wPort 0 { st := .up, rxOpen := some (some 7) }, 0, wFrame, 7, by decide +kernel⟩,
  ⟨wPort 0 { st := .up, rxOpen := some none }, 0, wFrame, by decide +kernel⟩,
  ⟨wRun, by decide +kernel⟩,
  ⟨wQm fun q => { q with repl := [{}] }, {}, [], by decide +kernel⟩,
  ⟨wQm fun q => { q with repl := [wPkt], groups := [(0, 0x80000005#64)], copies := [(5, 0x9000000000000000#64)] },
    wPkt, [], 9, 1, 5, [0x9000000000000000#64], by decide +kernel⟩,
  ⟨wOn fun d => { d with reach := 0xFFFFFFFF#32 }, 31, by decide +kernel⟩,
  ⟨wRun, 0, by decide +kernel⟩,
  ⟨wRun, 0, by decide +kernel⟩,
  ⟨wQueue (qKey 2 1024) {}, 1, 1024, {}, by decide +kernel⟩⟩

theorem wit_QueueTables :
  (∃ (s : State) (t : BitVec 2) (x : BitVec 18) (w : BitVec 64), Answers .bar0 Reg.TMQ_CMD s ∧ x.toNat < tmqLimit
    t.toNat ∧ w = BitVec.ofNat 64 (s.dev.dataWords Reg.TMQ_DATA 2) ∧ w &&& tmqReserved t.toNat = 0#64 ∧ s.dev.tmqInUse
    t.toNat x.toNat w = false) ∧
  (∃ (s : State) (t : BitVec 2) (x : BitVec 18), Answers .bar0 Reg.TMQ_CMD s ∧ tmqLimit t.toNat ≤ x.toNat) ∧
  (∃ (s : State) (t : BitVec 2) (x : BitVec 18) (w : BitVec 64), Answers .bar0 Reg.TMQ_CMD s ∧ x.toNat < tmqLimit
    t.toNat ∧ w = BitVec.ofNat 64 (s.dev.dataWords Reg.TMQ_DATA 2) ∧ w &&& tmqReserved t.toNat ≠ 0#64) ∧
  (∃ (s : State) (t : BitVec 2) (x : BitVec 18) (w : BitVec 64), Answers .bar0 Reg.TMQ_CMD s ∧ x.toNat < tmqLimit
    t.toNat ∧ w = BitVec.ofNat 64 (s.dev.dataWords Reg.TMQ_DATA 2) ∧ w &&& tmqReserved t.toNat = 0#64 ∧ s.dev.tmqInUse
    t.toNat x.toNat w = true) ∧
  (∃ (s : State) (t : BitVec 2) (x : BitVec 18), Answers .bar0 Reg.TMQ_CMD s ∧ x.toNat < tmqLimit t.toNat) ∧
  (∃ (s : State) (x : BitVec 18) (w : BitVec 64), Answers .bar0 Reg.REPL_CMD s ∧ x.toNat < 65536 ∧ w = BitVec.ofNat 64
    (s.dev.dataWords Reg.REPL_DATA 1) ∧ w &&& 0x7FFC0000#64 = 0#64) ∧
  (∃ (s : State) (x : BitVec 18) (w : BitVec 64), Answers .bar0 Reg.REPL_CMD s ∧ w = BitVec.ofNat 64 (s.dev.dataWords
    Reg.REPL_DATA 2) ∧ w &&& replReserved 1 w = 0#64) ∧
  (∃ (s : State) (x : BitVec 18) (w : BitVec 64), Answers .bar0 Reg.REPL_CMD s ∧ w = BitVec.ofNat 64 (s.dev.dataWords
    Reg.REPL_DATA 2) ∧ w &&& replReserved 1 w ≠ 0#64) ∧
  (∃ (s : State) (x : BitVec 18), Answers .bar0 Reg.REPL_CMD s ∧ x.toNat < 65536) ∧
  (∃ (s : State) (x : BitVec 18), Answers .bar0 Reg.REPL_CMD s) ∧
  (∃ (s : State) (x : BitVec 18), Answers .bar0 Reg.REPL_CMD s ∧ 65536 ≤ x.toNat) ∧
  (∃ (s : State) (p : Path) (q : Queue), Answers p Reg.TMQ_QSTAT_BYTES s ∧ q = s.dev.queue (qKey (fld (s.dev.reg
    Reg.TMQ_QSTAT_SEL) 20 18) (fld (s.dev.reg Reg.TMQ_QSTAT_SEL) 17 0))) :=
  ⟨⟨wRun, 0, 0, 0, by decide +kernel⟩,
  ⟨wRun, 1, 16384, by decide +kernel⟩,
  ⟨wOn (wReg (Reg.TMQ_DATA 1) 0x40000000), 0, 262143, 0x4000000000000000, by decide +kernel⟩,
  ⟨wOn fun d => wReg (Reg.TMQ_DATA 1) 0x10000 (d.setQueue (qKey 1 262143) { pkts := [{}] }), 0, 262143,
    0x1000000000000, by decide +kernel⟩,
  ⟨wRun, 0, 0, by decide +kernel⟩,
  ⟨wRun, 0, 0, by decide +kernel⟩,
  ⟨wRun, 0, 0, by decide +kernel⟩,
  ⟨wOn (wReg (Reg.REPL_DATA 0) 0x700000), 65536, _, by decide +kernel, rfl, by decide +kernel⟩,
  ⟨wRun, 0, by decide +kernel⟩,
  ⟨wRun, 0, by decide +kernel⟩,
  ⟨wRun, 65536, by decide +kernel⟩,
  ⟨wRun, .ring, {}, by decide +kernel⟩⟩

theorem wit_GatesMeters :
  (∃ (s : State) (p : Fin 128), Clocked pllT s) ∧
  (∃ (s : State) (t : BitVec 2) (x : BitVec 20), Answers .bar0 Reg.SHP_CMD s ∧ shpLimit t.toNat ≤ x.toNat) ∧
  (∃ (s : State) (x : BitVec 20), Answers .bar0 Reg.SHP_CMD s ∧ x.toNat < 0x10000) ∧
  (∃ (s : State) (x : BitVec 20), Answers .bar0 Reg.SHP_CMD s ∧ x.toNat < 0x44480) ∧
  (∃ (s : State) (x : BitVec 20), Answers .bar0 Reg.SHP_CMD s ∧ x.toNat < 0x40000) ∧
  (∃ (s : State) (x : BitVec 20) (w : Nat), Answers .bar0 Reg.SHP_CMD s ∧ x.toNat < 256 ∧ w = s.dev.dataWords
    Reg.SHP_DATA 4) ∧
  (∃ (s : State) (x : BitVec 20), Answers .bar0 Reg.SHP_CMD s ∧ x.toNat < 0x40000) ∧
  (∃ (s : State) (p : Path) (i : Nat) (sh : Shaper), Answers p Reg.SHP_CRED s ∧ fld (s.dev.reg Reg.SHP_CRED_SEL) 19 0
    < 0x44480 ∧ i = fld (s.dev.reg Reg.SHP_CRED_SEL) 19 0 ∧ sh = shpUpdate (s.dev.shpProf (s.dev.shaper i).prof)
    s.dev.time.tsc (s.dev.shaper i)) ∧
  (∃ (s : State) (x : BitVec 17) (w : BitVec 128), Answers .bar0 Reg.MTR_CMD s ∧ x.toNat < 0x10000 ∧ w = BitVec.ofNat
    128 (s.dev.dataWords Reg.MTR_DATA 4)) ∧
  (∃ (s : State) (x : BitVec 17), Answers .bar0 Reg.MTR_CMD s) ∧
  (∃ (s : State) (x : BitVec 17), Answers .bar0 Reg.MTR_CMD s) ∧
  (∃ (s : State) (p : Path) (i : Nat) (m : Meter), Answers p Reg.MTR_BKT_C s ∧ i = fld (s.dev.reg Reg.MTR_BKT_SEL) 16
    0 ∧ m = mtrRefill (s.dev.mtrProf (s.dev.meter i).prof) s.dev.time.tsc (s.dev.meter i)) :=
  ⟨⟨wRun, 0, by decide +kernel⟩,
  ⟨wRun, 3, 256, by decide +kernel⟩,
  ⟨wRun, 0, by decide +kernel⟩,
  ⟨wRun, 0, by decide +kernel⟩,
  ⟨wRun, 0, by decide +kernel⟩,
  ⟨wRun, 0, 0, by decide +kernel⟩,
  ⟨wRun, 0, by decide +kernel⟩,
  ⟨wRun, .ring, 0, {}, by decide +kernel⟩,
  ⟨wRun, 0, 0, by decide +kernel⟩,
  ⟨wRun, 0, by decide +kernel⟩,
  ⟨wRun, 0, by decide +kernel⟩,
  ⟨wRun, .ring, 0, {}, by decide +kernel⟩⟩

theorem wit_TrellisLink :
  (∃ (s : State) (n : Fin 256), Answers .bar0 (Reg.TRL_LINK_CTRL n) s ∧ bit (s.dev.reg (Reg.TRL_LINK_CTRL n)) 0 =
    false ∧ bit (s.dev.reg (Reg.TRL_LINK_CTRL n)) 4 = false) ∧
  (∃ (s : State) (n : Fin 256), Answers .bar0 (Reg.TRL_LINK_CTRL n) s ∧ bit (s.dev.reg (Reg.TRL_LINK_CTRL n)) 0 = true
    ∧ bit (s.dev.reg (Reg.TRL_LINK_CTRL n)) 4 = false) ∧
  (∃ (s : State) (n : Fin 256), Answers .bar0 (Reg.TRL_LINK_CTRL n) s) ∧
  (∃ (s : State) (f : Fin 32), Clocked pllFabric s ∧ s.dev.framerLocked f = true) ∧
  (∃ (s : State) (n : Fin 256) (w : Bool), Clocked pllFabric s ∧ (s.dev.link n).align = 1 ∧ w = bit (s.dev.reg
    (Reg.TRL_LINK_CTRL n)) 9) ∧
  (∃ (s : State) (n : Fin 256) (w : Bool), Clocked pllFabric s ∧ ((s.dev.link n).align ≠ 1 ∨ w ≠ bit (s.dev.reg
    (Reg.TRL_LINK_CTRL n)) 9)) ∧
  (∃ (s : State) (n : Fin 256) (pos : Nat) (bs : Bytes) (cws : List Codeword) (bad : Bool) (d1 : Dev), Locked
    pllFabric s ∧ s.dev.hears n = true ∧ d1 = s.dev.takeCws n cws) ∧
  (∃ (s : State) (n : Fin 256) (pos : Nat) (bs : Bytes) (cws : List Codeword) (bad : Bool), Locked pllFabric s ∧
    s.dev.hears n = false) ∧
  (∃ (s : State) (n : Fin 256), Clocked pllFabric s ∧ (s.dev.link n).txOn = true ∧ (s.dev.link n).txIdle = false) ∧
  (∃ (s : State) (n : Fin 256) (b : Fin 10) (d1 : Dev), Clocked pllFabric s ∧ d1 = s.dev.sigRoll n ∧ (d1.link n).align
    ≠ 0 ∧ laneDefect b = true ∧ (d1.link n).has b = false ∧ (d1.link n).suppressed b = false ∧ (d1.link n).declares b
    = true) ∧
  (∃ (s : State) (n : Fin 256) (b : Fin 10) (d1 : Dev), Clocked pllFabric s ∧ d1 = s.dev.sigRoll n) ∧
  (∃ (s : State) (p : Path) (n : Fin 256), Answers p (Reg.TRL_LINK_CTRL n + 0x20) s) ∧
  (∃ (s : State) (n : Fin 256) (d1 : Dev), Clocked pllFabric s ∧ d1 = s.dev.pmRoll n ∧ (d1.link n).pmPend.length < 11) ∧
  (∃ (s : State) (n : Fin 256) (c : PmSec) (rest : List PmSec) (ua : Bool), Clocked pllFabric s ∧ s.dev.pmRoll n =
    s.dev ∧ (s.dev.link n).pmPend = c :: rest ∧ 10 ≤ rest.length ∧ bit (s.dev.reg Reg.TRL_CTRL) 0 = true ∧ ua =
    pmUnavail (s.dev.link n).unavail (c :: rest)) ∧
  (∃ (s : State) (p : Path) (n : Fin 256) (b : PmBin), Answers p (Reg.TRL_LINK_CTRL n + 0x800) s ∧ b = (s.dev.link
    n).pmBins.getD 0 {}) ∧
  (∃ (s : State) (p : Path) (n : Fin 256) (b : PmBin), Answers p (Reg.TRL_LINK_CTRL n + 0x800) s ∧ b = (s.dev.link
    n).pmBins.getD 17 {}) :=
  ⟨⟨wRun, 0, by decide +kernel⟩,
  ⟨wOn (wReg (Reg.TRL_LINK_CTRL 255) 1), 255, by decide +kernel⟩,
  ⟨wRun, 0, by decide +kernel⟩,
  ⟨wRun, 0, by decide +kernel⟩,
  ⟨wLink 255 { align := 1 }, 255, false, by decide +kernel⟩,
  ⟨wLink 255 { align := 2 }, 255, false, by decide +kernel⟩,
  ⟨wLink 255 { align := 3 }, 255, 9, [], [], false, _, by decide +kernel, by decide +kernel, rfl⟩,
  ⟨wLink 255 { swapped := true }, 255, 0, [], [], false, by decide +kernel⟩,
  ⟨wLink 255 { txOn := true }, 255, by decide +kernel⟩,
  ⟨wLink 255 { align := 4 }, 255, 9, _, by decide +kernel, rfl, by decide +kernel, by decide +kernel,
    by decide +kernel, by decide +kernel, by decide +kernel⟩,
  ⟨wLink 255 { align := 4 }, 255, 1, _, by decide +kernel, rfl⟩,
  ⟨wRun, .ring, 0, by decide +kernel⟩,
  ⟨wRun, 0, wDev, by decide +kernel⟩,
  ⟨wOn fun d => wReg Reg.TRL_CTRL 1 (d.setLink 255 { pmPend := List.replicate 11 {} }), 255, {}, List.replicate 10 {},
    false, by decide +kernel⟩,
  ⟨wRun, .ring, 0, {}, by decide +kernel⟩,
  ⟨wRun, .ring, 0, {}, by decide +kernel⟩⟩

theorem wit_TrellisCells :
  (∃ (s : State) (n : Fin 256) (i : Fin 64), Clocked pllFabric s ∧ ((s.dev.link n).txOn = false ∨ (s.dev.link
    n).txIdle = true ∨ (s.dev.link n).txFrame = 0)) ∧
  (∃ (s : State) (n : Fin 256) (i : Fin 64), Clocked pllFabric s ∧ (s.dev.link n).txOn = true ∧ (s.dev.link n).txIdle
    = false ∧ (s.dev.link n).txFrame ≠ 0 ∧ s.dev.sendsAis n = true) ∧
  (∃ (s : State) (n : Fin 256) (i : Fin 64) (pg : Nat) (r : Relay) (t : Nat), Clocked pllFabric s ∧ (s.dev.link
    n).txOn = true ∧ (s.dev.link n).txIdle = false ∧ (s.dev.link n).txFrame ≠ 0 ∧ s.dev.sendsAis n = false ∧
    (s.dev.link n).txPage = some pg ∧ t = 64 * (((s.dev.link n).txFrame - 1) % 16) + i.val ∧ fld (s.dev.connEntry n 0
    pg t) 31 30 = 2 ∧ (s.dev.fab.relays.find? fun r => r.link = n.val && r.slot = t && r.ready ≤ s.dev.time.tsc) =
    some r) ∧
  (∃ (s : State) (n : Fin 256) (i : Fin 64) (bs : Bytes) (cws : List Codeword) (bad : Bool) (d1 : Dev), Locked
    pllFabric s ∧ s.dev.hears n = true ∧ d1 = s.dev.takeCws n cws ∧ (d1.link n).align ≠ 4) ∧
  (∃ (s : State) (n : Fin 256) (i : Fin 64) (bs : Bytes) (cws : List Codeword) (bad : Bool), Locked pllFabric s ∧
    s.dev.hears n = false) ∧
  (∃ (s : State) (n : Fin 256) (i : Fin 64) (bs : Bytes) (cws : List Codeword) (bad : Bool) (c : Cell) (d1 : Dev) (d2
    : Dev), Locked pllFabric s ∧ s.dev.hears n = true ∧ d1 = s.dev.takeCws n cws ∧ (d1.link n).align = 4 ∧ d2 = (if
    bad then d1.frameError n else d1) ∧ (d2.link n).align = 4 ∧ (d2.link n).down = false ∧ (d2.link n).selfLoop
    d2.devId = false ∧ c = Cell.ofBytes bs n) ∧
  (∃ (s : State) (src : Fin 32) (tc : Fin 8), Clocked pllFabric s ∧ (s.dev.ctx (ctxKey src tc)).gap = none) ∧
  (∃ (s : State) (src : Fin 32) (tc : Fin 8) (c : Cell) (t : Nat), Clocked pllFabric s ∧ (s.dev.ctx (ctxKey src
    tc)).gap = some t ∧ (s.dev.ctx (ctxKey src tc)).sync = false ∧ (s.dev.ctx (ctxKey src tc)).pkt = none ∧ (s.dev.ctx
    (ctxKey src tc)).held = [c] ∧ c.first = false) ∧
  (∃ (s : State) (src : Fin 32) (tc : Fin 8), Clocked pllFabric s ∧ (s.dev.ctx (ctxKey src tc)).held = []) ∧
  (∃ (s : State) (t : BitVec 2) (l : BitVec 8) (pg : Bool) (x : BitVec 10), Answers .bar0 Reg.TRL_CAL_CMD s ∧
    s.dev.fab.obeyed ≠ 0) ∧
  (∃ (s : State) (t : BitVec 2) (l : BitVec 8) (pg : Bool) (x : BitVec 10) (w : Word), Answers .bar0 Reg.TRL_CAL_CMD s
    ∧ s.dev.fab.obeyed = 0 ∧ t.toNat < 2 ∧ w = s.dev.reg Reg.TRL_CAL_DATA ∧ s.dev.badConn t.toNat w = false ∧
    (s.dev.link l.toNat).page t.toNat ≠ some (b2n pg)) ∧
  (∃ (s : State) (t : BitVec 2) (l : BitVec 8) (pg : Bool) (x : BitVec 10), Answers .bar0 Reg.TRL_CAL_CMD s ∧ t.toNat
    < 2) ∧
  (∃ (s : State) (t : BitVec 2) (l : BitVec 8) (pg : Bool) (x : BitVec 10), Answers .bar0 Reg.TRL_CAL_CMD s ∧ 2 ≤
    t.toNat) ∧
  (∃ (s : State) (n : Fin 256), Clocked pllFabric s ∧ (s.dev.link n).txDue = none) ∧
  (∃ (s : State) (n : Fin 256) (a : Nat × Nat) (d1 : Dev), Clocked pllFabric s ∧ (s.dev.link n).txDue = some a ∧ d1 =
    s.dev.setLink n { s.dev.link n with txArm := (s.dev.link n).txArm.erase a }) ∧
  (∃ (s : State) (n : Fin 256) (t : Nat), Clocked pllFabric s ∧ (s.dev.link n).rxArm = some t ∧ (s.dev.link
    n).rxBoundary = true ∧ s.dev.rxAgrees n = true ∧ 10 * s.dev.time.now.units ≤ (10 * t + 236304) * nsUnit) ∧
  (∃ (s : State) (n : Fin 256) (t : Nat), Clocked pllFabric s ∧ (s.dev.link n).rxArm = some t) :=
  ⟨⟨wRun, 0, 0, by decide +kernel⟩,
  ⟨wLink 255 { txOn := true, txFrame := 1 }, 255, 63, by decide +kernel⟩,
  ⟨wOn fun d =>
    { d with fab := { d.fab with links := [(5, { txOn := true, txFrame := 1, txPage := some 0 })], relays := [⟨5, 0, 0, 0, []⟩], conn := [(pageKey 5 0 0 * 1024, 0x80000000#32)] } },
    5, 0, 0, ⟨5, 0, 0, 0, []⟩, 0, by decide +kernel⟩,
  ⟨wRun, 0, 0, [], [], false, wDev, by decide +kernel⟩,
  ⟨wLink 255 { swapped := true }, 255, 0, [], [], false, by decide +kernel⟩,
  ⟨wLink 5 { align := 4 }, 5, 0, [], [], false, _, _, _, by decide +kernel, by decide +kernel, rfl, by decide +kernel,
    rfl, by decide +kernel, by decide +kernel, by decide +kernel, rfl⟩,
  ⟨wRun, 0, 0, by decide +kernel⟩,
  ⟨wFab fun f => { f with ctxs := [(ctxKey 31 7, { gap := some 0, held := [{}] })] }, 31, 7, {}, 0, by decide +kernel⟩,
  ⟨wRun, 0, 0, by decide +kernel⟩,
  ⟨wFab fun f => { f with obeyed := 33 }, 0, 0, false, 0, by decide +kernel⟩,
  ⟨wRun, 0, 0, false, 0, 0, by decide +kernel⟩,
  ⟨wRun, 0, 0, false, 0, by decide +kernel⟩,
  ⟨wRun, 2, 0, false, 0, by decide +kernel⟩,
  ⟨wRun, 0, by decide +kernel⟩,
  ⟨wLink 5 { txArm := [(1, 0)] }, 5, (1, 0), (wLink 5 {}).dev, by decide +kernel⟩,
  ⟨wOn fun d =>
    { d with fab := { d.fab with links := [(5, { align := 4, rxArm := some 0, rxPersist := some 0x2000100000000000#64 })], gens := [(pageKey 5 1 0, 1)] } },
    5, 0, by decide +kernel⟩,
  ⟨wLink 5 { rxArm := some 0 }, 5, 0, by decide +kernel⟩⟩

set_option maxRecDepth 65536 in
theorem wit_Managers :
  (∃ (s : State), Clocked pllFabric s ∧ s.dev.candidate = true ∧ s.dev.vint.started = true ∧ s.dev.fab.role = 0) ∧
  (∃ (s : State), Clocked pllFabric s ∧ (s.dev.candidate = false ∨ s.dev.vint.started = false ∨ s.dev.fab.role ≠ 0)) ∧
  (∃ (s : State), Clocked pllFabric s ∧ s.dev.fab.obeyed ≠ 0 ∧ s.dev.isManager = false ∧ s.dev.src ≠ 3) ∧
  (∃ (s : State), Clocked pllFabric s ∧ s.dev.fab.obeyed = 0) :=
  ⟨⟨wOn (wReg Reg.GLB_STRAP 0x10), by decide +kernel⟩,
  ⟨wRun, by decide +kernel⟩,
  ⟨wFab fun f => { f with obeyed := 33, roleOn := true, role := 1 }, by decide +kernel⟩,
  ⟨wRun, by decide +kernel⟩⟩

set_option maxRecDepth 65536 in
theorem wit_ManagerMessages :
  (∃ (s : State), Clocked pllFabric s ∧ s.dev.mgmt.serving = true ∧ s.dev.isManager = false ∧ s.dev.fab.obeyed ≠ 0) ∧
  (∃ (s : State) (src : Fin 32) (v : Nat) (bs : Bytes) (d1 : Dev), Clocked pllFabric s ∧ s.dev.mgmt.serving = true ∧
    s.dev.takeInbox 4 (some src.val) = (some (v, bs), d1)) ∧
  (∃ (s : State) (src : Fin 32), Clocked pllFabric s ∧ s.dev.fab.inbox = []) ∧
  (∃ (s : State), Clocked pllFabric s ∧ s.dev.mgmt.serving = true ∧ s.dev.isManager = true ∧ 2 ≤
    s.dev.systemDevs.length ∧ s.dev.answering s.dev.systemDevs ≠ []) ∧
  (∃ (s : State), Clocked pllFabric s ∧ (s.dev.isManager = false ∨ s.dev.systemDevs.length < 2)) ∧
  (∃ (s : State) (v : Nat) (bs : Bytes) (d1 : Dev), Clocked pllFabric s ∧ s.dev.mgmt.serving = true ∧ s.dev.takeInbox
    3 none = (some (v, bs), d1)) ∧
  (∃ (s : State), Clocked pllFabric s) ∧
  (∃ (s : State) (v : Nat) (bs : Bytes) (d1 : Dev) (m : Nat × Dev), Clocked pllFabric s ∧ s.dev.takeInbox 5 none =
    (some (v, bs), d1) ∧ d1.candidate = true ∧ d1.fab.role = 1 ∧ bs.length = snapLen ∧ d1.tableLost = false ∧ m =
    d1.sentAt v) :=
  ⟨⟨wFab fun f => { f with obeyed := 33 }, by decide +kernel⟩,
  ⟨wFab fun f => { f with inbox := [(4, 9, [])] }, 9, 9, [], wDev, by decide +kernel, by decide +kernel,
    takeInbox_one (some _) rfl rfl⟩,
  ⟨wRun, 0, by decide +kernel⟩,
  ⟨wFab fun f => { f with roleOn := true, role := 2, history := [(1, [[]])] }, by decide +kernel⟩,
  ⟨wRun, by decide +kernel⟩,
  ⟨wFab fun f => { f with obeyed := 41, inbox := [(3, 9, wPlan)] }, 9, wPlan, (wFab fun f =>
    { f with obeyed := 41 }).dev, by decide +kernel, by decide +kernel, takeInbox_one none rfl rfl⟩,
  ⟨wRun, by decide +kernel⟩,
  ⟨wOn fun d => wReg Reg.GLB_STRAP 0x10 { d with fab := { d.fab with role := 1, inbox := [(5, 9, wSnap)] } }, 9,
    wSnap, (wOn fun d => wReg Reg.GLB_STRAP 0x10 { d with fab := { d.fab with role := 1 } }).dev, _,
    by decide +kernel, takeInbox_one none rfl rfl, by decide +kernel, by decide +kernel,
    by rw [wSnap, List.length_replicate]; rfl, by decide +kernel, rfl⟩⟩

theorem wit_DramLines :
  (∃ (s : State) (r : Fin 4) (m : Nat) (ecc : DramEcc) (k : Nat), Runs s ∧ m < s.dev.regionLines r ∧ s.dev.writeWaits
    r m = none ∧ s.dev.copyFor r m = some k ∧ s.dev.stackLost k = false ∧ s.dev.flows (memDom k (lineAt
    (s.dev.stackLine r m)).channel) = true) ∧
  (∃ (s : State) (r : Fin 4) (m : Nat) (a : Nat) (b : Nat) (ecc : DramEcc), Runs s ∧ (r.val = 1 ∨ r.val = 3) ∧ m <
    s.dev.regionLines r ∧ s.dev.writeWaits r m = none ∧ readOrder r m = [a, b] ∧ s.dev.copyOut a (s.dev.stackLine r m)
    = true ∧ s.dev.copyOut b (s.dev.stackLine r m) = false ∧ s.dev.flows (memDom b (lineAt (s.dev.stackLine r
    m)).channel) = true) ∧
  (∃ (s : State) (r : Fin 4) (m : Nat) (ecc : DramEcc) (k : Nat) (b : Nat), Runs s ∧ m < s.dev.regionLines r ∧
    s.dev.writeWaits r m = none ∧ s.dev.copyFor r m = some k ∧ b = memDom k (lineAt (s.dev.stackLine r m)).channel ∧
    s.dev.flows b = false) ∧
  (∃ (s : State) (r : Fin 4) (m : Nat) (ecc : DramEcc), Runs s ∧ s.dev.regionLines r ≤ m) ∧
  (∃ (s : State) (r : Fin 4) (m : Nat) (line : Bytes), Runs s ∧ m < s.dev.regionLines r ∧ line.length = 64 ∧
    s.dev.lineAlive r m = true ∧ (∀ k ∈ copiesOf r m, s.dev.flows (memDom k (lineAt (s.dev.stackLine r m)).channel) =
    true)) ∧
  (∃ (s : State) (r : Fin 4) (m : Nat) (b : Nat) (line : Bytes), Runs s ∧ m < s.dev.regionLines r ∧ s.dev.stopped
    ((copiesOf r m).map fun k => memDom k (lineAt (s.dev.stackLine r m)).channel) = some b) ∧
  (∃ (d : Dev) (n : Fin 73), n.val ≤ 5) ∧
  (∃ (s : State) (k : Fin 8) (ecc : DramEcc) (n : Nat), Clocked (pllMclk k) s ∧ n = (s.dev.mcOf k).scrub ∧ bit
    (s.dev.reg (Reg.MC_CTRL k)) 8 = true ∧ s.dev.canServe k n = true ∧ n + 1 ≠ 2 ^ 28) ∧
  (∃ (s : State) (k : Fin 8) (ecc : DramEcc) (n : Nat), Clocked (pllMclk k) s ∧ n = (s.dev.mcOf k).scrub ∧ bit
    (s.dev.reg (Reg.MC_CTRL k)) 8 = true ∧ s.dev.canServe k n = true ∧ n + 1 = 2 ^ 28) ∧
  (∃ (s : State) (k : Fin 8) (ecc : DramEcc), Clocked (pllMclk k) s ∧ bit (s.dev.reg (Reg.MC_CTRL k)) 8 = false) :=
  ⟨⟨wOn wDram, 0, 7, .symbols 0, 7, by decide +kernel⟩,
  ⟨wOn fun d => (wDram d).modMc 0 fun m => { m with st := .lost }, 1, 0, 0, 4, .symbols 0, by decide +kernel⟩,
  ⟨wTrain, 0, 7, .symbols 0, 7, _, by decide +kernel, by decide +kernel, by decide +kernel, by decide +kernel, rfl,
    by decide +kernel⟩,
  ⟨wRun, 3, 4 * 512 * 2 ^ 14, .symbols 0, by decide +kernel⟩,
  ⟨wOn wDram, 3, 4 * 512 * 2 ^ 14 - 1, List.replicate 64 7#8, by decide +kernel⟩,
  ⟨wTrain, 0, 0, 64, [], by decide +kernel⟩,
  ⟨wDev, 0, by decide +kernel⟩,
  ⟨wOn fun d => wReg (Reg.MC_CTRL 7) 0x100 (wDram d), 7, .symbols 0, 0, by decide +kernel⟩,
  ⟨wOn fun d => wReg (Reg.MC_CTRL 7) 0x100 ((wDram d).modMc 7 fun m => { m with scrub := 2 ^ 28 - 1 }), 7, .symbols 0,
    2 ^ 28 - 1, by decide +kernel⟩,
  ⟨wOn (wReg (Reg.MC_CTRL 7) 0), 7, .symbols 0, by decide +kernel⟩⟩

theorem wit_DramChannels :
  (∃ (s : State) (k : Fin 8) (c : Fin 16) (wr : Bool) (failed : Bool) (after : Fin 32), Clocked (pllMclk k) s ∧
    (s.dev.mcOf k).st ≠ .ready) ∧
  (∃ (s : State) (k : Fin 8) (c : Fin 16) (wr : Bool) (after : Fin 32), Clocked (pllMclk k) s ∧ (s.dev.mcOf k).st =
    .ready ∧ (s.dev.chan k c).recovering = false ∧ (s.dev.chan k c).pause = none ∧ (∀ j, ∀ p ∈ (s.dev.mcOf j).chans,
    p.2.waiting = [])) ∧
  (∃ (s : State) (k : Fin 8) (c : Fin 16) (wr : Bool) (after : Fin 32), Clocked (pllMclk k) s ∧ (s.dev.mcOf k).st =
    .ready ∧ (∀ p ∈ (s.dev.mcOf k).chans, p.2.recovering = false) ∧ (s.dev.chan k c).pause = none ∧ (s.dev.chan k
    c).replaying = true ∧ (s.dev.chan k c).replays = 7 ∧ (∀ j, ∀ p ∈ (s.dev.mcOf j).chans, p.2.waiting = [])) ∧
  (∃ (s : State) (k : Fin 8) (c : Fin 16), Clocked (pllMclk k) s ∧ (s.dev.chan k c).recovering = true) ∧
  (∃ (s : State) (k : Fin 8) (c : Fin 16) (ok : Bool), Clocked (pllMclk k) s ∧ (s.dev.chan k c).recovering = false) ∧
  (∃ (s : State) (k : Fin 8) (c : Fin 16) (b : Fin 128), Clocked (pllMclk k) s ∧ (s.dev.mcOf k).st = .ready) ∧
  (∃ (s : State) (k : Fin 8) (c : Fin 16) (r : Fin 2), Clocked (pllMclk k) s ∧ (s.dev.mcOf k).st = .ready ∧ bit
    (s.dev.reg (Reg.MC_CTRL k)) 4 = true ∧ (s.dev.chan k c).busy = false ∧ (s.dev.chan k c).pd.getLsbD r = false) ∧
  (∃ (s : State) (k : Fin 8) (c : Fin 16), Clocked (pllMclk k) s ∧ (s.dev.chan k c).pause = none) ∧
  (∃ (s : State) (k : Fin 8) (c : Fin 16) (ns : Nat), Clocked (pllMclk k) s ∧ (s.dev.chan k c).pause = some ns) ∧
  (∃ (s : State) (k : Fin 8) (cause : Fin 16), Runs s ∧ (s.dev.mcOf k).st = .ready ∧ (∀ j, j ≠ k.val → (s.dev.mcOf
    j).st ≠ .lost)) ∧
  (∃ (s : State) (k : Fin 8) (cause : Fin 16), Runs s ∧ (s.dev.mcOf k).st = .lost) ∧
  (∃ (s : State), Answers .bar0 Reg.MC_PART_CMD s ∧ s.dev.vint.started = false ∧ s.dev.badPart = false) ∧
  (∃ (s : State), Answers .bar0 Reg.MC_PART_CMD s ∧ s.dev.vint.started = true) :=
  ⟨⟨wRun, 0, 0, false, false, 0, by decide +kernel⟩,
  ⟨wMc 7 { st := .ready }, 7, 15, true, 0, by decide +kernel, by decide +kernel, by decide +kernel, by decide +kernel,
    by intro j; simp only [wMc, wOn, Dev.mcOf, Tbl.get]; split <;> simp⟩,
  ⟨wMc 7 { st := .ready, chans := [(15, { replaying := true, replays := 7 })] }, 7, 15, true, 0, by decide +kernel,
    by decide +kernel, by decide +kernel, by decide +kernel, by decide +kernel, by decide +kernel,
    by intro j; simp only [wMc, wOn, Dev.mcOf, Tbl.get]; split <;> simp⟩,
  ⟨wMc 7 { chans := [(15, { recovering := true })] }, 7, 15, by decide +kernel⟩,
  ⟨wRun, 0, 0, false, by decide +kernel⟩,
  ⟨wOn wDram, 7, 15, 127, by decide +kernel⟩,
  ⟨wOn fun d => wReg (Reg.MC_CTRL 7) 0x10 (wDram d), 7, 15, 1, by decide +kernel⟩,
  ⟨wRun, 0, 0, by decide +kernel⟩,
  ⟨wMc 7 { chans := [(15, { pause := some 400 })] }, 7, 15, 400, by decide +kernel⟩,
  ⟨wMc 7 { st := .ready }, 7, 0, by decide +kernel, by decide +kernel,
    by intro j; simp only [wMc, wOn, Dev.mcOf, Tbl.get]; split <;> simp⟩,
  ⟨wMc 7 { st := .lost }, 7, 1, by decide +kernel⟩,
  ⟨wOn fun d => { d with vint := {} }, by decide +kernel⟩,
  ⟨wRun, by decide +kernel⟩⟩

theorem wit_HostRings :
  (∃ (s : State) (q : Fin 16384) (v : Word) (t : Nat) (d : Dev), Clocked pllHost s ∧ s.dev.busUp .bar0 = true ∧ d =
    s.dev.hostWakes .bar0 ∧ t = fld v 19 0 ∧ fld v 31 20 = 0 ∧ (d.sq q).st = .active ∧ t < d.sqSize q) ∧
  (∃ (s : State) (q : Fin 16384) (v : Word) (p : Bool) (d : Dev), Clocked pllHost s ∧ s.dev.busUp .bar0 = true ∧ d =
    s.dev.hostWakes .bar0 ∧ (p = true ∨ fld v 31 20 ≠ 0 ∨ (d.sq q).st ≠ .active ∨ d.sqSize q ≤ fld v 19 0)) ∧
  (∃ (s : State) (c : Fin 4096) (v : Word), Clocked pllHost s ∧ s.dev.busUp .bar0 = true ∧ fld v 31 16 = 0 ∧ (s.dev.cq
    c).on = true ∧ fld v 15 0 < s.dev.cqSize c ∧ ringDist (s.dev.cqSize c) (s.dev.cq c).head (fld v 15 0) ≤ ringDist
    (s.dev.cqSize c) (s.dev.cq c).head (s.dev.cq c).tail ∧ (s.dev.cq c).held = []) ∧
  (∃ (s : State) (c : Fin 4096) (v : Word) (p : Bool) (d : Dev), Clocked pllHost s ∧ s.dev.busUp .bar0 = true ∧ d =
    s.dev.hostWakes .bar0 ∧ (p = true ∨ fld v 31 16 ≠ 0 ∨ (d.cq c).on = false ∨ d.cqSize c ≤ fld v 15 0)) ∧
  (∃ (s : State) (q : Fin 16384) (u : Bytes), Clocked pllHost s ∧ s.dev.wantsUnit q = true ∧ (s.dev.mayFetch q).1 =
    true ∧ ((s.dev.sq q).unitOut = true ∨ s.dev.servedRing = some q.val) ∧ (u.getD 0 0).getLsbD 7 = (s.dev.sq q).phase
    ∧ 0 < (u.getD 2 0).toNat ∧ (u.getD 2 0).toNat ≤ 128 ∧ (s.dev.sq q).head + (u.getD 2 0).toNat < s.dev.sqSize q) ∧
  (∃ (s : State) (q : Fin 16384) (u : Bytes), Clocked pllHost s ∧ s.dev.wantsUnit q = true ∧ (s.dev.mayFetch q).1 =
    true ∧ ((s.dev.sq q).unitOut = true ∨ s.dev.servedRing = some q.val) ∧ (u.getD 0 0).getLsbD 7 ≠ (s.dev.sq
    q).phase) ∧
  (∃ (s : State) (q : Fin 16384) (u : Option Bytes), Clocked pllHost s ∧ (s.dev.sq q).unitOut = false ∧
    s.dev.servedRing ≠ some q.val) ∧
  (∃ (s : State) (q : Fin 16384), Clocked pllHost s ∧ (s.dev.sq q).st = .active ∧ (s.dev.sq q).polls ≠ 0 ∧ (s.dev.sq
    q).waitDb = false ∧ (s.dev.sq q).unitOut = false ∧ s.dev.busMaster = true) ∧
  (∃ (s : State) (q : Fin 16384) (bs : Bytes) (e : SqEnt), Clocked pllHost s ∧ ((s.dev.sq q).ents.find? fun e => e.st
    = .reading) = some e) ∧
  (∃ (s : State) (q : Fin 16384) (e : SqEnt), Clocked pllHost s ∧ ((s.dev.sq q).ents.find? fun e => e.st = .reading) =
    some e) ∧
  (∃ (s : State) (q : Fin 16384), Clocked pllHost s ∧ s.dev.wantsUnit q = true ∧ (s.dev.mayFetch q).1 = true ∧
    (s.dev.sq q).unitOut = true) ∧
  (∃ (s : State) (q : Fin 16384), Clocked pllHost s ∧ s.dev.nextEnded q = none) ∧
  (∃ (s : State) (q : Fin 16384) (r : Nat) (e : SqEnt), Clocked pllHost s ∧ s.dev.nextEnded q = some (r, e)) ∧
  (∃ (s : State) (q : Fin 16384), Answers .bar0 (Reg.HOST_SQ_CTRL q) s ∧ s.dev.sqValid q = true ∧ bit (s.dev.reg
    (Reg.HOST_SQ_CTRL q)) 31 = false) ∧
  (∃ (s : State) (q : Fin 16384), Answers .bar0 (Reg.HOST_SQ_CTRL q) s ∧ s.dev.sqValid q = false ∧ bit (s.dev.reg
    (Reg.HOST_SQ_CTRL q)) 31 = false) ∧
  (∃ (s : State) (q : Fin 16384), Answers .bar0 (Reg.HOST_SQ_CTRL q) s ∧ bit (s.dev.reg (Reg.HOST_SQ_CTRL q)) 31 =
    true ∧ (s.dev.sq q).st = .active ∧ s.dev.host.punt = none ∧ (s.dev.sq q).ents = []) ∧
  (∃ (s : State) (q : Fin 16384), Clocked pllHost s ∧ (s.dev.sq q).st = .draining ∧ (s.dev.sq q).ents = []) ∧
  (∃ (s : State) (c : Fin 4096), Answers .bar0 (Reg.HOST_CQ_CTRL c) s ∧ (s.dev.cq c).on = false ∧ s.dev.cqBase c %
    4096 = 0 ∧ 16 ≤ s.dev.cqSize c ∧ s.dev.cqSize c ≤ 65536) ∧
  (∃ (s : State) (c : Fin 4096), Answers .bar0 (Reg.HOST_CQ_CTRL c) s ∧ (s.dev.cq c).on = true ∧ (s.dev.cq c).held =
    [] ∧ (∀ p ∈ s.dev.host.sqs, s.dev.sqCq p.1 = c.val → p.2.st = .disabled)) ∧
  (∃ (s : State) (q : Fin 16384) (e : SqEnt), Clocked pllHost s ∧ (∀ x ∈ (s.dev.sq q).ents, x.st ≠ .frame) ∧
    ((s.dev.sq q).ents.find? fun e => e.st = .reading) = some e ∧ (s.dev.sq q).st = .active) :=
  ⟨⟨wHost 2 { st := .active }, 16383, 63, 63, _, by decide +kernel, by decide +kernel, rfl, by decide +kernel,
    by decide +kernel, by decide +kernel, by decide +kernel⟩,
  ⟨wRun, 0, 0, false, wDev, by decide +kernel⟩,
  ⟨wHost 2 { st := .active }, 0, 0, by decide +kernel⟩,
  ⟨wRun, 0, 0, false, wDev, by decide +kernel⟩,
  ⟨wHost 2 { st := .active, unitOut := true, tailSeen := 5 }, 16383, [0, 0, 5], by decide +kernel⟩,
  ⟨wHost 2 { st := .active, unitOut := true, tailSeen := 5 }, 16383, [128, 0, 5], by decide +kernel⟩,
  ⟨wRun, 16383, none, by decide +kernel⟩,
  ⟨wHost 0 { st := .active, polls := 1 }, 16383, by decide +kernel⟩,
  ⟨wHost 0 { st := .active, ents := [{}] }, 16383, [], {}, by decide +kernel⟩,
  ⟨wHost 0 { st := .active, ents := [{}] }, 16383, {}, by decide +kernel⟩,
  ⟨wHost 2 { st := .active, unitOut := true, tailSeen := 5 }, 16383, by decide +kernel⟩,
  ⟨wRun, 0, by decide +kernel⟩,
  ⟨wHost 0 { st := .active, ents := [{ st := .ended }] }, 16383, 16383, { st := .ended }, by decide +kernel⟩,
  ⟨wOn fun d => wReg (Reg.HOST_SQ_SIZE 16383) 64 { d with host := { d.host with cqs := [(0, { on := true })] } },
    16383, by decide +kernel⟩,
  ⟨wRun, 0, by decide +kernel⟩,
  ⟨wHost 0 { st := .active }, 16383, by decide +kernel⟩,
  ⟨wHost 0 { st := .draining }, 16383, by decide +kernel⟩,
  ⟨wOn (wReg (Reg.HOST_CQ_SIZE 4095) 65536), 4095, by decide +kernel⟩,
  ⟨wOn fun d => { d with host := { d.host with cqs := [(0, { on := true })] } }, 0, by decide +kernel⟩,
  ⟨wHost 0 { st := .active, ents := [{}] }, 16383, {}, by decide +kernel⟩⟩

theorem wit_HostEngines :
  (∃ (s : State) (speed : Fin 6) (w : Fin 17), Clocked pllHost s ∧ s.dev.clocked pllPciePhy = true ∧ s.dev.host.link =
    7 ∧ speed.val ≠ 0 ∧ pcieWidth w = true) ∧
  (∃ (s : State) (speed : Fin 6) (w : Fin 17) (c : CfgWrite), Clocked pllHost s ∧ s.dev.host.link ≠ 7) ∧
  (∃ (s : State), Runs s) ∧
  (∃ (s : State), Runs s ∧ s.dev.host.linkUp = true) ∧
  (∃ (s : State) (q : Fin 16384) (e : SqEnt), Clocked pllHost s ∧ s.dev.sqRuns q = true ∧ s.dev.frontEnt q = some e ∧
    e.op = 0) ∧
  (∃ (s : State) (q : Fin 16384) (e : SqEnt), Clocked pllHost s ∧ s.dev.sqRuns q = true ∧ s.dev.frontEnt q = some e ∧
    opListed (s.dev.sqKind q) e.op = false) ∧
  (∃ (s : State) (q : Fin 16384) (e : SqEnt), Clocked pllHost s ∧ s.dev.sqKind q = 0 ∧ s.dev.sqRuns q = true ∧
    s.dev.frontEnt q = some e ∧ e.op = 1 ∧ s.dev.spr.cellar = false ∧ e.injOk = true ∧ e.injInline = true ∧
    s.dev.framesOut q = false) ∧
  (∃ (s : State) (q : Fin 16384) (e : SqEnt), Clocked pllHost s ∧ s.dev.sqKind q = 0 ∧ s.dev.sqRuns q = true ∧
    s.dev.frontEnt q = some e ∧ e.op = 2 ∧ s.dev.spr.cellar = false ∧ e.injOk = true ∧ e.injInline = false ∧
    s.dev.busMaster = true) ∧
  (∃ (s : State) (q : Fin 16384) (e : SqEnt) (bs : Bytes), Clocked pllHost s ∧ ((s.dev.sq q).ents.find? fun e => e.st
    = .frame) = some e ∧ s.dev.spr.cellar = false) ∧
  (∃ (s : State) (q : Fin 16384) (e : SqEnt), Clocked pllHost s ∧ ((s.dev.sq q).ents.find? fun e => e.st = .frame) =
    some e) ∧
  (∃ (s : State) (q : Fin 16384) (e : SqEnt), Clocked pllHost s ∧ s.dev.sqKind q = 1 ∧ s.dev.sqRuns q = true ∧
    s.dev.frontEnt q = some e ∧ e.op = 3 ∧ e.postOk = true) ∧
  (∃ (s : State) (q : Fin 16384) (e : SqEnt), Runs s ∧ s.dev.stopped (s.dev.batchClocks q) = none ∧ s.dev.sqKind q = 2
    ∧ s.dev.sqRuns q = true ∧ s.dev.frontEnt q = some e ∧ e.op = 0x11) ∧
  (∃ (s : State) (q : Fin 16384) (b : Nat), Runs s ∧ s.dev.stopped (s.dev.batchClocks q) = some b) ∧
  (∃ (s : State) (hq : Nat) (r : Nat) (rest : Bytes) (k : Pkt), Clocked pllHost s ∧ s.dev.host.punt = some (hq, r,
    rest, k) ∧ rest ≠ [] ∧ s.dev.busMaster = true) ∧
  (∃ (s : State), Clocked pllHost s ∧ s.dev.host.punt = none ∧ (∀ k ∈ (s.dev.noms 9).head?, k.left ≠ 0)) ∧
  (∃ (s : State) (hq : Nat) (r : Nat) (k : Pkt), Clocked pllHost s ∧ s.dev.host.punt = some (hq, r, [], k)) ∧
  (∃ (s : State) (v : Fin 2048), Clocked pllHost s ∧ fld (s.dev.reg (Reg.HOST_VEC_MOD v)) 9 0 ≠ 0 ∧ (s.dev.vec
    v).unsig ≠ 0 ∧ s.dev.busMaster = true ∧ s.dev.host.msix = true ∧ s.dev.host.fnMask = false ∧ (s.dev.vec v).masked
    = false ∧ s.dev.host.link = 0) ∧
  (∃ (s : State) (v : Fin 2048), Clocked pllHost s ∧ fld (s.dev.reg (Reg.HOST_VEC_MOD v)) 9 0 ≠ 0 ∧ (s.dev.vec
    v).unsig ≠ 0 ∧ s.dev.host.d3 = false ∧ ((s.dev.vec v).masked = true ∨ s.dev.host.fnMask = true ∨ s.dev.host.msix =
    false)) ∧
  (∃ (s : State) (v : Fin 2048) (dw : Fin 4) (w : Word), Clocked pllHost s ∧ s.dev.host.linkUp = true ∧ (s.dev.vec
    v).pba = false) ∧
  (∃ (s : State) (v : Fin 2048) (w : Word), Clocked pllHost s ∧ s.dev.busMaster = true ∧ s.dev.host.msix = true ∧
    s.dev.host.fnMask = false ∧ (s.dev.vec v).pba = true ∧ bit w 0 = false) ∧
  (∃ (s : State) (v : Fin 2048) (dw : Fin 4) (w : Word), Clocked pllHost s ∧ s.dev.host.linkUp = false) ∧
  (∃ (s : State), Clocked pllHost s ∧ s.dev.host.linkUp = true ∧ s.dev.host.d3 = false ∧ s.dev.host.punt = none ∧ (∀ p
    ∈ s.dev.host.sqs, p.2.ents = [])) ∧
  (∃ (s : State), Clocked pllHost s ∧ s.dev.host.d3 = true ∧ s.dev.host.cqs = [] ∧ s.dev.host.vecs = [] ∧
    s.dev.host.dmaHeld = []) :=
  ⟨⟨wRun, 5, 16, by decide +kernel⟩,
  ⟨wHost 0 {}, 5, 16, ⟨0,0,0⟩, by decide +kernel⟩,
  ⟨wRun, by decide +kernel⟩,
  ⟨wHost 0 {}, by decide +kernel⟩,
  ⟨wRing 0 { st := .ready }, 5, { st := .ready }, by decide +kernel⟩,
  ⟨wRing 1 { st := .ready, op := 1 }, 5, { st := .ready, op := 1 }, by decide +kernel⟩,
  ⟨wRing 0 (wInj 1 true), 5, wInj 1 true, by decide +kernel⟩,
  ⟨wHost 0 { st := .active, ents := [wInj 2 false] }, 16383, wInj 2 false, by decide +kernel⟩,
  ⟨wRing 0 { st := .frame }, 5, { st := .frame }, [], by decide +kernel⟩,
  ⟨wRing 0 { st := .frame }, 5, { st := .frame }, by decide +kernel⟩,
  ⟨wRing 1 wPost, 5, wPost, by decide +kernel⟩,
  ⟨wRing 2 { st := .ready, op := 0x11 }, 5, { st := .ready, op := 0x11 }, by decide +kernel⟩,
  ⟨wOn fun d => wReg (Reg.HOST_SQ_CTRL 5) (put 2 28) ({ d with boot := { d.boot with plls := 0 } }.setSq 5
    { st := .active, ents := [{ st := .ready, op := 0x11 }] }), 5, 14, by decide +kernel⟩,
  ⟨wOn fun d => { d with host := { d.host with linkUp := true, bme := true, punt := some (1, 2, [3], {}) } }, 1, 2,
    [3], {}, by decide +kernel⟩,
  ⟨wRun, by decide +kernel⟩,
  ⟨wOn fun d => { d with host := { d.host with punt := some (1, 2, [], {}) } }, 1, 2, {}, by decide +kernel⟩,
  ⟨wOn fun d => wReg (Reg.HOST_VEC_MOD 2047) 1
    { d with host := { d.host with linkUp := true, link := 0, bme := true, msix := true, vecs := [(2047, { unsig := 1, masked := false })] } },
    2047, by decide +kernel⟩,
  ⟨wOn fun d => wReg (Reg.HOST_VEC_MOD 2047) 1 { d with host := { d.host with vecs := [(2047, { unsig := 1 })] } },
    2047, by decide +kernel⟩,
  ⟨wHost 0 {}, 2047, 0, 0, by decide +kernel⟩,
  ⟨wOn fun d =>
    { d with host := { d.host with linkUp := true, link := 0, bme := true, msix := true, vecs := [(2047, { pba := true })] } },
    2047, 0, by decide +kernel⟩,
  ⟨wRun, 2047, 0, 0, by decide +kernel⟩,
  ⟨wOn fun d => { d with host := { d.host with linkUp := true } }, by decide +kernel⟩,
  ⟨wOn fun d => { d with host := { d.host with d3 := true } }, by decide +kernel⟩⟩

theorem wit_Spares :
  (∃ (s : State) (n : Fin 9), Clocked pllF s ∧ s.dev.hung n = false) ∧
  (∃ (s : State) (n : Fin 9) (g : Nat) (k : Nat), Clocked pllF s ∧ s.dev.hung n = true ∧ s.dev.spr.cellar = false ∧
    s.dev.vint.started = true ∧ (s.dev.slice n).pg = some g ∧ s.dev.fitSpare = some k) ∧
  (∃ (s : State) (r : Rack), Clocked pllF s ∧ s.dev.spr.rack = some r ∧ r.begun = false) ∧
  (∃ (s : State) (r : Rack), Clocked pllF s ∧ s.dev.spr.rack = some r ∧ r.begun = true ∧ s.dev.tableLost = false ∧
    r.pg < 8 ∧ s.dev.spr.claims.length = 8 ∧ s.dev.spr.lastHolder.length = 8) ∧
  (∃ (s : State) (r : Rack), Clocked pllF s ∧ s.dev.spr.rack = some r ∧ r.begun = true ∧ s.dev.spr.cellar = false) ∧
  (∃ (s : State) (r : Rack), Clocked pllF s ∧ s.dev.spr.rack = some r ∧ r.since + 2 * 10 ^ 6 ≤ s.dev.time.tsc ∧
    s.dev.spr.cellar = false) ∧
  (∃ (s : State), Clocked pllF s ∧ (∀ r ∈ s.dev.spr.rack, s.dev.time.tsc < r.since + 2 * 10 ^ 6)) ∧
  (∃ (s : State) (n : Fin 9) (g : Fin 8), Clocked pllF s) ∧
  (∃ (s : State) (n : Fin 9), Clocked pllF s ∧ s.dev.spr.cellar = false ∧ s.dev.drained n = true) ∧
  (∃ (s : State) (n : Fin 9), Clocked pllF s ∧ s.dev.drained n = false) ∧
  (∃ (s : State), Clocked pllF s) ∧
  (∃ (s : State) (n : Nat), Clocked pllF s ∧ s.dev.spr.rack = none ∧ s.dev.spareSlice = some n ∧ s.dev.spr.tasting =
    true) ∧
  (∃ (s : State) (n : Nat) (r : Taste), Clocked pllF s ∧ s.dev.spr.rack = none ∧ s.dev.spareSlice = some n ∧
    s.dev.spr.tasting = true ∧ r ≠ .pass) ∧
  (∃ (s : State) (n : Nat), Clocked pllF s ∧ s.dev.spr.rack = none ∧ s.dev.spareSlice = some n ∧ s.dev.spr.tasting =
    true) ∧
  (∃ (s : State) (n : BitVec 4), Answers .bar0 Reg.SPR_FORCE s ∧ s.dev.locked 2 = false ∧ s.dev.forceActs = false ∧
    s.dev.spr.cellar = false ∧ n.toNat < 9 ∧ (s.dev.slice n.toNat).st = .active) ∧
  (∃ (s : State) (g : Fin 8) (k : Nat) (h : Nat), Answers .bar0 Reg.SPR_FORCE s ∧ s.dev.locked 2 = false ∧
    s.dev.forceActs = false ∧ s.dev.spr.cellar = false ∧ s.dev.fitSpare = some k ∧ s.dev.holder g = some h ∧
    s.dev.spr.claims.getD g 0 < 0xFFF0) ∧
  (∃ (s : State), Answers .bar0 Reg.SPR_FORCE s ∧ s.dev.locked 2 = false ∧ s.dev.forceActs = false ∧ s.dev.spr.cellar
    = false) ∧
  (∃ (s : State), Answers .bar0 Reg.SPR_FORCE s ∧ s.dev.locked 2 = true) ∧
  (∃ (s : State) (r : Taste), Clocked pllF s ∧ s.dev.spr.rack.isSome = true) :=
  ⟨⟨wRun, 0, by decide +kernel⟩,
  ⟨wOn fun d => wReg Reg.SPR_HANG 1 ({ d with time := { d.time with tsc := 1000 } }.modSlice 3 fun x =>
    { x with order := [{}] }), 3, 3, 8, by decide +kernel⟩,
  ⟨wRack false, ⟨8, 3, 3, false, false, 0⟩, by decide +kernel⟩,
  ⟨wRack true, ⟨8, 3, 3, false, true, 0⟩, by decide +kernel⟩,
  ⟨wRack true, ⟨8, 3, 3, false, true, 0⟩, by decide +kernel⟩,
  ⟨wOn fun d =>
    { d with time := { d.time with tsc := 2000000 }, spr := { d.spr with rack := some ⟨8, 3, 3, false, true, 0⟩ } },
    ⟨8, 3, 3, false, true, 0⟩, by decide +kernel⟩,
  ⟨wRack true, by decide +kernel⟩,
  ⟨wRun, 0, 0, by decide +kernel⟩,
  ⟨wSlice 3 fun x => { x with st := .draining, pg := none }, 3, by decide +kernel⟩,
  ⟨wRun, 0, by decide +kernel⟩,
  ⟨wRun, by decide +kernel⟩,
  ⟨wOn fun d => { d with spr := { d.spr with tasting := true } }, 8, by decide +kernel⟩,
  ⟨wOn fun d => { d with spr := { d.spr with tasting := true } }, 8, .bist 0, by decide +kernel⟩,
  ⟨wOn fun d => { d with spr := { d.spr with tasting := true } }, 8, by decide +kernel⟩,
  ⟨wRun, 0, by decide +kernel⟩,
  ⟨wRun, 7, 8, 7, by decide +kernel⟩,
  ⟨wRun, by decide +kernel⟩,
  ⟨wOn fun d => { d with lock := 4#5 }, by decide +kernel⟩,
  ⟨wRack true, .pass, by decide +kernel⟩⟩

theorem wit_Mailbox :
  (∃ (s : State) (src : MbxSrc), Waits src 1 s) ∧
  (∃ (s : State) (src : MbxSrc), Waits src 2 s) ∧
  (∃ (s : State) (src : MbxSrc) (given : Bytes) (p : Bytes) (a : Nat) (n : Nat), Waits src 3 s ∧ p = s.dev.mbxPayload
    (srcCode src) given ∧ 8 ≤ p.length ∧ a = unle (Machine.slice p 0 4) ∧ n = unle (Machine.slice p 4 4) ∧ 0 < n ∧ n ≤
    1024 ∧ a + n ≤ s.dev.mgmt.nextSlot) ∧
  (∃ (s : State) (src : MbxSrc) (given : Bytes) (p : Bytes), Waits src 3 s ∧ p = s.dev.mbxPayload (srcCode src) given
    ∧ s.dev.mgmt.nextSlot ≤ unle (Machine.slice p 0 4)) ∧
  (∃ (s : State) (src : MbxSrc), Waits src 4 s) ∧
  (∃ (s : State) (src : MbxSrc), Waits src 5 s ∧ (s.dev.mgmt.fw.state ≠ 0 ∨ s.dev.mgmt.clearing ≠ none)) ∧
  (∃ (s : State) (src : MbxSrc), Waits src 5 s ∧ s.dev.mgmt.fw.state = 0 ∧ s.dev.mgmt.clearing = none) ∧
  (∃ (s : State) (src : MbxSrc) (hash : Bytes) (p : Bytes), Waits src 5 s ∧ s.dev.mgmt.fw.state = 0 ∧
    s.dev.mgmt.clearing = none ∧ s.dev.locked lockNvm = false ∧ s.dev.mgmt.ownerHash = some hash ∧ p =
    s.dev.mbxPayload (srcCode src) []) ∧
  (∃ (d : Dev) (c : Nat) (hash : Bytes) (nonce : Bytes), d.mgmt.nextSlot ≠ 0) ∧
  (∃ (s : State) (src : MbxSrc) (p : Bytes), Waits src 8 s ∧ p = s.dev.mbxPayload (srcCode src) [] ∧ s.dev.locked
    lockFuse = false ∧ s.dev.mgmt.ownerHash = none ∧ 48 ≤ p.length) ∧
  (∃ (s : State) (src : MbxSrc), Waits src 8 s ∧ s.dev.locked lockFuse = true) ∧
  (∃ (s : State) (src : MbxSrc) (p : Bytes) (a : Nat) (n : Nat), Waits src 9 s ∧ p = s.dev.mbxPayload (srcCode src) []
    ∧ 8 ≤ p.length ∧ a = unle (Machine.slice p 0 4) ∧ n = unle (Machine.slice p 4 4) ∧ 0 < n ∧ n ≤ 4096 ∧ a + n ≤
    nvEnd) ∧
  (∃ (s : State) (src : MbxSrc) (p : Bytes) (half : Nat), Waits src 10 s ∧ p = s.dev.mbxPayload (srcCode src) [] ∧ 5 ≤
    p.length ∧ (p.length = 5 ∨ 3 ≤ srcCode src) ∧ (p.getD 0 0).toNat = 0 ∧ half = unle (Machine.slice p 1 4) ∧ half ≤
    1 ∧ s.dev.mgmt.fw.state = 0 ∧ s.dev.mgmt.clearing = none ∧ s.dev.locked lockNvm = false) ∧
  (∃ (s : State) (src : MbxSrc) (p : Bytes) (code : Nat) (nvm : NvmCheck), Waits src 10 s ∧ p = s.dev.mbxPayload
    (srcCode src) [] ∧ 5 ≤ p.length ∧ code = (p.getD 0 0).toNat ∧ (code = 1 ∨ code = 2) ∧ s.dev.mgmt.fw.state = 0 ∧
    s.dev.mgmt.clearing = none ∧ s.dev.locked lockNvm = false ∧ hdrCfg s.dev.hdr = code - 1) ∧
  (∃ (s : State) (src : MbxSrc) (p : Bytes) (code : Nat) (a : Nat), Waits src 10 s ∧ p = s.dev.mbxPayload (srcCode
    src) [] ∧ p.length = 5 ∧ code = (p.getD 0 0).toNat ∧ (code = 1 ∨ code = 2) ∧ unle (Machine.slice p 1 4) = 0 ∧
    s.dev.mgmt.fw.state = 0 ∧ s.dev.mgmt.clearing = none ∧ s.dev.locked lockNvm = false ∧ hdrCfg s.dev.hdr ≠ code - 1
    ∧ a = nvHalf (code - 1)) ∧
  (∃ (s : State) (src : MbxSrc) (p : Bytes), Waits src 10 s ∧ p = s.dev.mbxPayload (srcCode src) [] ∧ 5 ≤ p.length ∧
    (p.getD 0 0).toNat = 3 ∧ unle (Machine.slice p 1 4) = 0 ∧ p.length = 5 ∧ s.dev.mgmt.fw.state = 0 ∧
    s.dev.mgmt.clearing = none ∧ s.dev.locked lockNvm = false) ∧
  (∃ (s : State) (src : MbxSrc) (req : BitVec 16), Serves s ∧ s.dev.mbxReqOf (srcCode src) req.toNat = some req.toNat
    ∧ mbxAllowed (srcCode src) req.toNat = false ∧ s.dev.mbxFirst (srcCode src) = true) ∧
  (∃ (s : State) (src : MbxSrc) (r : Nat), Serves s ∧ s.dev.mbxReqOf (srcCode src) 0 = some r) :=
  ⟨⟨wRun, .console, by decide +kernel⟩,
  ⟨wRun, .smbus, by decide +kernel⟩,
  ⟨wReq13 3 (le 4 0 ++ le 4 1) fun m => { m with nextSlot := 1 }, .ring 5, [], le 4 0 ++ le 4 1, 0, 1,
    by decide +kernel⟩,
  ⟨wReq13 3 (le 4 0 ++ le 4 1) id, .ring 5, [], le 4 0 ++ le 4 1, by decide +kernel⟩,
  ⟨wReq13 4 [] id, .ring 5, by decide +kernel⟩,
  ⟨wReq13 5 [] fun m => { m with clearing := some (0, 0, [], []) }, .ring 5, by decide +kernel⟩,
  ⟨wReq13 5 [] id, .ring 5, by decide +kernel⟩,
  ⟨wReq13 5 (List.replicate 193 7) fun m => { m with ownerHash := some [1], nonce := some ([2], 0) }, .ring 5, [1],
    List.replicate 193 7, by decide +kernel⟩,
  ⟨{ mgmt := { nextSlot := 5 } }, 0, [], [], by decide +kernel⟩,
  ⟨wReq13 8 (List.replicate 48 7) id, .ring 5, List.replicate 48 7, by decide +kernel⟩,
  ⟨wOn fun d => wReg (Reg.HOST_SQ_CTRL 5) (put 2 28) ({ d with lock := 31#5 }.setSq 5
    { st := .active, ents := [wMbx 8 []] }), .ring 5, by decide +kernel⟩,
  ⟨wReq13 9 (le 4 0 ++ le 4 4096) id, .ring 5, le 4 0 ++ le 4 4096, 0, 4096, by decide +kernel⟩,
  ⟨wReq13 10 ([0] ++ le 4 1) id, .ring 5, [0] ++ le 4 1, 1, by decide +kernel⟩,
  ⟨wReq13 10 ([1] ++ le 4 0) id, .ring 5, [1] ++ le 4 0, 1, .good, by decide +kernel⟩,
  ⟨wReq13 10 ([2] ++ le 4 0) id, .ring 5, [2] ++ le 4 0, 2, _, by decide +kernel, by decide +kernel,
    by decide +kernel, by decide +kernel, by decide +kernel, by decide +kernel, by decide +kernel, by decide +kernel,
    by decide +kernel, by decide +kernel, rfl⟩,
  ⟨wReq13 10 ([3] ++ le 4 0) id, .ring 5, [3] ++ le 4 0, by decide +kernel⟩,
  ⟨wRun, .smbus, 3, by decide +kernel⟩,
  ⟨wReq13 7 [] id, .ring 5, 7, by decide +kernel⟩⟩

set_option maxRecDepth 65536 in
theorem wit_FirmwareAndEvents :
  (∃ (s : State) (src : MbxSrc) (f : Bytes) (g : Bool) (uhs : Bool) (nvm : NvmCheck), Waits src 6 s ∧
    s.dev.mgmt.fw.state = 0 ∧ s.dev.mgmt.clearing = none ∧ s.dev.locked lockNvm = false ∧ imgHeaderOk f (some
    f.length) = true ∧ s.dev.mgmt.fuseCount ≤ imgEpoch f ∧ imgEpoch f ≤ 64) ∧
  (∃ (s : State) (src : MbxSrc) (g : Bool) (uhs : Bool) (nvm : NvmCheck), Waits src 6 s ∧ s.dev.mgmt.fw.state = 0 ∧
    s.dev.mgmt.clearing = none ∧ s.dev.locked lockNvm = false) ∧
  (∃ (s : State) (src : MbxSrc) (g : Bool) (nvm : NvmCheck), Waits src 6 s ∧ s.dev.mgmt.fw.state = 0 ∧
    s.dev.mgmt.clearing = none ∧ s.dev.locked lockNvm = false) ∧
  (∃ (s : State) (src : MbxSrc), Waits src 7 s ∧ s.dev.mgmt.fw.state ≠ 3) ∧
  (∃ (s : State), Clocked pllMgmt s ∧ 4 ≤ s.dev.boot.step ∧ s.dev.mgmt.fw.state ≠ 3) ∧
  (∃ (s : State), Clocked pllMgmt s ∧ s.dev.boot.step < 4) ∧
  (∃ (s : State), Clocked pllMgmt s ∧ 4 ≤ s.dev.boot.step ∧ s.dev.mgmt.serving = false ∧ s.dev.mgmt.fw.state = 0 ∧
    s.dev.mgmt.fw.owed = none ∧ s.dev.mgmt.clearing = none ∧ s.dev.fab.rootPend = none) ∧
  (∃ (s : State), Serves s ∧ s.dev.mgmt.fw.state = 3 ∧ s.dev.trialOver = true) ∧
  (∃ (s : State), Serves s ∧ (s.dev.mgmt.fw.state ≠ 3 ∨ s.dev.trialOver = false)) ∧
  (∃ (s : State) (j : FwJob), Serves s ∧ s.dev.mgmt.fw.job = some j) ∧
  (∃ (s : State), Clocked pllMgmt s ∧ s.dev.liveNonce = none) ∧
  (∃ (s : State), Clocked pllMgmt s ∧ s.dev.liveNonce ≠ none) ∧
  (∃ (s : State) (e : Event) (es : List Event), Serves s ∧ s.dev.events = e :: es ∧ s.dev.mgmt.clearing = none ∧
    s.dev.mgmt.full = false ∧ s.dev.mgmt.nextSlot + 1 ≠ eventSlots) ∧
  (∃ (s : State) (e : Event) (es : List Event), Serves s ∧ s.dev.events = e :: es ∧ s.dev.mgmt.clearing = none ∧
    s.dev.mgmt.full = true) ∧
  (∃ (s : State) (c : Nat) (last : Nat) (hash : Bytes) (nonce : Bytes), Serves s ∧ s.dev.mgmt.clearing = some (c,
    last, hash, nonce)) ∧
  (∃ (s : State) (ts : List (BitVec 12)), s.dev.powered = true ∧ s.dev.mgmt.aonOn = true ∧ s.dev.inReset = true) ∧
  (∃ (s : State) (ts : List (BitVec 12)) (i : Nat), s.dev.powered = true ∧ s.dev.mgmt.aonOn = true ∧ i < 40 ∧
    dieSensor i = true ∧ s.dev.mgmt.thermtripN = false ∧ hotAt (ts.getD i 0#12) 118 = true ∧ Tbl.get 0
    s.dev.mgmt.tripRun i = 2 ∧ (∀ p ∈ s.dev.mgmt.tripRun, p.1 < 40)) ∧
  (∃ (s : State) (ts : List (BitVec 12)), s.dev.mgmt.aonOn = false) ∧
  (∃ (s : State) (mv : List (BitVec 16)) (p : BitVec 16), Clocked pllMgmt s) :=
  ⟨⟨wReq13 6 [] id, .ring 5, wImg, true, true, .good, by decide +kernel⟩,
  ⟨wRun, .console, true, true, .good, by decide +kernel⟩,
  ⟨wRun, .console, true, .good, by decide +kernel⟩,
  ⟨wReq13 7 [] id, .ring 5, by decide +kernel⟩,
  ⟨wRun, by decide +kernel⟩,
  ⟨wBoot fun b => { b with step := 3 }, by decide +kernel⟩,
  ⟨wMg fun m => { m with serving := false }, by decide +kernel⟩,
  ⟨wOn fun d =>
    { d with time := { d.time with tsc := 600 * 10 ^ 9 }, mgmt := { d.mgmt with fw := { d.mgmt.fw with state := 3 } } },
    by decide +kernel⟩,
  ⟨wRun, by decide +kernel⟩,
  ⟨wMg fun m => { m with fw := { m.fw with job := some ⟨0, [], true, .good⟩ } }, ⟨0, [], true, .good⟩,
    by decide +kernel⟩,
  ⟨wRun, by decide +kernel⟩,
  ⟨wMg fun m => { m with nonce := some ([2], 0) }, by decide +kernel⟩,
  ⟨wOn fun d => { d with events := [wEv] }, wEv, [], by decide +kernel⟩,
  ⟨wOn fun d => { d with events := [wEv], mgmt := { d.mgmt with full := true } }, wEv, [], by decide +kernel⟩,
  ⟨wMg fun m => { m with clearing := some (0, 5, [], []) }, 0, 5, [], [], by decide +kernel⟩,
  ⟨{ dev := { inReset := true } }, [], by decide +kernel⟩,
  ⟨wMg fun m => { m with tripRun := [(39, 2)] }, List.replicate 40 472#12, 39, by decide +kernel⟩,
  ⟨wMg fun m => { m with aonOn := false }, [], by decide +kernel⟩,
  ⟨wRun, [], 0, by decide +kernel⟩⟩

theorem wit_RegisterRows :
  (∃ (s : State) (p : Path) (off : BitVec 26) (v : Word) (h : RegHit), Reaches p off.toNat s ∧ s.dev.lnch.entries = []
    ∧ s.dev.refuse p off.toNat = none ∧ decodeReg off.toNat = some h ∧ h.row.sqc = 0#32 ∧ h.block = .schd ∧ h.alias_ =
    false) ∧
  (∃ (s : State) (p : Path) (off : BitVec 26) (v : Word), Runs s ∧ s.dev.busUp p = true ∧ s.dev.hostWakes p = s.dev ∧
    s.dev.stopped (pathClocks p) = none) ∧
  (∃ (s : State) (p : Path) (off : BitVec 26) (v : Word) (b : Nat), Runs s ∧ s.dev.busUp p = true ∧ s.dev.stopped
    (s.dev.busClocks p off.toNat) = some b ∧ s.dev.hostWakes p = s.dev) ∧
  (∃ (s : State) (p : Path) (off : BitVec 26) (v : Word) (b : Bool), Runs s ∧ s.dev.busUp p = false) ∧
  (∃ (s : State) (p : Path) (off : BitVec 26) (v : Word) (h : RegHit), Reaches p off.toNat s ∧ s.dev.lnch.entries = []
    ∧ s.dev.refuse p off.toNat = none ∧ decodeReg off.toNat = some h ∧ h.row.sqc ≠ 0#32 ∧ h.alias_ = false ∧ fld v 31
    24 = fld (s.dev.reg h.key) 31 24) ∧
  (∃ (s : State) (p : Path) (off : BitVec 26) (v : Word) (h : RegHit), Reaches p off.toNat s ∧ s.dev.lnch.entries = []
    ∧ s.dev.refuse p off.toNat = none ∧ decodeReg off.toNat = some h ∧ h.row.sqc ≠ 0#32 ∧ h.alias_ = false ∧ fld v 31
    24 ≠ fld (s.dev.reg h.key) 31 24) ∧
  (∃ (s : State) (v : Word), Answers .bar0 0x08 s) ∧
  (∃ (s : State) (p : Path) (off : BitVec 26) (h : RegHit), Reaches p off.toNat s ∧ s.dev.silent off.toNat = false ∧
    fdieOffset off.toNat = false ∧ decodeReg off.toNat = some h ∧ h.alias_ = false ∧ counterOf h = none ∧ h.block =
    .host ∧ pairHalf h = 1) ∧
  (∃ (s : State) (p : Path) (off : BitVec 26) (h : RegHit) (b : Nat) (i : Nat), Reaches p off.toNat s ∧ s.dev.silent
    off.toNat = false ∧ fdieOffset off.toNat = false ∧ decodeReg off.toNat = some h ∧ h.alias_ = false ∧ counterOf h =
    some (b, i) ∧ s.dev.chained b i = false ∧ bit (s.dev.reg (Reg.CNT_BANK_CFG b)) 31 = true) ∧
  (∃ (s : State) (p : Path) (off : BitVec 26) (h : RegHit) (b : Nat) (i : Nat), Reaches p off.toNat s ∧ s.dev.silent
    off.toNat = false ∧ fdieOffset off.toNat = false ∧ decodeReg off.toNat = some h ∧ h.alias_ = false ∧ counterOf h =
    some (b, i) ∧ s.dev.chained b i = false ∧ bit (s.dev.reg (Reg.CNT_BANK_CFG b)) 31 = false) :=
  ⟨⟨wRun, .bar0, BitVec.ofNat 26 (Reg.SCHD_PORT_CFG 127), 0xFFFFFFFF, wHit (Reg.SCHD_PORT_CFG 127), by decide +kernel,
    by decide +kernel, by decide +kernel, wHit_eq (by decide +kernel), by decide +kernel, by decide +kernel,
    by decide +kernel⟩,
  ⟨wRun, .ring, 0, 0, by decide +kernel⟩,
  ⟨wBoot fun b => { b with plls := 0 }, .mgmt, BitVec.ofNat 26 (Reg.SCHD_PORT_CFG 127), 0xFFFFFFFF, 16,
    by decide +kernel⟩,
  ⟨wBoot fun b => { b with tdieReady := false }, .bar0, 0, 0, false, by decide +kernel⟩,
  ⟨wRun, .bar0, BitVec.ofNat 26 Reg.TIME_STATUS, 0x00000100, wHit Reg.TIME_STATUS, by decide +kernel,
    by decide +kernel, by decide +kernel, wHit_eq (by decide +kernel), by decide +kernel, by decide +kernel,
    by decide +kernel⟩,
  ⟨wRun, .bar0, BitVec.ofNat 26 Reg.TIME_STATUS, 0x01000100, wHit Reg.TIME_STATUS, by decide +kernel,
    by decide +kernel, by decide +kernel, wHit_eq (by decide +kernel), by decide +kernel, by decide +kernel,
    by decide +kernel⟩,
  ⟨wRun, 0, by decide +kernel⟩,
  ⟨wRun, .bar0, BitVec.ofNat 26 (Reg.HOST_SQ_BASE_LO 16383), wHit (Reg.HOST_SQ_BASE_LO 16383), by decide +kernel,
    by decide +kernel, by decide +kernel, wHit_eq (by decide +kernel), by decide +kernel, by decide +kernel,
    by decide +kernel, by decide +kernel⟩,
  ⟨wOn (wReg (Reg.CNT_BANK_CFG 0) 0x80000000), .bar0, 0x8000, wHit 0x8000, 0, 0, by decide +kernel, by decide +kernel,
    by decide +kernel, wHit_eq (by decide +kernel), by decide +kernel, by decide +kernel, by decide +kernel,
    by decide +kernel⟩,
  ⟨wRun, .bar0, 0x8000, wHit 0x8000, 0, 0, by decide +kernel, by decide +kernel, by decide +kernel,
    wHit_eq (by decide +kernel), by decide +kernel, by decide +kernel, by decide +kernel, by decide +kernel⟩⟩

theorem wit_CounterRows :
  (∃ (s : State) (b : BitVec 9), Answers .bar0 Reg.CNT_CMD s ∧ b.toNat < bankCount ∧ b.toNat ≠ bankCnt) ∧
  (∃ (s : State) (b : BitVec 9), Answers .bar0 Reg.CNT_CMD s ∧ bankCount ≤ b.toNat) ∧
  (∃ (s : State), Answers .bar0 Reg.CNT_CMD s) ∧
  (∃ (s : State), Clocked pllT s ∧ s.dev.harv.active = []) ∧
  (∃ (s : State) (h : Harvest) (hs : List Harvest) (b : HvBlock) (c : HvBlock) (bs : List HvBlock), Clocked pllT s ∧
    s.dev.harv.active = h :: hs ∧ h.blocks = b :: c :: bs) ∧
  (∃ (s : State) (v : Word), Answers .bar0 Reg.CNT_MTR_SEL s) :=
  ⟨⟨wRun, 0, by decide +kernel⟩,
  ⟨wRun, 433, by decide +kernel⟩,
  ⟨wRun, by decide +kernel⟩,
  ⟨wRun, by decide +kernel⟩,
  ⟨wOn fun d => { d with harv := { d.harv with active := [{ blocks := [wBlk, wBlk] }] } }, { blocks := [wBlk, wBlk] },
    [], wBlk, wBlk, [], by decide +kernel⟩,
  ⟨wRun, 0, by decide +kernel⟩⟩

/-! ## Nested cases of the statements: one state for each branch under a premise -/

def wCell (c : Cell) (flip : Nat) : Bytes := overwrite c.bytes flip [~~~(c.bytes.getD flip 0)]
def wData : Cell := { src := 1, dst := 2, seq := 3, valid := true, first := true, length := 256, payload := wFrame }

set_option maxRecDepth 65536 in
theorem wit_cell_branches :
    (Cell.ofBytes (wCell wData 14) 5).malformed (wCell wData 14) = true ∧
    (Cell.ofBytes (wCell wData 271) 5).malformed (wCell wData 271) = false ∧
    (Cell.ofBytes (wCell wData 271) 5).payBad (wCell wData 271) = true ∧
    (Cell.ofBytes wData.bytes 5).malformed wData.bytes = false ∧ (Cell.ofBytes wData.bytes 5).payBad wData.bytes = false ∧
    (Cell.ofBytes wData.bytes 5).valid = true ∧
    (Cell.ofBytes idleCell.bytes 5).malformed idleCell.bytes = false ∧
    (Cell.ofBytes idleCell.bytes 5).payBad idleCell.bytes = false ∧ (Cell.ofBytes idleCell.bytes 5).valid = false := by
  decide +kernel

theorem wit_row_classes : ∃ (c : Instr) (t : State), exec c wRun = .next t ∧ writesBus c = false ∧ resets c = false ∧
    writesFlash c = false ∧ powers c = false := ⟨.ppsOutEdge, _, rfl, rfl, rfl, rfl, rfl⟩

theorem wit_switch_branches :
    (∃ (s : State) (n : Fin 256) (a : Nat × Nat), Clocked pllFabric s ∧ (s.dev.link n).txDue = some a ∧
      s.dev.gen n 0 ((s.dev.link n).standby 0) ≠ 0) ∧
    (∃ (s : State) (n : Fin 256) (a : Nat × Nat), Clocked pllFabric s ∧ (s.dev.link n).txDue = some a ∧
      s.dev.gen n 0 ((s.dev.link n).standby 0) = 0) :=
  ⟨⟨wFab fun f => { f with links := [(5, { txArm := [(1, 0)] })], gens := [(pageKey 5 0 0, 1), (pageKey 5 0 1, 1)] }, 5, (1, 0),
    by decide +kernel⟩, ⟨wLink 5 { txArm := [(1, 0)] }, 5, (1, 0), by decide +kernel⟩⟩

theorem wit_overhead_branches :
    (∃ (s : State) (n : Fin 256) (pos : Nat) (cws : List Codeword), Locked pllFabric s ∧ s.dev.hears n = true ∧
      ((s.dev.takeCws n cws).link n).align = 4 ∧ ((s.dev.takeCws n cws).link n).pos = pos) ∧
    (∃ (s : State) (n : Fin 256) (cws : List Codeword), Locked pllFabric s ∧ s.dev.hears n = true ∧
      ((s.dev.takeCws n cws).link n).align = 2) ∧
    (∃ (s : State) (n : Fin 256) (cws : List Codeword), Locked pllFabric s ∧ s.dev.hears n = true ∧
      ((s.dev.takeCws n cws).link n).align < 2) :=
  ⟨⟨wLink 255 { align := 4, pos := 7 }, 255, 7, [], by decide +kernel⟩, ⟨wLink 0 { align := 2 }, 0, [], by decide +kernel⟩,
    ⟨wLink 9 { align := 1 }, 9, [], by decide +kernel⟩⟩

theorem wit_clear_branches :
    (∃ (s : State) (n : Fin 256) (b : Fin 10), Clocked pllFabric s ∧ laneDefect b = true ∧
      ((s.dev.sigRoll n).link n).clears b = true) ∧
    (∃ (s : State) (n : Fin 256) (b : Fin 10), Clocked pllFabric s ∧ laneDefect b = true ∧
      ((s.dev.sigRoll n).link n).clears b = false) ∧
    (∃ (s : State) (b : Fin 10), Clocked pllFabric s ∧ laneDefect b = false) :=
  ⟨⟨wLink 3 { align := 4, cwGood := 4 }, 3, 7, by decide +kernel⟩, ⟨wLink 3 { align := 4, cwGood := 3 }, 3, 7, by decide +kernel⟩,
    ⟨wRun, 4, by decide +kernel⟩⟩

theorem wit_calHeader_branches :
    (∃ (s : State) (x : BitVec 16), Answers .bar0 Reg.TRL_CAL_CMD s ∧ x.toNat = 0 ∧ s.dev.fab.obeyed = 0 ∧
      (s.dev.link 9).page 0 = some 1) ∧
    (∃ (s : State) (x : BitVec 16), Answers .bar0 Reg.TRL_CAL_CMD s ∧ x.toNat = 0 ∧ s.dev.fab.obeyed = 0 ∧
      (s.dev.link 9).page 0 ≠ some 1) ∧
    (∃ (s : State) (x : BitVec 16), Answers .bar0 Reg.TRL_CAL_CMD s ∧ x.toNat ≠ 0 ∧ s.dev.fab.obeyed = 0) :=
  ⟨⟨wLink 9 { txPage := some 1 }, 0, by decide +kernel⟩, ⟨wRun, 0, by decide +kernel⟩, ⟨wRun, 1, by decide +kernel⟩⟩

theorem wit_managerLoss_branches :
    (∃ s : State, Clocked pllFabric s ∧ s.dev.fab.obeyed ≠ 0 ∧ s.dev.isManager = false ∧ s.dev.src ≠ 3 ∧ s.dev.candidate = true ∧
      s.dev.fab.role = 1) ∧
    (∃ s : State, Clocked pllFabric s ∧ s.dev.fab.obeyed ≠ 0 ∧ s.dev.isManager = false ∧ s.dev.src ≠ 3 ∧ s.dev.candidate = false) :=
  ⟨⟨wOn fun d => wReg Reg.GLB_STRAP 0x10 { d with fab := { d.fab with obeyed := 33, roleOn := true, role := 1 } }, by decide +kernel⟩,
    ⟨wFab fun f => { f with obeyed := 33 }, by decide +kernel⟩⟩

set_option maxRecDepth 65536 in
theorem wit_plan_branches :
    (∃ (s : State) (v : Nat) (bs : Bytes) (d1 : Dev), s.dev.mgmt.serving = true ∧ s.dev.takeInbox 3 none = (some (v, bs), d1) ∧
      d1.fromManager v = true ∧ bs.length ≠ planLen) ∧
    (∃ (s : State) (v : Nat) (bs : Bytes) (d1 : Dev), s.dev.mgmt.serving = true ∧ s.dev.takeInbox 3 none = (some (v, bs), d1) ∧
      d1.fromManager v = false) ∧
    ((wFab fun f => { f with obeyed := 41 }).dev.fromManager 9 = true ∧ wPlan.length = planLen ∧ (Plan.ofBytes wPlan).gen ≠ 0) :=
  ⟨⟨wFab fun f => { f with obeyed := 41, inbox := [(3, 9, [1])] }, 9, [1], (wFab fun f => { f with obeyed := 41 }).dev,
      rfl, takeInbox_one none rfl rfl, by decide +kernel, by decide⟩,
    ⟨wFab fun f => { f with obeyed := 40, inbox := [(3, 9, [1])] }, 9, [1], (wFab fun f => { f with obeyed := 40 }).dev,
      rfl, takeInbox_one none rfl rfl, by decide +kernel⟩,
    by decide +kernel, by rw [wPlan, List.length_cons, List.length_replicate]; rfl, by decide +kernel⟩

theorem wit_refresh_branches :
    (∃ (s : State) (k : Fin 8) (c : Fin 16), Clocked (pllMclk k) s ∧ (s.dev.mcOf k).st = .ready ∧ (s.dev.chan k c).pause ≠ none ∧
      Tbl.get 0 (s.dev.chan k c).owed 127 < 8) ∧
    (∃ (s : State) (k : Fin 8) (c : Fin 16), Clocked (pllMclk k) s ∧ (s.dev.mcOf k).st = .ready ∧
      (s.dev.chan k c).replaying = true ∧ Tbl.get 0 (s.dev.chan k c).owed 127 < 8) ∧
    (∃ (s : State) (k : Fin 8) (c : Fin 16), Clocked (pllMclk k) s ∧ (s.dev.mcOf k).st = .ready ∧ (s.dev.chan k c).pause ≠ none ∧
      8 ≤ Tbl.get 0 (s.dev.chan k c).owed 127) :=
  ⟨⟨wMc 7 { st := .ready, chans := [(15, { pause := some 400 })] }, 7, 15, by decide +kernel⟩,
    ⟨wMc 7 { st := .ready, chans := [(15, { replaying := true })] }, 7, 15, by decide +kernel⟩,
    ⟨wMc 7 { st := .ready, chans := [(15, { pause := some 400, owed := [(127, 8)] })] }, 7, 15, by decide +kernel⟩⟩

theorem wit_configWrite_branches :
    (∃ s : State, Clocked pllHost s ∧ s.dev.host.link ≠ 7 ∧ s.dev.pciAnswers = true) ∧
    (∃ s : State, Clocked pllHost s ∧ s.dev.host.link ≠ 7 ∧ s.dev.pciAnswers = false) :=
  ⟨⟨wHost 0 {}, by decide +kernel⟩,
    ⟨wOn fun d => { d with boot := { d.boot with step := 1, tdieReady := false }, host := { d.host with linkUp := true, link := 0 } },
      by decide +kernel⟩⟩

theorem wit_evtClear_branches :
    (∃ (s : State) (src : MbxSrc), Waits src 5 s ∧ s.dev.mgmt.fw.state = 0 ∧ s.dev.mgmt.clearing = none ∧
      s.dev.locked lockNvm = true) ∧
    (∃ (s : State) (src : MbxSrc), Waits src 5 s ∧ s.dev.locked lockNvm = false ∧ s.dev.mgmt.ownerHash = some [1] ∧
      (s.dev.mbxPayload (srcCode src) []).length < 193) ∧
    (∃ (s : State) (src : MbxSrc), Waits src 5 s ∧ s.dev.locked lockNvm = false ∧ s.dev.mgmt.ownerHash = some [1] ∧
      193 ≤ (s.dev.mbxPayload (srcCode src) []).length ∧ s.dev.liveNonce = none) :=
  ⟨⟨{ wReq13 5 [] id with dev := { (wReq13 5 [] id).dev with lock := 31#5 } }, .ring 5, by decide +kernel⟩,
    ⟨wReq13 5 [] fun m => { m with ownerHash := some [1] }, .ring 5, by decide +kernel⟩,
    ⟨wReq13 5 (List.replicate 193 7) fun m => { m with ownerHash := some [1] }, .ring 5, by decide +kernel⟩⟩

theorem wit_fetch_turn : ∃ (s : State) (q : Fin 16384), Clocked pllHost s ∧ s.dev.wantsUnit q = true ∧ (s.dev.mayFetch q).1 = true ∧
    s.dev.servedRing = some q.val ∧ (s.dev.sq q).unitOut = false :=
  ⟨wHost 2 { st := .active, tailSeen := 5 }, 16383, by decide +kernel⟩

theorem wit_counter_sets : ∃ (s : State) (t b : Nat), Answers .bar0 Reg.CNT_CMD s ∧ t < 19 ∧
    bit (s.dev.reg Reg.CNT_CMD_MASK) t = true ∧ b ∈ setBanks t :=
  ⟨wOn (wReg Reg.CNT_CMD_MASK 1), 0, 0, by decide +kernel⟩

theorem wit_cfg_halt : ∃ r : CfgRec, r.halt = true := ⟨{ wRec 1 4 0 [] with halt := true }, rfl⟩

theorem wit_msWrite_refused : ((wReg (Reg.SL_MS_STAGE 7) 0xE0100000 wDev).msWriteItem 0 0).1 ≠ 0 := by
  decide +kernel

/-! ## Ill-formed commands, each refused by its check -/

theorem test_wf_lineFrame_short : Instr.wellFormed (.lineFrameReceive 0 [] true false 0 0 0) = false := by decide
theorem test_wf_lineFrame_long : Instr.wellFormed (.lineFrameReceive 0 (List.replicate 16388 0) true false 0 0 0) = false := by
  simp only [Instr.wellFormed, List.length_replicate]; decide
theorem test_wf_tod : Instr.wellFormed (.todLineReceive (List.replicate 129 0)) = false := by
  simp only [Instr.wellFormed, List.length_replicate]; decide
theorem test_wf_pauseFrame : Instr.wellFormed (.pauseFrameReceive 0 [1]) = false := by decide
theorem test_wf_ingress : Instr.wellFormed (.ingressAccept 0 [3, 3]) = false := by decide
theorem test_wf_stageLine : Instr.wellFormed (.stageMemoryRefetch 0 196608) = false := by decide
theorem test_wf_crossing_inst : Instr.wellFormed (.crossingParityError 0 65536 false 1) = false := by decide
theorem test_wf_crossing_lost : Instr.wellFormed (.crossingParityError 0 0 false 4294967296) = false := by decide
theorem test_wf_setRefs : Instr.wellFormed (.bufferSetRefs 0 0 65536 false) = false := by decide
theorem test_wf_evac : Instr.wellFormed (.evacuationWriteComplete 1048576) = false := by decide
theorem test_wf_tail : Instr.wellFormed (.cutThroughTail 0 (List.replicate 16388 0) true) = false := by
  simp only [Instr.wellFormed, List.length_replicate]; decide
theorem test_wf_cell : Instr.wellFormed (.cellReceive 0 0 [0] [] false) = false := by decide
theorem test_wf_overhead_pos : Instr.wellFormed (.overheadReceive 0 17680 (List.replicate 272 0) [] false) = false := by
  simp only [Instr.wellFormed, List.length_replicate]; decide
theorem test_wf_overhead_len : Instr.wellFormed (.overheadReceive 0 0 [0] [] false) = false := by decide
theorem test_wf_dramRead : Instr.wellFormed (.dramRead 0 2147483648 (.symbols 0)) = false := by decide
theorem test_wf_dramWrite : Instr.wellFormed (.dramWrite 0 0 [1]) = false := by decide
theorem test_wf_unit0 : Instr.wellFormed (.sqUnit0Read 0 (some [1])) = false := by decide
theorem test_wf_sqEntry : Instr.wellFormed (.sqEntryRead 0 (some (List.replicate 4065 0))) = false := by
  simp only [Instr.wellFormed, lenAtMost, List.length_replicate]; decide
theorem test_wf_inject : Instr.wellFormed (.injectFrameReadComplete 0 (some (List.replicate 16384 0))) = false := by
  simp only [Instr.wellFormed, lenAtMost, List.length_replicate]; decide
theorem test_wf_cellar : Instr.wellFormed (.cellarFrameReceive 0 []) = false := by decide
theorem test_wf_evtRead (src : MbxSrc) : Instr.wellFormed (.evtRead src (List.replicate 65537 0)) = false := by
  simp only [Instr.wellFormed, List.length_replicate]; decide
theorem test_wf_sensors : Instr.wellFormed (.sensorSample [1]) = false := by decide
theorem test_wf_vmon : Instr.wellFormed (.vmonSample [1] 0) = false := by decide

/-! ## The spec's worked examples and tables -/

/-- R2: GLB_CHIP_ID reads 0x9128_0B00. -/
theorem test_chip_id : regReset Reg.GLB_CHIP_ID = 0x91280B00#32 := by decide +kernel

/-- 00_scope.md: device time 1042.000000500 as its 96 bits (R39). -/
theorem test_time_bytes : ({ sec := 1042, ns := 500 } : DevTime).bytes = [0, 0, 0, 0, 4, 0x12, 0, 0, 1, 0xF4, 0, 0] := by decide

/-- 02: the rate word 0xFFC6_3000 slows each TSCLK cycle by 3,700 ppb: 2^48 × (1 − 3.7 × 10^-6), rounded. -/
theorem test_rate_word : increment (0xFFC63000#32).toInt 1 = 281473935253242 := by decide

/-- 18: the alias 0x0002_0040 reaches LNCH_CTRL, and 0x00C0_0418 the register of its masked offset. -/
theorem test_alias : (decodeReg 0x20040).map (fun h => (h.key, h.alias_)) = some (Reg.LNCH_CTRL, true) ∧
    (decodeReg 0x20020).map (·.alias_) = some false ∧ decodeReg 0x30000 = none := by decide +kernel

/-- Table 4.6: entry of state v with look-ahead value and mask, header, layer, the length bits [163:119], the check bits
[118:104], and extract0; every entry names the next state. -/
def tEntry (st va ma hdr layer lenBits chk o0 o1 ext : Nat) : BitVec 256 :=
  BitVec.ofNat 256 (st * 2 ^ 248 + va * 2 ^ 216 + ma * 2 ^ 184 + 15 * 2 ^ 176 + 2 ^ 175 + (if st = 8 then 2 ^ 174 else 0) +
    hdr * 2 ^ 166 + layer * 2 ^ 164 + lenBits * 2 ^ 119 + chk * 2 ^ 104 + (st + 1) * 2 ^ 96 + o0 * 2 ^ 90 + o1 * 2 ^ 84 + ext)
def tFix (n : Nat) : Nat := n * 2 ^ 37
def tExt (src n dst : Nat) : Nat := 2 ^ 17 + src * 2 ^ 11 + (n - 1) * 2 ^ 7 + dst
def tProg : List (Nat × BitVec 256) :=
  [(10, tEntry 1 0x81000000 0xFFFF0000 1 0 (tFix 14) 0 2 0 (tExt 0 6 30)),
   (11, tEntry 2 0x08000000 0xFFFF0000 2 0 (tFix 4) 0 0 8 (tExt 0 2 28)),
   (12, tEntry 3 0x40000011 0xF00000FF 3 0 (2 ^ 36 + 0x0F00 * 2 ^ 14 + 8 * 2 ^ 10 + 2 * 2 ^ 8 + 20) (2 ^ 14 + 2 * 2 ^ 8) 2 0
     (tExt 12 8 0 + tExt 1 1 8 * 2 ^ 18)),
   (13, tEntry 4 0x12B50000 0xFFFF0000 4 0 (tFix 8) (2 ^ 14 + 4 * 2 ^ 8) 0 4 (tExt 0 4 9)),
   (14, tEntry 5 0x08000000 0x08000000 5 0 (tFix 8) 0 12 12 (tExt 4 3 13)),
   (15, tEntry 6 0x81000000 0xFFFF0000 1 1 (tFix 14) 0 2 0 (tExt 0 6 16)),
   (16, tEntry 7 0xAEFE0000 0xFFFF0000 2 1 (tFix 4) 0 0 2 (tExt 0 2 22)),
   (17, tEntry 8 0x10000000 0xF0FF0000 6 1 (tFix 4) (2 ^ 14 + 2 * 2 ^ 8 + 4) 0 0 (tExt 4 4 24))]
def tFrame (ipLen : Nat) : Bytes :=
  [(12, be 2 0x8100), (14, be 4 0xA0640800), (18, be 4 (0x45B8 * 65536 + ipLen)), (26, be 2 0x4011), (40, be 4 (4789 * 65536 + 1468)),
   (46, be 2 0x0800), (50, be 4 0x002A1700), (66, be 2 0x8100), (68, be 4 0xE00AAEFE), (72, be 4 0x10000596), (76, be 4 0x01035C00)].foldl
    (fun (f : Bytes) (x : Nat × Bytes) => overwrite f x.1 x.2) (List.replicate 1506 0#8)

/-- 04: the worked parse of an eCPRI frame in VXLAN. -/
theorem test_parse_ecpri : (let p := parse tProg [] (tFrame 1488) 0 1 12 12 5
    (p.status, p.insts, p.cursor, p.final, slice p.field 13 3, slice p.field 24 4)) =
    (0, [0x0400, 0x0838, 0x0C48, 0x1098, 0x14B8, 0x04D9, 0x0911, 0x1921], 76, 8, [0, 0x2A, 0x17], [1, 3, 0x5C, 0]) := by
  decide +kernel

/-- 04: the same frame with total length 1,500 ends in LENGTH, and SL_PRS_LAST_FAIL reads 0x6940_C242. -/
theorem test_parse_length : lastFail (parse tProg [] (tFrame 1500) 0 1 12 12 5) 37 = 0x6940C242#32 := by decide +kernel

/-- 05: the associative entries of the worked example, key in bits [319:224]: source, destination, source port and
destination port, each with its mask. -/
def tAcl (src dst dp smask dmask pmask first : Nat) : AssocEntry :=
  { key := BitVec.ofNat 320 ((src * 2 ^ 64 + dst * 2 ^ 32 + dp) * 2 ^ 224),
    mask := BitVec.ofNat 320 ((smask * 2 ^ 64 + dmask * 2 ^ 32 + pmask) * 2 ^ 224), valid := true, vFirst := first, vLast := 5 }
def tAcls : List (Nat × AssocEntry) :=
      [(40, tAcl 0 0x0A140000 4789 0 0xFFFF0000 0xFFFF 4), (41, tAcl 0xC6336400 0x0A000000 0 0xFFFFFF00 0xFF000000 0 4),
       (52, tAcl 0 0x0A141E09 0 0 0xFFFFFFFF 0 4), (60, tAcl 0xC6336407 0x0A141E09 0 0xFFFFFFFF 0xFFFFFFFF 0 5),
       (70, tAcl 0 0x0A000000 0 0 0xFF000000 0 4)]
def tAclDev (v : Nat) : Dev :=
  wReg (Reg.SL_AS_KEY 9) 0xC6336407 (wReg (Reg.SL_AS_KEY 8) 0x0A141E09 (wReg (Reg.SL_AS_KEY 7) 0xC00012B5
    (wReg Reg.SL_AS_SRCH (put 1 17 ||| wd v) { wDev with prog := { wDev.prog with assoc := tAcls } })))

/-- 05: SEARCH and four NEXT_MATCH commands in vintage 4. -/
theorem test_assoc_steps : (let d0 := (tAclDev 4).asSearch 4
    let d1 := d0.asNext 4
    let d2 := d1.asNext 4
    let d3 := d2.asNext 4
    [d0, d1, d2, d3, d3.asNext 4].map fun d => d.reg (Reg.SL_AS_RESULT 4)) =
    [0xC0200028#32, 0xC0200029#32, 0xC0200034#32, 0x80080046#32, 0#32] := by decide +kernel

/-- 05: in vintage 5 entry 60 wins. -/
theorem test_assoc_longest : ((tAclDev 5).asSearch 4).reg (Reg.SL_AS_RESULT 4) = 0x8040003C#32 := by decide +kernel

/-- 08, Table 8.4: one cell time of the crossbar. -/
theorem test_crossbar : (let c := [(14, 2), (64, 3), (84, 5), (68, 3), (18, 2)]
    let caps := (List.range 10).map xbarCap
    let m0 : Match := ⟨caps, caps, (List.range 100).map (Tbl.get 0 c), List.replicate 100 0⟩
    let a := fun i => if i = 6 then 8 else 0
    let r1 := matchIter (fun _ => 6) a m0
    let r2 := matchIter (fun j => ptrAfter 6 fun i => r1.2.getD (10 * i + j) 0 ≠ 0)
      (fun i => ptrAfter (a i) fun j => r1.2.getD (10 * i + j) 0 ≠ 0) r1.1
    [14, 64, 84, 18, 68].map fun x => r2.1.acc.getD x 0) = [1, 0, 2, 2, 3] := by decide +kernel

/-- 09, Table 9.4: the fronthaul window on port 20. -/
def tGate (ns : Nat) : Dev :=
  { wReg (Reg.SHP_GATE_CFG 20) 0x80FF00C8 wDev with
    time := { wDev.time with state := .locked, now := { sec := 7200, ns := ns } },
    ports := [(20, { st := .up, mode := 4 })],
    gsm := { wDev.gsm with hdrs := [(40, { cycle := 125000, length := 3 })],
                           gates := [(40960, 0x80004E20#32), (40961, 0x7F0186A0#32), (40962, 0x00001388#32)] } }
theorem test_gate_window : (tGate 61800).gateEntryNow 20 = 1 ∧ (tGate 61800).gateMask 20 = 0x7F ∧ (tGate 61800).guard 20 3 1514 = 0 ∧
    (tGate 119700).gateEntryNow 20 = 1 ∧ (tGate 119700).guard 20 3 1514 = 1 ∧ (tGate 119800).gateEntryNow 20 = 2 ∧
    (tGate 119800).gateMask 20 = 0 := by decide +kernel

/-- 09: after ten frames the credit is −240 bytes, and the eleventh is eligible 0.192 ms later, not a cycle before. -/
def tShp (credit : Int) (tsc : Nat) : Dev :=
  { wDev with time := { wDev.time with tsc := tsc },
              gsm := { wDev.gsm with shapers := [(7, { credit := credit })], shpProf := [(0, 0x98003A9800002710#64)] } }
theorem test_shaper_burst :
    ((List.range 10).foldl (fun d _ => d.shpCharge 1500 7) (tShp (15000 * byteU) 0)).shaper 7 = { credit := -240 * byteU } ∧
    (tShp (-240 * byteU) 192000).shpEligible 7 = true ∧ (tShp (-240 * byteU) 191999).shpEligible 7 = false := by decide +kernel

/-- 09, Table 9.8: six packets of 4,000 bytes 10 µs apart. -/
def tBurst (pr : BitVec 128) (c p : Nat) : List Nat :=
  ((List.range 6).foldl (fun (x : List Nat × Meter) i =>
    let r := mtrColour pr 0 4000 (mtrRefill pr (10000 * i) x.2)
    (x.1 ++ [r.1], r.2)) ([], { c := c * byteU, p := p * byteU })).1
theorem test_meter_rfc2698 :
    tBurst (BitVec.ofNat 128 (100000 * 2 ^ 96 + 200000 * 2 ^ 64 + 10000 * 2 ^ 40 + 20000 * 2 ^ 16 + 2 ^ 14)) 10000 20000 =
    [0, 0, 1, 1, 1, 2] := by decide +kernel
theorem test_meter_rfc4115 :
    tBurst (BitVec.ofNat 128 (100000 * 2 ^ 96 + 100000 * 2 ^ 64 + 10000 * 2 ^ 40 + 10000 * 2 ^ 16 + 2 * 2 ^ 14)) 10000 10000 =
    [0, 0, 1, 1, 2, 2] := by decide +kernel

/-- 10, Table 10.6: the sample gives θ = 1.125 ns and d = 200.0 ns, and 64 such samples read 288 and 51,200. -/
def tTt : Bytes :=
  [(8, [91]), (14, [0x10]), (40, ({ sec := 1042, ns := 100100 } : DevTime).bytes),
   (52, ({ sec := 1042, ns := 100201, frac := 2 ^ 47 } : DevTime).bytes), (64, [37])].foldl
    (fun (f : Bytes) (x : Nat × Bytes) => overwrite f x.1 x.2) (List.replicate 272 0#8)
def tArr : Arrival := ⟨90, { sec := 1042, ns := 100298, frac := 2 ^ 47 }, true, 0⟩
def tTtDev : Dev :=
  wReg (Reg.TRL_LINK_ASYM 40) 12
    (wDev.setLink 40 { align := 4, ttDep := [(37, { sec := 1042, ns := 100000 })], ttArr := [tArr] })
theorem test_tt_sample : tTtDev.ttSample 40 tTt = some (2250 * 2 ^ 48 / 1000, 400 * 2 ^ 48) ∧
    ttWord (64 * (2250 * 2 ^ 48 / 1000)) 64 0 = 288#32 ∧ ttWord (64 * (400 * 2 ^ 48)) 64 1 = 51200#32 := by decide +kernel

/-- 13: the first stack line of DRAM buffer 1,000,003 of the 1 KiB pool, and its next two lines. -/
theorem test_dram_line : lineAt 52331648 = ⟨13, 1, 43, 1597, 0⟩ ∧ (lineAt 52331649).channel = 12 ∧ (lineAt 52331650).channel = 15 ∧
    (lineAt 52331663).channel = 2 ∧ 52331648 = (3072 * 2 ^ 20 + 1000003 / 8 * 1024) / 64 := by decide

/-- 06: range 5–3 is valid for every vintage but 4. -/
theorem test_vint_range : ((List.range 16).filter fun v => !vintIn v 5 3) = [4] := by decide

end Sys2Proof.Machine
end

section
/-! What an access to a register comes to: refused, made to wait, or the write or the read of the register that its offset decodes
to; and what each place of the state after reset holds. -/
namespace Sys2Proof.Machine

/-! ## What a form holds fast does not alter an effect that leaves it alone -/

/-- The form of a bus access passes on an effect that leaves power, reset, GLB_LOCK and the flash as they were. -/
theorem keepBus_of_unchanged {d e : Dev} (hp : e.powered = d.powered) (hr : e.inReset = d.inReset)
    (ha : e.rstAsserted = d.rstAsserted) (hn : e.nvm = d.nvm) (hl : e.lock = d.lock) : d.keepBus e = e := by
  unfold Dev.keepBus
  rw [← hp, ← hr, ← ha, ← hn, ← hl, BitVec.or_self]

/-- GLB_LOCK bits that are set in addition pass the form of a bus access (R499). -/
theorem keepBus_setLocks (d : Dev) (x : BitVec 5) :
    d.keepBus { d with lock := d.lock ||| x } = { d with lock := d.lock ||| x } := by
  simp [Dev.keepBus, ← BitVec.or_assoc]

/-- A register stored is stored beside what the form holds fast. -/
theorem keepBus_setReg (d e : Dev) (k : Nat) (v : Word) : d.keepBus (e.setReg k v) = (d.keepBus e).setReg k v := rfl

/-- Counting is within what the form passes on. -/
theorem keepBus_inc (d : Dev) (b i : Nat) : d.keepBus (d.inc b i) = d.inc b i :=
  keepBus_of_unchanged (d.inc_powered b i) (d.inc_inReset b i) (d.inc_rstAsserted b i) (d.inc_nvm b i) (d.inc_lock b i)

/-- So is the record of a write with missing byte enables (R491). -/
theorem keepBus_partialWrite (d : Dev) (p : Path) (off : Nat) : d.keepBus (d.partialWrite p off) = d.partialWrite p off := by
  unfold Dev.partialWrite Dev.lastFault Dev.latchBit
  dsimp only
  rw [keepBus_setReg, keepBus_setReg, keepBus_inc]

/-- The plain form passes on an effect that also leaves device time as it was. -/
theorem keep_of_unchanged {d e : Dev} (hp : e.powered = d.powered) (hr : e.inReset = d.inReset)
    (ha : e.rstAsserted = d.rstAsserted) (hl : e.lock = d.lock) (hn : e.nvm = d.nvm) (ht : e.time.now = d.time.now) :
    d.keep e = e := by
  unfold Dev.keep
  rw [← hp, ← hr, ← ha, ← hl, ← hn, ← ht]

/-! ## What follows an access to a register -/

/-- With no launch entry, none is due after an access. -/
theorem settleDue_of_no_entries {d : Dev} (h : d.lnch.entries = []) : d.settleDue = d := by
  simp [Dev.settleDue, h, Dev.settle]

/-- An access at the register's own offset has used no ignored offset bits (R494). -/
theorem noteAlias_own {h : RegHit} (d : Dev) (ha : h.alias_ = false) : d.noteAlias h = d := by simp [Dev.noteAlias, ha]

/-! ## Writes (R490 to R499) -/

/-- A write that nothing refuses reaches the register that its offset decodes to. -/
theorem busWrite_hit {d : Dev} {p : Path} {off : Nat} {h : RegHit} (v : Word) (hr : d.refuse p off = none)
    (hd : decodeReg off = some h) : (d.busWrite p off v).2 = d.writeHit p h v := by simp [Dev.busWrite, hr, hd]

/-- A whole write whose way is free writes the register, and what that makes due acts. -/
theorem access_hit {d : Dev} {p : Path} {off : Nat} {h : RegHit} (v : Word) (c : Instr) (hu : d.busUp p = true)
    (hf : d.busFlows p off = true) (hw : d.hostWakes p = d) (hr : d.refuse p off = none) (hd : decodeReg off = some h) :
    d.access p off v false c = (d.writeHit p h v).settleDue := by
  unfold Dev.access
  rw [if_neg Bool.false_ne_true, request_flows c _ hu hf hw, busWrite_hit v hr hd]

/-- Before BAR0 answers, a write has no effect, whatever its byte enables (R470). -/
theorem access_down {d : Dev} {p : Path} (off : Nat) (v : Word) (b : Bool) (c : Instr) (hu : d.busUp p = false) :
    d.access p off v b c = d := by
  unfold Dev.access
  cases b with
  | false => exact request_down c _ hu
  | true => simp [Dev.partialRequest, hu]

/-- A whole write waits before the first stopped domain on its way (R34). -/
theorem access_waits {d : Dev} {p : Path} {off b : Nat} (v : Word) (c : Instr) (hu : d.busUp p = true)
    (hs : d.stopped (d.busClocks p off) = some b) (hw : d.hostWakes p = d) : d.access p off v false c = d.park b c := by
  unfold Dev.access Dev.request
  rw [if_neg Bool.false_ne_true, if_pos hu, hw, across_waits c _ hs]

/-- A write with missing byte enables that reaches the register fabric is recorded, and no more (R491). -/
theorem access_partial {d : Dev} {p : Path} (off : Nat) (v : Word) (c : Instr) (hu : d.busUp p = true)
    (hw : d.hostWakes p = d) (hs : d.stopped (pathClocks p) = none) : d.access p off v true c = d.partialWrite p off := by
  unfold Dev.access Dev.partialRequest
  rw [if_pos rfl, if_pos hu, hw, across_flows c _ hs]

/-- A register of SCHD does no more than hold what is written to it. -/
theorem writeReg_schd (d : Dev) (p : Path) {h : RegHit} (v : Word) (hb : h.block = .schd) :
    d.writeReg p h v = d.keep (d.writePlain h v) := by
  obtain ⟨b, n, w, row, idx, key, al⟩ := h
  subst hb
  rfl

/-- A write of a register that is no sequence-clear one, at its own offset. -/
theorem writeHit_plain (d : Dev) (p : Path) {h : RegHit} (v : Word) (hs : h.row.sqc = 0#32) (ha : h.alias_ = false) :
    d.writeHit p h v = d.writeReg p h v := by
  simp [Dev.writeHit, hs, noteAlias_own _ ha]

/-- A write of a sequence-clear register, at its own offset. -/
theorem writeHit_sqc (d : Dev) (p : Path) {h : RegHit} (v : Word) (hs : h.row.sqc ≠ 0#32) (ha : h.alias_ = false) :
    d.writeHit p h v = d.writeSqc h v := by
  simp [Dev.writeHit, hs, noteAlias_own _ ha]

/-- A sequence-clear write whose count matches: a store of one register (R497). -/
theorem writeSqc_match {d : Dev} {h : RegHit} {v : Word} (hc : fld v 31 24 = fld (d.reg h.key) 31 24) :
    d.writeSqc h v = (d.writePlain h v).clearSqc h.key h.row.sqc v := by simp [Dev.writeSqc, hc]

/-- One whose count does not match is counted, and no more (R497). -/
theorem writeSqc_mismatch {d : Dev} {h : RegHit} {v : Word} (hc : fld v 31 24 ≠ fld (d.reg h.key) 31 24) :
    d.writeSqc h v = d.inc bankGlb 0 := by simp [Dev.writeSqc, hc]

/-! ## Reads (R490 to R495, R501, R510) -/

/-- A read in a window that answers, at the register's own offset, reads the register. -/
theorem busRead_hit {d : Dev} {p : Path} {off : Nat} {h : RegHit} (hs : d.silent off = false) (hf : fdieOffset off = false)
    (hd : decodeReg off = some h) (ha : h.alias_ = false) : d.busRead p off = d.readHit p h := by
  simp [Dev.busRead, hs, hf, hd, noteAlias_own _ ha]

/-- A read whose way is free delivers the word of its register to the path. -/
theorem accessRead_hit {d : Dev} {p : Path} {off : Nat} {h : RegHit} (c : Instr) (hu : d.busUp p = true)
    (hb : d.busFlows p off = true) (hw : d.hostWakes p = d) (hs : d.silent off = false) (hf : fdieOffset off = false)
    (hd : decodeReg off = some h) (ha : h.alias_ = false) :
    d.accessRead p off c = (d.readHit p h).2.deliver p (d.readHit p h).1 := by
  unfold Dev.accessRead
  rw [request_flows c _ hu hb hw, busRead_hit hs hf hd ha]

/-- The high word that a read of a low word latches. -/
def Dev.pairHigh (d : Dev) (h : RegHit) : Word :=
  match decodeReg (h.key + 4) with
  | some g => d.peek g
  | none => 0#32

/-- A read of the low word of a pair of HOST registers latches the high word (R501). -/
theorem readHit_hostLow {d : Dev} {p : Path} {h : RegHit} (hn : counterOf h = none) (hb : h.block = .host)
    (hl : pairHalf h = 1) : d.readHit p h = (d.peek h, d.loadLatch p (h.key + 4) (d.pairHigh h)) := by
  have hr : d.readReg p h = d.readPlain p h := by
    obtain ⟨b, n, w, row, idx, key, al⟩ := h
    subst hb
    rfl
  unfold Dev.readHit
  simp only [hn, hr, Dev.readPlain, hl]
  rfl

/-- A direct read of an unchained counter gives its value, and clears it where its bank is in clear-on-read mode (R510). -/
theorem readCounter_unchained {d : Dev} {b i : Nat} (p off : Nat) (hc : d.chained b i = false) :
    d.readCounter p off b i = (d.counter b i,
      if bit (d.reg (Reg.CNT_BANK_CFG b)) 31 then { d with cnt := Tbl.erase d.cnt (cntKey b i) } else d) := by
  simp [Dev.readCounter, hc]

/-! ## The rows -/

/-- REGISTER_WRITE is one write access. -/
theorem registerWrite_yields {s : State} {e : Dev} (p : Path) (off : BitVec 26) (v : Word) (b : Bool) (h : Runs s)
    (he : s.dev.access p off.toNat v b (.registerWrite p off v b) = e) (hk : s.dev.keepBus e = e) :
    Yields (.registerWrite p off v b) s e := by
  have hx := actBus_up (fun d => d.access p off.toNat v b (.registerWrite p off v b)) h
  rwa [he, hk] at hx

/-- SQC_WRITE is one whole write access. -/
theorem sqcWrite_yields {s : State} {e : Dev} (p : Path) (off : BitVec 26) (v : Word) (h : Runs s)
    (he : s.dev.access p off.toNat v false (.sqcWrite p off v) = e) (hk : s.dev.keepBus e = e) :
    Yields (.sqcWrite p off v) s e := by
  have hx := actBus_up (fun d => d.access p off.toNat v false (.sqcWrite p off v)) h
  rwa [he, hk] at hx

/-- LOW_WORD_READ is one read access. -/
theorem lowWordRead_yields {s : State} {e : Dev} (p : Path) (off : BitVec 26) (h : Runs s)
    (he : s.dev.accessRead p off.toNat (.lowWordRead p off) = e) (hk : s.dev.keep e = e) :
    Yields (.lowWordRead p off) s e := by
  have hx := act_up (fun d => d.accessRead p off.toNat (.lowWordRead p off)) h
  rwa [he, hk] at hx

/-- RC_COUNTER_READ is one read access. -/
theorem rcCounterRead_yields {s : State} {e : Dev} (p : Path) (off : BitVec 26) (h : Runs s)
    (he : s.dev.accessRead p off.toNat (.rcCounterRead p off) = e) (hk : s.dev.keep e = e) :
    Yields (.rcCounterRead p off) s e := by
  have hx := act_up (fun d => d.accessRead p off.toNat (.rcCounterRead p off)) h
  rwa [he, hk] at hx

/-- A write of a plain register of SCHD stores the bits of its mask (R9, R10). -/
theorem registerWrite_schd {s : State} {p : Path} {off : BitVec 26} {h : RegHit} (v : Word) (hr : Reaches p off.toNat s)
    (hl : s.dev.lnch.entries = []) (hn : s.dev.refuse p off.toNat = none) (hd : decodeReg off.toNat = some h)
    (hs : h.row.sqc = 0#32) (hb : h.block = .schd) (ha : h.alias_ = false) :
    Yields (.registerWrite p off v false) s (s.dev.writePlain h v) := by
  obtain ⟨hup, hu, hf, hw⟩ := hr
  have hh : s.dev.writeHit p h v = s.dev.writePlain h v := by
    rw [writeHit_plain _ _ _ hs ha, writeReg_schd _ _ _ hb]
    exact keep_of_unchanged rfl rfl rfl rfl rfl rfl
  refine registerWrite_yields p off v false hup ?_ (keepBus_of_unchanged rfl rfl rfl rfl rfl)
  rw [access_hit v _ hu hf hw hn hd, hh]
  exact settleDue_of_no_entries hl

/-- A write with missing byte enables leaves the record of its refusal alone, at any offset (R491). -/
theorem registerWrite_partial {s : State} {p : Path} (off : BitVec 26) (v : Word) (hup : Runs s) (hu : s.dev.busUp p = true)
    (hw : s.dev.hostWakes p = s.dev) (hs : s.dev.stopped (pathClocks p) = none) :
    Yields (.registerWrite p off v true) s (s.dev.partialWrite p off.toNat) :=
  registerWrite_yields p off v true hup (access_partial _ v _ hu hw hs)
    (keepBus_partialWrite s.dev p off.toNat)

/-- A sequence-clear write whose count matches stores its writable bits and clears those written 1 (R497). -/
theorem sqcWrite_match {s : State} {p : Path} {off : BitVec 26} {v : Word} {h : RegHit} (hr : Reaches p off.toNat s)
    (hl : s.dev.lnch.entries = []) (hn : s.dev.refuse p off.toNat = none) (hd : decodeReg off.toNat = some h)
    (hs : h.row.sqc ≠ 0#32) (ha : h.alias_ = false) (hc : fld v 31 24 = fld (s.dev.reg h.key) 31 24) :
    Yields (.sqcWrite p off v) s ((s.dev.writePlain h v).clearSqc h.key h.row.sqc v) := by
  obtain ⟨hup, hu, hf, hw⟩ := hr
  refine sqcWrite_yields p off v hup ?_ (keepBus_of_unchanged rfl rfl rfl rfl rfl)
  rw [access_hit v _ hu hf hw hn hd, writeHit_sqc _ _ _ hs ha, writeSqc_match hc]
  exact settleDue_of_no_entries hl

/-- One whose count does not match is counted alone (R497). -/
theorem sqcWrite_mismatch {s : State} {p : Path} {off : BitVec 26} {v : Word} {h : RegHit} (hr : Reaches p off.toNat s)
    (hl : s.dev.lnch.entries = []) (hn : s.dev.refuse p off.toNat = none) (hd : decodeReg off.toNat = some h)
    (hs : h.row.sqc ≠ 0#32) (ha : h.alias_ = false) (hc : fld v 31 24 ≠ fld (s.dev.reg h.key) 31 24) :
    Yields (.sqcWrite p off v) s (s.dev.inc bankGlb 0) := by
  obtain ⟨hup, hu, hf, hw⟩ := hr
  refine sqcWrite_yields p off v hup ?_ (keepBus_inc _ _ _)
  rw [access_hit v _ hu hf hw hn hd, writeHit_sqc _ _ _ hs ha, writeSqc_mismatch hc]
  exact settleDue_of_no_entries (by simp [hl])

/-- A store of a register's writable bits and a clear of the bits written 1 change that register alone. -/
theorem writePlain_clearSqc_effect (d : Dev) (h : RegHit) (sqc v : Word) :
    ((d.writePlain h v).clearSqc h.key sqc v).reg h.key =
        ((d.reg h.key &&& ~~~h.row.rw) ||| (v &&& h.row.rw)) &&& ~~~(v &&& sqc) ∧
      RegsBut [h.key] d ((d.writePlain h v).clearSqc h.key sqc v) := by
  obtain ⟨hw, hwo⟩ := writeRw_effect d h.key h.row.rw v
  obtain ⟨hc, hco⟩ := clearSqc_effect (d.writePlain h v) h.key sqc v
  refine ⟨hc.trans (by rw [Dev.writePlain, hw]), fun k hk => ?_⟩
  have hne : k ≠ h.key := by simpa using hk
  exact (hco k hne).trans (hwo k hne)

/-- GLB_LOCK takes the bits written 1 and keeps the others (R499). -/
theorem glbLockWrite_yields {s : State} (v : Word) (ha : Answers .bar0 0x08 s) :
    Yields (.glbLockWrite v) s { s.dev with lock := s.dev.lock ||| v.truncate 5 } := by
  obtain ⟨⟨hup, hu, hf, hw⟩, hs, -⟩ := ha
  have hx := actBusReg_up (c := .glbLockWrite v) (fun d => { d with lock := d.lock ||| v.truncate 5 }) hup hu hf hw hs
  rwa [keepBus_setLocks] at hx

/-- A read of the low word of a pair of HOST registers delivers it, and latches the high word for the path (R501). -/
theorem lowWordRead_hostLow {s : State} {p : Path} {off : BitVec 26} {h : RegHit} (hr : Reaches p off.toNat s)
    (hs : s.dev.silent off.toNat = false) (hf : fdieOffset off.toNat = false) (hd : decodeReg off.toNat = some h)
    (ha : h.alias_ = false) (hn : counterOf h = none) (hb : h.block = .host) (hl : pairHalf h = 1) :
    Yields (.lowWordRead p off) s ((s.dev.loadLatch p (h.key + 4) (s.dev.pairHigh h)).deliver p (s.dev.peek h)) := by
  obtain ⟨hup, hu, hfl, hw⟩ := hr
  refine lowWordRead_yields p off hup ?_ (keep_of_unchanged rfl rfl rfl rfl rfl rfl)
  rw [accessRead_hit _ hu hfl hw hs hf hd ha, readHit_hostLow hn hb hl]

/-- A path's latch, just loaded. -/
theorem loadLatch_get (d : Dev) (p : Path) (key : Nat) (v : Word) :
    Tbl.get (0, 0#32) (d.loadLatch p key v).latch (pathCode p) = (key, v) := Tbl.get_set_same _ _ _ _

/-- What a direct read leaves of the device, when its counter is unchained: in clear-on-read mode the counter is gone (R510). -/
theorem rcCounterRead_unchained {s : State} {p : Path} {off : BitVec 26} {h : RegHit} {b i : Nat}
    (hr : Reaches p off.toNat s) (hs : s.dev.silent off.toNat = false) (hf : fdieOffset off.toNat = false)
    (hd : decodeReg off.toNat = some h) (ha : h.alias_ = false) (hn : counterOf h = some (b, i))
    (hc : s.dev.chained b i = false) :
    Yields (.rcCounterRead p off) s
      ((if bit (s.dev.reg (Reg.CNT_BANK_CFG b)) 31 then { s.dev with cnt := Tbl.erase s.dev.cnt (cntKey b i) } else s.dev).deliver p
        (s.dev.counter b i)) := by
  obtain ⟨hup, hu, hfl, hw⟩ := hr
  have hh : s.dev.readHit p h = s.dev.readCounter (pathCode p) h.key b i := by simp [Dev.readHit, hn]
  refine rcCounterRead_yields p off hup ?_ ?_
  · rw [accessRead_hit _ hu hfl hw hs hf hd ha, hh, readCounter_unchained _ _ hc]
  · split <;> exact keep_of_unchanged rfl rfl rfl rfl rfl rfl

/-- Settles O54: each row by the lemma on its access. -/
theorem registerRows : Obligations.RegisterRows := by
  unfold Obligations.RegisterRows
  refine ⟨fun s p off v h hr hl hn hd hs hb ha => registerWrite_schd v hr hl hn hd hs hb ha,
    fun s p off v hup hu hw hs => registerWrite_partial off v hup hu hw hs,
    fun s p off v b hup hu hs hw => registerWrite_yields p off v false hup (access_waits v _ hu hs hw)
      (keepBus_of_unchanged rfl rfl rfl rfl rfl),
    fun s p off v b hup hu => registerWrite_yields p off v b hup (access_down _ v b _ hu)
      (keepBus_of_unchanged rfl rfl rfl rfl rfl),
    fun s p off v h hr hl hn hd hs ha hc => ⟨_, sqcWrite_match hr hl hn hd hs ha hc, ?_⟩,
    fun s p off v h hr hl hn hd hs ha hc => sqcWrite_mismatch hr hl hn hd hs ha hc,
    fun s v ha => glbLockWrite_yields v ha,
    fun s p off h hr hs hf hd ha hn hb hl => ⟨_, lowWordRead_hostLow hr hs hf hd ha hn hb hl, rfl, fun g hg => ?_, rfl⟩,
    fun s p off h b i hr hs hf hd ha hn hc hm => ⟨_, rcCounterRead_unchained hr hs hf hd ha hn hc, ?_⟩,
    fun s p off h b i hr hs hf hd ha hn hc hm => ?_⟩
  case refine_1 =>
    obtain ⟨hkey, hbut⟩ := writePlain_clearSqc_effect s.dev h h.row.sqc v
    exact ⟨hbut, rfl, hkey⟩
  case refine_2 =>
    have hp : s.dev.pairHigh h = s.dev.peek g := by simp [Dev.pairHigh, hg]
    rw [← hp]
    exact loadLatch_get s.dev p (h.key + 4) (s.dev.pairHigh h)
  case refine_3 =>
    rw [if_pos hm]
    exact ⟨Tbl.get_erase_same _ _ _, rfl, rfl, fun c j hj => Tbl.get_erase_ne _ _ hj⟩
  case refine_4 => simpa [hm] using rcCounterRead_unchained hr hs hf hd ha hn hc

/-! ## The state after reset (R11) -/

/-- GLB_CHIP_ID reads the identity word (R2). -/
theorem regReset_chipId : regReset Reg.GLB_CHIP_ID = 0x91280B00#32 := by decide +kernel

/-- At reset no register differs from its map (R11). -/
theorem reg_reset (k : Nat) : State.reset.dev.reg k = regReset k := by simp [Dev.reg, State.reset, Tbl.get]

/-- At reset every slice is as SYS_RST_N leaves it. -/
theorem slice_reset (n : Nat) : State.reset.dev.slice n = sliceDflt n := rfl

/-- S0 to S7 hold PG0 to PG7 (R17). -/
theorem sliceDflt_lt {n : Nat} (h : n < 8) : sliceDflt n = { st := .active, pg := some n } := if_pos h

/-- Settles O4: the tables of the state after reset are empty, so each place holds its default. -/
theorem resetValues : Obligations.ResetValues := by
  unfold Obligations.ResetValues
  refine ⟨⟨rfl, rfl, rfl, rfl⟩, fun i => rfl, fun p => rfl, fun n hn => ?_, ⟨rfl, rfl⟩, ⟨rfl, rfl, rfl⟩, reg_reset,
    (reg_reset _).trans regReset_chipId, rfl, rfl⟩
  rw [slice_reset, sliceDflt_lt hn]
  exact ⟨rfl, rfl⟩

end Sys2Proof.Machine
end

section
/-! The step on an empty queue, and the PLLs: what goes on by itself, and what a loss of lock and a lock change. -/
namespace Sys2Proof.Machine

/-! ## What a row makes of the device -/

/-- A row of the plain form makes of a device that runs what its effect makes of it. -/
theorem yields_of_act {c : Instr} {s : State} {e : Dev} (f : Dev → Dev) (hx : exec c s = act s f) (h : Runs s)
    (he : s.dev.keep (f s.dev) = e) : Yields c s e := by rw [Yields, hx, act_up f h, he]

/-- So does an event of one clock domain that takes a transfer (R34). -/
theorem yields_of_actIn {c : Instr} {s : State} {b : Nat} {e : Dev} (f : Dev → Dev) (hx : exec c s = actIn b c s f) (h : Clocked b s)
    (he : s.dev.keep (f s.dev) = e) : Yields c s e := by rw [Yields, hx, actIn_up f h.1 h.2, he]

/-- What the plain form passes on, it passes on with more counted (R507). -/
theorem keep_bump {d e : Dev} (b i n : Nat) (h : d.keep e = e) : d.keep (e.bump b i n) = e.bump b i n := by
  rw [bump_eq]
  exact congrArg (fun x : Dev => { x with cnt := (e.bump b i n).cnt }) h

theorem keep_inc {d e : Dev} (b i : Nat) (h : d.keep e = e) : d.keep (e.inc b i) = e.inc b i := keep_bump b i 1 h

/-- An event is in the FIFO, or counted where it is lost (R446). -/
theorem log_frame (d : Dev) (src code : Nat) (data : Bytes) : d.log src code data =
    { d with regs := (d.log src code data).regs, cnt := (d.log src code data).cnt, events := (d.log src code data).events } := by
  by_cases hl : d.events.length < 1024
  · rw [log_room d _ _ _ hl]
  · rw [log_full d _ _ _ hl, Dev.inc, bump_eq]
    rfl

theorem keep_log {d e : Dev} (src code : Nat) (data : Bytes) (h : d.keep e = e) : d.keep (e.log src code data) = e.log src code data := by
  have hx := congrArg (fun x : Dev => { x with
    regs := (e.log src code data).regs, cnt := (e.log src code data).cnt, events := (e.log src code data).events }) h
  rw [log_frame]
  exact hx

/-! ## What waits, and what the device does by itself (log entry 1) -/

/-- A list is split before its first element with the property. -/
theorem splitAtFirst_append {α : Type} {p : α → Bool} {xs : List α} {x : α} (ys : List α) (hxs : ∀ y ∈ xs, p y = false)
    (hx : p x = true) : splitAtFirst p (xs ++ x :: ys) = some (xs, x, ys) := by
  induction xs with
  | nil => simp [splitAtFirst, hx]
  | cons z zs ih =>
    obtain ⟨hz, hzs⟩ := List.forall_mem_cons.mp hxs
    simp [splitAtFirst, hz, ih hzs]

/-- The first waiting row whose domain is open is the one that goes on (R34, R350). -/
theorem resumes_first {d : Dev} {before after : List (Nat × Instr)} {p : Nat × Instr} (hq : d.parked = before ++ p :: after)
    (hb : ∀ x ∈ before, d.opens x.1 = false) (hp : d.opens p.1 = true) : d.resumes = some (before, p, after) := by
  unfold Dev.resumes
  rw [hq]
  exact splitAtFirst_append after hb hp

/-- On an empty queue a step is what the device does by itself. -/
theorem step_empty {s : State} (h : s.pending = []) : step s = stepEmpty s := by simp [step, h]

/-- With nothing that may go on, the device idles. -/
theorem stepEmpty_idles {s : State} (h : s.dev.resumes = none) : stepEmpty s = .next { s with dev := s.dev.idle } := by
  simp [stepEmpty, h]

/-- What may go on is run, and the other rows wait around what it left waiting. -/
theorem stepEmpty_resumes {s t : State} {before after : List (Nat × Instr)} {b : Nat} {c : Instr}
    (h : s.dev.resumes = some (before, (b, c), after)) (ht : exec c { s with dev := { s.dev with parked := [] } } = .next t) :
    stepEmpty s = .next { t with dev := { t.dev with parked := before ++ t.dev.parked ++ after } } := by
  simp [stepEmpty, h, ht, resumed]

/-- A device in reset or without power does not idle. -/
theorem idle_down {d : Dev} (h : d.up = false) : d.idle = d := by simp [Dev.idle, h]

/-- A device that idles keeps what rows that may write the flash keep. -/
theorem idle_up {d : Dev} (h : d.up = true) :
    d.idle = d.keepNvm (if d.mgmt.serving then d.memSettles.auditTurns.linkRests.stagingStep else d.memSettles.auditTurns.linkRests) := by
  simp [Dev.idle, h]

/-- Idling leaves power, reset, GLB_LOCK and device time as they are. -/
theorem idle_keeps (d : Dev) : d.idle.powered = d.powered ∧ d.idle.inReset = d.inReset ∧ d.idle.rstAsserted = d.rstAsserted ∧
    d.idle.lock = d.lock ∧ d.idle.time.now = d.time.now := by
  cases h : d.up with
  | false => rw [idle_down h]; exact ⟨rfl, rfl, rfl, rfl, rfl⟩
  | true => rw [idle_up h]; exact ⟨rfl, rfl, rfl, rfl, rfl⟩

/-- Settles O2: the first open row of those that wait goes on, and a device with none idles. -/
theorem emptyQueueIdles : Obligations.EmptyQueueIdles := by
  unfold Obligations.EmptyQueueIdles
  refine ⟨fun s hq hr => ?_, fun s t before after b c hq hw hb hc ht => ?_, fun d h => idle_down h, idle_keeps⟩
  · rw [step_empty hq, stepEmpty_idles hr]
  · rw [step_empty hq, stepEmpty_resumes (resumes_first hw hb hc) ht]

/-! ## PLLs (R34, R40, R469) -/

/-- A PLL of GLB_PLL_STATUS is in lock when its bit is set. -/
theorem pllLocked_bit {d : Dev} {p : Pll} {b : Nat} (h : pllBit p = .inl b) : d.pllLocked p = d.clocked b := by
  simp [Dev.pllLocked, h]

/-- Noting a PLL changes nothing but the list of PLLs in lock. -/
theorem setPll_frame (d : Dev) (p : Pll) (v : Bool) : d.setPll p v = { d with boot := (d.setPll p v).boot } := by
  unfold Dev.setPll
  split <;> rfl

/-- A PLL of GLB_PLL_STATUS is noted in its bit. -/
theorem setPll_plls (d : Dev) {p : Pll} {b : Nat} (v : Bool) (h : pllBit p = .inl b) : (d.setPll p v).boot =
    { d.boot with plls := if v then d.boot.plls ||| BitVec.ofNat 18 (2 ^ b) else d.boot.plls &&& ~~~(BitVec.ofNat 18 (2 ^ b)) } := by
  unfold Dev.setPll
  rw [h]

/-- A SerDes PLL that locks leaves the list of those out of lock. -/
theorem setPll_lane (d : Dev) {p : Pll} {l : Nat} (h : pllBit p = .inr l) :
    d.setPll p true = { d with boot := { d.boot with lanesOut := d.boot.lanesOut.filter (· != l) } } := by
  unfold Dev.setPll
  rw [h]
  rfl

/-- After a PLL is noted, its bit of GLB_PLL_STATUS reads as noted. -/
theorem clocked_setPll {d e : Dev} {p : Pll} {b : Nat} (v : Bool) (h : pllBit p = .inl b) (hb : b < 18)
    (he : e.boot.plls = (d.setPll p v).boot.plls) : e.clocked b = v := by
  have hbit : (BitVec.ofNat 18 (2 ^ b)).getLsbD b = true := by
    rw [BitVec.getLsbD_ofNat, Nat.testBit_two_pow_self, decide_eq_true hb, Bool.true_and]
  unfold Dev.clocked
  rw [he, setPll_plls d v h]
  cases v with
  | false => simp only [Bool.false_eq_true, if_false, BitVec.getLsbD_and, BitVec.getLsbD_not, hbit, Bool.not_true, Bool.and_false]
  | true => simp only [if_true, BitVec.getLsbD_or, hbit, Bool.or_true]

/-- A loss of lock, noted, counted, latched and logged (R34). -/
def Dev.noteLoss (d : Dev) (p : Pll) : Dev :=
  (((d.setPll p false).inc bankGlb 6).latchBit Reg.GLB_STATUS 8).logBit 0x00 0 8 (pllDomain p).2 (le 1 (pllDomain p).1)

/-- A PLL that was in lock and loses it is noted, and its loss takes effect. -/
theorem pllLoss_locked {d : Dev} {p : Pll} (h : d.pllLocked p = true) : d.pllLoss p = (d.noteLoss p).pllEffect p := by
  simp [Dev.pllLoss, Dev.noteLoss, h]

/-- A loss that is noted leaves device time, and all that the plain form holds fast, as they were. -/
theorem noteLoss_time (d : Dev) (p : Pll) : (d.noteLoss p).time = d.time := by
  unfold Dev.noteLoss
  simp only [Dev.logBit_time, Dev.latchBit_time, Dev.inc_time]
  rw [setPll_frame]

theorem keep_noteLoss (d : Dev) (p : Pll) : d.keep (d.noteLoss p) = d.noteLoss p := by
  have hset : d.keep (d.setPll p false) = d.setPll p false := by rw [setPll_frame]; rfl
  have hinc := keep_inc bankGlb 6 hset
  exact keep_log _ _ _ (congrArg (fun x : Dev => x.latchBit Reg.GLB_STATUS 8) hinc)

/-- A PLL that drives no SerDes lane, not the Dukider link and not device time takes nothing down with it (R22, R34, R40). -/
theorem pllEffect_none (d : Dev) {p : Pll} (h : p = .fclk ∨ p = .tclk ∨ (∃ k, p = .mclk k) ∨ p = .line ∨ p = .fabric ∨
    p = .host ∨ p = .pciePhy ∨ p = .mgmt) : d.pllEffect p = d := by
  rcases h with rfl | rfl | ⟨k, rfl⟩ | rfl | rfl | rfl | rfl | rfl <;> rfl

/-- An even counter goes up by what is counted, whether its pair is chained or not (R509). -/
theorem counter_bump_even (d : Dev) (b n : Nat) {i : Nat} (h : i % 2 = 0) : (d.bump b i n).counter b i = d.counter b i + wd n := by
  cases hc : d.chained b i with
  | false => exact (bump_effect d b i n hc).1
  | true =>
    have hkey : cntKey b i ≠ cntKey b (i + 1) := by unfold cntKey; omega
    have hw : wd ((d.counter b i).toNat + n) = d.counter b i + wd n := by simp [wd, BitVec.ofNat_add]
    unfold Dev.bump
    rw [if_pos hc, if_neg (by omega)]
    exact (Tbl.get_set_ne _ _ _ hkey).trans ((Tbl.get_set_same _ _ _ _).trans hw)

/-- Logging counts at most in EVENTS_LOST. -/
theorem counter_log (d : Dev) (src code : Nat) (data : Bytes) {b i : Nat} (h1 : cntKey b i ≠ cntKey bankMgmt 1)
    (h2 : cntKey b i ≠ cntKey bankMgmt 2) : (d.log src code data).counter b i = d.counter b i := by
  by_cases hl : d.events.length < 1024
  · rw [log_room d _ _ _ hl]; rfl
  · rw [log_full d _ _ _ hl]
    exact bump_other _ _ _ _ h1 h2

/-- A loss of lock counts one in PLL_LOCK_LOST. -/
theorem noteLoss_counter (d : Dev) (p : Pll) : (d.noteLoss p).counter bankGlb 6 = d.counter bankGlb 6 + 1#32 := by
  unfold Dev.noteLoss Dev.logBit
  rw [counter_log _ _ _ _ (by decide) (by decide), counter_latchBit, Dev.inc, counter_bump_even _ _ _ (by decide), setPll_frame]
  rfl

/-- A PLL out of lock that locks is noted; the actions that waited for its clock are judged, and TSCLK starts device time (R40, R67). -/
def Dev.noteLock (d : Dev) (p : Pll) : Dev :=
  let d1 := match pllBit p with
    | .inl b => (d.setPll p true).tardyIn b
    | .inr _ => d.setPll p true
  if p = .time then { d1 with time := { d1.time with running := true } } else d1

/-- A PLL that locks is noted, and GLB_BOOT.step goes on from it (R469). -/
theorem pllLock_unlocked {d : Dev} {p : Pll} (h : d.pllLocked p = false) : d.pllLock p = { d.noteLock p with
    boot := { (d.noteLock p).boot with
      step := if (d.noteLock p).boot.step ≤ 1 then (if (d.noteLock p).boot.plls = 0x3FFFF#18 then 2 else 1)
        else (d.noteLock p).boot.step } } := by
  unfold Dev.pllLock
  rw [if_neg (by simp [h])]
  rfl

theorem noteLock_boot (d : Dev) (p : Pll) : (d.noteLock p).boot = (d.setPll p true).boot := by
  unfold Dev.noteLock
  dsimp only
  split <;> split <;> rfl

theorem setPll_step (d : Dev) (p : Pll) (v : Bool) : (d.setPll p v).boot.step = d.boot.step := by
  unfold Dev.setPll
  split <;> rfl

/-- Once start-up has passed CLOCKS, a lock is noted and no more. -/
theorem pllLock_late {d : Dev} {p : Pll} (h : d.pllLocked p = false) (hs : 1 < d.boot.step) : d.pllLock p = d.noteLock p := by
  have hstep : (d.noteLock p).boot.step = d.boot.step := by rw [noteLock_boot, setPll_step]
  rw [pllLock_unlocked h, if_neg (by omega)]

/-- What a lock of a PLL of GLB_PLL_STATUS, of a SerDes PLL, and of the TIME PLL is. -/
theorem noteLock_bit (d : Dev) {p : Pll} {b : Nat} (hp : p ≠ .time) (hb : pllBit p = .inl b) :
    d.noteLock p = (d.setPll p true).tardyIn b := by simp [Dev.noteLock, hp, hb]

theorem noteLock_lane (d : Dev) {p : Pll} {l : Nat} (hl : pllBit p = .inr l) : d.noteLock p = d.setPll p true := by
  have hp : p ≠ .time := by rintro rfl; simp [pllBit] at hl
  simp [Dev.noteLock, hp, hl]

theorem noteLock_time (d : Dev) : d.noteLock .time =
    { (d.setPll .time true).tardyIn pllTime with time := { d.time with running := true } } := rfl

/-- Settles O14. -/
theorem pllRows : Obligations.PllRows := by
  unfold Obligations.PllRows
  refine ⟨fun s p hr hl hp => ?_, fun s hr hl => ?_, fun s p b hr hl hp hb hs => ?_, fun s p l hr hl hb hs => ?_, fun s hr hl hs => ?_,
    fun s p b hr hl hb hs => ?_⟩
  case refine_1 =>
    refine yields_of_act (fun d => d.pllLoss _) rfl hr ?_
    rw [pllLoss_locked hl, pllEffect_none _ hp]
    exact keep_noteLoss _ _
  case refine_2 =>
    refine ⟨_, yields_of_act (fun d => d.pllLoss _) rfl hr rfl, ?_⟩
    rw [pllLoss_locked hl]
    refine ⟨?_, ?_, noteLoss_counter _ _⟩
    · simp [Dev.pllEffect, Dev.keep, noteLoss_time]
    · refine clocked_setPll (d := s.dev) (p := .time) false rfl (by decide) ?_
      simp [Dev.pllEffect, Dev.keep, Dev.noteLoss]
  case refine_3 =>
    refine yields_of_act (fun d => d.pllLock _) rfl hr ?_
    rw [pllLock_late hl hs, noteLock_bit _ hp hb, setPll_frame]
    rfl
  case refine_4 =>
    refine yields_of_act (fun d => d.pllLock _) rfl hr ?_
    rw [pllLock_late hl hs, noteLock_lane _ hb, setPll_lane _ hb]
    rfl
  case refine_5 =>
    refine ⟨_, yields_of_act (fun d => d.pllLock _) rfl hr rfl, ?_⟩
    rw [pllLock_late hl hs, noteLock_time]
    exact ⟨rfl, clocked_setPll (d := s.dev) (p := .time) true rfl (by decide) rfl, rfl⟩
  case refine_6 =>
    refine ⟨_, yields_of_act (fun d => d.pllLock _) rfl hr rfl, ?_⟩
    have hstep : (s.dev.noteLock p).boot.step ≤ 1 := by rw [noteLock_boot, setPll_step]; exact hs
    rw [pllLock_unlocked hl, if_pos hstep]
    refine ⟨?_, rfl⟩
    have hplls : (s.dev.noteLock p).boot.plls = s.dev.boot.plls ||| BitVec.ofNat 18 (2 ^ b) := by
      rw [noteLock_boot, setPll_plls _ _ hb]; rfl
    exact hplls

end Sys2Proof.Machine
end

section
/-! The Dukider link and the crossings: what the end of a packet and entry to cellar mode leave alone, the cycles of the link, and
what a crossing loses. -/
namespace Sys2Proof.Machine

/-! ## What the end of a packet's hold leaves alone (R97, R169) -/

/-- A change of occupancy is a change of the port. -/
theorem changeOcc_frame (d : Dev) (p prio : Nat) (f : Nat → Nat) :
    d.changeOcc p prio f = { d with ports := (d.changeOcc p prio f).ports } := by
  unfold Dev.changeOcc
  dsimp only
  split <;> rfl

/-- The end of a hold changes the hold, the occupancy and the in-flight count. -/
theorem endHold_frame (d : Dev) (uid : Nat) : d.endHold uid =
    { d with ports := (d.endHold uid).ports, qm := (d.endHold uid).qm, vint := (d.endHold uid).vint } := by
  unfold Dev.endHold
  dsimp only
  split
  · rfl
  · rw [changeOcc_frame]
    split <;> split <;> rfl

/-- The packets lost with a crossing leave every slice and the losses of the crossings as they are. -/
theorem lostPkts_slices (d : Dev) (ks : List Pkt) : (d.lostPkts ks).slices = d.slices :=
  foldl_field (·.slices) _ (fun d k => by rw [endHold_frame]) ks d

theorem lostPkts_crossLost (d : Dev) (ks : List Pkt) : (d.lostPkts ks).crossLost = d.crossLost :=
  foldl_field (·.crossLost) _ (fun d k => by rw [endHold_frame]) ks d

/-! ## The lost link and cellar mode (R22, R421) -/

/-- Whether the Dukider link is lost, and whether the device is in cellar mode. -/
def Dev.fallback (d : Dev) : Bool × Bool := (d.dukLost, d.spr.cellar)

@[simp] theorem fallback_setReg (d : Dev) (k : Nat) (v : Word) : (d.setReg k v).fallback = d.fallback := rfl
@[simp] theorem fallback_latchBit (d : Dev) (k b : Nat) : (d.latchBit k b).fallback = d.fallback := rfl
@[simp] theorem fallback_bump (d : Dev) (b i n : Nat) : (d.bump b i n).fallback = d.fallback := by rw [bump_eq]; rfl
@[simp] theorem fallback_inc (d : Dev) (b i : Nat) : (d.inc b i).fallback = d.fallback := fallback_bump d b i 1
@[simp] theorem fallback_logBit (d : Dev) (src idx b inst : Nat) (x : Bytes) : (d.logBit src idx b inst x).fallback = d.fallback := by
  simp [Dev.fallback]
@[simp] theorem fallback_logNum (d : Dev) (src k inst : Nat) (x : Bytes) : (d.logNum src k inst x).fallback = d.fallback := by
  simp [Dev.fallback]
theorem fallback_setSlice (d : Dev) (n : Nat) (x : Slice) : (d.setSlice n x).fallback = d.fallback := rfl
@[simp] theorem fallback_setBuf (d : Dev) (h : Nat) (b : BufEntry) : (d.setBuf h b).fallback = d.fallback := rfl
@[simp] theorem fallback_setFreeList (d : Dev) (k : Nat) (l : List Seg) : (d.setFreeList k l).fallback = d.fallback := rfl
@[simp] theorem fallback_bpmFault (d : Dev) (kind party found h : Nat) : (d.bpmFault kind party found h).fallback = d.fallback := by
  unfold Dev.bpmFault
  rw [fallback_setReg, fallback_setReg]
@[simp] theorem fallback_countRetired (d : Dev) (h : Nat) : (d.countRetired h).fallback = d.fallback := by
  unfold Dev.countRetired
  rw [fallback_inc]
  rfl

/-- A refusal is logged or left out (R204): neither has to do with the link or cellar mode. -/
theorem fallback_logRefusal (d : Dev) (kind party : Nat) {mk : Dev → Bytes → Dev} (h : ∀ e n, (mk e n).fallback = e.fallback) :
    (d.logRefusal kind party mk).fallback = d.fallback := by
  unfold Dev.logRefusal
  dsimp only
  split
  · split
    · rfl
    · exact h _ _
  · exact h _ _

theorem fallback_revokedOp (d : Dev) (op party h : Nat) : (d.revokedOp op party h).fallback = d.fallback := by
  unfold Dev.revokedOp
  rw [fallback_logRefusal _ _ _ fun e n => fallback_logNum e _ _ _ _]
  simp
theorem fallback_retiredOp (d : Dev) (op party h : Nat) : (d.retiredOp op party h).fallback = d.fallback := by
  unfold Dev.retiredOp
  rw [fallback_logRefusal _ _ _ fun e n => fallback_logNum e _ _ _ _]
  simp
theorem fallback_doubleFree (d : Dev) (party h : Nat) : (d.doubleFree party h).fallback = d.fallback := by
  unfold Dev.doubleFree
  rw [fallback_logRefusal _ _ _ fun e n => fallback_logBit e _ _ _ _ _]
  simp
theorem fallback_foreignOp (d : Dev) (kind party h : Nat) : (d.foreignOp kind party h).fallback = d.fallback := by
  unfold Dev.foreignOp
  rw [fallback_logRefusal _ _ _ fun e n => fallback_logBit e _ _ _ _ _]
  simp
theorem fallback_returnBuf (d : Dev) (h : Nat) : (d.returnBuf h).fallback = d.fallback := by
  unfold Dev.returnBuf
  dsimp only
  split <;> simp

/-- Freeing a buffer, refused or not, has to do with neither. -/
theorem fallback_bufFree (d : Dev) (party h : Nat) : (d.bufFree party h).fallback = d.fallback := by
  simp only [Dev.bufFree, apply_ite Dev.fallback, fallback_revokedOp, fallback_retiredOp, fallback_doubleFree, fallback_foreignOp,
    fallback_setBuf, fallback_returnBuf, ite_self]

@[simp] theorem fallback_freeOpt (d : Dev) (party : Nat) (h : Option Nat) : (d.freeOpt party h).fallback = d.fallback := by
  cases h with
  | none => rfl
  | some h => exact fallback_bufFree d party h

@[simp] theorem fallback_endHold (d : Dev) (uid : Nat) : (d.endHold uid).fallback = d.fallback := by rw [endHold_frame]; rfl

@[simp] theorem fallback_endShare (d : Dev) (k : Pkt) : (d.endShare k).fallback = d.fallback := by
  unfold Dev.endShare
  split <;> rfl

@[simp] theorem fallback_copyFail (d : Dev) (k : Pkt) : (d.copyFail k).fallback = d.fallback := by
  unfold Dev.copyFail
  split
  · exact fallback_inc _ _ _
  · split
    · split
      · exact fallback_inc _ _ _
      · rfl
    · rfl

/-- Nor has the drop of a packet. -/
@[simp] theorem fallback_dropPkt (d : Dev) (k : Pkt) : (d.dropPkt k).fallback = d.fallback := by simp [Dev.dropPkt, Dev.release]

@[simp] theorem fallback_cellarDrop (d : Dev) (ks : List Pkt) : (d.cellarDrop ks).fallback = d.fallback :=
  foldl_field Dev.fallback _ (fun d k => by simp) ks d

theorem fallback_zeroDeficit (d : Dev) (n : Nat) : (d.zeroDeficit n).fallback = d.fallback := rfl

@[simp] theorem fallback_emptyNodes (d : Dev) (q : Nat) : (d.emptyNodes q).fallback = d.fallback := by
  unfold Dev.emptyNodes
  split
  · rfl
  · split
    · rfl
    · simp only [apply_ite Dev.fallback, fallback_zeroDeficit, ite_self]

@[simp] theorem fallback_cellarFlushQueue (d : Dev) (q : Nat) : (d.cellarFlushQueue q).fallback = d.fallback := by
  unfold Dev.cellarFlushQueue
  dsimp only
  rw [fallback_cellarDrop, fallback_emptyNodes]
  rfl

@[simp] theorem fallback_fence (d : Dev) (n g : Nat) : (d.fence n g).fallback = d.fallback := by
  unfold Dev.fence
  split <;> rfl

/-- The steps of R422 leave the device as lost, and as much in cellar mode, as it was. -/
theorem fallback_cellarSteps (d : Dev) : d.cellarSteps.fallback = d.fallback := by
  unfold Dev.cellarSteps
  extract_lets d1 d2 _ evs d3 _ d4
  have h1 : d1.fallback = d.fallback := foldl_field Dev.fallback _ (fun e n => foldl_field Dev.fallback _ (fun _ _ => by simp) _ e) _ d
  have h2 : d2.fallback = d1.fallback := foldl_field Dev.fallback _ (fun e n =>
    (foldl_field Dev.fallback _ (fun _ _ => fallback_endHold _ _) _ _).trans (fallback_setSlice e n _)) _ d1
  clear_value d2
  have hevs : evs.fallback = d2.fallback := rfl
  have h3 : d3.fallback = evs.fallback := foldl_field Dev.fallback _ (fun _ _ => by simp) _ evs
  clear_value d3
  have h4 : d4.fallback = d3.fallback := (fallback_cellarDrop _ _).trans rfl
  clear_value d4
  have h5 (e : Dev) (o : Nat) : (({ e with qm := { e.qm with noms := Tbl.set [] e.qm.noms o ((e.noms o).filter fun k => !k.reading) } }
      : Dev).cellarDrop ((e.noms o).filter fun k => k.reading)).fallback = e.fallback := (fallback_cellarDrop _ _).trans rfl
  calc _ = d4.fallback := foldl_field Dev.fallback _ h5 _ d4
    _ = d.fallback := by rw [h4, h3, hevs, h2, h1]

/-- Entry to cellar mode puts the device in it, and leaves the link as it was (R421). -/
theorem fallback_enterCellar (d : Dev) (cause : Nat) : (d.enterCellar cause).fallback = (d.dukLost, true) := by
  unfold Dev.enterCellar
  split
  next h => rw [fallback_logNum, Dev.fallback, h]
  next => rw [fallback_logBit, fallback_latchBit, fallback_inc, fallback_cellarSteps]; rfl

/-! ## Cycles of the link (R19 to R22) -/

theorem duk_setDuk (d : Dev) (t : Bool) (x : DukDir) : (d.setDuk t x).duk t = x := by cases t <;> rfl
theorem setDuk_setDuk (d : Dev) (t : Bool) (x y : DukDir) : (d.setDuk t x).setDuk t y = d.setDuk t y := by cases t <;> rfl

/-- A direction of the link is the only thing that storing it changes. -/
theorem setDuk_frame (d : Dev) (t : Bool) (x : DukDir) :
    d.setDuk t x = { d with dukUp := (d.setDuk t x).dukUp, dukDown := (d.setDuk t x).dukDown } := by cases t <;> rfl

theorem keep_setDuk (d : Dev) (t : Bool) (x : DukDir) : d.keep (d.setDuk t x) = d.setDuk t x := by cases t <;> rfl

/-- The sender's side after its next cycle: sent, in the replay buffer of 64, and the pointer moved on (R19, R21). -/
def Dev.sentCycle (d : Dev) (t : Bool) : DukDir :=
  { d.duk t with sent := (d.duk t).sent + 1, ptr := ((d.duk t).ptr + 1) % 9,
                 kept := (((d.duk t).next, d.dukCycle t) :: (d.duk t).kept).take 64 }

/-- A new cycle that comes good is delivered. -/
theorem dukReceive_good {d : Dev} {t : Bool} (h : (d.duk t).failing = none) :
    d.dukReceive t 0xFF#8 = (d.setDuk t (d.sentCycle t)).dukDeliver t (d.dukCycle t) := by
  simp [Dev.dukReceive, h, Dev.sentCycle]

/-- One that fails a CRC-32 is asked for again. -/
theorem dukReceive_bad {d : Dev} {t : Bool} {crc : BitVec 8} (h : (d.duk t).failing = none) (hc : crc ≠ 0xFF#8) :
    d.dukReceive t crc = d.setDuk t { d.sentCycle t with failing := some (d.duk t).next, replays := 0 } := by
  simp [Dev.dukReceive, h, hc, duk_setDuk, setDuk_setDuk, Dev.sentCycle]

/-- A replay that fails is asked for again, 16 times. -/
theorem dukReceive_replay_bad {d : Dev} {t : Bool} {c : Nat} {crc : BitVec 8} (h : (d.duk t).failing = some c) (hc : crc ≠ 0xFF#8) :
    d.dukReceive t crc = if 16 ≤ (d.duk t).replays then d.linkLost .replays else d := by
  simp [Dev.dukReceive, h, hc]

/-- A replay that comes good delivers the cycle as it was kept. -/
theorem dukReceive_replay_good {d : Dev} {t : Bool} {c : Nat} {x : List (Nat × Nat)} (h : (d.duk t).failing = some c)
    (hr : 0 < (d.duk t).replays) (hk : ((d.duk t).kept.find? fun p => p.1 = c) = some (c, x)) :
    d.dukReceive t 0xFF#8 = d.dukDeliver t x := by
  simp [Dev.dukReceive, h, hk, Nat.pos_iff_ne_zero.mp hr]

/-- The sender counts a replay of the failed cycle. -/
theorem dukReplay_again {d : Dev} {t : Bool} {c : Nat} (h : (d.duk t).failing = some c) (hr : (d.duk t).replays < 16) :
    d.dukReplay t = d.setDuk t { d.duk t with replays := (d.duk t).replays + 1 } := by simp [Dev.dukReplay, h, hr]

/-- A cycle on a link that runs is received. -/
theorem dukReceive_yields {s : State} {t : Bool} {crc : BitVec 8} {e : Dev} (h : Clocked (dukInto t) s)
    (hr : s.dev.dukRuns = true) (he : s.dev.keep (s.dev.dukReceive t crc) = e) : Yields (.dukiderCycleReceive t crc) s e :=
  yields_of_actIn (fun d => if d.dukRuns then d.dukReceive t crc else d) rfl h (by rw [if_pos hr, he])

/-! ## The loss of the link (R22, R425, R428) -/

/-- Before forwarding has started the loss is logged. -/
theorem linkLost_unstarted {d : Dev} (c : DukCause) (hl : d.dukLost = false) (hs : d.vint.started = false) :
    d.linkLost c = { d with dukLost := true }.logNum 0x00 3 0 (le 1 (dukCode c)) := by
  simp [Dev.linkLost, hl, hs]

/-- After it the device is in cellar mode, on the F-die alone. -/
theorem linkLost_started {d : Dev} (c : DukCause) (hl : d.dukLost = false) (hs : d.vint.started = true) :
    (d.linkLost c).fallback = (true, true) ∧ (d.linkLost c).spr.fdieOnly = true := by
  have h : d.linkLost c =
      let e := ({ d with dukLost := true }.logNum 0x00 3 0 (le 1 (dukCode c))).enterCellar 4
      { e with spr := { e.spr with fdieOnly := true } } := by simp [Dev.linkLost, hl, hs]
  rw [h]
  refine ⟨(fallback_enterCellar _ _).trans ?_, rfl⟩
  rw [Dev.logNum_dukLost]

/-! ## Crossings (R30, R32) -/

/-- What a crossing lost is counted for the block it leads to, and logged. -/
def Dev.noteCrossing (d : Dev) (xing inst : Nat) (back : Bool) (r : Nat × Dev) : Dev :=
  { r.2 with crossLost := Tbl.modify 0 r.2.crossLost (d.crossBank xing inst back) (· + r.1) }.logNum 0x00 2 inst
    (le 1 xing ++ le 4 (satN 32 r.1))

/-- Most crossings hold nothing between two steps: the row says how many entries went. -/
theorem crossingError_other (d : Dev) {xing : Nat} (inst : Nat) (back : Bool) (lost : Nat) (h3 : xing ≠ 3) (h4 : xing ≠ 4)
    (h7 : xing ≠ 7) (h22 : xing ≠ 22) : d.crossingError xing inst back lost = d.noteCrossing xing inst back (lost, d) := by
  simp [Dev.crossingError, Dev.noteCrossing]

/-- CX03 holds the packets between the MACs of a port group and its slice. -/
theorem crossingError_macSlice (d : Dev) {g : Nat} (back : Bool) (lost : Nat) (hg : g < 8) :
    d.crossingError 3 g back lost = d.noteCrossing 3 g back (d.loseMacSlice g back) := by
  simp [Dev.crossingError, Dev.noteCrossing, hg]

/-- Emptied toward the slice that holds the port group, it takes from the ingress port what the FIFO held (R30). -/
theorem loseMacSlice_holder {d : Dev} {g n : Nat} {r : Nat × List Pkt × List Pkt} (h : d.holder g = some n)
    (hr : r = fifoLoss wordsOf 64 (d.slice n).ingress) : (d.loseMacSlice g false).1 = r.1 ∧
      ((d.loseMacSlice g false).2.slice n).ingress = r.2.2 ∧ (d.loseMacSlice g false).2.crossLost = d.crossLost := by
  have hx : d.loseMacSlice g false = (r.1, (d.modSlice n fun s => { s with ingress := r.2.2 }).lostPkts r.2.1) := by
    simp [Dev.loseMacSlice, h, hr]
  rw [hx]
  refine ⟨rfl, ?_, lostPkts_crossLost _ _⟩
  unfold Dev.slice
  rw [lostPkts_slices]
  exact congrArg Slice.ingress (d.slice_modSlice_same n _)

/-- What is noted of a crossing leaves the slices as they were, and adds to one bank of losses. -/
theorem noteCrossing_slice (d : Dev) (xing inst : Nat) (back : Bool) (r : Nat × Dev) (n : Nat) :
    (d.noteCrossing xing inst back r).slice n = r.2.slice n := by simp [Dev.noteCrossing, Dev.slice]

theorem noteCrossing_crossLost (d : Dev) (xing inst : Nat) (back : Bool) (r : Nat × Dev) :
    Tbl.get 0 (d.noteCrossing xing inst back r).crossLost (d.crossBank xing inst back) =
      Tbl.get 0 r.2.crossLost (d.crossBank xing inst back) + r.1 := by
  simp [Dev.noteCrossing, Tbl.modify]

/-- Settles O31. -/
theorem dukiderRows : Obligations.DukiderRows := by
  unfold Obligations.DukiderRows
  refine ⟨fun s t hc hr hf => ?_, fun s t crc hc hr hf hcrc => ?_, fun s t c crc hc hr hf hcrc hn => ?_,
    fun s t c crc hc hr hf hcrc hn => ?_, fun s t c x hc hr hf hn hk => ?_, fun s t c hu hr hf hn => ?_, fun s c hu hl hs => ?_,
    fun s c hu hl hs => ?_, fun s x inst back lost hu h2 h3 h6 h21 => ?_, fun s g n lost r hu hh hr => ?_⟩
  case refine_1 => exact dukReceive_yields hc hr (by rw [dukReceive_good hf]; rfl)
  case refine_2 =>
    refine ⟨_, dukReceive_yields hc hr rfl, ?_⟩
    rw [dukReceive_bad hf hcrc, keep_setDuk]
    exact ⟨duk_setDuk _ _ _, setDuk_frame _ _ _⟩
  case refine_3 => exact dukReceive_yields hc hr (by rw [dukReceive_replay_bad hf hcrc, if_neg (by omega)]; rfl)
  case refine_4 => exact dukReceive_yields hc hr (by rw [dukReceive_replay_bad hf hcrc, if_pos hn])
  case refine_5 => exact dukReceive_yields hc hr (by rw [dukReceive_replay_good hf hn hk])
  case refine_6 =>
    refine yields_of_act (fun d => if d.dukRuns then d.dukReplay t else d) rfl hu ?_
    rw [if_pos hr, dukReplay_again hf hn, keep_setDuk]
  case refine_7 =>
    refine yields_of_act (fun d => d.linkLost c) rfl hu ?_
    rw [linkLost_unstarted c hl hs]
    exact keep_log _ _ _ rfl
  case refine_8 =>
    obtain ⟨hfall, hfdie⟩ := linkLost_started c hl hs
    exact ⟨_, yields_of_act (fun d => d.linkLost c) rfl hu rfl, congrArg Prod.fst hfall, congrArg Prod.snd hfall, hfdie⟩
  case refine_9 =>
    refine yields_of_act (fun d => d.crossingError _ _ _ _) rfl hu ?_
    rw [crossingError_other _ _ _ _ (by omega) (by omega) (by omega) (by omega)]
    exact keep_log _ _ _ rfl
  case refine_10 =>
    obtain ⟨hn, hi, hc⟩ := loseMacSlice_holder hh hr
    have hx := crossingError_macSlice s.dev false lost g.isLt
    refine ⟨_, yields_of_act (fun d => d.crossingError _ _ _ _) rfl hu (congrArg s.dev.keep hx), ?_, ?_⟩
    · exact (congrArg Slice.ingress (noteCrossing_slice s.dev 3 g false _ n)).trans hi
    · refine (noteCrossing_crossLost s.dev 3 g false _).trans ?_
      rw [hn, hc]

end Sys2Proof.Machine
end

section
/-! The pipelines of a slice: an issue slot, the answers to its table reads, the resolver, the hand-off and the edit stages. -/
namespace Sys2Proof.Machine

/-! ## Issue slots (R517) -/

/-- The ledger of issue slots is in the counters. -/
theorem keep_slot {d e : Dev} (n i : Nat) (h : d.keep e = e) : d.keep (e.slot n i) = e.slot n i := by
  unfold Dev.slot
  dsimp only
  split
  · exact keep_inc _ _ (keep_inc _ _ h)
  · exact keep_inc _ _ h

/-! ## Acceptance (R15, R16, R103) -/

/-- INGRESS_ACCEPT is one issue slot. -/
theorem exec_ingressAccept (s : State) (n : Fin 9) (bad : List (Fin 512)) : exec (.ingressAccept n bad) s =
    actIn pllF (.ingressAccept n bad) s fun d => d.ingressAccept n (bad.map fun e => e.val) := rfl

/-- The next packet of the ingress port enters the press in an issue slot. -/
theorem ingressAccept_enters {d : Dev} {n : Nat} (bad : List Nat) {k : Pkt} {rest : List Pkt} (hr : (d.slice n).runs = true)
    (hi : (d.slice n).ingress = k :: rest) (hw : k.windowReady = true) (ho : (d.slice n).order.length < 512) (hp : k.pass = 0) :
    d.ingressAccept n bad = ((d.slot n 0).modSlice n fun x => { x with ingress := rest }).enterPress n k bad := by
  simp [Dev.ingressAccept, hr, hi, hw, hp, Nat.not_le.mpr ho]

/-- With the order buffer full it stays, and the slot counts what holds it. -/
theorem ingressAccept_held {d : Dev} {n : Nat} (bad : List Nat) {k : Pkt} {rest : List Pkt} (hr : (d.slice n).runs = true)
    (hi : (d.slice n).ingress = k :: rest) (hw : k.windowReady = true) (ho : 512 ≤ (d.slice n).order.length) :
    d.ingressAccept n bad = d.slot n (d.slice n).heldClass := by
  simp [Dev.ingressAccept, hr, hi, hw, ho]

/-- A slot with nothing offered is idle, whether the slice runs or not. -/
theorem ingressAccept_idle {d : Dev} {n : Nat} (bad : List Nat) (hi : (d.slice n).ingress = []) :
    d.ingressAccept n bad = d.slot n 4 := by
  unfold Dev.ingressAccept
  dsimp only
  rw [hi]
  cases (d.slice n).runs <;> rfl

/-! ## Table reads (R140, R141, R350) -/

/-- With no read out there is no response. -/
theorem lookupResponse_none {d : Dev} {n : Nat} (e : DramEcc) (c : Instr) (h : d.lookupOut n = none) :
    d.lookupResponse n e c = d := by simp [Dev.lookupResponse, h]

/-- The oldest read returns uncorrectable when no copy of its line is left. -/
theorem lookupResponse_lost {d : Dev} {n : Nat} (e : DramEcc) (c : Instr) {l : Lookup} (h : d.lookupOut n = some l)
    (hw : d.writeWaits rTable l.line = none) (hk : d.lookupCopy l = none) :
    d.lookupResponse n e c = d.holdLookup n false none := by simp [Dev.lookupResponse, h, hw, hk]

/-- Otherwise it returns what the copy that it takes gives. -/
theorem lookupResponse_copy {d : Dev} {n : Nat} (e : DramEcc) (c : Instr) {l : Lookup} {k : Nat} (h : d.lookupOut n = some l)
    (hw : d.writeWaits rTable l.line = none) (hk : d.lookupCopy l = some k) :
    d.lookupResponse n e c = d.readCopy k (d.stackLine rTable l.line) e c fun d good =>
      (if l.repeated then d else d.countRedirect rTable l.line k).holdLookup n good (some k) := by
  simp [Dev.lookupResponse, h, hw, hk]

/-- A bad line whose master is alive is read again. -/
theorem refetch_listed {d : Dev} {n line : Nat} (h : (d.slice n).badLines.contains line = true) (ha : d.lineAlive rTable line = true) :
    d.refetch n line = Dev.countReads { d.modSlice n fun x => { x with badLines := x.badLines.filter (· != line) } with
      smem := Tbl.setRun 0#8 d.smem (smemKey n (64 * line)) (d.dramRead rTable (64 * line) 64) } rTable (64 * line) 64 := by
  unfold Dev.refetch
  rw [if_pos ⟨h, ha⟩]
  rfl

/-! ## The stages, the resolver and the hand-off (R16, R19, R150) -/

/-- The stages work on the next packet; the resolver takes it once no read of it is out. -/
theorem actionResolve_next {d : Dev} {n : Nat} (f : ResolveFault) {k : Pkt} (hr : (d.slice n).runs = true)
    (hk : (d.slice n).nextStage = some k) : d.actionResolve n f =
      if (d.runStages n f 17 k).1.waits then ((d.runStages n f 17 k).2.putOrder n (d.runStages n f 17 k).1).sendAsks
      else ((d.runStages n f 17 k).2.putOrder n (d.runStages n f 17 k).1).resolve n f (d.runStages n f 17 k).1 := by
  simp only [Dev.actionResolve, hr, hk]

/-- A good packet that is next in order goes into a channel with room. -/
theorem dukHandoff_next {d : Dev} {n : Nat} {k : Pkt} (hr : (d.slice n).runs = true) (hl : d.dukLost = false)
    (hc : d.spr.cellar = false) (hu : chanRoom (d.slice n).up = true) (hk : handoffNext (d.slice n).order [] = some k)
    (hb : k.bad = false) : d.dukHandoff n = d.handOff n k := by
  simp [Dev.dukHandoff, hr, hl, hc, hu, hk, hb]

/-! ## The edit stages (R156, R170) -/

/-- The next packet that is all there is edited. -/
theorem egressEdit_next {d : Dev} {n : Nat} {k : Pkt} {rest : List Pkt} (he : (d.slice n).egress = k :: rest)
    (hk : k.headOnly = false) : d.egressEdit n = (d.modSlice n fun x => { x with egress := rest }).editPkt n k := by
  simp [Dev.egressEdit, he, hk]

/-- One whose vintage is not live is stale. -/
theorem editPkt_stale {d : Dev} {n : Nat} {k : Pkt} (hr : (d.slice n).runs = true) (hv : d.isLive k.recVint = false) :
    d.editPkt n k = d.countStale.dropPkt k := by
  simp [Dev.editPkt, hr, hv]

/-- Settles O30. -/
theorem slicePipeline : Obligations.SlicePipeline := by
  unfold Obligations.SlicePipeline
  refine ⟨fun s n bad k rest hc hr hi hw ho hp => ?_, fun s n bad k rest hc hr hi hw ho => ?_, fun s n bad hc hi => ?_,
    fun s n e hc he => ?_, fun s n ecc hc hl => ?_, fun s n ecc l hc hl hw hk => ?_, fun s n ecc l k hc hl hw hk => ?_,
    fun s n line hc hb ha => ?_, fun s n e hc he => ?_, fun s n f k hc hr hk hw => ?_, fun s n f k hc hr hk hw => ?_,
    fun s n k hc hr hl hcel hu hk hb => ?_, fun s n k rest hc he hk => ?_, fun d n k hr hv => editPkt_stale hr hv⟩
  case refine_1 =>
    refine yields_of_actIn _ (exec_ingressAccept s n bad) hc ?_
    rw [ingressAccept_enters _ hr hi hw ho hp]
  case refine_2 =>
    refine yields_of_actIn _ (exec_ingressAccept s n bad) hc ?_
    rw [ingressAccept_held _ hr hi hw ho]
    exact keep_slot _ _ rfl
  case refine_3 =>
    refine yields_of_actIn _ (exec_ingressAccept s n bad) hc ?_
    rw [ingressAccept_idle _ hi]
    exact keep_slot _ _ rfl
  case refine_4 =>
    refine yields_of_actIn (fun d => d.pressReloaded n e) rfl hc ?_
    unfold Dev.pressReloaded
    rw [if_pos he]
    exact keep_slot _ _ rfl
  case refine_5 => exact yields_of_actIn (fun d => d.lookupResponse n ecc _) rfl hc (by rw [lookupResponse_none _ _ hl]; rfl)
  case refine_6 => exact yields_of_actIn (fun d => d.lookupResponse n ecc _) rfl hc (by rw [lookupResponse_lost _ _ hl hw hk])
  case refine_7 => exact yields_of_actIn (fun d => d.lookupResponse n ecc _) rfl hc (by rw [lookupResponse_copy _ _ hl hw hk])
  case refine_8 => exact yields_of_actIn (fun d => d.refetch n line) rfl hc (by rw [refetch_listed hb ha])
  case refine_9 =>
    refine yields_of_actIn (fun d => d.assocReloaded n e) rfl hc ?_
    unfold Dev.assocReloaded
    rw [if_pos he]
    exact keep_inc _ _ (keep_slot _ _ rfl)
  case refine_10 =>
    refine yields_of_actIn (fun d => d.actionResolve n f) rfl hc ?_
    rw [actionResolve_next f hr hk, if_neg (by simp [hw])]
  case refine_11 =>
    refine yields_of_actIn (fun d => d.actionResolve n f) rfl hc ?_
    rw [actionResolve_next f hr hk, if_pos hw]
  case refine_12 => exact yields_of_actIn (fun d => d.dukHandoff n) rfl hc (by rw [dukHandoff_next hr hl hcel hu hk hb])
  case refine_13 => exact yields_of_actIn (fun d => d.egressEdit n) rfl hc (by rw [egressEdit_next he hk])

end Sys2Proof.Machine
end

section
/-! Nomination, the crossbar, dispatch and evacuation: what each does in each of its cases, and what a cell time leaves alone. -/
namespace Sys2Proof.Machine

/-! ## Evacuation (R223 to R225) -/

/-- The oldest evacuation write of a queue completes for the packet that is all there. -/
theorem evacDone_written {d : Dev} {q : Nat} {k : Pkt} (h : ((d.queue q).pkts.find? fun k => k.evacTo.isSome && !k.headOnly) = some k) :
    d.evacDone q = d.evacWritten q k := by simp only [Dev.evacDone, h]

theorem evacDone_none {d : Dev} {q : Nat} (h : ((d.queue q).pkts.find? fun k => k.evacTo.isSome && !k.headOnly) = none) :
    d.evacDone q = d := by simp only [Dev.evacDone, h]

/-- A read that returns with tokens enough takes them, and lets the packet cross or drops it. -/
theorem evacReadBack_returns {d : Dev} {o : Nat} {k : Pkt} (good : Bool) (h : ((d.noms o).find? fun k => k.reading) = some k)
    (ht : evacCharge k.len ≤ d.evacTokens (evacShare k.queue true)) : d.evacReadBack o good =
      let d1 := (d.takeTokens (evacShare k.queue true) (evacCharge k.len)).countLines k.dram 0 k.len
      if good ∧ !k.onLost d then
        (d1.setNoms o ((d1.noms o).map fun j => if j.seq = k.seq then { j with reading := false } else j)).inc bankTmq 7
      else (((d1.setNoms o (removeSeq k.seq (d1.noms o))).inc bankTmq 9).latchBit Reg.TMQ_STATUS 11).dropPkt k := by
  simp only [Dev.evacReadBack, h, if_neg (Nat.not_lt.mpr ht)]

theorem evacReadBack_none {d : Dev} {o : Nat} (good : Bool) (h : ((d.noms o).find? fun k => k.reading) = none) :
    d.evacReadBack o good = d := by simp only [Dev.evacReadBack, h]

/-! ## Nomination (R227) -/

/-- The return queues of a port group come first. -/
theorem nominatePg_return {d : Dev} {g q : Nat} {k : Pkt} (credit : Nat → Bool) (h : d.returnHead g = some (q, k))
    (hr : d.nomRoom g k = true) : d.nominatePg g credit = d.nominate g q k := by simp [Dev.nominatePg, h, hr]

/-- With none, the output's pick is nominated where it fits. -/
theorem nominatePg_pick {d : Dev} {g : Nat} {credit : Nat → Bool} {x : Pick} (h : d.returnHead g = none)
    (hp : d.pickOutput g credit = some x) (hr : d.nomRoom g x.pkt = true) : d.nominatePg g credit = x.dev.nominate g x.q x.pkt := by
  simp [Dev.nominatePg, h, hp, hr]

/-- Outputs 0 to 7 are those of the port groups. -/
theorem nominateOut_portGroup (d : Dev) {g : Nat} (credit : Nat → Bool) (h : g < 8) : d.nominateOut g credit = d.nominatePg g credit :=
  if_pos h

/-! ## A cell time (R228, R518) -/

/-- The packets of a list of nominated ones: their order numbers and frames. -/
def seqFrames (l : List Pkt) : List (Nat × Bytes) := l.map fun k => (k.seq, k.frame)

/-- What a cell moves is bytes of nominated packets: a list keeps its packets, in order. -/
theorem moveBytes_packets (i : Nat) (l : List Pkt) (n : Nat) : seqFrames (moveBytes i l n) = seqFrames l := by
  unfold seqFrames
  induction l generalizing n with
  | nil => rfl
  | cons k ks ih =>
    unfold moveBytes
    split
    · simp [ih]
    · dsimp only
      split <;> simp [ih]

/-- The cells that output `j` accepts leave its list of nominated packets. -/
def Dev.cellMoves (r : Match) (d : Dev) (j : Nat) : List Pkt :=
  (List.range 10).foldl (fun l i => moveBytes i l (256 * r.acc.getD (10 * i + j) 0)) (d.noms j)

/-- What a cell time does with one output: its accepted cells move, and its slots are counted (R518). -/
def Dev.cellOutput (r : Match) (d : Dev) (j : Nat) : Dev :=
  let inTo := ((List.range 10).map fun i => r.acc.getD (10 * i + j) 0).foldl (· + ·) 0
  let free := xbarCap j - inTo
  let unm := min free (((List.range 10).map fun i => r.cells.getD (10 * i + j) 0).foldl (· + ·) 0)
  ((((d.setNoms j (d.cellMoves r j)).bump bankSchd j inTo).bump bankSchd (32 + 8 * j) inTo).bump bankSchd (34 + 8 * j) unm).bump bankSchd
    ((if d.nomFull j then 38 else 36) + 8 * j) (free - unm)

/-- What it does with one input: its cells are counted. -/
def Dev.cellInput (r : Match) (d : Dev) (i : Nat) : Dev :=
  d.bump bankSchd (10 + i) (((List.range 10).map fun j => r.acc.getD (10 * i + j) 0).foldl (· + ·) 0)

/-- A cell time goes over the outputs and the inputs, counts itself, and moves the matcher's pointers. -/
theorem cellTime_eq (d : Dev) : d.cellTime =
    (((List.range 10).foldl (Dev.cellInput d.matchCells.1) ((List.range 10).foldl (Dev.cellOutput d.matchCells.1) d)).inc bankSchd
      112).setPtrs d.matchCells.2.1 d.matchCells.2.2 := rfl

/-- The device without its counters and its nominated packets. -/
def Dev.sansCells (d : Dev) : Dev := { d with cnt := [], qm := { d.qm with noms := [] } }

theorem sansCells_bump (d : Dev) (b i n : Nat) : (d.bump b i n).sansCells = d.sansCells := by rw [bump_eq]; rfl

theorem noms_bump (d : Dev) (b i n o : Nat) : (d.bump b i n).noms o = d.noms o := by rw [bump_eq]; rfl

theorem cellOutput_sansCells (r : Match) (d : Dev) (j : Nat) : (d.cellOutput r j).sansCells = d.sansCells := by
  unfold Dev.cellOutput
  dsimp only
  rw [sansCells_bump, sansCells_bump, sansCells_bump, sansCells_bump]
  rfl

theorem cellOutput_packets (r : Match) (d : Dev) (j o : Nat) : seqFrames ((d.cellOutput r j).noms o) = seqFrames (d.noms o) := by
  unfold Dev.cellOutput
  dsimp only
  rw [noms_bump, noms_bump, noms_bump, noms_bump]
  by_cases h : o = j
  · subst h
    rw [Dev.noms_setNoms_same]
    unfold Dev.cellMoves
    exact List.foldlRecOn (motive := fun l => seqFrames l = seqFrames (d.noms o)) _ _ rfl
      fun l hl i _ => (moveBytes_packets i l _).trans hl
  · rw [Dev.noms_setNoms_ne _ _ h]

/-- Neither the outputs nor the inputs count in CELL_TIMES, which is above theirs. -/
theorem cellTimes_bump (d : Dev) {i : Nat} (n : Nat) (h : i < 111) :
    (d.bump bankSchd i n).counter bankSchd 112 = d.counter bankSchd 112 :=
  bump_other d bankSchd i n (by unfold cntKey; omega) (by unfold cntKey; omega)

theorem cellOutput_cellTimes (r : Match) (d : Dev) {j : Nat} (h : j < 10) :
    (d.cellOutput r j).counter bankSchd 112 = d.counter bankSchd 112 := by
  unfold Dev.cellOutput
  dsimp only
  rw [cellTimes_bump _ _ (by split <;> omega), cellTimes_bump _ _ (by omega), cellTimes_bump _ _ (by omega),
    cellTimes_bump _ _ (by omega)]
  rfl

/-- Before a cell time counts itself, only counters and staged bytes have changed, and CELL_TIMES is as it was. -/
theorem cellOutputs_inputs (r : Match) (d : Dev) {e : Dev}
    (he : e = (List.range 10).foldl (Dev.cellInput r) ((List.range 10).foldl (Dev.cellOutput r) d)) :
    e.sansCells = d.sansCells ∧ (∀ o, seqFrames (e.noms o) = seqFrames (d.noms o)) ∧
      e.counter bankSchd 112 = d.counter bankSchd 112 := by
  subst he
  refine ⟨?_, fun o => ?_, ?_⟩
  · exact (foldl_field Dev.sansCells _ (fun e _ => sansCells_bump e _ _ _) _ _).trans
      (foldl_field Dev.sansCells _ (cellOutput_sansCells r) _ d)
  · exact (foldl_field (fun e => seqFrames (e.noms o)) _ (fun e _ => congrArg seqFrames (noms_bump e _ _ _ o)) _ _).trans
      (foldl_field (fun e => seqFrames (e.noms o)) _ (fun e j => cellOutput_packets r e j o) _ d)
  · refine List.foldlRecOn (motive := fun e : Dev => e.counter bankSchd 112 = d.counter bankSchd 112) _ _ ?_ fun e he i hi => ?_
    · exact List.foldlRecOn (motive := fun e : Dev => e.counter bankSchd 112 = d.counter bankSchd 112) _ _ rfl
        fun e he j hj => (cellOutput_cellTimes r e (List.mem_range.mp hj)).trans he
    · have := List.mem_range.mp hi
      exact (cellTimes_bump e _ (by omega)).trans he

/-- A cell time is counted; it moves bytes of nominated packets, and packets of no queue (R228). -/
theorem cellTime_effect (d : Dev) {e : Dev} (he : e = d.cellTime) :
    e = { d with cnt := e.cnt, qm := e.qm } ∧ e.qm.queues = d.qm.queues ∧ e.counter bankSchd 112 = d.counter bankSchd 112 + 1#32 ∧
      ∀ o, seqFrames (e.noms o) = seqFrames (d.noms o) := by
  obtain ⟨hrest, hpkts, hcnt⟩ := cellOutputs_inputs d.matchCells.1 d rfl
  rw [cellTime_eq] at he
  generalize (List.range 10).foldl (Dev.cellInput d.matchCells.1) _ = d2 at hrest hpkts hcnt he
  have hinc : (d2.inc bankSchd 112).sansCells = d.sansCells := (sansCells_bump _ _ _ _).trans hrest
  have hq : e.qm.queues = (d2.inc bankSchd 112).qm.queues := by rw [he]; rfl
  have hc : e.counter bankSchd 112 = (d2.inc bankSchd 112).counter bankSchd 112 := by rw [he]; rfl
  have hn (o : Nat) : e.noms o = (d2.inc bankSchd 112).noms o := by rw [he]; rfl
  refine ⟨?_, hq.trans (congrArg (fun x : Dev => x.qm.queues) hinc :), ?_, fun o => ?_⟩
  · have hall : e = { d2.inc bankSchd 112 with cnt := e.cnt, qm := e.qm } := by rw [he]; rfl
    exact hall.trans (congrArg (fun x : Dev => { x with cnt := e.cnt, qm := e.qm }) hinc :)
  · rw [hc, Dev.inc, counter_bump_even _ _ _ (by decide), hcnt]
    rfl
  · rw [hn, Dev.inc, noms_bump, hpkts]

/-! ## Dispatch (R22, R30, R230) -/

/-- Nothing crosses a lost link. -/
theorem dispatchTo_lost {d : Dev} (t : Nat) (h : d.dukLost = true) : d.dispatchTo t = d := by simp [Dev.dispatchTo, h]

/-- Targets 0 to 7 are the outputs of the port groups; above them is the spare's share of each slice. -/
theorem dispatchTo_output {d : Dev} {g : Nat} (h : d.dukLost = false) (hg : g < 8) : d.dispatchTo g = d.dispatchOut g := by
  simp [Dev.dispatchTo, h, hg]

theorem dispatchTo_spare {d : Dev} (n : Nat) (h : d.dukLost = false) : d.dispatchTo (8 + n) = d.dispatchSpare n := by
  simp [Dev.dispatchTo, h]

/-- The packet that the scan finds is sent when its channel has room. -/
theorem dispatchOut_send {d d1 : Dev} {g : Nat} {k : Pkt} {l : List Pkt} {n m : Nat}
    (h : scanStaged d (d.noms g) [] = (l, n, m, .send k)) (hd : d1 = ((d.setNoms g l).bump bankShp 1 n).bump bankShp 2 m) :
    d.dispatchOut g = if d1.canSend g k then (d1.setNoms g (removeSeq k.seq l)).sendStaged g k else d1 := by
  simp only [Dev.dispatchOut, h, hd]

/-- One that it finds to drop is dropped and counted. -/
theorem dispatchOut_drop {d : Dev} {g : Nat} {k : Pkt} {l : List Pkt} {n m b i : Nat}
    (h : scanStaged d (d.noms g) [] = (l, n, m, .drop k b i)) : d.dispatchOut g =
      (((((d.setNoms g l).bump bankShp 1 n).bump bankShp 2 m).setNoms g (removeSeq k.seq l)).inc b i).dropPkt k := by
  simp only [Dev.dispatchOut, h]

/-- The spare's share serves a slice that holds no port group. -/
theorem dispatchSpare_idle {d : Dev} {n : Nat} {k : Pkt} (hh : ∀ g < 8, d.holder g ≠ some n) (hk : d.headOf (qKey 4 (8 + n)) = some k)
    (hr : chanRoom (d.slice n).down = true) : d.dispatchSpare n = (d.popQueue (qKey 4 (8 + n))).toIngress n k := by
  have hnone : ((List.range 8).any fun g => d.holder g = some n) = false := by
    simpa [List.any_eq_false] using hh
  simp [Dev.dispatchSpare, hnone, hk, hr]

/-- Settles O39. -/
theorem scheduling : Obligations.Scheduling := by
  unfold Obligations.Scheduling
  refine ⟨fun s q k hc hk => ?_, fun s q hc hk => ?_, fun s o k d hc hk ht hd => ?_, fun s o hc hk good => ?_,
    fun s g c q k hc hh hr => ?_, fun s g c x hc hh hp hr => ?_, fun s c hc => ⟨?_, ?_⟩, fun s hc => ?_, fun s t hc hl => ?_,
    fun s g k l n m d hc hl hs hd => ?_, fun s g k l n m b i hc hl hs => ?_, fun s n k hc hl hh hk hr => ?_⟩
  case refine_1 => exact yields_of_actIn (fun d => d.evacDone q) rfl hc (by rw [evacDone_written hk])
  case refine_2 => exact yields_of_actIn (fun d => d.evacDone q) rfl hc (by rw [evacDone_none hk]; rfl)
  case refine_3 =>
    have hback (good : Bool) := evacReadBack_returns good hk ht
    rw [← hd] at hback
    refine ⟨fun hon => ?_, ?_⟩
    · refine yields_of_actIn (fun d => d.evacReadBack o true) rfl hc ?_
      simp [hback, hon]
    · refine yields_of_actIn (fun d => d.evacReadBack o false) rfl hc ?_
      simp [hback]
  case refine_4 => exact yields_of_actIn (fun d => d.evacReadBack o good) rfl hc (by rw [evacReadBack_none _ hk]; rfl)
  case refine_5 =>
    refine yields_of_actIn (fun d => d.nominateOut g fun p => c.getLsbD p) rfl hc ?_
    rw [nominateOut_portGroup _ _ g.isLt, nominatePg_return _ hh hr]
  case refine_6 =>
    refine yields_of_actIn (fun d => d.nominateOut g fun p => c.getLsbD p) rfl hc ?_
    rw [nominateOut_portGroup _ _ g.isLt, nominatePg_pick hh hp hr]
  case refine_7 => exact yields_of_actIn (fun d => d.nominateOut 8 fun p => c.getLsbD p) rfl hc rfl
  case refine_8 => exact yields_of_actIn (fun d => d.nominateOut 9 fun p => c.getLsbD p) rfl hc rfl
  case refine_9 =>
    obtain ⟨hrest, hqueues, hcount, hpkts⟩ := cellTime_effect s.dev rfl
    refine ⟨s.dev.cellTime, yields_of_actIn Dev.cellTime rfl hc ?_, hrest, hqueues, hcount, hpkts⟩
    rw [hrest]
    rfl
  case refine_10 => exact yields_of_actIn (fun d => d.dispatchTo t) rfl hc (by rw [dispatchTo_lost _ hl]; rfl)
  case refine_11 =>
    refine yields_of_actIn (fun d => d.dispatchTo g) rfl hc ?_
    rw [dispatchTo_output hl g.isLt, dispatchOut_send hs hd]
  case refine_12 =>
    refine yields_of_actIn (fun d => d.dispatchTo g) rfl hc ?_
    rw [dispatchTo_output hl g.isLt, dispatchOut_drop hs]
  case refine_13 =>
    refine yields_of_actIn (fun d => d.dispatchTo (8 + n)) rfl hc ?_
    rw [dispatchTo_spare _ hl, dispatchSpare_idle hh hk hr]

end Sys2Proof.Machine
end

section
/-! What the rows of power, reset and the always-on domain leave alone, and what each form of a meaning holds fast: which rows move
device time, GLB_LOCK, the flash, power and reset. -/
namespace Sys2Proof.Machine

/-! ## The rows that act in reset (R443, R467, R525) -/

/-- GLB_LOCK, device time and the flash of `e` are those of `d`. -/
def Dev.HoldsBus (d e : Dev) : Prop := e.lock = d.lock ∧ e.time.now = d.time.now ∧ e.nvm = d.nvm

/-- What the plain form makes of `e` holds what `e` does. -/
theorem Dev.HoldsBus.keep {d e : Dev} (h : d.HoldsBus e) (x : Dev) : d.HoldsBus (e.keep x) := h

/-- The trip's part of a sample is in the always-on domain, the reset and the pins. -/
theorem tripSample_frame (d : Dev) : d.tripSample =
    { d with inReset := d.tripSample.inReset, mgmt := d.tripSample.mgmt, out := d.tripSample.out } := by
  unfold Dev.tripSample
  dsimp only
  split
  · split <;> rfl
  · rfl

theorem holdsBus_tripSample (d : Dev) (temps : List (BitVec 12)) : d.HoldsBus (d.aonSample temps).tripSample := by
  rw [tripSample_frame]
  exact ⟨rfl, rfl, rfl⟩

/-- The rest of a sample has the plain form, so it holds what the trip's part held. -/
theorem holdsBus_sample (d : Dev) (temps : List (BitVec 12)) : d.HoldsBus (d.sample temps) := by
  have h := holdsBus_tripSample d temps
  unfold Dev.sample
  dsimp only
  split
  · exact h
  · split
    · exact h.keep _
    · exact h

/-- A release of SYS_RST_N is in the straps, the reset, the trip's pin and the flash's mode. -/
theorem holdsBus_sysRelease (d : Dev) (straps : Word) : d.HoldsBus (d.sysRelease straps) := by
  unfold Dev.sysRelease
  dsimp only
  split
  · exact ⟨rfl, rfl, rfl⟩
  · split
    · exact ⟨rfl, rfl, rfl⟩
    · split <;> exact ⟨rfl, rfl, rfl⟩

/-- GLB_LOCK and device time, which power loss leaves alone. -/
def Dev.lockTime (d : Dev) : BitVec 5 × TimeBase := (d.lock, d.time)

/-- What power loss spoils is in the flash; the values it leaves there are free. -/
@[simp] theorem lockTime_tear (d : Dev) (a n : Nat) (good : Bytes → Bool) : (d.tear a n good).lockTime = d.lockTime := by
  unfold Dev.tear
  dsimp only
  split <;> rfl

@[simp] theorem lockTime_nvSpoil (d : Dev) (a n : Nat) : (d.nvSpoil a n).lockTime = d.lockTime := rfl

@[simp] theorem lockTime_tearNvm (d : Dev) : d.tearNvm.lockTime = d.lockTime := by
  simp only [Dev.tearNvm, apply_ite Dev.lockTime, lockTime_nvSpoil, lockTime_tear, ite_self]

theorem lockTime_powerLoss (d : Dev) : d.powerLoss.lockTime = d.lockTime := by
  unfold Dev.powerLoss
  dsimp only
  split
  · rfl
  · split
    · rfl
    · exact lockTime_tearNvm d

/-- Power-on and SYS_RST_N leave the flash as it is. -/
theorem powerOn_nvm (d : Dev) : d.powerOn.nvm = d.nvm := by
  unfold Dev.powerOn
  split <;> rfl

theorem sysRst_nvm (d : Dev) : d.sysRst.nvm = d.nvm := by
  unfold Dev.sysRst
  split <;> rfl

/-! ## What a row can be -/

/-- A row that does nothing in reset has one of the three forms, the ones that write by their sets of rows. -/
theorem exec_form (c : Instr) (s : State) (h : actsInReset c = false) : (∃ f, exec c s = act s f) ∨
    (writesBus c = true ∧ ∃ f, exec c s = actBus s f) ∨ (writesFlash c = true ∧ ∃ f, exec c s = actNvm s f) := by
  cases hb : writesBus c with
  | true => exact .inr (.inl ⟨rfl, exec_actBus c s hb⟩)
  | false =>
    cases hf : writesFlash c with
    | true => exact .inr (.inr ⟨rfl, exec_actNvm c s hf (by rintro rfl; cases h)⟩)
    | false => exact .inl (exec_act c s hb hf h)

/-- The rows that act in reset, by name. -/
theorem actsInReset_cases {c : Instr} (h : actsInReset c = true) : c = .powerOn ∨ c = .powerLoss ∨ c = .sysRstAssert ∨
    (∃ x, c = .sysRstRelease x) ∨ (∃ x, c = .sensorSample x) ∨ c = .aonClockLoss ∨ c = .aonXinRestart := by
  cases c
  case powerOn => exact .inl rfl
  case powerLoss => exact .inr (.inl rfl)
  case sysRstAssert => exact .inr (.inr (.inl rfl))
  case sysRstRelease x => exact .inr (.inr (.inr (.inl ⟨x, rfl⟩)))
  case sensorSample x => exact .inr (.inr (.inr (.inr (.inl ⟨x, rfl⟩))))
  case aonClockLoss => exact .inr (.inr (.inr (.inr (.inr (.inl rfl)))))
  case aonXinRestart => exact .inr (.inr (.inr (.inr (.inr (.inr rfl)))))
  all_goals cases h

/-- What a row that acts in reset makes of the device. -/
theorem actRaw_next {s t : State} {f : Dev → Dev} (h : actRaw s f = .next t) : t.dev = f s.dev := by
  unfold actRaw at h
  injection h with h
  exact congrArg State.dev h.symm

/-- A sample, as its row takes it. -/
theorem holdsBus_sensorRow (d : Dev) (temps : List (BitVec 12)) :
    d.HoldsBus (if d.powered ∧ d.mgmt.aonOn then d.sample temps else d) := by
  split
  · exact holdsBus_sample d temps
  · exact ⟨rfl, rfl, rfl⟩

/-- No row outside those that write by the bus or take the state away moves device time or changes GLB_LOCK (R39, R499). -/
theorem exec_keeps_lock_time {c : Instr} {s t : State} (h : exec c s = .next t) (hb : writesBus c = false)
    (hr : resets c = false) : t.dev.lock = s.dev.lock ∧ t.dev.time.now = s.dev.time.now := by
  cases ha : actsInReset c with
  | false =>
    rcases exec_form c s ha with ⟨f, hf⟩ | ⟨hw, -⟩ | ⟨-, f, hf⟩
    · obtain ⟨-, -, -, -, hl, -, ht⟩ := act_keeps (hf.symm.trans h)
      exact ⟨hl, ht⟩
    · rw [hb] at hw; cases hw
    · obtain ⟨-, -, -, -, hl, ht⟩ := actNvm_keeps (hf.symm.trans h)
      exact ⟨hl, ht⟩
  | true =>
    rcases actsInReset_cases ha with rfl | rfl | rfl | ⟨x, rfl⟩ | ⟨x, rfl⟩ | rfl | rfl
    · cases hr
    · have hp := lockTime_powerLoss s.dev
      rw [actRaw_next (f := Dev.powerLoss) h]
      exact ⟨congrArg Prod.fst hp, congrArg (fun x => x.2.now) hp⟩
    · cases hr
    · obtain ⟨hl, ht, -⟩ := holdsBus_sysRelease s.dev x
      rw [actRaw_next (f := fun d => d.sysRelease x) h]; exact ⟨hl, ht⟩
    · obtain ⟨hl, ht, -⟩ := holdsBus_sensorRow s.dev x
      rw [actRaw_next (f := fun d => if d.powered ∧ d.mgmt.aonOn then d.sample x else d) h]; exact ⟨hl, ht⟩
    · rw [actRaw_next (f := fun d => { d with mgmt := { d.mgmt with aonOn := false } }) h]; exact ⟨rfl, rfl⟩
    · rw [actRaw_next (f := fun d => { d with mgmt := { d.mgmt with aonOn := true } }) h]; exact ⟨rfl, rfl⟩

/-- No row outside those of the firmware and of power loss changes the flash (R449). -/
theorem exec_keeps_nvm {c : Instr} {s t : State} (h : exec c s = .next t) (hf : writesFlash c = false) : t.dev.nvm = s.dev.nvm := by
  cases ha : actsInReset c with
  | false =>
    rcases exec_form c s ha with ⟨f, hx⟩ | ⟨-, f, hx⟩ | ⟨hw, -⟩
    · obtain ⟨-, -, -, -, -, hn, -⟩ := act_keeps (hx.symm.trans h)
      exact hn
    · obtain ⟨-, -, -, -, hn, -⟩ := actBus_keeps (hx.symm.trans h)
      exact hn
    · rw [hf] at hw; cases hw
  | true =>
    rcases actsInReset_cases ha with rfl | rfl | rfl | ⟨x, rfl⟩ | ⟨x, rfl⟩ | rfl | rfl
    · rw [actRaw_next (f := Dev.powerOn) h, powerOn_nvm]
    · cases hf
    · rw [actRaw_next (f := Dev.sysRst) h, sysRst_nvm]
    · rw [actRaw_next (f := fun d => d.sysRelease x) h]; exact (holdsBus_sysRelease s.dev x).2.2
    · rw [actRaw_next (f := fun d => if d.powered ∧ d.mgmt.aonOn then d.sample x else d) h]; exact (holdsBus_sensorRow s.dev x).2.2
    · rw [actRaw_next (f := fun d => { d with mgmt := { d.mgmt with aonOn := false } }) h]
    · rw [actRaw_next (f := fun d => { d with mgmt := { d.mgmt with aonOn := true } }) h]

/-- No row outside those of power and reset changes power or reset (R443, R467). -/
theorem exec_keeps_power {c : Instr} {s t : State} (h : exec c s = .next t) (hp : powers c = false) :
    t.dev.powered = s.dev.powered ∧ t.dev.inReset = s.dev.inReset ∧ t.dev.rstAsserted = s.dev.rstAsserted := by
  cases ha : actsInReset c with
  | false =>
    rcases exec_form c s ha with ⟨f, hx⟩ | ⟨-, f, hx⟩ | ⟨-, f, hx⟩
    · obtain ⟨-, h1, h2, h3, -⟩ := act_keeps (hx.symm.trans h)
      exact ⟨h1, h2, h3⟩
    · obtain ⟨-, h1, h2, h3, -⟩ := actBus_keeps (hx.symm.trans h)
      exact ⟨h1, h2, h3⟩
    · obtain ⟨-, h1, h2, h3, -⟩ := actNvm_keeps (hx.symm.trans h)
      exact ⟨h1, h2, h3⟩
  | true =>
    rcases actsInReset_cases ha with rfl | rfl | rfl | ⟨x, rfl⟩ | ⟨x, rfl⟩ | rfl | rfl
    · cases hp
    · cases hp
    · cases hp
    · cases hp
    · cases hp
    · rw [actRaw_next (f := fun d => { d with mgmt := { d.mgmt with aonOn := false } }) h]; exact ⟨rfl, rfl, rfl⟩
    · rw [actRaw_next (f := fun d => { d with mgmt := { d.mgmt with aonOn := true } }) h]; exact ⟨rfl, rfl, rfl⟩

/-- Settles O7: by the form of the row, and for the rows that act in reset by what each leaves alone. -/
theorem onlyTheseRows : Obligations.OnlyTheseRows := by
  unfold Obligations.OnlyTheseRows
  exact fun c s t h => ⟨exec_keeps_lock_time h, exec_keeps_nvm h, exec_keeps_power h⟩

end Sys2Proof.Machine
end

section
/-! The launch engine: what an entry that acts is afterwards, what it leaves to act, and the action of each kind. -/
namespace Sys2Proof.Machine

/-! ## Entries -/

/-- What a table holds after a write is what was written, or what it held. -/
theorem Tbl.mem_set {α : Type} [DecidableEq α] {dflt : α} {t : List (Nat × α)} {k : Nat} {v : α} {p : Nat × α}
    (h : p ∈ Tbl.set dflt t k v) : p = (k, v) ∨ p ∈ t := by
  unfold Tbl.set at h
  split at h
  · exact .inr (List.mem_filter.mp h).1
  · exact (Tbl.mem_insert h).imp_right fun h => (List.mem_filter.mp h).1

/-- What a read of a table finds is listed, or the default. -/
theorem Tbl.get_mem {α : Type} (dflt : α) (t : List (Nat × α)) (k : Nat) : Tbl.get dflt t k = dflt ∨ (k, Tbl.get dflt t k) ∈ t := by
  induction t with
  | nil => exact .inl rfl
  | cons p t ih =>
    obtain ⟨j, v⟩ := p
    unfold Tbl.get
    split
    next h => exact .inr (by simp [h])
    next => exact ih.imp_right (List.mem_cons_of_mem _)

/-- Where no listed entry is due, none is. -/
theorem due_of_none_due {d : Dev} (i : Nat) (h : ∀ p ∈ d.lnch.entries, p.2.due = false) : (d.entry i).due = false := by
  unfold Dev.entry
  rcases Tbl.get_mem {} d.lnch.entries i with hx | hx
  · rw [hx]
  · exact h _ hx

/-- A number of nanoseconds is its seconds and the rest, while seconds do not wrap (R39). -/
theorem seconds_split {t : Nat} (h : t < 2 ^ 48 * 10 ^ 9) : t / 10 ^ 9 % 2 ^ 48 * 10 ^ 9 + t % 10 ^ 9 = t := by omega

/-- A repeating entry after it has acted: ARMED again, for its next instant (R69). -/
def LEntry.rearmed (e : LEntry) : LEntry := { e.next with st := .armed, due := false, tardy := false }

/-- Its next instant is its scheduled one plus its period (R69). -/
theorem rearmed_instant {e : LEntry} (h : e.instant + e.period < 2 ^ 48 * 10 ^ 9) : e.rearmed.instant = e.instant + e.period :=
  seconds_split h

/-- An entry that repeats and was not passed over is ARMED again after it acts, on time or late (R69). -/
theorem afterAct_repeats {e : LEntry} (late : Bool) (now : Nat) (hp : e.period ≠ 0) (hd : e.due = false) :
    afterAct late now e = e.rearmed := by
  unfold afterAct
  dsimp only
  rw [if_neg hp, hd]
  rfl

/-- One that does not repeat and acts on time is DONE (R69). -/
theorem afterAct_done {e : LEntry} (now : Nat) (hp : e.period = 0) (hl : e.isLate = false) :
    afterAct false now e = { e with st := .done } := by
  obtain ⟨hd, ht⟩ := Bool.or_eq_false_iff.mp hl
  unfold afterAct
  dsimp only
  rw [if_pos hp]
  exact congrArg₂ (fun x y => { e with st := .done, due := x, tardy := y }) hd.symm ht.symm

/-- A late action is noted in its entry, which keeps the rest (R67). -/
theorem entry_noteLate (d : Dev) (i : Nat) : (d.noteLate i).entry i = { d.entry i with late := true } := by
  have hx : (d.noteLate i).lnch = (d.modEntry i fun e => { e with late := true }).lnch := by
    simp [Dev.noteLate, Dev.countLate]
  unfold Dev.entry at *
  rw [hx]
  exact d.entry_modEntry_same i _

/-- An entry before its action: dispatched, and marked late when it acts late. -/
theorem actEntry_entry {d : Dev} {i : Nat} (late : Bool) (hu : d.unreceivable (d.entry i) = false) :
    (d.actEntry i late).entry i = afterAct late d.time.now.nsTotal { d.entry i with st := .dispatched, late := late || (d.entry i).late } := by
  unfold Dev.actEntry
  rw [if_neg (by simp [hu])]
  dsimp only
  rw [Dev.entry_setEntry_same]
  cases late with
  | true => rw [if_pos rfl, entry_noteLate, Dev.entry_modEntry_same]; rfl
  | false => rw [if_neg Bool.false_ne_true, Dev.entry_modEntry_same]; rfl

/-- A repeating entry that acts is ARMED again, one period later (R69). -/
theorem actEntry_repeats {d : Dev} {i : Nat} (late : Bool) (hu : d.unreceivable (d.entry i) = false) (hp : (d.entry i).period ≠ 0)
    (hd : (d.entry i).due = false) (hi : (d.entry i).instant + (d.entry i).period < 2 ^ 48 * 10 ^ 9) :
    ((d.actEntry i late).entry i).st = .armed ∧
      ((d.actEntry i late).entry i).instant = (d.entry i).instant + (d.entry i).period := by
  rw [actEntry_entry late hu, afterAct_repeats (e := { d.entry i with st := .dispatched, late := late || (d.entry i).late }) late _ hp hd]
  exact ⟨rfl, rearmed_instant hi⟩

/-! ## The entry that is next to act -/

/-- A dispatched entry stays as it is when it is marked dispatched. -/
theorem dispatched_eta {e : LEntry} (h : e.st = .dispatched) : { e with st := .dispatched } = e := by rw [← h]

/-- A dispatched entry acts on time by the action of its kind. -/
theorem actEntry_onTime {d : Dev} {i : Nat} (hs : (d.entry i).st = .dispatched) (hu : d.unreceivable (d.entry i) = false) :
    d.actEntry i false = ((d.modEntry i fun e => { e with st := .dispatched }).performAction (d.entry i) false).setEntry i
      (afterAct false d.time.now.nsTotal (d.entry i)) := by
  unfold Dev.actEntry
  rw [if_neg (by simp [hu])]
  dsimp only
  rw [if_neg Bool.false_ne_true, Dev.entry_modEntry_same, dispatched_eta hs]

/-- The row of an action lets its entry act when it is the next (R66, R68). -/
theorem actKind_next {d : Dev} {k i : Nat} (hk : (d.entry i).kind = k) (hf : d.firstEntry d.mayAct = some i)
    (hs : (d.entry i).st = .dispatched) : d.actKind k i = (d.actEntry i (d.entry i).isLate).settleDue :=
  if_pos ⟨hk, hf, hs⟩

/-- Nothing else acts where no entry is due. -/
theorem settleDue_of_none_due {d : Dev} (h : ∀ p ∈ d.lnch.entries, p.2.due = false) : d.settleDue = d := by
  have hnone : d.firstEntry d.dueNow = none := by
    have hx : (d.lnch.entries.filter fun p => d.dueNow p.2) = [] :=
      List.filter_eq_nil_iff.mpr fun p hp => by simp [Dev.dueNow, h p hp]
    simp [Dev.firstEntry, hx, leastBy]
  unfold Dev.settleDue
  cases 2 * d.lnch.entries.length with
  | zero => rfl
  | succ n => simp [Dev.settle, hnone]

/-! ## MARK (R65, R69) -/

/-- The target of a MARK is the launch engine itself: it can always receive it. -/
theorem unreceivable_mark (d : Dev) {e : LEntry} (h : e.kind = 0x0F) : d.unreceivable e = false := by
  simp [Dev.unreceivable, LEntry.fifo, h]

/-- A MARK latches its status bit. -/
theorem performAction_mark (d : Dev) {e : LEntry} (h : e.kind = 0x0F) (late : Bool) :
    d.performAction e late = d.latchBit Reg.LNCH_STATUS 7 := by
  simp [Dev.performAction, h, Dev.unitAction]
  rfl

/-- A MARK that acts on time, and no more. -/
theorem actKind_mark {d : Dev} {i : Nat} (hf : d.firstEntry d.mayAct = some i) (hk : (d.entry i).kind = 0x0F)
    (hs : (d.entry i).st = .dispatched) (ht : (d.entry i).tardy = false) (hp : (d.entry i).period ≠ 0)
    (hd : ∀ p ∈ d.lnch.entries, p.2.due = false) :
    d.actKind 0x0F i = ((d.modEntry i fun e => { e with st := .dispatched }).latchBit Reg.LNCH_STATUS 7).setEntry i
      (d.entry i).rearmed := by
  have hdue := due_of_none_due i hd
  have hlate : (d.entry i).isLate = false := by simp [LEntry.isLate, hdue, ht]
  rw [actKind_next hk hf hs, hlate, actEntry_onTime hs (unreceivable_mark d hk), performAction_mark _ hk, afterAct_repeats _ _ hp hdue]
  refine settleDue_of_none_due fun p hm => ?_
  rcases Tbl.mem_set hm with rfl | hm
  · rfl
  · rcases Tbl.mem_set hm with rfl | hm
    · exact hdue
    · exact hd p hm

/-- Settles O10: what an entry that repeats is after it acts, and for the row MARK what its action leaves alone. -/
theorem repeatingEntries : Obligations.RepeatingEntries := by
  unfold Obligations.RepeatingEntries
  refine ⟨fun d i late hu hp hd hi => actEntry_repeats late hu hp hd hi, fun s i hr hf hk hs hp ht hd hi => ?_⟩
  have hx := actBus_up (fun d => d.actKind 0x0F i.toNat) hr
  rw [actKind_mark hf hk hs ht hp hd] at hx
  refine ⟨_, hx, ?_, ?_, fun j hj => ?_, ?_, rfl⟩
  · exact congrArg LEntry.st (Dev.entry_setEntry_same _ _ _)
  · exact (congrArg LEntry.instant (Dev.entry_setEntry_same _ _ _)).trans (rearmed_instant hi)
  · exact (Dev.entry_setEntry_ne _ _ hj).trans (Dev.entry_setEntry_ne _ _ hj)
  · exact latchBit_sets (s.dev.modEntry i.toNat fun e => { e with st := .dispatched }) Reg.LNCH_STATUS 7 (by decide)

/-! ## The action of each kind (Table 2.11) -/

/-- The entry that is next to act performs the action of its kind, is DONE, and what the action made due acts. -/
theorem actsBy_of_ready {c : Instr} {s : State} {k i : Nat} {f : Dev → Dev} (h : LaunchReady k i s)
    (hx : exec c s = actBus s fun d => d.actKind k i)
    (hf : ∀ d : Dev, d.entry i = s.dev.entry i → d.performAction (s.dev.entry i) false = f d) : ActsBy c s i f := by
  obtain ⟨hup, hnext, hk, hs, hl, hp, hu⟩ := h
  have hent : (s.dev.modEntry i fun e => { e with st := .dispatched }).entry i = s.dev.entry i := by
    rw [Dev.entry_modEntry_same, dispatched_eta hs]
  rw [ActsBy, Yields, hx, actBus_up _ hup, actKind_next hk hnext hs, hl, actEntry_onTime hs hu, hf _ hent, afterAct_done _ hp hl]

/-- Every action but REG_WRITE has the plain form (R71). -/
theorem performAction_unit (d : Dev) {e : LEntry} (h : e.kind ≠ 0x0A) (late : Bool) :
    d.performAction e late = d.keep (d.unitAction e late) := if_neg h

/-- So the entry that is next performs what its unit does. -/
theorem actsBy_unit {c : Instr} {s : State} {k i : Nat} {f : Dev → Dev} (h : LaunchReady k i s) (hk : k ≠ 0x0A)
    (hx : exec c s = actBus s fun d => d.actKind k i)
    (hf : ∀ d : Dev, d.entry i = s.dev.entry i → d.unitAction (s.dev.entry i) false = f d) :
    ActsBy c s i fun d => d.keep (f d) := by
  have hkind : (s.dev.entry i).kind = k := h.2.2.1
  exact actsBy_of_ready h hx fun d hd => by rw [performAction_unit d (by rwa [hkind]), hf d hd]

/-- Settles O24: a kind other than MARK does what its unit does, which its number names; MARK is itself. -/
theorem launchActions : Obligations.LaunchActions := by
  unfold Obligations.LaunchActions
  refine ⟨fun s x h => ?_, fun s x h => ?_, fun s x h => ?_, fun s x h => ?_, fun s x h => ?_, fun s x h => ?_, fun s x h => ?_,
    fun s x h => ?_, fun s x h => ?_, fun s x h => ?_, fun s x h => ?_⟩
  all_goals have hkind := h.2.2.1
  case refine_1 | refine_3 | refine_5 | refine_6 | refine_7 | refine_8 | refine_9 =>
    exact actsBy_unit h (by decide) rfl fun d _ => by simp only [Dev.unitAction, hkind]
  case refine_2 | refine_4 => exact actsBy_unit h (by decide) rfl fun d hd => by simp only [Dev.unitAction, hkind, hd]
  case refine_10 => exact actsBy_of_ready h rfl fun d _ => if_pos hkind
  case refine_11 => exact actsBy_of_ready h rfl fun d _ => performAction_mark d hkind false

end Sys2Proof.Machine
end

section
/-! Device time: what it reads as, ticks, the rate, slew and the words of an instant, the states of the time base, 1PPS, time of day,
UTC and the SyncE outputs. -/
namespace Sys2Proof.Machine

/-! ## What a row makes of the device, by the form of its access -/

/-- A row that may write registers makes of a device that runs what its effect makes of it. -/
theorem yields_of_actBus {c : Instr} {s : State} {e : Dev} (f : Dev → Dev) (hx : exec c s = actBus s f) (h : Runs s)
    (he : s.dev.keepBus (f s.dev) = e) : Yields c s e := by rw [Yields, hx, actBus_up f h, he]

/-- So does a signal from outside to a domain whose PLL is in lock. -/
theorem yields_of_actLive {c : Instr} {s : State} {b : Nat} {e : Dev} (f : Dev → Dev) (hx : exec c s = actLive b s f)
    (h : Locked b s) (he : s.dev.keep (f s.dev) = e) : Yields c s e := by rw [Yields, hx, actLive_up f h.1 h.2, he]

/-- So does an access to a register whose window answers (R470, R473, R495). -/
theorem yields_of_actReg {c : Instr} {s : State} {p : Path} {off : Nat} {e : Dev} (f : Dev → Dev)
    (hx : exec c s = actReg p off c s f) (h : Answers p off s) (he : s.dev.keep (f s.dev) = e) : Yields c s e := by
  obtain ⟨⟨hup, hu, hf, hw⟩, hs, hd⟩ := h
  rw [Yields, hx, actReg_up f hup hu hf hw hs hd, he]

/-- A read delivers its word to its path. -/
theorem yields_of_actRead {c : Instr} {s : State} {p : Path} {off : Nat} {e : Dev} (f : Dev → Word × Dev)
    (hx : exec c s = actRead p off c s f) (h : Answers p off s) (he : s.dev.keep ((f s.dev).2.deliver p (f s.dev).1) = e) :
    Yields c s e := by
  obtain ⟨⟨hup, hu, hf, hw⟩, hs, -⟩ := h
  rw [Yields, hx, actRead_up f hup hu hf hw hs, he]

/-- Firmware that serves answers (R434). -/
theorem ifServing_serves {d : Dev} (f : Dev → Dev) (h : d.mgmt.serving = true) : d.ifServing f = f d := if_pos h

/-- A row of the firmware makes of a device that it serves what its effect makes of it. -/
theorem yields_of_serving {c : Instr} {s : State} {e : Dev} (f : Dev → Dev)
    (hx : exec c s = actIn pllMgmt c s fun d => d.ifServing f) (h : Serves s) (he : s.dev.keep (f s.dev) = e) : Yields c s e := by
  refine yields_of_actIn _ hx h.1 ?_
  rw [ifServing_serves f h.2, he]

/-! ## What the time base shows (R46, R47) -/

/-- The state of the time base, device time and TIME_CTRL: what validity is judged by, and what no status bit or counter changes. -/
def Dev.timeSeen (d : Dev) : TimeState × DevTime × Word := (d.time.state, d.time.now, d.reg Reg.TIME_CTRL)

/-- Device time is valid in LOCKED, in HOLDOVER and by force_valid (R47). -/
theorem timeValid_iff (d : Dev) :
    d.timeValid = true ↔ d.time.state = .locked ∨ d.time.state = .holdover ∨ bit (d.reg Reg.TIME_CTRL) 4 = true := by
  simp [Dev.timeValid, or_assoc]

/-- Validity is judged by what the time base shows. -/
theorem timeValid_seen {d : Dev} {st : TimeState} {now : DevTime} {w : Word} (h : d.timeSeen = (st, now, w)) :
    d.timeValid = (decide (st = .locked) || decide (st = .holdover) || bit w 4) := by
  obtain ⟨rfl, rfl, rfl⟩ : d.time.state = st ∧ d.time.now = now ∧ d.reg Reg.TIME_CTRL = w := by simpa [Dev.timeSeen] using h
  rfl

theorem timeSeen_latchBit (d : Dev) {k : Nat} (b : Nat) (h : Reg.TIME_CTRL ≠ k) : (d.latchBit k b).timeSeen = d.timeSeen := by
  simp [Dev.timeSeen, d.reg_latchBit_ne h]

theorem timeSeen_inc (d : Dev) (b i : Nat) : (d.inc b i).timeSeen = d.timeSeen := by simp [Dev.timeSeen]

/-- The second of a link is no part of the time base. -/
theorem timeSeen_pmNote (d : Dev) (n : Nat) (f : PmSec → PmSec) : (d.pmNote n f).timeSeen = d.timeSeen := by
  unfold Dev.pmNote Dev.pmRoll
  dsimp only
  split
  · rfl
  · split <;> rfl

/-- Nor are the gates. -/
theorem timeSeen_validFollow (b : Bool) (d : Dev) : (Dev.validFollow b d).timeSeen = d.timeSeen := by
  have hg : (Dev.gatesFollow b d).timeSeen = d.timeSeen := by
    unfold Dev.gatesFollow
    split
    · exact (timeSeen_latchBit _ _ (by decide)).trans (timeSeen_inc _ _ _)
    · rfl
  unfold Dev.validFollow
  dsimp only
  split
  · exact hg
  · exact (foldl_field Dev.timeSeen _ (fun e n => timeSeen_pmNote e n _) _ _).trans hg

theorem timeSeen_noteValid (b : Bool) (d : Dev) : (Dev.noteValid b d).timeSeen = d.timeSeen := by
  unfold Dev.noteValid
  extract_lets d1
  have h1 : d1.timeSeen = d.timeSeen := by
    unfold d1
    split
    · rfl
    · exact timeSeen_latchBit _ _ (by decide)
  clear_value d1
  split
  · exact h1
  · exact h1

theorem timeSeen_noteCut (b : Bool) (d : Dev) : (Dev.noteCut b d).timeSeen = d.timeSeen := by
  unfold Dev.noteCut
  split
  · exact timeSeen_latchBit _ _ (by decide)
  · rfl

/-- A change of state is one of the state alone: device time and TIME_CTRL stay. -/
theorem timeSeen_timeGoes (d : Dev) (st : TimeState) : (d.timeGoes st).timeSeen = (st, d.time.now, d.reg Reg.TIME_CTRL) := by
  unfold Dev.timeGoes Dev.enterTime
  rw [timeSeen_validFollow, timeSeen_noteValid, timeSeen_noteCut]
  rfl

/-! ## TIME_STATUS (R47) -/

/-- Bit 3 of TIME_STATUS is valid. -/
theorem timeStatus_valid (d : Dev) (i : Nat) : ∃ w : Word, d.liveTime 0x04 i = some w ∧ bit w 3 = d.timeValid := by
  refine ⟨_, rfl, ?_⟩
  rw [setFld_bit _ _ _ _ _ (by decide) (by decide), if_pos (by decide)]
  cases d.time.indirect <;> cases d.timeValid <;> cases d.time.state <;> rfl

/-- A read of a register that has no side effect and no second half. -/
theorem readHit_timeStatus {d : Dev} {p : Path} {h : RegHit} (hb : h.block = .time) (ho : h.row.off = 0x04)
    (hc : counterOf h = none) : d.readHit p h = (d.peek h, d) := by
  have hr : d.readReg p h = d.readPlain p h := by simp [Dev.readReg, hb, ho]
  have hp : pairHalf h = 0 := by simp [pairHalf, hb, ho]
  simp [Dev.readHit, hc, hr, Dev.readPlain, hp]

/-- TIME_STATUS shows validity. -/
theorem peek_timeStatus {d : Dev} {h : RegHit} (hb : h.block = .time) (ho : h.row.off = 0x04) : bit (d.peek h) 3 = d.timeValid := by
  obtain ⟨w, hw, hv⟩ := timeStatus_valid d (h.idx.getD 0 0)
  have hl : d.live h = some w := by simp only [Dev.live, hb, ho, hw]
  rw [Dev.peek, hl]
  exact hv

/-- The launch engine looks at nothing of the time base but device time (R47). -/
theorem launch_ignores_validity (d : Dev) (st : TimeState) (v : Word) (e : LEntry) {x : Dev}
    (hx : x = { d.setReg Reg.TIME_CTRL v with time := { d.time with state := st } }) :
    x.mayAct e = d.mayAct e ∧ x.eligible e = d.eligible e ∧ x.fifoFull e = d.fifoFull e := by
  have hreg : x.reg Reg.LNCH_CTRL = d.reg Reg.LNCH_CTRL := by rw [hx]; exact d.reg_setReg_ne v (by decide)
  have hmay : x.mayAct e = (d.takes e && ((e.st = .dispatched && decide (e.instant ≤ d.time.now.nsTotal)) ||
      (e.st = .armed && e.due && bit (x.reg Reg.LNCH_CTRL) 0))) := by rw [hx]; rfl
  exact ⟨by rw [hmay, hreg]; rfl, by rw [hx]; rfl, by rw [hx]; rfl⟩

/-- Settles O11: a read of TIME_STATUS has no effect but its word, and the launch engine looks at device time alone. -/
theorem timeValidity : Obligations.TimeValidity := by
  unfold Obligations.TimeValidity
  refine ⟨timeValid_iff, fun s p off h ha hf hd hb ho hc => ?_, fun d st v e => ⟨_, rfl, launch_ignores_validity d st v e rfl⟩⟩
  obtain ⟨⟨hup, hu, hfl, hw⟩, hs, -⟩ := ha
  have hread : s.dev.busRead p off.toNat = (s.dev.peek h, s.dev.noteAlias h) := by
    simp [Dev.busRead, hs, hf, hd, readHit_timeStatus hb ho hc]
  have hout : (s.dev.noteAlias h).out = s.dev.out := by
    unfold Dev.noteAlias
    split
    · simp
    · rfl
  refine ⟨_, act_up (fun d => d.accessRead p off.toNat (.lowWordRead p off)) hup, s.dev.peek h, peek_timeStatus hb ho, ?_⟩
  rw [Dev.keep_out, Dev.accessRead, request_flows _ _ hu hfl hw, hread]
  exact congrArg (Output.readData (pathCode p) (s.dev.peek h) :: ·) hout

end Sys2Proof.Machine
end

section
/-! The time base and its sources: ticks, rate, slew, source selection, samples, holdover and the words that a read latches. -/
namespace Sys2Proof.Machine

/-! ## Ticks, rate and slew (R41, R42) -/

/-- A change of the time base passes the form of a row that may move device time. -/
theorem keepBus_time (d : Dev) (t : TimeBase) : d.keepBus { d with time := t } = { d with time := t } :=
  keepBus_of_unchanged rfl rfl rfl rfl rfl

/-- A cycle moves device time by the increment and the part of the slew (R41, R42). -/
theorem tick_running {t : TimeBase} (r : Int × Nat) (h : t.running = true) : t.tick r =
    { t with now := t.now.shift (tickPart t.slewRem r).1, slewRem := (tickPart t.slewRem r).2, tsc := t.tsc + 1 } := if_pos h

/-- With no slew a cycle adds the increment. -/
theorem tickPart_noSlew (r : Int × Nat) : tickPart 0 r = (increment r.1 r.2, 0) := by simp [tickPart]

/-- At the rate 0 a cycle is 1 ns (R41). -/
theorem increment_zero : increment 0 1 = 2 ^ 48 := by decide

/-- Outside HOLDOVER the rate is TIME_FREQ_ADJ, clamped (R41). -/
theorem rate_freqAdj {d : Dev} (h : d.time.state ≠ .holdover) : d.rate = (clampRate (d.reg Reg.TIME_FREQ_ADJ).toInt, 1) := by
  unfold Dev.rate
  split
  next hs _ => exact absurd hs h
  next => rfl

/-- No slew is not cut. -/
theorem slewCut_none (r : Int × Nat) : slewCut 0 r = false := by simp [slewCut]

/-- TIME_FREQ_ADJ outside LOCKED with no slew: the word is stored, and clamp latched where it is out of range (R41). -/
theorem writeFreqAdj_plain {d : Dev} (v : Word) (hs : d.time.slewRem = 0) (hl : d.time.state ≠ .locked) :
    d.writeFreqAdj v = if clampRate v.toInt ≠ v.toInt then (d.setReg Reg.TIME_FREQ_ADJ v).latchBit Reg.TIME_STATUS 14
      else d.setReg Reg.TIME_FREQ_ADJ v := by
  unfold Dev.writeFreqAdj
  extract_lets a d1 t d2
  have h2 : d2 = d1 := congrArg (fun r => { d1 with time := { d1.time with rateHist := r } }) (if_neg hl)
  have hcut : slewCut d2.time.slewRem d2.rate = false := by
    rw [h2, show d1.time.slewRem = 0 from hs]
    exact slewCut_none _
  rw [hcut, h2]
  simp [a, d1]

/-- A slew that begins is cut or not (R42). -/
theorem setSlew_eq (d : Dev) (rem : Int) : d.setSlew rem = if slewCut rem d.rate then
    Dev.latchBit { d with time := { d.time with slewRem := rem } } Reg.TIME_STATUS 14
    else { d with time := { d.time with slewRem := rem } } := by
  have hr : ({ d with time := { d.time with slewRem := rem } } : Dev).rate = d.rate := rfl
  unfold Dev.setSlew Dev.noteCut
  rw [hr]
  simp

/-! ## TIME_CTRL (R46) -/

/-- The writable bits of TIME_CTRL. -/
def timeCtrlMask : Word := 0xFFFF7F17#32

/-- The source is chosen by bits 2 to 0, which a write sets. -/
theorem fld_maskedCtrl (r v : Word) : fld ((r &&& ~~~timeCtrlMask) ||| (v &&& timeCtrlMask)) 2 0 = fld v 2 0 := by
  have h : ((r &&& ~~~timeCtrlMask) ||| (v &&& timeCtrlMask)) &&& 7#32 = v &&& 7#32 := by
    unfold timeCtrlMask
    ext i hi
    have : i < 32 := hi
    interval_cases i <;> simp
  have hm (w : Word) : fld w 2 0 = (w &&& 7#32).toNat := by
    simp [fld, Nat.and_two_pow_sub_one_eq_mod w.toNat 3]
  rw [hm, hm, h]

/-- So is force_valid. -/
theorem bit_maskedCtrl (r v : Word) : bit ((r &&& ~~~timeCtrlMask) ||| (v &&& timeCtrlMask)) 4 = bit v 4 := by
  simp [bit, timeCtrlMask]

/-- The source is that of src_sel (Table 2.2). -/
theorem srcOf_congr {v w : Word} (h : fld v 2 0 = fld w 2 0) : srcOf v = srcOf w := by simp only [srcOf, h]

/-- Validity that does not change is not noted, once its first moment is known (R47, R63). -/
theorem noteValid_same {d : Dev} {b : Bool} (hb : b = d.timeValid) (hf : d.timeValid = true → d.time.firstValid ≠ none) :
    Dev.noteValid b d = d := by
  unfold Dev.noteValid
  dsimp only
  rw [if_pos hb, if_neg fun h => hf h.1 h.2]

/-- A cut that was there before is not noted again (R42). -/
theorem noteCut_same (d : Dev) : Dev.noteCut (slewCut d.time.slewRem d.rate) d = d := by simp [Dev.noteCut]

/-- Nor do the gates and the seconds of the links follow a validity that does not change. -/
theorem validFollow_same {d : Dev} {b : Bool} (hb : b = d.timeValid) : Dev.validFollow b d = d := by
  have hg : Dev.gatesFollow b d = d := by simp [Dev.gatesFollow, hb]
  unfold Dev.validFollow
  dsimp only
  rw [hg, if_pos hb]

/-- TIME_CTRL written with src_sel and force_valid as they are: a store, which TIME_STATUS.indirect follows (R46). -/
theorem ctrlWrite_sameSource {d : Dev} {v : Word} (hs : fld (d.reg Reg.TIME_CTRL) 2 0 = fld v 2 0)
    (hb : bit (d.reg Reg.TIME_CTRL) 4 = bit v 4) (hf : d.timeValid = true → d.time.firstValid ≠ none) :
    d.ctrlWrite v = (d.writeRw Reg.TIME_CTRL timeCtrlMask v).noteIndirect := by
  obtain ⟨d1, hd1⟩ : ∃ d1, d1 = d.writeRw Reg.TIME_CTRL timeCtrlMask v := ⟨_, rfl⟩
  have hreg : d1.reg Reg.TIME_CTRL = (d.reg Reg.TIME_CTRL &&& ~~~timeCtrlMask) ||| (v &&& timeCtrlMask) := by
    rw [hd1]; exact (writeRw_effect d _ _ v).1
  have hsrc : d1.src = d.src := by
    unfold Dev.src
    rw [hreg]
    exact srcOf_congr ((fld_maskedCtrl _ v).trans hs.symm)
  have htime : d1.time = d.time := by rw [hd1]; rfl
  have hvalid : d1.timeValid = d.timeValid := by
    unfold Dev.timeValid
    rw [htime, hreg, bit_maskedCtrl, hb]
  have hrate : d1.rate = d.rate := by
    have hadj : d1.reg Reg.TIME_FREQ_ADJ = d.reg Reg.TIME_FREQ_ADJ := by
      rw [hd1]; exact (writeRw_effect d _ _ v).2 _ (by decide)
    unfold Dev.rate
    rw [htime, hadj]
  have hwrite : d.writeTimeCtrl v = d1.noteIndirect := by
    have hcut : Dev.noteCut (slewCut d.time.slewRem d.rate) d1 = d1 := by rw [← htime, ← hrate]; exact noteCut_same d1
    unfold Dev.writeTimeCtrl
    extract_lets before old e new raw e2
    have he : e = d1 := hd1.symm
    have he2 : e2 = d1 := by
      have h0 : ¬(new = 0 ∧ old ≠ 0) := fun h => h.2 ((hsrc.symm.trans (congrArg Dev.src he.symm)).trans h.1)
      have h1 : ¬(new ≠ 0 ∧ fld v 2 0 ≠ fld raw 2 0) := fun h => h.2 hs.symm
      unfold e2
      rw [if_neg h0, if_neg h1, he]
    rw [he2, hcut, noteValid_same (b := before) hvalid.symm (by rw [hvalid, htime]; exact hf)]
  rw [Dev.ctrlWrite, hwrite, hd1]
  exact validFollow_same (hvalid.symm.trans (by rw [hd1]; rfl))

/-- Settles O20, by what a tick makes of device time and what each register of the time base does with the word written. -/
theorem timeBase : Obligations.TimeBase := by
  unfold Obligations.TimeBase
  refine ⟨fun s hr ht => ?_, fun s hr ht hs hh ha => ?_, fun s hr ht hs h0 => ?_, fun s v ha hs hl => ?_, fun s v ha hc => ?_,
    fun s v ha hc => ?_, fun s v ha hs hb hf => ?_, fun s p ha => ?_⟩
  case refine_1 =>
    refine yields_of_actBus (fun d => { d with time := d.time.tick d.rate }) rfl hr ?_
    rw [keepBus_time, tick_running _ ht]
  case refine_2 =>
    refine yields_of_actBus (fun d => { d with time := d.time.tick d.rate }) rfl hr ?_
    have hrate : s.dev.rate = (0, 1) := by rw [rate_freqAdj hh, ha]; rfl
    rw [keepBus_time, tick_running _ ht, hs, tickPart_noSlew, hrate, increment_zero, ← hs]
  case refine_3 =>
    refine yields_of_actBus (fun d => if d.time.slewRem ≠ 0 ∧ (tickPart d.time.slewRem d.rate).2 = 0 then
      { d with time := d.time.tick d.rate } else d) rfl hr ?_
    rw [if_pos ⟨hs, h0⟩, keepBus_time, tick_running _ ht, h0]
  case refine_4 =>
    refine yields_of_actReg (fun d => d.writeFreqAdj v) rfl ha ?_
    rw [writeFreqAdj_plain v hs hl]
    split <;> rfl
  case refine_5 =>
    refine yields_of_actReg (fun d => d.writeSlew v) rfl ha ?_
    rw [Dev.writeSlew, setSlew_eq, hc]
    rfl
  case refine_6 =>
    refine yields_of_actReg (fun d => d.writeSlew v) rfl ha ?_
    rw [Dev.writeSlew, setSlew_eq, hc]
    rfl
  case refine_7 =>
    refine yields_of_actReg (fun d => d.ctrlWrite v) rfl ha ?_
    rw [ctrlWrite_sameSource hs hb hf]
    rfl
  case refine_8 => exact yields_of_actRead Dev.readNow rfl ha rfl

/-! ## Samples and holdover (R46, R47) -/

/-- A good sample is counted while it is not the sixteenth. -/
theorem timeSample_counts {d : Dev} {x : Int} {v : Bool} (hs : d.src ≠ 0) (ha : d.time.state = .acquiring)
    (hg : d.goodSample x v = true) (hn : d.time.goodSamples < 15) :
    d.timeSample x v = { d with time := { d.time with goodSamples := d.time.goodSamples + 1 } } := by
  unfold Dev.timeSample
  simp only [if_neg hs, ha, hg, if_true, if_neg (Nat.not_le.mpr hn)]

/-- The sixteenth leads to LOCKED. -/
theorem timeSample_locks {d : Dev} {x : Int} {v : Bool} (hs : d.src ≠ 0) (ha : d.time.state = .acquiring)
    (hg : d.goodSample x v = true) (hn : d.time.goodSamples = 15) : d.timeSample x v = d.timeGoes .locked := by
  unfold Dev.timeSample
  simp only [if_neg hs, ha, hg, if_true, hn, Nat.le_refl]

/-- A sample of at most 100 ns from a source other than Trellis is good. -/
theorem goodSample_ns {d : Dev} {off : Int} (v : Bool) (hs : d.src ≠ 3) (ho : off.natAbs ≤ 100) :
    d.goodSample (off * 256) v = true := by
  have h : (off * 256).natAbs ≤ 25600 := by omega
  simp [Dev.goodSample, hs, h]

/-- Under sources 1 and 2 the sample is the one that the row names, in ns. -/
theorem takeSample_named {d : Dev} (off : Int) (v : Bool) (hs : d.src ≠ 3) :
    d.takeSample off v = d.timeSample (off * 256) v := if_neg hs

/-- Under source 3 it is that of the time link. -/
theorem takeSample_trellis {d : Dev} (off : Int) (v : Bool) (hs : d.src = 3) : d.takeSample off v =
    match d.trellisSample off v with
    | some x => d.timeSample x.1 x.2
    | none => d := if_pos hs

/-- A status bit latched leaves what the time base shows as it is. -/
theorem timeSeen_goesLatched (d : Dev) (st : TimeState) (b : Nat) :
    ((d.timeGoes st).latchBit Reg.TIME_STATUS b).timeSeen = (st, d.time.now, d.reg Reg.TIME_CTRL) :=
  (timeSeen_latchBit _ _ (by decide)).trans (timeSeen_timeGoes d st)

/-- The plain form shows what the effect shows, with device time as it was. -/
theorem timeSeen_keep {d e : Dev} {st : TimeState} {now : DevTime} {w : Word} (h : e.timeSeen = (st, now, w)) :
    (d.keep e).timeSeen = (st, d.time.now, w) := by
  obtain ⟨rfl, rfl, rfl⟩ : e.time.state = st ∧ e.time.now = now ∧ e.reg Reg.TIME_CTRL = w := by simpa [Dev.timeSeen] using h
  rfl

/-- The oldest record of the selected port is delivered and removed (R56). -/
theorem readTxTs_oldest {d : Dev} {r : TxTs} {rest : List TxTs}
    (h : Tbl.get [] d.time.txts (fld (d.reg Reg.TIME_TXTS_SEL) 6 0) = r :: rest) :
    d.readTxTs = (wd (2 ^ 31 + r.msgType * 2 ^ 24 + r.domain * 2 ^ 16 + r.seqId), { d with time := { d.time with
      txts := Tbl.set [] d.time.txts (fld (d.reg Reg.TIME_TXTS_SEL) 6 0) rest,
      txtsLatch := [wd r.time.ns, wd r.time.sec, wd (r.time.subns * 65536 + r.time.sec / 2 ^ 32)] } }) := by
  simp only [Dev.readTxTs, h]

/-- Settles O21, by what a sample does in ACQUIRING and what a change of state shows. -/
theorem timeSources : Obligations.TimeSources := by
  unfold Obligations.TimeSources
  refine ⟨fun s off v hs h0 h3 ho ha hn => ?_, fun s off v hs h0 h3 ho ha hn => ?_, fun s off v hs h3 hx => ?_,
    fun s off v x hs h3 hx ho ha hn => ?_, fun s hs hl => ?_, fun s hs hh => ?_, fun s p r rest ha hr => ?_⟩
  case refine_1 =>
    refine yields_of_serving (fun d => d.takeSample off v) rfl hs ?_
    rw [takeSample_named off v h3, timeSample_counts h0 ha (goodSample_ns v h3 ho) hn]
    rfl
  case refine_2 =>
    have hx : s.dev.takeSample off v = s.dev.timeGoes .locked := by
      rw [takeSample_named off v h3, timeSample_locks h0 ha (goodSample_ns v h3 ho) hn]
    have hseen := timeSeen_keep (d := s.dev) (timeSeen_timeGoes s.dev .locked)
    refine ⟨_, yields_of_serving (fun d => d.takeSample off v) rfl hs rfl, ?_⟩
    rw [hx]
    exact ⟨congrArg Prod.fst hseen, (timeValid_seen hseen).trans rfl, rfl⟩
  case refine_3 =>
    refine yields_of_serving (fun d => d.takeSample off v) rfl hs ?_
    rw [takeSample_trellis off v h3, hx]
    rfl
  case refine_4 =>
    have hg : s.dev.goodSample x true = true := by simp [Dev.goodSample, ho]
    refine yields_of_serving (fun d => d.takeSample off v) rfl hs ?_
    rw [takeSample_trellis off v h3, hx]
    exact congrArg s.dev.keep (timeSample_counts (by omega) ha hg hn)
  case refine_5 =>
    refine ⟨_, yields_of_serving Dev.sourceLoss rfl hs rfl, ?_⟩
    unfold Dev.sourceLoss
    rw [if_pos hl]
    have hseen := timeSeen_keep (d := s.dev) (timeSeen_goesLatched { s.dev with time := { s.dev.time with
      holdRate := some (meanRate s.dev.time.rateHist s.dev.time.tsc (s.dev.reg Reg.TIME_FREQ_ADJ).toInt) } } .holdover 10)
    exact ⟨congrArg Prod.fst hseen, (timeValid_seen hseen).trans rfl, by rw [reg_keep]; exact latchBit_sets _ _ _ (by decide), rfl⟩
  case refine_6 =>
    refine ⟨_, yields_of_serving Dev.holdoverEnds rfl hs rfl, ?_⟩
    unfold Dev.holdoverEnds
    rw [if_pos hh]
    have hseen := timeSeen_keep (d := s.dev) (timeSeen_goesLatched s.dev .acquiring 11)
    exact ⟨congrArg Prod.fst hseen, by rw [reg_keep]; exact latchBit_sets _ _ _ (by decide), (timeValid_seen hseen).trans rfl⟩
  case refine_7 =>
    refine yields_of_actRead Dev.readTxTs rfl ha ?_
    rw [readTxTs_oldest hr]
    rfl

end Sys2Proof.Machine
end

section
/-! 1PPS, time of day and UTC, and the SyncE outputs. -/
namespace Sys2Proof.Machine

/-! ## Edges of PPS_IN and PPS_OUT (R49, R51) -/

/-- An edge that is long enough, far enough from the last one and, in LOCKED, near a whole second is captured at its corrected time and
takes the waiting line; outside LOCKED any whole second will do. -/
theorem ppsEdge_accepted {d : Dev} {rising : Bool} {w : Nat} (he : bit (d.reg Reg.TIME_PPS_CTRL) 0 = true)
    (hr : rising ≠ bit (d.reg Reg.TIME_PPS_CTRL) 1) (hw : 100 ≤ w)
    (hc : ∀ c, d.time.ppsEdgeTsc = some c → c + 5 * 10 ^ 8 ≤ d.time.tsc) (hl : d.time.state ≠ .locked) :
    d.ppsEdge rising w = { d with time := { d.time with
      ppsCapt := d.time.now.shift (signed 16 (fld (d.reg Reg.TIME_PPS_CORR) 31 16) * nsUnit),
      ppsEdgeTsc := some d.time.tsc, todApplied := d.time.todPending, todPending := none } } := by
  unfold Dev.ppsEdge
  extract_lets ctrl t spaced
  have hspaced : spaced = true := by
    unfold spaced
    split
    next c h => exact decide_eq_true (hc c h)
    next => rfl
  rw [if_neg (by simp [ctrl, he, hr]), if_pos ⟨hw, hspaced, .inl hl⟩]

/-- A whole second of the time that the output follows gives a pulse on a driven output. -/
theorem ppsOut_pulse {d : Dev} (hd : d.ppsDrives = true) (hs : d.ppsTime.sec ≠ d.time.ppsOutSec) : d.ppsOut =
    (d.ppsRestart.emit (.pin pinPps (!bit (d.reg Reg.TIME_PPS_CTRL) 3))).emit
      (.ppsPulse (min 999999 (fld (d.reg Reg.TIME_PPS_CTRL) 31 8))) := by simp [Dev.ppsOut, hs, hd]

/-- Within a second there is none. -/
theorem ppsOut_same {d : Dev} (hs : d.ppsTime.sec = d.time.ppsOutSec) : d.ppsOut = d := if_pos hs

/-! ## Time of day and UTC (R50 to R52) -/

/-- A line that parses, between 100 ms and 900 ms after an accepted edge, is kept for the next one. -/
theorem todLine_kept {d : Dev} {line : Bytes} {i : TodInfo} {c : Nat} (hp : todParse line = some i)
    (hc : d.time.ppsEdgeTsc = some c) (h1 : c + 10 ^ 8 ≤ d.time.tsc) (h2 : d.time.tsc ≤ c + 9 * 10 ^ 8) (hs : d.src ≠ 2) :
    d.todLine line = { d with time := { d.time with todPending := some i } } := by
  have hin : (c + 10 ^ 8 ≤ d.time.tsc && d.time.tsc ≤ c + 9 * 10 ^ 8 : Bool) = true := by
    rw [decide_eq_true h1, decide_eq_true h2]; rfl
  simp only [Dev.todLine, hp, hc, hin]
  exact if_neg fun h => hs h.1

/-- One that does not parse is shown. -/
theorem todLine_bad (d : Dev) {line : Bytes} (hp : todParse line = none) : d.todLine line = d.latchBit Reg.TIME_STATUS 13 := by
  simp only [Dev.todLine, hp]

/-- With its output driven, the line for the next edge is sent. -/
theorem todSend_line {d : Dev} (hb : bit (d.reg Reg.TIME_PPS_CTRL) 4 = true) (hd : d.ppsDrives = true) :
    d.todSend = d.emit (.todLine (todLineFor
      { sec := d.ppsTime.sec + 1, taiUtc := signed 16 (fld (d.reg Reg.TIME_UTC) 15 0),
        flags := b2n (d.time.state = .locked) + 2 * b2n (bit (d.reg Reg.TIME_UTC) 16) })) := if_pos ⟨hb, hd⟩

/-- A leap second that is due changes TIME_UTC, after the seconds that have passed, and is logged. -/
theorem leapApply_due {d : Dev} {old new : Nat} (hd : d.leapDue = true) (ho : old = fld (d.reg Reg.TIME_UTC) 15 0)
    (hn : new = unsignedOf 16 (signed 16 old + (if bit (d.reg Reg.TIME_UTC) 17 then -1 else 1))) :
    d.leapApply = ((d.pmRollAll.setReg Reg.TIME_UTC (wd new)).pmRebase).logNum 0x01 1 0 (le 2 old ++ le 2 new) := by
  unfold Dev.leapApply
  rw [if_pos hd, hn, ho]

/-- Settles O22, by the lemma of each event of the pulse, the line and the leap second. -/
theorem pulseAndDay : Obligations.PulseAndDay := by
  unfold Obligations.PulseAndDay
  refine ⟨fun s rising w hl he hr hw hc hst => ?_, fun s hc hb => ?_, fun s p ha => ?_, fun s hl hd hs => ?_, fun s hl hs => ?_,
    fun s line i c hl hp hc h1 h2 hs => ?_, fun s line hl hp => ?_, fun s hc hb hd => ?_, fun s old new hc hd ho hn => ?_,
    fun s off hs h1 => ?_, fun s off neg hs h1 => ?_, fun s off a b hs h1 => ?_⟩
  case refine_1 =>
    refine yields_of_actLive (fun d => d.ppsEdge rising w) rfl hl ?_
    rw [ppsEdge_accepted he hr hw hc hst]
    rfl
  case refine_2 =>
    refine yields_of_actIn (fun d => if bit (d.reg Reg.TIME_PPS_CTRL) 0 then d.latchBit Reg.TIME_STATUS 12 else d) rfl hc ?_
    rw [if_pos hb]
    rfl
  case refine_3 => exact yields_of_actRead Dev.readCapt rfl ha rfl
  case refine_4 =>
    refine yields_of_actLive Dev.ppsOut rfl hl ?_
    rw [ppsOut_pulse hd hs]
    rfl
  case refine_5 =>
    refine yields_of_actLive Dev.ppsOut rfl hl ?_
    rw [ppsOut_same hs]
    rfl
  case refine_6 =>
    refine yields_of_actLive (fun d => d.todLine line) rfl hl ?_
    rw [todLine_kept hp hc h1 h2 hs]
    rfl
  case refine_7 =>
    refine yields_of_actLive (fun d => d.todLine line) rfl hl ?_
    rw [todLine_bad _ hp]
    rfl
  case refine_8 =>
    refine yields_of_actIn Dev.todSend rfl hc ?_
    rw [todSend_line hb hd]
    rfl
  case refine_9 => exact yields_of_actIn Dev.leapApply rfl hc (by rw [leapApply_due hd ho hn])
  case refine_10 =>
    refine yields_of_serving (fun d => if d.src = 1 then d.setUtc off none else d) rfl hs ?_
    rw [if_pos h1]
    rfl
  case refine_11 =>
    refine yields_of_serving (fun d => if d.src = 1 then
      d.setUtc off (if neg then some true else if !neg then some false else none) else d) rfl hs ?_
    rw [if_pos h1]
    cases neg <;> rfl
  case refine_12 =>
    refine yields_of_serving (fun d => if d.src = 1 then
      d.setUtc off (if b then some true else if a then some false else none) else d) rfl hs ?_
    rw [if_neg h1]
    rfl

/-! ## SyncE (R57, R58) -/

/-- An output gives what its register, its squelch and the rate of its lane make of it. -/
theorem syncEFollow_get (d : Dev) (o : Nat) : Tbl.get none (d.syncEFollow o).time.syncE o = d.syncEDrive o := by
  have hset (x : Option (Nat × Nat)) : Tbl.get none (Tbl.set none d.time.syncE o x) o = x := Tbl.get_set_same _ _ _ _
  unfold Dev.syncEFollow
  dsimp only
  split
  next h => exact h.symm
  next h =>
    cases hx : d.syncEDrive o with
    | none => exact hset none
    | some x => exact hset (some x)

/-- What it gives, and what it sends where that changes, is all that follows. -/
theorem syncEFollow_frame (d : Dev) (o : Nat) : d.syncEFollow o =
    { d with time := { d.time with syncE := (d.syncEFollow o).time.syncE }, out := (d.syncEFollow o).out } := by
  unfold Dev.syncEFollow
  dsimp only
  split
  · rfl
  · split <;> rfl

/-- An output that comes to give nothing is held low. -/
theorem syncEFollow_low {d : Dev} {o : Nat} (h : d.syncEDrive o = none) :
    (d.syncEFollow o).out = if Tbl.get none d.time.syncE o = none then d.out else .pin (pinSyncE o) false :: d.out := by
  simp only [Dev.syncEFollow, h, eq_comm (a := (none : Option (Nat × Nat)))]
  split <;> rfl

/-- The plain form passes on what follows at an output. -/
theorem keep_syncEFollow (d e : Dev) (o : Nat) (h : d.keep e = e) : d.keep (e.syncEFollow o) = e.syncEFollow o := by
  have hx := congrArg (fun x : Dev => { x with time := { x.time with syncE := (e.syncEFollow o).time.syncE }, out := (e.syncEFollow o).out }) h
  rw [syncEFollow_frame]
  exact hx

/-- The device with the squelch of an output as its lane has it. -/
def Dev.setSquelch (d : Dev) (o : Nat) (b : Bool) : Dev :=
  { d with time := { d.time with squelch := Tbl.set false d.time.squelch o b } }

theorem setSquelch_get (d : Dev) (o : Nat) (b : Bool) : Tbl.get false (d.setSquelch o b).time.squelch o = b :=
  Tbl.get_set_same _ _ _ _

/-- A squelch sets or ends, and the output follows: no more. -/
theorem squelchFollow_frame (d : Dev) (o : Nat) (b : Bool) {e : Dev} (he : e = d.keep ((d.setSquelch o b).syncEFollow o)) :
    Tbl.get false e.time.squelch o = b ∧ Tbl.get none e.time.syncE o = (d.setSquelch o b).syncEDrive o ∧
      e.out = ((d.setSquelch o b).syncEFollow o).out ∧
      e = { d with time := { d.time with squelch := e.time.squelch, syncE := e.time.syncE }, out := e.out } := by
  have hk : e = (d.setSquelch o b).syncEFollow o := he.trans (keep_syncEFollow d _ o rfl)
  have hframe := syncEFollow_frame (d.setSquelch o b) o
  rw [← hk] at hframe
  refine ⟨?_, ?_, by rw [hk], ?_⟩
  · rw [hframe]; exact setSquelch_get d o b
  · rw [hk]; exact syncEFollow_get _ o
  · rw [hframe]; rfl

/-- A squelched output gives nothing. -/
theorem syncEDrive_squelched (d : Dev) (o : Nat) : (d.setSquelch o true).syncEDrive o = none := by
  simp [Dev.syncEDrive, setSquelch_get]

/-- One whose squelch ends gives LRX of its lane divided by N, where it is enabled and gives at most 200 MHz. -/
theorem syncEDrive_resumed (d : Dev) (o : Nat) : (d.setSquelch o false).syncEDrive o =
    if bit (d.reg (syncECtrl o)) 16 && d.syncEInRange o then
      some (fld (d.reg (syncECtrl o)) 6 0, fld (d.reg (syncECtrl o)) 15 8 + 1) else none := by
  have hr (k : Nat) : (d.setSquelch o false).reg k = d.reg k := rfl
  have hi : (d.setSquelch o false).syncEInRange o = d.syncEInRange o := rfl
  simp [Dev.syncEDrive, setSquelch_get, hr, hi]

/-- Settles O23: a squelch sets or ends, and the output gives what its register and its squelch then make of it. -/
theorem syncE : Obligations.SyncE := by
  unfold Obligations.SyncE
  refine ⟨fun s o hr he hq => ?_, fun s o hr => ?_, fun s port o lane hs => ?_, fun s port hs => ?_⟩
  case refine_1 =>
    have hx : s.dev.syncESquelch o = (s.dev.setSquelch o true).syncEFollow o := if_pos ⟨he, by rw [hq]; rfl⟩
    obtain ⟨hsq, hget, hout, hframe⟩ := squelchFollow_frame s.dev o true rfl
    refine ⟨_, yields_of_act (fun d => d.syncESquelch o) rfl hr (congrArg s.dev.keep hx), hsq, ?_, ?_, hframe⟩
    · rw [hget, syncEDrive_squelched]
    · rw [hout, syncEFollow_low (syncEDrive_squelched s.dev o)]
      rfl
  case refine_2 =>
    obtain ⟨hsq, hget, -, hframe⟩ := squelchFollow_frame s.dev o false rfl
    exact ⟨_, yields_of_act (fun d => d.syncEResume o) rfl hr rfl, hsq, hget.trans (syncEDrive_resumed s.dev o), hframe⟩
  case refine_3 =>
    exact yields_of_serving (fun d => (d.setRegFld (syncECtrl o) 6 0 lane).syncEFollow o) rfl hs (keep_syncEFollow _ _ _ rfl)
  case refine_4 => exact yields_of_serving (fun d => d) rfl hs rfl

end Sys2Proof.Machine
end

section
/-! Distributed launches: what a message taken and a message sent change, and what the worker and the manager make of ARM, ANSWER,
CONFIRM and the deadline. -/
namespace Sys2Proof.Machine

/-! ## Messages (R331, R338) -/

/-- Messages are kept and sent in the fabric's part of the device. -/
theorem takeInbox_frame {d d1 : Dev} {typ : Nat} {src : Option Nat} {m : Option (Nat × Bytes)} (h : d.takeInbox typ src = (m, d1)) :
    d1 = { d with fab := d1.fab } := by
  unfold Dev.takeInbox at h
  split at h
  · obtain ⟨-, rfl⟩ := Prod.mk.inj h
    rfl
  · obtain ⟨-, rfl⟩ := Prod.mk.inj h
    rfl

theorem sendMsg_frame (d : Dev) (typ dst : Nat) (bs : Bytes) : d.sendMsg typ dst bs = { d with fab := (d.sendMsg typ dst bs).fab } := by
  unfold Dev.sendMsg
  split <;> rfl

/-- The first message of a type is handled without the device's copy of it. -/
theorem onMessage_taken {d d1 : Dev} {typ : Nat} {src : Option Nat} {m : Nat × Bytes} (f : Dev → Nat → Bytes → Dev)
    (h : d.takeInbox typ src = (some m, d1)) : d.onMessage typ src f = f d1 m.1 m.2 := by simp only [Dev.onMessage, h]

/-- The plain form passes on a message taken and what it does to launch entries, and a message sent after it. -/
theorem keep_sendMsg {d e : Dev} (typ dst : Nat) (bs : Bytes) (h : d.keep e = e) :
    d.keep (e.sendMsg typ dst bs) = e.sendMsg typ dst bs := by
  have hx := congrArg (fun x : Dev => { x with fab := (e.sendMsg typ dst bs).fab }) h
  rw [sendMsg_frame]
  exact hx

theorem keep_taken {d d1 : Dev} {typ : Nat} {src : Option Nat} {m : Option (Nat × Bytes)} (h : d.takeInbox typ src = (m, d1)) :
    d.keep d1 = d1 := by
  rw [takeInbox_frame h]
  rfl

/-- Launch entries are none of what the plain form holds fast. -/
theorem keep_setEntry {d e : Dev} (i : Nat) (x : LEntry) (h : d.keep e = e) : d.keep (e.setEntry i x) = e.setEntry i x :=
  congrArg (fun y : Dev => y.setEntry i x) h

/-! ## ARM at a worker (R77, R78) -/

/-- An ARM of the obeyed manager for an entry that is not HELD makes it HELD and is acknowledged, where nothing refuses it. -/
theorem armReceived_holds {d : Dev} {src x i : Nat} {bs : Bytes} (hx : x = unbe (Machine.slice bs 0 32)) (hi : i = x % 2 ^ 16)
    (hm : d.fromManager src = true) (hs : (d.entry i).st ≠ .held) (hr : d.armRefused i = 0) : d.armReceived src bs =
      (d.setEntry i { LEntry.ofBits x with st := .held, origin := 2, claim := d.fab.obeyed }).sendMsg 2 src
        (answerBytes true false i 0) := by
  unfold Dev.armReceived
  dsimp only
  rw [← hx, ← hi, if_neg (by simp [hm]), if_neg fun h => hs h.2.2.1, hr]
  rfl

/-- One that is refused is answered with the reason. -/
theorem armReceived_refuses {d : Dev} {src x i : Nat} {bs : Bytes} (hx : x = unbe (Machine.slice bs 0 32)) (hi : i = x % 2 ^ 16)
    (hm : d.fromManager src = true) (hs : (d.entry i).st ≠ .held) (hr : d.armRefused i ≠ 0) :
    d.armReceived src bs = d.sendMsg 2 src (answerBytes false false i (d.armRefused i)) := by
  unfold Dev.armReceived
  dsimp only
  rw [← hx, ← hi, if_neg (by simp [hm]), if_neg fun h => hs h.2.2.1]
  split
  next h0 => exact absurd h0 hr
  next => rfl

/-- One of another device is discarded and counted. -/
theorem armReceived_foreign {d : Dev} {src : Nat} (bs : Bytes) (hm : d.fromManager src = false) :
    d.armReceived src bs = d.foreignMsg := by simp [Dev.armReceived, hm]

/-! ## The manager's side (R79, R338) -/

/-- The device but its fabric's part. -/
def Dev.sansFab (d : Dev) : Dev := { d with fab := {} }

theorem sansFab_sendMsg (d : Dev) (typ dst : Nat) (bs : Bytes) : (d.sendMsg typ dst bs).sansFab = d.sansFab := by
  rw [sendMsg_frame]
  rfl

/-- The ARMs sent again are messages, and no more. -/
theorem repeatArms_frame (d : Dev) : d.repeatArms = { d with fab := d.repeatArms.fab } := by
  have h : d.repeatArms.sansFab = d.sansFab :=
    foldl_field Dev.sansFab _ (fun e p => foldl_field Dev.sansFab _ (fun e w => sansFab_sendMsg e 1 w _) _ e) _ d
  exact congrArg (fun x : Dev => { x with fab := d.repeatArms.fab }) h

/-- The answer to an ARM that is awaited is noted, and the entry confirmed when it was the last. -/
theorem answerReceived_arm {d : Dev} {src x : Nat} {bs : Bytes} (hp : (bs.getD 1 0).toNat ≠ 1) (hx : x = unbe (Machine.slice bs 2 2))
    (ha : d.awaits x = true) : d.answerReceived src bs = (d.modEntry x fun e =>
      { e with waiting := e.waiting.filter (· ≠ src), nacked := e.nacked || !decide ((bs.getD 0 0).toNat = 1) }).confirmEntry x := by
  subst hx
  unfold Dev.answerReceived
  dsimp only
  rw [if_neg hp, if_pos ha]

/-! ## CONFIRM (R79, R331) -/

/-- The index of entry `b` of the group that a link's beacon names. -/
def Link.confirmIdx (x : Link) (b : Nat) : Nat := 3584 + 32 * x.bGroup + b

/-- A HELD entry of the group whose bit is set becomes ARMED. -/
def Dev.confirmBit (x : Link) (d : Dev) (b : Nat) : Dev :=
  if x.bMask.testBit b ∧ (d.entry (x.confirmIdx b)).st = .held ∧ (d.entry (x.confirmIdx b)).origin = 2 then
    d.modEntry (x.confirmIdx b) fun e => { e with st := .armed, confirmed := true }
  else d

/-- A confirmation of the obeyed manager confirms the 32 entries of its group, one after the other. -/
theorem confirmReceived_group {d : Dev} {n : Nat} (hc : (d.link n).bConfirm = true) (hr : (d.link n).bRole = 2)
    (hm : d.fromManager (d.link n).nbrDev = true) (hb : (d.link n).bClaim = d.fab.obeyed) :
    d.confirmReceived n = (List.range 32).foldl (Dev.confirmBit (d.link n)) d := by
  unfold Dev.confirmReceived
  dsimp only
  rw [if_neg (by simp [hc]), if_pos ⟨hr, hm, hb⟩]
  rfl

theorem confirmBit_other (x : Link) (d : Dev) {b j : Nat} (h : j ≠ x.confirmIdx b) : (d.confirmBit x b).entry j = d.entry j := by
  unfold Dev.confirmBit
  split
  · exact d.entry_setEntry_ne _ h
  · rfl

theorem confirmBits_other (x : Link) {j : Nat} (l : List Nat) (d : Dev) (h : ∀ b ∈ l, j ≠ x.confirmIdx b) :
    (l.foldl (Dev.confirmBit x) d).entry j = d.entry j := by
  induction l generalizing d with
  | nil => rfl
  | cons b l ih =>
    obtain ⟨hb, hl⟩ := List.forall_mem_cons.mp h
    exact (ih _ hl).trans (confirmBit_other x d hb)

/-- Each HELD entry whose bit is set is ARMED when all have been looked at. -/
theorem confirmBits_armed (x : Link) {b : Nat} (l : List Nat) (d : Dev) (hn : l.Nodup) (hb : b ∈ l) (hm : x.bMask.testBit b = true)
    (hs : (d.entry (x.confirmIdx b)).st = .held) (ho : (d.entry (x.confirmIdx b)).origin = 2) :
    ((l.foldl (Dev.confirmBit x) d).entry (x.confirmIdx b)).st = .armed := by
  induction l generalizing d with
  | nil => cases hb
  | cons a l ih =>
    obtain ⟨ha, hl⟩ := List.nodup_cons.mp hn
    have hinj (c : Nat) (hc : b ≠ c) : x.confirmIdx b ≠ x.confirmIdx c := by unfold Link.confirmIdx; omega
    rw [List.foldl_cons]
    rcases List.mem_cons.mp hb with rfl | hbl
    · rw [confirmBits_other x l _ fun c hc => hinj c (by rintro rfl; exact ha hc), Dev.confirmBit, if_pos ⟨hm, hs, ho⟩,
        Dev.entry_modEntry_same]
    · have hsame := confirmBit_other x d (hinj a (by rintro rfl; exact ha hbl))
      exact ih _ hl hbl (by rw [hsame, hs]) (by rw [hsame, ho])

/-- Only launch entries change. -/
theorem confirmBits_frame (x : Link) (l : List Nat) (d : Dev) :
    l.foldl (Dev.confirmBit x) d = { d with lnch := (l.foldl (Dev.confirmBit x) d).lnch } := by
  have hbit (e : Dev) (b : Nat) : ({ e.confirmBit x b with lnch := {} } : Dev) = { e with lnch := {} } := by
    unfold Dev.confirmBit
    split <;> rfl
  have h := foldl_field (fun e : Dev => ({ e with lnch := {} } : Dev)) _ hbit l d
  exact congrArg (fun y : Dev => { y with lnch := (l.foldl (Dev.confirmBit x) d).lnch }) h

/-! ## The deadline (R79) -/

/-- An entry that nobody has confirmed 20 µs before its instant is cancelled by the manager that awaits its answers, and discarded by a
worker. -/
theorem confirmDeadline_unconfirmed {d : Dev} {i : Nat} (hi : 3584 ≤ i) (hs : (d.entry i).st = .held) (ho : (d.entry i).origin = 2)
    (ht : (d.entry i).instant ≤ d.time.now.nsTotal + 20000) : d.confirmDeadline i =
      if d.awaits i then (d.modEntry i fun e => { e with st := .cancelled }).latchBit Reg.LNCH_STATUS 5
      else (d.discardEntry i).latchBit Reg.LNCH_STATUS 6 := by
  unfold Dev.confirmDeadline
  dsimp only
  rw [if_neg]
  rintro (h | h | h | h)
  · omega
  · exact h hs
  · exact h ho
  · omega

/-- Settles O26, by what a worker does with an ARM, a CONFIRM and the deadline, and what the manager does with an answer; a CONFIRM
by induction on the entries of its group. -/
theorem distributedLaunch : Obligations.DistributedLaunch := by
  unfold Obligations.DistributedLaunch
  refine ⟨fun s m d1 x i hc ht hx hi hm hs hr => ?_, fun s m d1 x i r hc ht hx hi hm hs hr h0 => ?_, fun s m d1 hc ht hm => ?_,
    fun s hc => ⟨yields_of_actIn Dev.repeatArms rfl hc rfl, repeatArms_frame s.dev⟩, fun s m d1 x hc ht hp hx ha => ?_,
    fun s n hc hb hr hm hcl => ?_, fun s x hc hi hs ho ht => ?_⟩
  case refine_1 =>
    refine yields_of_actIn (fun d => d.onMessage 1 none fun d v bs => d.armReceived v bs) rfl hc ?_
    rw [onMessage_taken _ ht, armReceived_holds hx hi hm hs hr]
    exact keep_sendMsg _ _ _ (keep_setEntry _ _ (keep_taken ht))
  case refine_2 =>
    subst hr
    refine yields_of_actIn (fun d => d.onMessage 1 none fun d v bs => d.armReceived v bs) rfl hc ?_
    rw [onMessage_taken _ ht, armReceived_refuses hx hi hm hs h0]
    exact keep_sendMsg _ _ _ (keep_taken ht)
  case refine_3 =>
    refine yields_of_actIn (fun d => d.onMessage 1 none fun d v bs => d.armReceived v bs) rfl hc ?_
    rw [onMessage_taken _ ht, armReceived_foreign _ hm]
  case refine_4 =>
    refine yields_of_actIn (fun d => d.onMessage 2 none fun d v bs => d.answerReceived v bs) rfl hc ?_
    rw [onMessage_taken _ ht, answerReceived_arm hp hx ha]
    exact keep_setEntry _ _ (keep_setEntry _ _ (keep_taken ht))
  case refine_5 =>
    have hframe := confirmBits_frame (s.dev.link n) (List.range 32) s.dev
    refine ⟨s.dev.confirmReceived n, yields_of_actIn (fun d => d.confirmReceived n) rfl hc ?_, ?_, fun b hb32 hbit hst hor => ?_⟩
    · rw [confirmReceived_group hb hr hm hcl, hframe]
      rfl
    · rw [confirmReceived_group hb hr hm hcl]
      exact hframe
    · rw [confirmReceived_group hb hr hm hcl]
      exact confirmBits_armed _ _ _ List.nodup_range (List.mem_range.mpr hb32) hbit hst hor
  case refine_6 =>
    refine yields_of_actIn (fun d => d.confirmDeadline x.toNat) rfl hc ?_
    rw [confirmDeadline_unconfirmed hi hs ho ht]
    split <;> rfl

end Sys2Proof.Machine
end

section
/-! The frames of a MAC: what it does with a frame by its length, its FCS and its kind, where a good one goes, and what leaves. -/
namespace Sys2Proof.Machine

/-! ## Counting leaves what the MAC looks at (R507) -/

/-- What is counted on top of counting is still counting. -/
theorem onlyCounted_bump {d e : Dev} (b i n : Nat) (h : e = { d with cnt := e.cnt }) :
    e.bump b i n = { d with cnt := (e.bump b i n).cnt } :=
  (bump_eq e b i n).trans (congrArg (fun x : Dev => { x with cnt := (e.bump b i n).cnt }) h)

theorem onlyCounted_inc {d e : Dev} (b i : Nat) (h : e = { d with cnt := e.cnt }) :
    e.inc b i = { d with cnt := (e.inc b i).cnt } := onlyCounted_bump b i 1 h

/-- A port receives frames: it is UP and its lanes have their true polarity (R89, R93). -/
def Dev.receives (d : Dev) (p : Nat) : Prop := (d.port p).st = .up ∧ d.polarityOk p (d.port p).swapped = true

theorem receives_pcsCount (d : Dev) (p a b c q : Nat) : (d.pcsCount p a b c).receives q ↔ d.receives q := by
  rw [pcsCount_eq]
  rfl

@[simp] theorem maxFrame_pcsCount (d : Dev) (p a b c q : Nat) : (d.pcsCount p a b c).maxFrame q = d.maxFrame q := by
  rw [pcsCount_eq]
  rfl

@[simp] theorem port_pcsCount (d : Dev) (p a b c q : Nat) : (d.pcsCount p a b c).port q = d.port q := by
  rw [pcsCount_eq]
  rfl

@[simp] theorem holder_pcsCount (d : Dev) (p a b c g : Nat) : (d.pcsCount p a b c).holder g = d.holder g := by
  rw [pcsCount_eq]
  rfl

@[simp] theorem spr_pcsCount (d : Dev) (p a b c : Nat) : (d.pcsCount p a b c).spr = d.spr := by
  rw [pcsCount_eq]

@[simp] theorem slice_pcsCount (d : Dev) (p a b c n : Nat) : (d.pcsCount p a b c).slice n = d.slice n := by
  rw [pcsCount_eq]
  rfl

theorem keep_pcsCount (d : Dev) (p a b c : Nat) : d.keep (d.pcsCount p a b c) = d.pcsCount p a b c :=
  keep_bump _ _ _ (keep_bump _ _ _ (keep_bump _ _ _ rfl))

/-- Counting a good frame changes nothing but the counters. -/
theorem countRx_frame (d : Dev) (p : Nat) (frame : Bytes) :
    d.countRx p frame = { d with cnt := (d.countRx p frame).cnt } := by
  have h : (d.inc (bankPort p) 0).bump (bankPort p) 2 (frame.length + 4) =
      { d with cnt := ((d.inc (bankPort p) 0).bump (bankPort p) 2 (frame.length + 4)).cnt } :=
    onlyCounted_bump _ _ _ (onlyCounted_inc _ _ rfl)
  unfold Dev.countRx
  dsimp only
  split
  · exact onlyCounted_inc _ _ h
  · split
    · exact onlyCounted_inc _ _ h
    · exact h

/-! ## What the MAC does with a frame (R93, R405, R423) -/

/-- A port that receives looks at the frame: at its head while that alone has come, else at its length, its FCS and its kind. -/
theorem lineReceive_receives {d : Dev} {p : Nat} (frame : Bytes) (fcsOk : Bool) (h : d.receives p) :
    d.lineReceive p frame fcsOk false =
      if frame.length + 4 < 64 then d.inc (bankPort p) (if fcsOk then 7 else 9)
      else if d.maxFrame p < frame.length + 4 then
        if fcsOk then d.inc (bankPort p) 8 else (d.inc (bankPort p) 8).inc (bankPort p) 6
      else if !fcsOk then d.inc (bankPort p) 6
      else if isPause frame ∨ isPfc frame then d.pauseFrame p frame
      else if (d.holder (p / 16)).isNone ∧ !d.spr.cellar then d.inc (bankPort p) 13
      else (d.countRx p frame).steer p frame false := by
  obtain ⟨hup, hpol⟩ := h
  unfold Dev.lineReceive
  rw [if_neg (by simp [hup, hpol]), if_neg Bool.false_ne_true]

theorem lineReceive_short {d : Dev} {p : Nat} {frame : Bytes} (h : d.receives p) (hn : frame.length + 4 < 64) :
    d.lineReceive p frame true false = d.inc (bankPort p) 7 := by
  rw [lineReceive_receives _ _ h, if_pos hn, if_pos rfl]

theorem lineReceive_long {d : Dev} {p : Nat} {frame : Bytes} (h : d.receives p) (hn : 64 ≤ frame.length + 4)
    (hm : d.maxFrame p < frame.length + 4) : d.lineReceive p frame true false = d.inc (bankPort p) 8 := by
  rw [lineReceive_receives _ _ h, if_neg (by omega), if_pos hm, if_pos rfl]

theorem lineReceive_badFcs {d : Dev} {p : Nat} {frame : Bytes} (h : d.receives p) (hn : 64 ≤ frame.length + 4)
    (hm : frame.length + 4 ≤ d.maxFrame p) : d.lineReceive p frame false false = d.inc (bankPort p) 6 := by
  rw [lineReceive_receives _ _ h, if_neg (by omega), if_neg (by omega), if_pos (by decide)]

/-- A good frame that is no flow control goes to the slice of its port group, or to cellar forwarding. -/
theorem lineReceive_good {d : Dev} {p : Nat} {frame : Bytes} (h : d.receives p) (hn : 64 ≤ frame.length + 4)
    (hm : frame.length + 4 ≤ d.maxFrame p) (hpause : isPause frame = false) (hpfc : isPfc frame = false)
    (hto : (d.holder (p / 16)).isNone = false ∨ d.spr.cellar = true) :
    d.lineReceive p frame true false = (d.countRx p frame).steer p frame false := by
  have hgoes : ¬((d.holder (p / 16)).isNone = true ∧ (!d.spr.cellar) = true) := by
    rintro ⟨hnone, hcel⟩
    rcases hto with hto | hto <;> simp [hto] at hnone hcel
  rw [lineReceive_receives _ _ h, if_neg (by omega), if_neg (by omega), if_neg (by decide), if_neg (by simp [hpause, hpfc]),
    if_neg hgoes]

/-- The head of a frame that is no flow control goes to the slice of its port group, and the frame is open. -/
theorem lineReceive_head {d : Dev} {p n : Nat} {frame : Bytes} (fcsOk : Bool) (h : d.receives p) (ho : (d.port p).rxOpen = none)
    (hcel : d.spr.cellar = false) (hpause : isPause frame = false) (hpfc : isPfc frame = false)
    (hh : d.holder (p / 16) = some n) :
    d.lineReceive p frame fcsOk true = (d.steer p frame true).openFrame p (some (some d.newUid.1)) := by
  obtain ⟨hup, hpol⟩ := h
  unfold Dev.lineReceive
  rw [if_neg (by simp [hup, hpol]), if_pos rfl]
  unfold Dev.headReceive
  rw [if_neg (by simp [ho, hcel]), if_neg (by simp [hpause, hpfc]), if_neg (by simp [hh])]

/-! ## Where a good frame goes (R405) -/

/-- The beginning of a hold changes the port, the holds and no slice. -/
theorem charge_slice (d : Dev) (uid p prio len n : Nat) : (d.charge uid p prio len).slice n = d.slice n := by
  unfold Dev.charge
  rw [changeOcc_frame]
  rfl

/-- A frame that is steered is the last packet of the ingress port of the slice that holds its port group. -/
theorem steer_ingress {d : Dev} {p n : Nat} (frame : Bytes) (headOnly : Bool) (hcel : d.spr.cellar = false)
    (hh : d.holder (p / 16) = some n) :
    ∃ k : Pkt, ((d.steer p frame headOnly).slice n).ingress = (d.slice n).ingress ++ [k] ∧
      k.frame = frame ∧ k.port = p ∧ k.slice = n := by
  unfold Dev.steer
  dsimp only
  rw [if_neg (by simp [hcel]), hh]
  dsimp only
  rw [Dev.slice_modSlice_same, charge_slice]
  exact ⟨_, rfl, rfl, rfl, rfl⟩

/-- So is a good frame that the MAC counts and steers. -/
theorem countRx_steer_ingress {d : Dev} {p n : Nat} (frame : Bytes) (hcel : d.spr.cellar = false)
    (hh : d.holder (p / 16) = some n) :
    ∃ k : Pkt, (((d.countRx p frame).steer p frame false).slice n).ingress = (d.slice n).ingress ++ [k] ∧
      k.frame = frame ∧ k.port = p ∧ k.slice = n := by
  rw [countRx_frame]
  exact steer_ingress (d := { d with cnt := (d.countRx p frame).cnt }) frame false hcel hh

/-! ## What leaves (R53, R94) -/

/-- A port that is UP sends the next frame of its MAC's FIFO. -/
theorem lineTransmit_next {d : Dev} {p : Nat} {k : Pkt} (hup : (d.port p).st = .up) (hk : (d.port p).nextTx = some k) :
    d.lineTransmit p =
      (d.setPort p { d.port p with txFifo := (d.port p).txFifo.filter fun j => j.seq ≠ k.seq }).sendLine p k := by
  unfold Dev.lineTransmit
  dsimp only
  rw [if_neg (by simp [hup]), hk]

/-- The counters of a frame that leaves: frames, octets, its kind of destination, a stomped one, and one of cellar mode (R94,
Table 3.9). -/
def Dev.countTx (d : Dev) (p : Nat) (frame : Bytes) (stomp : Bool) : Dev :=
  let sent := (d.inc (bankPort p) 16).bump (bankPort p) 18 (frame.length + 4)
  let kind :=
    if frame.take 6 = List.replicate 6 0xFF#8 then sent.inc (bankPort p) 21
    else if (frame.getD 0 0).getLsbD 0 then sent.inc (bankPort p) 20
    else sent
  let stomped := if stomp then (kind.inc (bankPort p) 24).inc bankTmq 12 else kind
  if d.spr.cellar then stomped.inc bankSpr 11 else stomped

/-- A choice between two ways of counting is counting. -/
theorem onlyCounted_ite {d e f : Dev} (c : Prop) [Decidable c] (he : e = { d with cnt := e.cnt })
    (hf : f = { d with cnt := f.cnt }) : (if c then e else f) = { d with cnt := (if c then e else f).cnt } := by
  split
  · exact he
  · exact hf

theorem countTx_frame (d : Dev) (p : Nat) (frame : Bytes) (stomp : Bool) :
    d.countTx p frame stomp = { d with cnt := (d.countTx p frame stomp).cnt } := by
  unfold Dev.countTx
  have hsent := onlyCounted_bump (bankPort p) 18 (frame.length + 4) (onlyCounted_inc (d := d) (e := d) (bankPort p) 16 rfl)
  have hkind := onlyCounted_ite (frame.take 6 = List.replicate 6 0xFF#8) (onlyCounted_inc (bankPort p) 21 hsent)
    (onlyCounted_ite ((frame.getD 0 0).getLsbD 0 = true) (onlyCounted_inc (bankPort p) 20 hsent) hsent)
  have hstomp := onlyCounted_ite (stomp = true) (onlyCounted_inc bankTmq 12 (onlyCounted_inc (bankPort p) 24 hkind)) hkind
  exact onlyCounted_ite (d.spr.cellar = true) (onlyCounted_inc bankSpr 11 hstomp) hstomp

/-- A frame without a PTP mark leaves as it is, counted, on the lanes of its port. -/
theorem sendLine_unmarked {d : Dev} {p : Nat} {k : Pkt} (hptp : k.ptp = 0) :
    d.sendLine p k = (d.countTx p k.frame k.stomp).emit
      (.frame p k.frame k.stomp ((d.portLanes p).map fun l => (l, d.txInvert l))) := by
  have hstep : ptpStep k = 0 := by simp [ptpStep, hptp]
  unfold Dev.sendLine
  simp only [hstep, Nat.zero_ne_one, OfNat.zero_ne_ofNat, if_false]
  rfl

/-- So the sending of the next frame changes the FIFO of the port's MAC, counts, and brings out the frame. -/
theorem sendLine_setPort {d : Dev} {p : Nat} {k : Pkt} {x : Port} (hx : x.mode = (d.port p).mode) (hptp : k.ptp = 0)
    (hstomp : k.stomp = false) :
    (d.setPort p x).sendLine p k = { d with
      ports := (d.setPort p x).ports
      cnt := ((d.setPort p x).countTx p k.frame k.stomp).cnt
      out := .frame p k.frame false ((d.portLanes p).map fun l => (l, d.txInvert l)) :: d.out } := by
  have hlanes : (d.setPort p x).portLanes p = d.portLanes p := by
    unfold Dev.portLanes
    rw [Dev.port_setPort_same, hx]
  rw [sendLine_unmarked hptp, countTx_frame, hlanes, hstomp]
  rfl

/-- Settles O29, by the lemma of `lineReceive` for each kind of frame: counting leaves what the MAC looks at as it is, a frame that is
steered is the last of its slice's ingress port, and a frame without a PTP mark leaves as it came. -/
theorem lineFrames : Obligations.LineFrames := by
  unfold Obligations.LineFrames
  refine ⟨?_, ?_, ?_, ?_, ?_, ?_, ?_, ?_⟩
  case refine_1 =>
    intro s p frame a b c hl hup hpol hn
    refine yields_of_actLive (fun d => (d.pcsCount p a b c).lineReceive p frame true false) rfl hl ?_
    rw [lineReceive_short ((receives_pcsCount ..).mpr ⟨hup, hpol⟩) hn]
    exact keep_inc _ _ (keep_pcsCount ..)
  case refine_2 =>
    intro s p frame a b c hl hup hpol hn hm
    refine yields_of_actLive (fun d => (d.pcsCount p a b c).lineReceive p frame true false) rfl hl ?_
    rw [lineReceive_long ((receives_pcsCount ..).mpr ⟨hup, hpol⟩) hn (by simpa using hm)]
    exact keep_inc _ _ (keep_pcsCount ..)
  case refine_3 =>
    intro s p frame a b c hl hup hpol hn hm
    refine yields_of_actLive (fun d => (d.pcsCount p a b c).lineReceive p frame false false) rfl hl ?_
    rw [lineReceive_badFcs ((receives_pcsCount ..).mpr ⟨hup, hpol⟩) hn (by simpa using hm)]
    exact keep_inc _ _ (keep_pcsCount ..)
  case refine_4 =>
    intro s p frame n a b c hl hup hpol hn hm hpause hpfc hcel hh
    have hrow : Yields (.lineFrameReceive p frame true false a b c) s
        (s.dev.keep (((s.dev.pcsCount p a b c).countRx p frame).steer p frame false)) := by
      refine yields_of_actLive (fun d => (d.pcsCount p a b c).lineReceive p frame true false) rfl hl ?_
      rw [lineReceive_good ((receives_pcsCount ..).mpr ⟨hup, hpol⟩) hn (by simpa using hm) hpause hpfc (.inl (by simp [hh]))]
    obtain ⟨k, hk, hkept⟩ := countRx_steer_ingress (d := s.dev.pcsCount p a b c) frame (by simpa using hcel) (by simpa using hh)
    rw [slice_pcsCount] at hk
    exact ⟨hrow, _, hrow, k, hk, hkept⟩
  case refine_5 =>
    intro s p frame n a b c hl hup hpol ho hcel hpause hpfc hh
    refine yields_of_actLive (fun d => (d.pcsCount p a b c).lineReceive p frame true true) rfl hl ?_
    rw [lineReceive_head true ((receives_pcsCount ..).mpr ⟨hup, hpol⟩) (by simpa using ho) (by simpa using hcel) hpause hpfc
      (by simpa using hh)]
  case refine_6 =>
    intro s p frame hl hup hpol hcel hn hm hpause hpfc
    refine yields_of_actLive (fun d => if d.spr.cellar then d.lineReceive p frame true false else d) rfl hl ?_
    rw [if_pos hcel, lineReceive_good ⟨hup, hpol⟩ hn hm hpause hpfc (.inr hcel)]
  case refine_7 =>
    intro s p k hc hup hk
    exact yields_of_actIn (fun d => d.lineTransmit p) rfl hc (by rw [lineTransmit_next hup hk])
  case refine_8 =>
    intro s p k hc hup hk hptp _ hstomp _
    have hsend := sendLine_setPort (d := s.dev) (p := p) (k := k)
      (x := { s.dev.port p with txFifo := (s.dev.port p).txFifo.filter fun j => j.seq ≠ k.seq }) rfl hptp hstomp
    refine ⟨_, yields_of_actIn (fun d => d.lineTransmit p) rfl hc (by rw [lineTransmit_next hup hk, hsend]), rfl, ?_, rfl⟩
    exact congrArg Port.txFifo (s.dev.port_setPort_same p _)

end Sys2Proof.Machine
end

section
/-! The link state of a line port: the transmitter that follows the state, an enable allowed and refused, the way from signal to UP, and
what a port loses as it leaves UP. -/
namespace Sys2Proof.Machine

/-! ## What the plain form passes on (R34) -/

theorem keep_latchBit {d e : Dev} (k b : Nat) (h : d.keep e = e) : d.keep (e.latchBit k b) = e.latchBit k b :=
  congrArg (fun x : Dev => { x with regs := (e.latchBit k b).regs }) h

theorem keep_emit {d e : Dev} (o : Output) (h : d.keep e = e) : d.keep (e.emit o) = e.emit o :=
  congrArg (fun x : Dev => { x with out := o :: e.out }) h

theorem port_latchBit (d : Dev) (k b p : Nat) : (d.latchBit k b).port p = d.port p := rfl

/-- The plain form passes on a change of the ports, shown outside. -/
theorem keep_port {d e : Dev} (h : e = { d with ports := e.ports, out := e.out }) : d.keep e = e := by
  rw [h]
  rfl

/-! ## The transmitter follows the state (R90 to R92) -/

/-- The transmitter that follows is a change of the port, shown outside. -/
theorem lineFollow_frame (d : Dev) (p : Nat) :
    d.lineFollow p = { d with ports := (d.lineFollow p).ports, out := (d.lineFollow p).out } := by
  unfold Dev.lineFollow
  dsimp only
  split <;> rfl

/-- So it is where no more than the port had changed before. -/
theorem lineFollow_after {d d1 : Dev} {p : Nat} (h : d1 = { d with ports := d1.ports }) :
    d1.lineFollow p = { d with ports := (d1.lineFollow p).ports, out := (d1.lineFollow p).out } := by
  have hx := lineFollow_frame d1 p
  rw [hx, h]

theorem keep_lineFollow {d e : Dev} (p : Nat) (h : d.keep e = e) : d.keep (e.lineFollow p) = e.lineFollow p := by
  have hx := congrArg (fun x : Dev => { x with ports := (e.lineFollow p).ports, out := (e.lineFollow p).out }) h
  rw [lineFollow_frame]
  exact hx

/-- The transmitter sends what the state of its port asks for. -/
theorem port_lineFollow_same (d : Dev) (p : Nat) : (d.lineFollow p).port p = { d.port p with tx := (d.port p).st.tx } := by
  unfold Dev.lineFollow
  dsimp only
  split
  next h => rw [← h]
  next h => exact d.port_setPort_same p _

theorem port_lineFollow_ne (d : Dev) {p q : Nat} (h : q ≠ p) : (d.lineFollow p).port q = d.port q := by
  unfold Dev.lineFollow
  dsimp only
  split
  · rfl
  · exact d.port_setPort_ne _ h

/-- A port that is in a state moves to the next, and its transmitter follows. -/
theorem portMove_from {d : Dev} {p : Nat} {a : PState} (b : PState) (h : (d.port p).st = a) :
    d.portMove p a b = (d.modPort p fun x => { x with st := b }).lineFollow p := if_pos h

/-! ## Enable and disable (R87, R88, R90) -/

/-- A write of PG_PORT_CTRL leaves the port's configuration, and what an enable is refused for. -/
theorem portCfg_writeCtrl (d : Dev) (p : Nat) (m v : Word) :
    (d.writeRw (Reg.PG_PORT_CTRL p) m v).reg (Reg.PG_PORT_CFG p) = d.reg (Reg.PG_PORT_CFG p) :=
  (writeRw_effect d _ m v).2 _ (by unfold Reg.PG_PORT_CFG Reg.PG_PORT_CTRL; omega)

theorem refuseReason_writeCtrl (d : Dev) (p : Nat) (m v : Word) :
    (d.writeRw (Reg.PG_PORT_CTRL p) m v).refuseReason p = d.refuseReason p := by
  unfold Dev.refuseReason
  rw [portCfg_writeCtrl]
  rfl

/-- The write that turns `enable` on enables the port, and its transmitter and the SyncE outputs follow. -/
theorem writePortCtrl_on {d : Dev} {p : Nat} {v : Word} (ho : bit (d.reg (Reg.PG_PORT_CTRL p)) 0 = false) (hv : bit v 0 = true) :
    d.writePortCtrl p v =
      (((d.writeRw (Reg.PG_PORT_CTRL p) 0xFFFFFF01#32 v).portEnable p).lineFollow p).syncEFollowAll := by
  simp [Dev.writePortCtrl, ho, hv]

/-- The write that turns it off disables the port, and its transmitter follows. -/
theorem writePortCtrl_off {d : Dev} {p : Nat} {v : Word} (ho : bit (d.reg (Reg.PG_PORT_CTRL p)) 0 = true) (hv : bit v 0 = false) :
    d.writePortCtrl p v = ((d.writeRw (Reg.PG_PORT_CTRL p) 0xFFFFFF01#32 v).portDisable p).lineFollow p := by
  simp [Dev.writePortCtrl, ho, hv]

/-- A port whose enable is allowed: it waits for signal, configured as PG_PORT_CFG and PG_FC_CFG say. -/
def Dev.enabledPort (d : Dev) (p : Nat) : Port :=
  let cfg := d.reg (Reg.PG_PORT_CFG p)
  let fc := fld (d.reg (Reg.PG_FC_CFG p)) 17 16
  { d.port p with st := .signalWait, cfg := cfg, mode := fld cfg 3 0, fec := fld cfg 11 10, anEn := bit cfg 9,
                  fcMode := if fc = 3 then 0 else fc }

theorem portEnable_allowed {d : Dev} {p : Nat} (h : d.refuseReason p = 0) : d.portEnable p = d.setPort p (d.enabledPort p) := by
  unfold Dev.portEnable
  rw [h]
  rfl

theorem portEnable_refused {d : Dev} {p : Nat} (h : d.refuseReason p ≠ 0) :
    d.portEnable p = (d.setPort p { d.port p with st := .refused, reason := d.refuseReason p }).latchBit (Reg.PG_PORT_STATE p) 8 := by
  unfold Dev.portEnable
  dsimp only
  split
  next h0 => exact absurd h0 h
  next => rfl

/-- A port without a link has nothing to flush: it is DISABLED. -/
theorem portDisable_linkless {d : Dev} {p : Nat} (hu : (d.port p).st ≠ .up) (hh : (d.port p).st ≠ .holdoff)
    (hd : (d.port p).st ≠ .down) : d.portDisable p = d.modPort p fun x => { x with st := .disabled } := by
  unfold Dev.portDisable
  split
  next h => exact absurd h hu
  next h => exact absurd h hh
  next h => exact absurd h hd
  next => rfl

/-- Both SyncE outputs that follow change what they give, and no more. -/
theorem syncEFollowAll_frame (d : Dev) : d.syncEFollowAll =
    { d with time := { d.time with syncE := d.syncEFollowAll.time.syncE }, out := d.syncEFollowAll.out } := by
  unfold Dev.syncEFollowAll
  rw [syncEFollow_frame (d.syncEFollow 0), syncEFollow_frame d]

/-- A write of PG_PORT_CTRL changes no other register. -/
theorem regsBut_writeCtrl {d e : Dev} {p : Nat} {m v : Word} (h : e.regs = (d.writeRw (Reg.PG_PORT_CTRL p) m v).regs) :
    RegsBut [Reg.PG_PORT_CTRL p] d e := by
  intro k hk
  rw [Dev.reg, h]
  exact (writeRw_effect d _ m v).2 k (by simpa using hk)

/-- What follows an enable, allowed or refused, changes no register and no port but for the transmitter, and all else that changes is
what the SyncE outputs give. -/
theorem enableFollows_frame {d d1 e : Dev} {p : Nat} (h : d1 = { d with regs := d1.regs, ports := d1.ports })
    (he : e = (d1.lineFollow p).syncEFollowAll) :
    e.regs = d1.regs ∧ e.port p = { d1.port p with tx := (d1.port p).st.tx } ∧ (∀ q, q ≠ p → e.port q = d1.port q) ∧
      e = { d with regs := e.regs, ports := e.ports, out := e.out, time := { d.time with syncE := e.time.syncE } } := by
  have hs := syncEFollowAll_frame (d1.lineFollow p)
  rw [← he] at hs
  have hports : e.ports = (d1.lineFollow p).ports := by rw [hs]
  refine ⟨?_, ?_, fun q hq => ?_, ?_⟩
  · rw [hs, lineFollow_frame]
  · rw [Dev.port, hports]
    exact port_lineFollow_same d1 p
  · rw [Dev.port, hports]
    exact port_lineFollow_ne d1 hq
  · rw [hs, lineFollow_frame, h]

/-- The device with `enable` of a port written to 1. -/
def Dev.enableWritten (d : Dev) (p : Nat) : Dev :=
  d.writeRw (Reg.PG_PORT_CTRL p) 0xFFFFFF01#32 (d.reg (Reg.PG_PORT_CTRL p) ||| 1#32)

/-- PORT_ENABLE makes of the device what the enable makes of it, and what follows that. -/
theorem portEnable_completes {s : State} {p : Fin 128} {d1 : Dev} (ha : Answers .bar0 (Reg.PG_PORT_CTRL p) s)
    (ho : bit (s.dev.reg (Reg.PG_PORT_CTRL p)) 0 = false) (hen : (s.dev.enableWritten p).portEnable p = d1)
    (h : d1 = { s.dev with regs := d1.regs, ports := d1.ports }) :
    Completes (.portEnable p) s fun d e => e.regs = d1.regs ∧ e.port p = { d1.port p with tx := (d1.port p).st.tx } ∧
      (∀ q, q ≠ p.val → e.port q = d1.port q) ∧
      e = { d with regs := e.regs, ports := e.ports, out := e.out, time := { d.time with syncE := e.time.syncE } } := by
  obtain ⟨hregs, hport, hother, hframe⟩ := enableFollows_frame h rfl
  refine ⟨_, yields_of_actReg (fun d => d.writePortCtrl p (d.reg (Reg.PG_PORT_CTRL p) ||| 1#32)) rfl ha ?_, hregs, hport, hother,
    hframe⟩
  rw [writePortCtrl_on ho (by simp [bit]), ← Dev.enableWritten, hen, hframe]
  rfl

/-- PORT_ENABLE of a port that R88 allows. -/
theorem portEnable_waits {s : State} {p : Fin 128} (ha : Answers .bar0 (Reg.PG_PORT_CTRL p) s)
    (ho : bit (s.dev.reg (Reg.PG_PORT_CTRL p)) 0 = false) (hr : s.dev.refuseReason p = 0) :
    Completes (.portEnable p) s fun d e => (e.port p).st = .signalWait ∧ (e.port p).tx = .remoteFault ∧
      (e.port p).cfg = d.reg (Reg.PG_PORT_CFG p) ∧
      (e.port p).mode = fld (d.reg (Reg.PG_PORT_CFG p)) 3 0 ∧ (∀ q, q ≠ p.val → e.port q = d.port q) ∧
      RegsBut [Reg.PG_PORT_CTRL p] d e ∧
      e = { d with regs := e.regs, ports := e.ports, out := e.out, time := { d.time with syncE := e.time.syncE } } := by
  have hen : (s.dev.enableWritten p).portEnable p = _ := portEnable_allowed ((refuseReason_writeCtrl ..).trans hr)
  obtain ⟨e, hrow, hregs, hport, hother, hframe⟩ := portEnable_completes ha ho hen rfl
  rw [Dev.port_setPort_same] at hport
  refine ⟨e, hrow, ?_, ?_, ?_, ?_, fun q hq => (hother q hq).trans (Dev.port_setPort_ne _ _ hq), regsBut_writeCtrl hregs, hframe⟩
  · rw [hport]; rfl
  · rw [hport]; rfl
  · rw [hport]; exact portCfg_writeCtrl ..
  · rw [hport]; exact congrArg (fld · 3 0) (portCfg_writeCtrl ..)

/-- PORT_ENABLE of a port that R88 refuses: the reason shows, and the refusal is latched. -/
theorem portEnable_refuses {s : State} {p : Fin 128} {r : Nat} (ha : Answers .bar0 (Reg.PG_PORT_CTRL p) s)
    (ho : bit (s.dev.reg (Reg.PG_PORT_CTRL p)) 0 = false) (hr : s.dev.refuseReason p = r) (hne : r ≠ 0) :
    Completes (.portEnable p) s fun d e => (e.port p).st = .refused ∧ (e.port p).tx = .electricalIdle ∧ (e.port p).reason = r ∧
      bit (e.reg (Reg.PG_PORT_STATE p)) 8 = true ∧ (∀ q, q ≠ p.val → e.port q = d.port q) ∧
      e = { d with regs := e.regs, ports := e.ports, out := e.out, time := { d.time with syncE := e.time.syncE } } := by
  have hr' : (s.dev.enableWritten p).refuseReason p = r := (refuseReason_writeCtrl ..).trans hr
  have hen := portEnable_refused (hr'.trans_ne hne)
  obtain ⟨e, hrow, hregs, hport, hother, hframe⟩ := portEnable_completes ha ho hen rfl
  rw [port_latchBit, Dev.port_setPort_same] at hport
  refine ⟨e, hrow, ?_, ?_, ?_, ?_, fun q hq => ?_, hframe⟩
  · rw [hport]
  · rw [hport]; rfl
  · rw [hport]; exact hr'
  · rw [Dev.reg, hregs]
    exact latchBit_sets _ _ 8 (by decide)
  · rw [hother q hq, port_latchBit]
    exact Dev.port_setPort_ne _ _ hq

/-- PORT_DISABLE of a port without a link (R90). -/
theorem portDisable_idles {s : State} {p : Fin 128} (ha : Answers .bar0 (Reg.PG_PORT_CTRL p) s)
    (ho : bit (s.dev.reg (Reg.PG_PORT_CTRL p)) 0 = true) (hu : (s.dev.port p).st ≠ .up) (hh : (s.dev.port p).st ≠ .holdoff)
    (hd : (s.dev.port p).st ≠ .down) :
    Completes (.portDisable p) s fun d e => e.port p = { d.port p with st := .disabled, tx := .electricalIdle } ∧
      (∀ q, q ≠ p.val → e.port q = d.port q) ∧ RegsBut [Reg.PG_PORT_CTRL p] d e ∧
      e = { d with regs := e.regs, ports := e.ports, out := e.out } := by
  refine ⟨_, yields_of_actReg (fun d => d.writePortCtrl p (d.reg (Reg.PG_PORT_CTRL p) &&& ~~~1#32)) rfl ha rfl, ?_⟩
  dsimp only
  rw [writePortCtrl_off ho (by simp [bit]), portDisable_linkless (by exact hu) (by exact hh) (by exact hd)]
  refine ⟨?_, fun q hq => ?_, regsBut_writeCtrl (m := 0xFFFFFF01#32) (v := s.dev.reg (Reg.PG_PORT_CTRL p) &&& ~~~1#32) ?_, ?_⟩
  · refine (port_lineFollow_same _ p.val).trans ?_
    rw [Dev.port_modPort_same]
    rfl
  · exact (port_lineFollow_ne _ hq).trans (Dev.port_modPort_ne _ _ hq)
  · rw [lineFollow_frame]
    rfl
  · rw [lineFollow_frame]
    rfl

/-! ## From signal to UP (R89 to R91, R100) -/

/-- Signal finds a port that waits for it, and may not go on: its flush runs, or forwarding has not started. -/
theorem portSignal_held {d : Dev} {p : Nat} (hs : (d.port p).st = .signalWait ∨ (d.port p).st = .down)
    (hf : ((d.port p).flushing || !d.vint.started) = true) : d.portSignal p = d.setPort p { d.port p with st := .signalWait } := by
  unfold Dev.portSignal
  dsimp only
  rw [if_neg (fun h => hs.elim h.1 h.2), if_pos hf]

/-- It finds one that may: auto-negotiation comes next, or lock. -/
theorem portSignal_goes {d : Dev} {p : Nat} (hs : (d.port p).st = .signalWait ∨ (d.port p).st = .down)
    (hf : ((d.port p).flushing || !d.vint.started) = false) :
    d.portSignal p = (d.setPort p { d.port p with st := if (d.port p).anEn then .an else .lockWait }).lineFollow p := by
  unfold Dev.portSignal
  dsimp only
  rw [if_neg (fun h => hs.elim h.1 h.2), if_neg (by simp [hf])]

/-- Auto-negotiation that fails is latched and counted, and the port waits for signal again. -/
theorem anFail_an {d : Dev} {p : Nat} (h : (d.port p).st = .an) :
    d.anFail p = (((d.modPort p fun x => { x with st := .signalWait }).lineFollow p).latchBit (Reg.PG_PORT_STATE p) 9).inc
      (bankPort p) 31 := by
  unfold Dev.anFail
  rw [if_pos h, portMove_from _ h]

/-- The plain form passes on what a failed auto-negotiation makes. -/
theorem keep_anFailed (d : Dev) (p : Nat) (f : Port → Port) :
    d.keep ((((d.modPort p f).lineFollow p).latchBit (Reg.PG_PORT_STATE p) 9).inc (bankPort p) 31) =
      (((d.modPort p f).lineFollow p).latchBit (Reg.PG_PORT_STATE p) 9).inc (bankPort p) 31 :=
  keep_inc _ _ (keep_latchBit _ _ (keep_lineFollow p rfl))

/-- Lock on lanes in their true polarity leads to DEBOUNCE. -/
theorem lockAcquired_waiting {d : Dev} {p : Nat} {sw : BitVec 4} (ho : d.portLaneOut p = false) (hp : d.polarityOk p sw = true)
    (hs : (d.port p).st = .lockWait) :
    d.lockAcquired p sw =
      ((d.modPort p fun x => { x with swapped := sw }).modPort p fun x => { x with st := .debounce }).lineFollow p := by
  unfold Dev.lockAcquired
  rw [if_neg (by simp [ho, hp]), if_pos hs, portMove_from _ (by rw [Dev.port_modPort_same]; exact hs)]

theorem debounced_up {d : Dev} {p : Nat} (hs : (d.port p).st = .debounce ∨ (d.port p).st = .holdoff) :
    d.debounced p = ((d.setPort p { d.port p with st := .up }).latchBit (Reg.PG_PORT_STATE p) 11).lineFollow p := if_pos hs

/-! ## Out of UP (R92, R94, R98 to R100) -/

/-- A port that leaves UP: no class is paused, the watchdog is idle, and the frame in serialisation is cut off. -/
def Port.leftUp (x : Port) : Port :=
  { x with paused := List.replicate 8 false, wdog := List.replicate 8 false, txFifo := x.txFifo.drop 1 }

/-- A port with nothing in its MAC loses no frame. -/
theorem leftUp_idle {x : Port} (h : x.txFifo = []) :
    x.leftUp = { x with paused := List.replicate 8 false, wdog := List.replicate 8 false } := by simp [Port.leftUp, h]

theorem leaveUp_idle {d : Dev} {p : Nat} (h : (d.port p).txFifo = []) : d.leaveUp p = d.setPort p (d.port p).leftUp := if_pos h

/-- What leaving UP makes of the ports. -/
theorem port_leaveUp_same (d : Dev) (p : Nat) : (d.leaveUp p).port p = (d.port p).leftUp := by
  unfold Dev.leaveUp
  dsimp only
  split
  · exact d.port_setPort_same p _
  · rw [Dev.port, Dev.emit_ports, Dev.inc_ports]
    exact d.port_setPort_same p _

theorem port_leaveUp_ne (d : Dev) {p q : Nat} (h : q ≠ p) : (d.leaveUp p).port q = d.port q := by
  unfold Dev.leaveUp
  dsimp only
  split
  · exact d.port_setPort_ne _ h
  · rw [Dev.port, Dev.emit_ports, Dev.inc_ports]
    exact d.port_setPort_ne _ h

/-- The faults that came with the loss of lock are latched. -/
def Dev.seesFault (d : Dev) (p : Nat) (fault : Bool) : Dev := if fault then d.latchBit (Reg.PG_PORT_STATE p) 13 else d

theorem port_seesFault (d : Dev) (p : Nat) (fault : Bool) (q : Nat) : (d.seesFault p fault).port q = d.port q := by
  unfold Dev.seesFault
  split <;> rfl

/-- Lock lost in UP is held off. -/
theorem lockLoss_up {d : Dev} {p : Nat} (fault : Bool) (h : (d.port p).st = .up) :
    d.lockLoss p fault = (((d.leaveUp p).seesFault p fault).modPort p fun x => { x with st := .holdoff }).lineFollow p := by
  unfold Dev.lockLoss
  rw [h]
  rfl

theorem lockLoss_up_ports {d : Dev} {p : Nat} (fault : Bool) (h : (d.port p).st = .up) :
    (d.lockLoss p fault).port p = { (d.port p).leftUp with st := .holdoff, tx := .idles } ∧
      ∀ q, q ≠ p → (d.lockLoss p fault).port q = d.port q := by
  rw [lockLoss_up fault h]
  refine ⟨?_, fun q hq => ?_⟩
  · rw [port_lineFollow_same, Dev.port_modPort_same, port_seesFault, port_leaveUp_same]
    rfl
  · rw [port_lineFollow_ne _ hq, Dev.port_modPort_ne _ _ hq, port_seesFault, port_leaveUp_ne _ hq]

/-- Without a frame to cut off, the loss of lock is a change of the port, shown outside. -/
theorem lockLoss_idle_frame {d : Dev} {p : Nat} (h : (d.port p).st = .up) (hidle : (d.port p).txFifo = []) :
    d.lockLoss p false = { d with ports := (d.lockLoss p false).ports, out := (d.lockLoss p false).out } := by
  rw [lockLoss_up false h, leaveUp_idle hidle]
  exact lineFollow_after rfl

/-- The faults show in PG_PORT_STATE. -/
theorem lockLoss_up_fault {d : Dev} {p : Nat} (h : (d.port p).st = .up) :
    bit ((d.lockLoss p true).reg (Reg.PG_PORT_STATE p)) 13 = true := by
  have hregs : (d.lockLoss p true).regs = ((d.leaveUp p).latchBit (Reg.PG_PORT_STATE p) 13).regs := by
    rw [lockLoss_up true h, lineFollow_frame]
    rfl
  rw [Dev.reg, hregs]
  exact latchBit_sets (d.leaveUp p) _ 13 (by decide)

/-- A port declared down has its state, its flush runs, and its MAC holds nothing. -/
theorem port_declareDown (d : Dev) (p : Nat) (st : PState) : ∃ x : Port,
    (d.declareDown p st).port p = { x with st := st, flushing := true, txFifo := [], fcOwed := [] } :=
  ⟨_, Dev.port_modPort_same _ p _⟩

/-- The end of holdoff declares the port down, and with its flush it waits for signal again. -/
theorem holdoffEnds_port {d : Dev} {p : Nat} (h : (d.port p).st = .holdoff) : ∃ x : Port,
    (d.holdoffEnds p).port p =
      { x with st := .signalWait, flushing := true, txFifo := [], fcOwed := [], tx := .remoteFault } := by
  obtain ⟨x, hx⟩ := port_declareDown d p .down
  have hdown : ((d.declareDown p .down).port p).st = .down := by rw [hx]
  refine ⟨x, ?_⟩
  unfold Dev.holdoffEnds
  rw [if_pos h, portMove_from _ hdown, port_lineFollow_same, port_lineFollow_same, Dev.port_modPort_same, hx]
  rfl

/-- Settles O27: the states one by one, each by the lemma on what the event makes of the port in that state. -/
theorem portLink : Obligations.PortLink := by
  unfold Obligations.PortLink
  refine ⟨fun s p ha ho hr => portEnable_waits ha ho hr, fun s p r ha ho hr hne => portEnable_refuses ha ho hr hne,
    fun s p ha ho hu hh hd => portDisable_idles ha ho hu hh hd, ?_, ?_, ?_, ?_, ?_, ?_, ?_, ?_, ?_, ?_, ?_, ?_, ?_⟩
  case refine_1 =>
    intro s p hc hs hf
    exact yields_of_actIn (fun d => d.portSignal p) rfl hc (by rw [portSignal_held hs hf]; rfl)
  case refine_2 =>
    intro s p hc hs hf
    refine yields_of_actIn (fun d => d.portSignal p) rfl hc ?_
    rw [portSignal_goes hs hf]
    exact keep_lineFollow p rfl
  case refine_3 =>
    intro s p pg ack hc hs hfit
    refine yields_of_actIn (fun d => d.anResolve p pg ack) rfl hc ?_
    rw [Dev.anResolve, if_pos hfit, portMove_from _ hs]
    exact keep_lineFollow p rfl
  case refine_4 =>
    intro s p hc hs
    exact yields_of_actIn (fun d => d.anFail p) rfl hc (by rw [anFail_an hs, keep_anFailed])
  case refine_5 =>
    intro s p pg ack hc hs hfit
    refine yields_of_actIn (fun d => d.anResolve p pg ack) rfl hc ?_
    rw [Dev.anResolve, if_neg (by simp [hfit]), anFail_an hs, keep_anFailed]
  case refine_6 =>
    intro s p sw hc ho hp hs
    refine yields_of_actIn (fun d => d.lockAcquired p sw) rfl hc ?_
    rw [lockAcquired_waiting ho hp hs]
    exact keep_lineFollow p rfl
  case refine_7 =>
    intro s p hc hs
    refine yields_of_actIn (fun d => d.portMove p .lockWait .signalWait) rfl hc ?_
    rw [portMove_from _ hs]
    exact keep_lineFollow p rfl
  case refine_8 =>
    intro s p hc hs
    refine yields_of_actIn (fun d => d.debounced p) rfl hc ?_
    rw [debounced_up hs]
    exact keep_lineFollow p rfl
  case refine_9 =>
    intro s p hc hup hidle
    obtain ⟨hport, hother⟩ := lockLoss_up_ports false hup
    rw [leftUp_idle hidle] at hport
    have hframe := lockLoss_idle_frame hup hidle
    exact ⟨_, yields_of_actIn (fun d => d.lockLoss p false) rfl hc (keep_port hframe), hport, hother, hframe⟩
  case refine_10 =>
    intro s p hc hup _
    obtain ⟨hport, hother⟩ := lockLoss_up_ports true hup
    refine ⟨_, yields_of_actIn (fun d => d.lockLoss p true) rfl hc rfl, congrArg Port.st hport, congrArg Port.tx hport,
      congrArg Port.paused hport, congrArg Port.txFifo hport, lockLoss_up_fault hup, hother⟩
  case refine_11 =>
    intro s p hc hs
    obtain ⟨x, hx⟩ := holdoffEnds_port hs
    exact ⟨_, yields_of_actIn (fun d => d.holdoffEnds p) rfl hc rfl, congrArg Port.st hx, congrArg Port.flushing hx,
      congrArg Port.txFifo hx, congrArg Port.tx hx⟩
  case refine_12 =>
    intro s p hc hnone
    refine yields_of_actIn (fun d => d.flushDone p) rfl hc ?_
    rw [Dev.flushDone, if_neg (by simp [hnone])]
    rfl
  case refine_13 =>
    intro s p hc hhas
    refine yields_of_actIn (fun d => d.flushDone p) rfl hc ?_
    rw [Dev.flushDone, if_pos hhas]
    rfl

end Sys2Proof.Machine
end

section
/-! Flow control of a line port: the PAUSE frames it honours, the watchdog that ends a pause, and the frames that it owes. -/
namespace Sys2Proof.Machine

/-! ## Received PAUSE (R95, R96) -/

/-- A port in PAUSE mode honours a PAUSE frame for every class whose watchdog is not active. -/
theorem honours_pause {d : Dev} {p n : Nat} {frame : Bytes} (hp : isPause frame = true) (hm : (d.port p).fcMode = 1)
    (hw : (d.port p).wdog.getD n false = false) : d.honours p frame n = true := by
  unfold Dev.honours
  simp only [hp, hm, hw, if_true, decide_true, Bool.not_false, Bool.and_self]

/-- Honoured for all, the frame sets or ends the pause of all eight, and is counted. -/
theorem pauseFrame_pause {d : Dev} {p : Nat} {frame : Bytes} (hp : isPause frame = true) (hm : (d.port p).fcMode = 1)
    (hw : ∀ n < 8, (d.port p).wdog.getD n false = false) :
    d.pauseFrame p frame = (d.setPort p { d.port p with
      paused := List.replicate 8 (decide (winWord frame 16 ≠ 0)) }).inc (bankPort p) 10 := by
  have hon : ((List.range 8).map fun n => d.honours p frame n) = List.replicate 8 true :=
    List.eq_replicate_iff.mpr ⟨by simp, by simpa using fun n hn => honours_pause hp hm (hw n hn)⟩
  unfold Dev.pauseFrame quantaFor
  simp only [hon, hp, if_true]
  rfl

/-! ## The watchdog (R98) -/

theorem wdogTrip_paused {d : Dev} {p n : Nat} (hp : (d.port p).paused.getD n false = true)
    (hw : (d.port p).wdog.getD n false = false) (he : fld (d.reg (Reg.PG_FC_WDOG p)) 15 0 ≠ 0) :
    d.wdogTrip p n = ((((d.setPort p { d.port p with
        paused := setPrio (d.port p).fcMode (d.port p).paused n false,
        wdog := setPrio (d.port p).fcMode (d.port p).wdog n true }).latchBit (Reg.PG_PORT_STATE p) 10).inc
      (bankPort p) 29).logPort p 10) := if_pos ⟨hp, by rw [hw]; rfl, he⟩

/-! ## Frames owed (R97) -/

/-- Of a port that is UP the first frame owed leaves, counted, unless an xoff of 0 disables sending. -/
theorem fcSend_owed {d : Dev} {p n : Nat} {xo : Bool} {rest : List (Nat × Bool)} (hup : (d.port p).st = .up)
    (ho : (d.port p).fcOwed = (n, xo) :: rest) :
    d.fcSend p = if fld (d.reg (Reg.PG_FC_THR p n)) 31 16 = 0 then d.setPort p { d.port p with fcOwed := rest } else
      (((((d.setPort p { d.port p with fcOwed := rest }).inc (bankPort p) 16).bump (bankPort p) 18 64).inc (bankPort p) 20).inc
        (bankPort p) (if (d.port p).fcMode = 1 then 22 else 23)).emit
          (.fcFrame p (if (d.port p).fcMode = 1 then 0 else 2 ^ n) (if xo then fld (d.reg (Reg.PG_FC_CFG p)) 15 0 else 0)) := by
  unfold Dev.fcSend
  simp only [hup, ho]

/-- XOFF is owed again while what it was sent for lasts. -/
theorem xoffRepeat_above {d : Dev} {p n : Nat} (hx : (d.port p).xoff.getD n false = true)
    (ht : fld (d.reg (Reg.PG_FC_THR p n)) 31 16 ≠ 0)
    (hc : (fcClass (d.port p).fcMode (d.reg (Reg.PG_FC_CFG p)) n).isSome = true) (hq : fld (d.reg (Reg.PG_FC_CFG p)) 15 0 ≠ 0)
    (ho : 256 * fld (d.reg (Reg.PG_FC_THR p n)) 15 0 < fcOcc (d.port p).fcMode (d.port p).occ n) :
    d.xoffRepeat p n = d.setPort p { d.port p with fcOwed := (d.port p).fcOwed ++ [(n, true)] } := if_pos ⟨hx, ht, hc, hq, ho⟩

/-- Settles O28: each row by the lemma on what it does in the state named. -/
theorem flowControl : Obligations.FlowControl := by
  unfold Obligations.FlowControl
  refine ⟨?_, fun s p n hc => ?_, ?_, fun s p n hc => ?_, ?_, ?_, ?_⟩
  case refine_1 =>
    intro s p frame hl hup hp hm hw
    refine yields_of_actLive (fun d => if (d.port p).st = .up ∧ (isPause frame ∨ isPfc frame) then d.pauseFrame p frame else d)
      rfl hl ?_
    rw [if_pos ⟨hup, .inl hp⟩, pauseFrame_pause hp hm hw]
    exact keep_inc _ _ rfl
  case refine_2 => exact yields_of_actIn (fun d => d.modPort p _) rfl hc rfl
  case refine_3 =>
    intro s p n hc hp hw he
    refine yields_of_actIn (fun d => d.wdogTrip p n) rfl hc ?_
    rw [wdogTrip_paused hp hw he]
    exact keep_log _ _ _ (keep_inc _ _ rfl)
  case refine_4 => exact yields_of_actIn (fun d => d.modPort p _) rfl hc rfl
  case refine_5 =>
    intro s p n xo rest hc hup ho ht
    refine yields_of_actIn (fun d => d.fcSend p) rfl hc ?_
    rw [fcSend_owed hup ho, if_neg ht]
    exact keep_emit _ (keep_inc _ _ (keep_inc _ _ (keep_bump _ _ _ (keep_inc _ _ rfl))))
  case refine_6 =>
    intro s p n xo rest hc hup ho ht
    refine yields_of_actIn (fun d => d.fcSend p) rfl hc ?_
    rw [fcSend_owed hup ho, if_pos ht]
    rfl
  case refine_7 =>
    intro s p n hc hx ht hcl hq ho
    refine yields_of_actIn (fun d => d.xoffRepeat p n) rfl hc ?_
    rw [xoffRepeat_above hx ht hcl hq ho]
    rfl

end Sys2Proof.Machine
end

section
/-! Tails of open frames, the copies that replication makes, and the VOQs of a device that stays unreachable. -/
namespace Sys2Proof.Machine

/-! ## Tails (R93, R231, R232) -/

/-- A tail that fits: it is good, and its frame not too long for the port, which is UP. -/
theorem tailFits_iff (d : Dev) (p : Nat) (frame : Bytes) (good : Bool) :
    d.tailFits p frame good = true ↔ good = true ∧ (d.port p).st = .up ∧ frame.length + 4 ≤ d.maxFrame p := by
  simp [Dev.tailFits, and_assoc]

/-- The end of an open frame leaves the port in its state and configured as it was. -/
theorem port_openFrame (d : Dev) (p : Nat) (h : Option (Option Nat)) : (d.openFrame p h).port p = { d.port p with rxOpen := h } :=
  d.port_modPort_same p _

theorem maxFrame_openFrame (d : Dev) (p : Nat) (h : Option (Option Nat)) : (d.openFrame p h).maxFrame p = d.maxFrame p := by
  unfold Dev.maxFrame
  rw [port_openFrame]

/-- A tail with a bad FCS that is not too long is counted once, as such. -/
theorem countBadTail_fcs {d : Dev} {p : Nat} {frame : Bytes} (hup : (d.port p).st = .up) (hm : frame.length + 4 ≤ d.maxFrame p) :
    (d.openFrame p none).countBadTail p frame false = (d.openFrame p none).inc (bankPort p) 6 := by
  unfold Dev.countBadTail
  rw [port_openFrame, maxFrame_openFrame, if_neg (by simp [hup]), if_neg (show ¬d.maxFrame p < frame.length + 4 by omega)]
  rfl

/-- A tail of which no frame is open changes nothing. -/
theorem tailArrives_unopened {d : Dev} {p : Nat} (frame : Bytes) (good : Bool) (ho : (d.port p).rxOpen = none) :
    d.tailArrives p frame good = d := by
  unfold Dev.tailArrives
  dsimp only
  rw [ho]

/-- The tail of a frame whose head was passed on. -/
theorem tailArrives_passed {d : Dev} {p uid : Nat} (frame : Bytes) (good : Bool) (ho : (d.port p).rxOpen = some (some uid)) :
    d.tailArrives p frame good =
      if d.tailFits p frame good then
        (((d.openFrame p none).countRx p frame).goodTail uid frame).correctCharge uid frame.length
      else (((d.openFrame p none).countBadTail p frame good).badTail uid frame).correctCharge uid frame.length := by
  unfold Dev.tailArrives
  dsimp only
  rw [ho]

/-- The tail of a frame whose head was not: a flow-control frame, or one that found no slice. -/
theorem tailArrives_kept {d : Dev} {p : Nat} (frame : Bytes) (good : Bool) (ho : (d.port p).rxOpen = some none) :
    d.tailArrives p frame good =
      if !d.tailFits p frame good then (d.openFrame p none).countBadTail p frame good
      else if isPause frame ∨ isPfc frame then (d.openFrame p none).pauseFrame p frame
      else d.openFrame p none := by
  unfold Dev.tailArrives
  dsimp only
  rw [ho]

/-! ## What the end of a packet leaves of the queue manager (R97, R197, Table 7.3) -/

theorem qm_bpmFault (d : Dev) (kind party found h : Nat) : (d.bpmFault kind party found h).qm = d.qm := by
  unfold Dev.bpmFault
  rw [Dev.setReg_qm, Dev.setReg_qm]

theorem qm_countRetired (d : Dev) (h : Nat) : (d.countRetired h).qm = d.qm := by
  unfold Dev.countRetired
  rw [Dev.inc_qm]

/-- A refusal, logged or left out (R204), leaves the queue manager. -/
theorem qm_logRefusal (d : Dev) (kind party : Nat) {mk : Dev → Bytes → Dev} (h : ∀ e n, (mk e n).qm = e.qm) :
    (d.logRefusal kind party mk).qm = d.qm := by
  unfold Dev.logRefusal
  dsimp only
  split
  · split
    · rfl
    · exact h _ _
  · exact h _ _

theorem qm_revokedOp (d : Dev) (op party h : Nat) : (d.revokedOp op party h).qm = d.qm := by
  unfold Dev.revokedOp
  rw [qm_logRefusal _ _ _ fun e n => e.logNum_qm _ _ _ _, qm_bpmFault, Dev.inc_qm]
theorem qm_retiredOp (d : Dev) (op party h : Nat) : (d.retiredOp op party h).qm = d.qm := by
  unfold Dev.retiredOp
  rw [qm_logRefusal _ _ _ fun e n => e.logNum_qm _ _ _ _, qm_bpmFault, Dev.inc_qm]
theorem qm_doubleFree (d : Dev) (party h : Nat) : (d.doubleFree party h).qm = d.qm := by
  unfold Dev.doubleFree
  rw [qm_logRefusal _ _ _ fun e n => e.logBit_qm _ _ _ _ _, qm_bpmFault, Dev.latchBit_qm, Dev.inc_qm]
theorem qm_foreignOp (d : Dev) (kind party h : Nat) : (d.foreignOp kind party h).qm = d.qm := by
  unfold Dev.foreignOp
  rw [qm_logRefusal _ _ _ fun e n => e.logBit_qm _ _ _ _ _, qm_bpmFault, Dev.latchBit_qm, Dev.inc_qm]
theorem qm_returnBuf (d : Dev) (h : Nat) : (d.returnBuf h).qm = d.qm := by
  unfold Dev.returnBuf
  dsimp only
  split
  · rw [Dev.latchBit_qm, qm_countRetired]
    rfl
  · rfl

/-- FREE and SET_REFS, refused or not, leave the queue manager (R197). -/
theorem qm_bufFree (d : Dev) (party h : Nat) : (d.bufFree party h).qm = d.qm := by
  have hset (x : BufEntry) : (d.setBuf h x).qm = d.qm := rfl
  simp only [Dev.bufFree, apply_ite Dev.qm, qm_revokedOp, qm_retiredOp, qm_doubleFree, qm_foreignOp, hset, qm_returnBuf, ite_self]

theorem qm_bufSetRefs (d : Dev) (party h n : Nat) : (d.bufSetRefs party h n).qm = d.qm := by
  have hset (x : BufEntry) : (d.setBuf h x).qm = d.qm := rfl
  simp only [Dev.bufSetRefs, apply_ite Dev.qm, qm_revokedOp, qm_retiredOp, qm_foreignOp, hset, ite_self]

theorem qm_freeOpt (d : Dev) (party : Nat) (h : Option Nat) : (d.freeOpt party h).qm = d.qm := by
  cases h with
  | none => rfl
  | some h => exact qm_bufFree d party h

theorem qm_copyFail (d : Dev) (k : Pkt) : (d.copyFail k).qm = d.qm := by
  unfold Dev.copyFail
  split
  · exact Dev.inc_qm ..
  · split
    · split
      · exact Dev.inc_qm ..
      · rfl
    · rfl

theorem queues_endShare (d : Dev) (k : Pkt) : (d.endShare k).qm.queues = d.qm.queues := by
  unfold Dev.endShare
  split <;> rfl

theorem queues_endHold (d : Dev) (uid : Nat) : (d.endHold uid).qm.queues = d.qm.queues := by
  unfold Dev.endHold
  dsimp only
  split
  · rfl
  · rw [changeOcc_frame]
    split <;> split <;> rfl

/-- A packet that is dropped stays on the queues that list it, until they are written. -/
theorem queues_dropPkt (d : Dev) (k : Pkt) : (d.dropPkt k).qm.queues = d.qm.queues := by
  rw [Dev.dropPkt, qm_copyFail, Dev.release, queues_endHold, queues_endShare, qm_freeOpt, qm_freeOpt, qm_freeOpt]

/-- A packet that is no copy and holds no buffer and no ingress share. -/
def Pkt.HoldsNothing (k : Pkt) : Prop :=
  k.handle = none ∧ k.dram = none ∧ k.evacTo = none ∧ k.copy = false ∧ k.remoteCopy = false ∧ k.shareKey = none

/-- The drop of such a packet, uncharged too, does no more than clear its hold. -/
theorem dropPkt_unheld {d : Dev} {k : Pkt} (hk : k.HoldsNothing) (hu : d.hold k.uid = {}) : d.dropPkt k = d.setHold k.uid {} := by
  obtain ⟨hh, hd, he, hc, hr, hs⟩ := hk
  have hend : d.endHold k.uid = d.setHold k.uid {} := by
    unfold Dev.endHold
    rw [hu]
    rfl
  simp [Dev.dropPkt, Dev.release, Dev.copyFail, Dev.freeOpt, Dev.endShare, hh, hd, he, hc, hr, hs, hend]

/-! ## Replication (R233) -/

/-- The engine drops the packet at the front whose group is invalid. -/
theorem replicate_badGroup {d : Dev} {k : Pkt} {rest : List Pkt} (hq : d.qm.repl = k :: rest) (hh : k.headOnly = false)
    (hg : 65536 ≤ k.dest % 2 ^ 18 ∨ bit (Tbl.get 0#64 d.qm.groups (k.dest % 2 ^ 18)) 31 = false) :
    d.replicate = Dev.badGroup { d with qm := { d.qm with repl := rest } } k := by
  unfold Dev.replicate
  rw [hq]
  dsimp only
  rw [if_neg (by simp [hh]), if_pos (by simpa using hg)]

/-- Of a valid group it makes the copies of the walk. -/
theorem replicate_copies {d : Dev} {k : Pkt} {rest : List Pkt} {w : List (BitVec 64) × Bool} (hq : d.qm.repl = k :: rest)
    (hh : k.headOnly = false) (hg : k.dest % 2 ^ 18 < 65536)
    (hv : bit (Tbl.get 0#64 d.qm.groups (k.dest % 2 ^ 18)) 31 = true)
    (hw : walkCopies d.qm.copies (k.origin = .fabric) copyFuel 4095 (fld (Tbl.get 0#64 d.qm.groups (k.dest % 2 ^ 18)) 17 0) =
      some w) :
    d.replicate = Dev.copiesMade { d with qm := { d.qm with repl := rest } } k w := by
  unfold Dev.replicate
  rw [hq]
  dsimp only
  rw [if_neg (by simp [hh]), if_neg (not_or.mpr ⟨not_le.mpr hg, by rw [hv]; decide⟩), hw]

/-- The copies of a walk that was not cut join those that wait for admission, and no other queue changes. -/
theorem copiesMade_queues {d : Dev} {k : Pkt} {h : Nat} {x : List (BitVec 64)} (hh : k.handle = some h) (hx : x ≠ []) :
    (d.copiesMade k (x, false)).qm.repl = d.qm.repl ∧
      (d.copiesMade k (x, false)).qm.arrived.length = d.qm.arrived.length + x.length ∧
      (d.copiesMade k (x, false)).qm.queues = d.qm.queues := by
  have hqm (n : Nat) : ((((d.bufSetRefs 13 h n).shareHold k.uid (n - 1)).inc bankRepl 0).bump bankRepl 1 n).qm =
      (d.shareHold k.uid (n - 1)).qm := by
    rw [Dev.bump_qm, Dev.inc_qm, Dev.shareHold, Dev.setHold, Dev.hold, qm_bufSetRefs]
    rfl
  unfold Dev.copiesMade
  rw [if_neg Bool.false_ne_true, if_neg hx, hh]
  dsimp only
  rw [hqm]
  exact ⟨rfl, by simp [Dev.shareHold, Dev.setHold], rfl⟩

/-! ## The VOQs of an unreachable device (R323) -/

theorem qKind_qKey {k i : Nat} (h : i < 2 ^ 18) : qKind (qKey k i) = k := by
  unfold qKind qKey
  omega

theorem qIdx_qKey {k i : Nat} (h : i < 2 ^ 18) : qIdx (qKey k i) = i := by
  unfold qIdx qKey
  omega

theorem lt_of_mem_busyQueues {d : Dev} {k i : Nat} (h : i ∈ d.busyQueues k) : i < 2 ^ 18 := by
  obtain ⟨x, -, rfl⟩ := List.mem_map.mp h
  exact Nat.mod_lt _ (by decide)

/-- A queue that lists packets is busy. -/
theorem mem_busyQueues {d : Dev} {k i : Nat} (hi : i < 2 ^ 18) (h : (d.queue (qKey k i)).pkts ≠ []) : i ∈ d.busyQueues k := by
  have hmem : (qKey k i, d.queue (qKey k i)) ∈ d.qm.queues :=
    (Tbl.get_mem ({} : Queue) d.qm.queues (qKey k i)).resolve_left fun he => h (congrArg Queue.pkts he)
  refine List.mem_map.mpr ⟨_, List.mem_filter.mpr ⟨hmem, ?_⟩, qIdx_qKey hi⟩
  simp [qKind_qKey hi, h]

/-- One VOQ of an unreachable device is emptied, and its packets are counted and dropped. -/
def Dev.dropVoq (d : Dev) (i : Nat) : Dev :=
  ((d.queue (qKey 2 i)).pkts).foldl (fun d k => (d.inc bankTrl 13).dropPkt k) (d.setQueue (qKey 2 i) {})

theorem unreachDrop_lost {d : Dev} {dev : Nat} (h : d.reach.getLsbD dev = false) :
    d.unreachDrop dev = ((d.busyQueues 2).filter fun i => i / 1024 = dev).foldl Dev.dropVoq d := by
  unfold Dev.unreachDrop
  rw [if_neg (by simp [h])]
  rfl

theorem queue_dropVoq (d : Dev) (i q : Nat) : (d.dropVoq i).queue q = if q = qKey 2 i then {} else d.queue q := by
  have hqs : (d.dropVoq i).qm.queues = (d.setQueue (qKey 2 i) {}).qm.queues :=
    foldl_field (·.qm.queues) _ (fun e k => by rw [queues_dropPkt, Dev.inc_qm]) _ _
  rw [Dev.queue, hqs]
  split
  next h => rw [h]; exact d.queue_setQueue_same _ _
  next h => exact d.queue_setQueue_ne _ h

theorem queue_dropVoqs (is : List Nat) (d : Dev) (q : Nat) :
    (is.foldl Dev.dropVoq d).queue q = if ∃ i ∈ is, q = qKey 2 i then {} else d.queue q := by
  induction is generalizing d with
  | nil => simp
  | cons i is ih =>
    rw [List.foldl_cons, ih, queue_dropVoq]
    by_cases h1 : ∃ j ∈ is, q = qKey 2 j <;> by_cases h2 : q = qKey 2 i <;> simp [h1, h2]

/-- With no busy VOQ of the device there is nothing to drop. -/
theorem unreachDrop_idle {d : Dev} {dev : Nat} (h : d.reach.getLsbD dev = false) (hb : ∀ i ∈ d.busyQueues 2, i / 1024 ≠ dev) :
    d.unreachDrop dev = d := by
  rw [unreachDrop_lost h, List.filter_eq_nil_iff.mpr (by simpa using hb)]
  rfl

/-- The VOQs of the device are empty afterwards. -/
theorem unreachDrop_empties {d : Dev} {dev i : Nat} (h : d.reach.getLsbD dev = false) (hi : i < 2 ^ 18) (hd : i / 1024 = dev) :
    ((d.unreachDrop dev).queue (qKey 2 i)).pkts = [] := by
  rw [unreachDrop_lost h, queue_dropVoqs]
  split
  next => rfl
  next hno =>
    by_contra hbusy
    exact hno ⟨i, List.mem_filter.mpr ⟨mem_busyQueues hi hbusy, by simpa using hd⟩, rfl⟩

/-- Every other queue is as it was. -/
theorem unreachDrop_other {d : Dev} {dev q : Nat} (h : d.reach.getLsbD dev = false) (hq : qKind q ≠ 2 ∨ qIdx q / 1024 ≠ dev) :
    (d.unreachDrop dev).queue q = d.queue q := by
  rw [unreachDrop_lost h, queue_dropVoqs, if_neg]
  rintro ⟨i, hi, rfl⟩
  obtain ⟨hbusy, hdev⟩ := List.mem_filter.mp hi
  have hlt := lt_of_mem_busyQueues hbusy
  rw [qKind_qKey hlt, qIdx_qKey hlt] at hq
  exact hq.elim (· rfl) (· (by simpa using hdev))

/-- The packet of the one busy VOQ is counted, and no register changes. -/
theorem unreachDrop_counts {d : Dev} {dev i : Nat} {k : Pkt} (h : d.reach.getLsbD dev = false) (hb : d.busyQueues 2 = [i])
    (hi : i / 1024 = dev) (hk : (d.queue (qKey 2 i)).pkts = [k])
    (hn : k.HoldsNothing) (hu : d.hold k.uid = {}) (hc : d.chained bankTrl 13 = false) :
    (d.unreachDrop dev).counter bankTrl 13 = d.counter bankTrl 13 + 1#32 ∧ SameRegs d (d.unreachDrop dev) := by
  have hdrop : ((d.setQueue (qKey 2 i) {}).inc bankTrl 13).hold k.uid = {} := by
    rw [Dev.hold, Dev.inc_qm]
    exact hu
  have hone : d.unreachDrop dev = ((d.setQueue (qKey 2 i) {}).inc bankTrl 13).setHold k.uid {} := by
    rw [unreachDrop_lost h, hb, List.filter_cons_of_pos (by simpa using hi), List.filter_nil, List.foldl_cons, List.foldl_nil,
      Dev.dropVoq, hk, List.foldl_cons, List.foldl_nil, dropPkt_unheld hn hdrop]
  rw [hone]
  exact ⟨(inc_effect (d.setQueue (qKey 2 i) {}) bankTrl 13 hc).1, Dev.inc_regs ..⟩

/-- Settles O40: a tail by what became of the head of its frame, replication by the packet at the front of its queue, and the drop of
VOQs by what one of them loses. -/
theorem tailsAndCopies : Obligations.TailsAndCopies := by
  unfold Obligations.TailsAndCopies
  refine ⟨?_, ?_, ?_, ?_, ?_, ?_, ?_, ?_, ?_, ?_⟩
  case refine_1 =>
    intro s p frame good hc ho
    exact yields_of_actIn (fun d => d.tailArrives p frame good) rfl hc (by rw [tailArrives_unopened frame good ho]; rfl)
  case refine_2 =>
    intro s p frame uid hc ho hup hm
    have hgood := (tailFits_iff s.dev p frame true).mpr ⟨rfl, hup, hm⟩
    refine ⟨yields_of_actIn (fun d => d.tailArrives p frame true) rfl hc ?_,
      yields_of_actIn (fun d => d.tailArrives p frame false) rfl hc ?_⟩
    · rw [tailArrives_passed frame true ho, if_pos hgood]
    · rw [tailArrives_passed frame false ho, if_neg (by simp [Dev.tailFits]), countBadTail_fcs hup hm]
  case refine_3 =>
    intro s p frame hc ho hup hm
    have hgood := (tailFits_iff s.dev p frame true).mpr ⟨rfl, hup, hm⟩
    refine ⟨yields_of_actIn (fun d => d.tailArrives p frame true) rfl hc ?_,
      yields_of_actIn (fun d => d.tailArrives p frame false) rfl hc ?_⟩
    · rw [tailArrives_kept frame true ho, if_neg (by simp [hgood])]
    · rw [tailArrives_kept frame false ho, if_pos (by simp [Dev.tailFits]), countBadTail_fcs hup hm]
      exact keep_inc _ _ rfl
  case refine_4 =>
    intro s hc hq
    refine yields_of_actIn Dev.replicate rfl hc ?_
    rw [Dev.replicate, hq]
    rfl
  case refine_5 =>
    intro s k rest hc hq hh hg
    exact yields_of_actIn Dev.replicate rfl hc (by rw [replicate_badGroup hq hh hg])
  case refine_6 =>
    intro s k rest h n e x hc hq hh hg hk hv he hw hx hn
    have hrow := yields_of_actIn (c := .replicate) Dev.replicate rfl hc rfl
    rw [replicate_copies hq hh hg hv (he ▸ hw)] at hrow
    obtain ⟨hrepl, harrived, hqueues⟩ := copiesMade_queues (d := { s.dev with qm := { s.dev.qm with repl := rest } }) hk
      (List.ne_nil_of_length_pos (hx ▸ hn))
    exact ⟨_, hrow, hrepl, hx ▸ harrived, hqueues⟩
  case refine_7 =>
    intro s dv hc hr
    refine yields_of_actIn (fun d => d.unreachDrop dv) rfl hc ?_
    rw [Dev.unreachDrop, if_pos hr]
    rfl
  case refine_8 =>
    intro s dv hc hr hb
    exact yields_of_actIn (fun d => d.unreachDrop dv) rfl hc (by rw [unreachDrop_idle hr hb]; rfl)
  case refine_9 =>
    intro s dv hc hr
    exact ⟨_, yields_of_actIn (fun d => d.unreachDrop dv) rfl hc rfl,
      fun n hn => unreachDrop_empties hr (by omega) (by omega), fun q hq => unreachDrop_other hr hq⟩
  case refine_10 =>
    intro s dv i k hc hr hb hi hk hh hd he hcopy hremote hs hu hch
    exact ⟨_, yields_of_actIn (fun d => d.unreachDrop dv) rfl hc rfl,
      unreachDrop_counts hr hb hi hk ⟨hh, hd, he, hcopy, hremote, hs⟩ hu hch⟩

end Sys2Proof.Machine
end

section
/-! The command registers of the slices: what each command of SL_PRS_CMD, SL_MS_CMD and SL_AS_CMD makes of the device, by its result. -/
namespace Sys2Proof.Machine

/-! ## What the plain form passes on (R34) -/

theorem keep_setReg {d e : Dev} (k : Nat) (v : Word) (h : d.keep e = e) : d.keep (e.setReg k v) = e.setReg k v :=
  congrArg (fun x : Dev => { x with regs := (e.setReg k v).regs }) h

theorem keep_modSlice {d e : Dev} (n : Nat) (f : Slice → Slice) (h : d.keep e = e) : d.keep (e.modSlice n f) = e.modSlice n f :=
  congrArg (fun x : Dev => { x with slices := (e.modSlice n f).slices }) h

/-- A change that the form passes on may be repeated. -/
theorem keep_foldl {α : Type} {d e : Dev} {f : Dev → α → Dev} (l : List α) (hf : ∀ e a, d.keep e = e → d.keep (f e a) = f e a)
    (h : d.keep e = e) : d.keep (l.foldl f e) = l.foldl f e :=
  List.foldlRecOn (motive := fun e => d.keep e = e) l f h fun e he a _ => hf e a he

/-- The end of a command is in the registers (R537). -/
theorem keep_cmdResult {d e : Dev} (cmd st r : Nat) (h : d.keep e = e) : d.keep (e.cmdResult cmd st r) = e.cmdResult cmd st r := by
  have hreg := keep_setReg cmd (put r 28) h
  unfold Dev.cmdResult
  dsimp only
  split
  · exact hreg
  · exact keep_latchBit _ _ hreg

/-- So is the item that a READ stages. -/
theorem keep_setStage256 {d e : Dev} (base : Nat → Nat) (x : BitVec 256) (h : d.keep e = e) :
    d.keep (e.setStage256 base x) = e.setStage256 base x := keep_foldl _ (fun _ _ => keep_setReg _ _) h

theorem keep_setStagedEditData {d e : Dev} (bs : Bytes) (h : d.keep e = e) :
    d.keep (e.setStagedEditData bs) = e.setStagedEditData bs := keep_foldl _ (fun _ _ => keep_setReg _ _) h

theorem keep_setStagedAssoc {d e : Dev} (a : AssocEntry) (h : d.keep e = e) : d.keep (e.setStagedAssoc a) = e.setStagedAssoc a := by
  have hput (base : Nat → Nat) (n x : Nat) {e : Dev} (he : d.keep e = e) :=
    keep_foldl (f := fun d j => d.setReg (base j) (wd (x >>> (32 * j)))) (List.range n) (fun _ _ => keep_setReg _ _) he
  exact keep_setReg _ _ (hput _ _ _ (hput _ _ _ (hput _ _ _ h)))

/-- A slot taken from the pipeline is counted (R148, R517). -/
theorem keep_steal {d e : Dev} (n : Nat) (h : d.keep e = e) : d.keep (e.steal n) = e.steal n := keep_inc _ _ (keep_slot _ _ h)

/-- An associative entry installed is in the golden copy, and takes slots (R147). -/
theorem keep_installAssoc (d : Dev) (idx : Nat) (a : AssocEntry) : d.keep (d.installAssoc idx a) = d.installAssoc idx a := by
  refine keep_foldl _ (fun e k he => ?_) rfl
  split
  · exact keep_steal k he
  · exact he

/-- A search leaves its context in the slice and its match in a register (R148). -/
theorem keep_nextMatchIn {d e : Dev} (n : Nat) (c : SearchCtx) (h : d.keep e = e) :
    d.keep (e.nextMatchIn n c) = e.nextMatchIn n c := by
  unfold Dev.nextMatchIn
  dsimp only
  split <;> exact keep_setReg _ _ (keep_modSlice _ _ h)

/-! ## The rows -/

/-- A command makes of the device what its effect on it comes to, when the plain form passes that on. -/
theorem yields_of_command {c : Instr} {s : State} {off : Nat} {e : Dev} {f : Dev → Dev}
    (ha : Answers .bar0 off s) (hx : exec c s = actReg .bar0 off c s f) (hf : f s.dev = e) (hk : s.dev.keep e = e) : Yields c s e :=
  yields_of_actReg f hx ha (by rw [hf, hk])

/-! ## SL_PRS_CMD (R123, R124) -/

theorem prsWrite_badIndex (d : Dev) (n : Nat) {idx : Nat} (h : 512 ≤ idx) :
    d.prsWrite n idx = d.cmdResult Reg.SL_PRS_CMD (Reg.SL_PRS_STATUS n) 1 := by
  unfold Dev.prsWrite
  rw [if_pos h]

theorem prsWrite_stores {d : Dev} (n : Nat) {idx : Nat} {x : BitVec 256} (hx : d.stage256 Reg.SL_PRS_STAGE = x) (hi : idx < 512)
    (hb : pressBad x = false) (hs : seesSame d.liveVints pressVints pressValid (Tbl.get 0#256 d.prog.press idx) x = true) :
    d.prsWrite n idx = Dev.cmdResult { d with prog := { d.prog with press := Tbl.set 0#256 d.prog.press idx x } }
      Reg.SL_PRS_CMD (Reg.SL_PRS_STATUS n) 0 := by
  subst hx
  unfold Dev.prsWrite
  dsimp only
  rw [if_neg hi.not_ge, if_neg (by simp [hb]), if_neg (by simp [hs])]

theorem prsRead_stages (d : Dev) (n : Nat) {idx : Nat} (h : idx < 512) : d.prsRead n idx =
    (d.setStage256 Reg.SL_PRS_STAGE (Tbl.get 0#256 d.prog.press idx)).cmdResult Reg.SL_PRS_CMD (Reg.SL_PRS_STATUS n) 0 :=
  if_neg h.not_ge

/-! ## SL_MS_CMD (R161) -/

/-- An index is good below the number of items of its target; edit program 0 cannot be named. -/
theorem msBadIndex_eq_false {t idx : Nat} : msBadIndex t idx = false ↔ idx < msLimit t ∧ (t = 2 → idx ≠ 0) := by
  simp [msBadIndex]

theorem msWrite_badIndex (d : Dev) (n : Nat) {t idx : Nat} (h : msBadIndex t idx = true) :
    d.msWrite n t idx = d.cmdResult Reg.SL_MS_CMD (Reg.SL_MS_STATUS n) 1 := if_pos h

theorem msWrite_item (d : Dev) (n : Nat) {t idx : Nat} (h : msBadIndex t idx = false) : d.msWrite n t idx =
    Dev.cmdResult { d with prog := (d.msWriteItem t idx).2 } Reg.SL_MS_CMD (Reg.SL_MS_STATUS n) (d.msWriteItem t idx).1 :=
  if_neg (by simp [h])

/-- Behind two checks, a result other than OK leaves the program as it was. -/
theorem checked_refused {a b : Prop} [Decidable a] [Decidable b] {i j : Nat} {p q : Program}
    (h : (if a then (i, p) else if b then (j, p) else (0, q)).1 ≠ 0) : (if a then (i, p) else if b then (j, p) else (0, q)).2 = p := by
  split_ifs at h ⊢
  · rfl
  · rfl
  · exact absurd rfl h

/-- A WRITE that is refused stores nothing; edit data are never refused. -/
theorem msWriteItem_refused {d : Dev} {t idx : Nat} (h : (d.msWriteItem t idx).1 ≠ 0) : (d.msWriteItem t idx).2 = d.prog := by
  unfold Dev.msWriteItem at h ⊢
  dsimp only at h ⊢
  match t with
  | 0 | 1 | 2 => exact checked_refused h
  | _ + 3 => exact absurd rfl h

/-- The device once a READ has staged item `idx` of a target. -/
def Dev.msStaged (d : Dev) (target idx : Nat) : Dev :=
  match target with
  | 0 => d.setStage256 Reg.SL_MS_STAGE (Tbl.get 0#256 d.prog.records idx)
  | 1 => d.setStage256 Reg.SL_MS_STAGE (Tbl.get 0#256 d.prog.descs idx)
  | 2 => d.setStage256 Reg.SL_MS_STAGE (Tbl.get 0#256 d.prog.edits idx)
  | _ => d.setStagedEditData (be 64 (Tbl.get 0#512 d.prog.editData idx).toNat)

theorem msRead_stages (d : Dev) (n : Nat) {t idx : Nat} (h : msBadIndex t idx = false) :
    d.msRead n t idx = (d.msStaged t idx).cmdResult Reg.SL_MS_CMD (Reg.SL_MS_STATUS n) 0 := if_neg (by simp [h])

theorem keep_msStaged (d : Dev) (t idx : Nat) : d.keep (d.msStaged t idx) = d.msStaged t idx := by
  unfold Dev.msStaged
  split
  case h_4 => exact keep_setStagedEditData _ rfl
  all_goals exact keep_setStage256 _ _ rfl

/-- MS_READ of an item that can be named stages it. -/
theorem msRead_yields {s : State} {n : Fin 9} (t : BitVec 2) (x : BitVec 12) (ha : Answers .bar0 (viaSlice Reg.SL_MS_CMD n) s)
    (hx : x.toNat < msLimit t.toNat) (h0 : t.toNat = 2 → x.toNat ≠ 0) :
    Yields (.msRead n t x) s ((s.dev.msStaged t.toNat x.toNat).cmdResult Reg.SL_MS_CMD (Reg.SL_MS_STATUS n) 0) :=
  yields_of_command ha rfl (msRead_stages _ _ (msBadIndex_eq_false.mpr ⟨hx, h0⟩)) (keep_cmdResult _ _ _ (keep_msStaged _ _ _))

/-! ## SL_AS_CMD (R143, R147, R148, R161) -/

theorem asWrite_installs {d : Dev} (n : Nat) {idx : Nat} {a : AssocEntry} (hs : d.stagedAssoc = a)
    (hk : a.valid = true → a.key &&& a.mask = a.key) (hv : assocSame d.liveVints (Tbl.get {} d.prog.assoc idx) a = true) :
    d.asWrite n idx = (d.installAssoc idx a).asResult n 0 := by
  subst hs
  unfold Dev.asWrite
  dsimp only
  rw [if_neg (by tauto), if_neg (by simp [hv])]

/-- An INVALIDATE that a live vintage would see is refused; any other installs the entry, no longer valid. -/
theorem asInvalidate_eq {d : Dev} (n : Nat) {idx : Nat} {a : AssocEntry} (h : a = Tbl.get {} d.prog.assoc idx) :
    d.asInvalidate n idx = if assocSame d.liveVints a { a with valid := false } then
      (d.installAssoc idx { a with valid := false }).asResult n 0 else d.asResult n 3 := by
  subst h
  unfold Dev.asInvalidate
  dsimp only
  by_cases hv : assocSame d.liveVints (Tbl.get {} d.prog.assoc idx) { Tbl.get {} d.prog.assoc idx with valid := false } = true
  · rw [if_pos hv, if_neg (by simp [hv])]
  · rw [if_neg hv, if_pos (by simp [hv])]

theorem nextMatchWith_serving {d : Dev} {n : Nat} (c : SearchCtx) (h : (d.slice n).serving = true) :
    d.nextMatchWith n c = (d.steal n).nextMatchIn n c := if_pos h

theorem asSearch_serving {d : Dev} {n : Nat} (hs : (d.slice n).serving = true) (h0 : fld (d.reg Reg.SL_AS_SRCH) 24 17 ≠ 0)
    (hr : fld (d.reg Reg.SL_AS_SRCH) 31 25 + fld (d.reg Reg.SL_AS_SRCH) 24 17 ≤ 128) :
    d.asSearch n = ((d.steal n).nextMatchIn n
      { key := BitVec.ofNat 320 (d.stagedNat Reg.SL_AS_KEY 10), first := fld (d.reg Reg.SL_AS_SRCH) 31 25,
        count := fld (d.reg Reg.SL_AS_SRCH) 24 17, vint := fld (d.reg Reg.SL_AS_SRCH) 3 0, pos := none }).asResult n 0 := by
  unfold Dev.asSearch
  dsimp only
  rw [if_neg (by omega), nextMatchWith_serving _ hs]

theorem asNext_serving {d : Dev} {n : Nat} {c : SearchCtx} (hs : (d.slice n).serving = true) (hc : (d.slice n).srch = some c) :
    d.asNext n = ((d.steal n).nextMatchIn n c).asResult n 0 := by
  unfold Dev.asNext
  rw [hc]
  exact congrArg (·.asResult n 0) (nextMatchWith_serving c hs)

theorem asNext_unsearched {d : Dev} {n : Nat} (hc : (d.slice n).srch = none) : d.asNext n = d.asResult n 5 := by
  unfold Dev.asNext
  rw [hc]

/-- Settles O32: each command by what it makes of the device under its premises, which is within what the plain form passes on. -/
theorem sliceCommands : Obligations.SliceCommands := by
  unfold Obligations.SliceCommands
  refine ⟨fun s n x w ha hi hw hb hs => ?_, fun s n x ha hi => ?_, fun s n x ha hi => ?_, fun s n t x ha hb => ⟨?_, msWriteItem_refused⟩,
    fun s n t x ha hb => ?_, fun s n x ha hi => msRead_yields 0#2 x ha hi (by simp), fun s n x ha hi => msRead_yields 1#2 x ha hi (by simp),
    fun s n x ha h0 hi => msRead_yields 2#2 x ha hi fun _ => h0.ne', fun s n x ha => msRead_yields 3#2 x ha x.isLt (by simp),
    fun s n x a ha hs hk hv => ?_, fun s n x ha => ?_, fun s n x a ha hx => ?_, fun s n ha hs h0 hr => ?_, fun s n c ha hs hc => ?_,
    fun s n ha hc => ?_⟩
  case refine_1 => exact yields_of_command ha rfl (prsWrite_stores n hw hi hb hs) (keep_cmdResult _ _ _ rfl)
  case refine_2 => exact yields_of_command ha rfl (prsWrite_badIndex _ n hi) (keep_cmdResult _ _ _ rfl)
  case refine_3 => exact yields_of_command ha rfl (prsRead_stages _ n hi) (keep_cmdResult _ _ _ (keep_setStage256 _ _ rfl))
  case refine_4 => exact yields_of_command ha rfl (msWrite_item _ n hb) (keep_cmdResult _ _ _ rfl)
  case refine_5 => exact yields_of_command ha rfl (msWrite_badIndex _ n hb) (keep_cmdResult _ _ _ rfl)
  case refine_6 => exact yields_of_command ha rfl (asWrite_installs n hs hk hv) (keep_cmdResult _ _ _ (keep_installAssoc _ _ _))
  case refine_7 => exact yields_of_command ha rfl rfl (keep_cmdResult _ _ _ (keep_setStagedAssoc _ rfl))
  case refine_8 =>
    refine yields_of_command ha rfl (asInvalidate_eq n hx) ?_
    split
    · exact keep_cmdResult _ _ _ (keep_installAssoc _ _ _)
    · exact keep_cmdResult _ _ _ rfl
  case refine_9 =>
    exact yields_of_command ha rfl (asSearch_serving hs h0 hr) (keep_cmdResult _ _ _ (keep_nextMatchIn _ _ (keep_steal _ rfl)))
  case refine_10 =>
    exact yields_of_command ha rfl (asNext_serving hs hc) (keep_cmdResult _ _ _ (keep_nextMatchIn _ _ (keep_steal _ rfl)))
  case refine_11 => exact yields_of_command ha rfl (asNext_unsearched hc) (keep_cmdResult _ _ _ rfl)

end Sys2Proof.Machine
end

section
/-! The operating-time store: what a program leaves of a slot that is not erased, which slot the next record goes to, and a record
that is lost on a torn slot. -/
namespace Sys2Proof.Machine

/-! ## Programs of the flash (R474) -/

/-- The bytes read after a program are the programmed ones, without the bits that were clear before. -/
theorem nvRead_nvProgram (d : Dev) (a : Nat) (bs : Bytes) :
    (d.nvProgram a bs).nvRead a bs.length = List.zipWith (· &&& ·) bs (d.nvRead a bs.length) := by
  refine List.ext_getElem (by simp [Dev.nvRead, Tbl.getRun]) fun i hi _ => ?_
  have hlen : i < bs.length := by simpa [Dev.nvRead, Tbl.getRun] using hi
  have hget := Tbl.get_setRun_mem 0xFF#8 d.nvm a ((bs.zip (d.nvRead a bs.length)).map fun p => p.1 &&& p.2) i
    (by simpa [Dev.nvRead, Tbl.getRun] using hlen)
  simpa [Dev.nvProgram, Dev.nvRead, Tbl.getRun] using hget

/-- Where nothing is programmed, every byte reads 0xFF. -/
theorem nvRead_erased {d : Dev} {a n : Nat} (h : ∀ k, a ≤ k → Tbl.get 0xFF#8 d.nvm k = 0xFF#8) :
    d.nvRead a n = List.replicate n 0xFF#8 := by
  refine List.eq_replicate_iff.mpr ⟨by simp [Dev.nvRead, Tbl.getRun], fun b hb => ?_⟩
  obtain ⟨j, -, rfl⟩ := List.mem_map.mp hb
  exact h _ (Nat.le_add_right a j)

/-! ## The slot of the next record (R488) -/

/-- An erased slot holds no valid record. -/
theorem opAt_erased {d : Dev} {i : Nat} (h : d.nvRead (nvOptime + 16 * i) 16 = List.replicate 16 0xFF#8) : d.opAt i = none := by
  unfold Dev.opAt
  rw [h]
  exact if_neg (by decide +kernel)

/-- A record in slot 0 that is the only valid one is the newest. -/
theorem opNewest_first {d : Dev} {r : Bytes} (h0 : d.opAt 0 = some r) (h : ∀ i, d.opAt (i + 1) = none) :
    d.opNewest = some (0, r) := by
  unfold Dev.opNewest
  rw [List.range_succ_eq_map, List.foldl_cons, List.foldl_map]
  simp only [h0]
  exact List.foldlRecOn (motive := (· = some (0, r))) _ _ rfl fun best hb i _ => by simp [h i, hb]

/-- The next record goes to the slot after the newest one, its sequence number one above. -/
theorem opNext_of_newest {d : Dev} {i : Nat} {r : Bytes} (h : d.opNewest = some (i, r)) : d.opNext = (i + 1) % 4096 := by
  unfold Dev.opNext
  rw [h]

theorem opSeq_of_newest {d : Dev} {i : Nat} {r : Bytes} (h : d.opNewest = some (i, r)) : d.opSeq = unle (r.take 4) + 1 := by
  unfold Dev.opSeq
  rw [h]

/-! ## The row -/

/-- The bytes of the next record. -/
def Dev.opRecordBytes (d : Dev) : Bytes :=
  le 4 d.opSeq ++ le 4 d.optime ++ le 3 d.mgmt.pcc ++ le 1 (b2n !d.mgmt.opRecord)

/-- Away from the start of a subsector the record is programmed into its slot as the slot stands. -/
theorem nvRead_opWrite {d : Dev} (h : d.opNext % 256 ≠ 0) : d.opWrite.nvRead (nvOptime + 16 * d.opNext) 16 =
    List.zipWith (· &&& ·) (d.opRecordBytes ++ wordBytes (crc32c d.opRecordBytes)) (d.nvRead (nvOptime + 16 * d.opNext) 16) := by
  have hw : d.opWrite.nvm =
      (d.nvProgram (nvOptime + 16 * d.opNext) (d.opRecordBytes ++ wordBytes (crc32c d.opRecordBytes))).nvm := by
    simp only [Dev.opWrite, if_neg h]
    rfl
  rw [Dev.nvRead, hw]
  exact nvRead_nvProgram d _ _

/-- So when the record reads back whole, the slot's first byte had every bit of the low byte of the sequence number set. -/
theorem opSlot_head_of_readBack {d : Dev} (h : d.opNext % 256 ≠ 0)
    (hr : d.opWrite.nvRead (nvOptime + 16 * d.opNext) 16 = d.opRecordBytes ++ wordBytes (crc32c d.opRecordBytes)) :
    BitVec.ofNat 8 d.opSeq &&& Tbl.get 0xFF#8 d.nvm (nvOptime + 16 * d.opNext) = BitVec.ofNat 8 d.opSeq := by
  have hhead := congrArg List.head? ((nvRead_opWrite h).symm.trans hr)
  simpa [Dev.opRecordBytes, Dev.nvRead, Tbl.getRun, le, List.range_succ_eq_map] using hhead

/-- The form of the row leaves what was written. -/
theorem nvRead_keepNvm (d e : Dev) (a n : Nat) : (d.keepNvm e).nvRead a n = e.nvRead a n := rfl

/-- The row makes of a device whose firmware serves what writing the record makes of it. -/
theorem exec_optimeRecordWrite {s : State} (h : Serves s) :
    exec .optimeRecordWrite s = .next { s with dev := s.dev.keepNvm s.dev.opWrite } := by
  obtain ⟨⟨hup, hflows⟩, hserving⟩ := h
  have hx := actNvmIn_up (c := .optimeRecordWrite) (fun d => d.ifServing Dev.opWrite) hup hflows
  rwa [ifServing_serves _ hserving] at hx

/-! ## A record on a torn slot (R488, R525) -/

/-- Firmware serves, the PLLs are in lock, and the flash holds the bytes `bs` at the start of the store and is erased elsewhere. -/
def opStore (bs : Bytes) : State :=
  { dev := { boot := { plls := 0x3FFFF#18 }, mgmt := { serving := true }, nvm := Tbl.setRun 0xFF#8 [] nvOptime bs } }

theorem opStore_serves (bs : Bytes) : Serves (opStore bs) :=
  ⟨⟨rfl, by simp [opStore, Dev.flows, Dev.opens, Dev.clocked, pllMgmt]⟩, rfl⟩

/-- Beyond the bytes given the store is erased. -/
theorem nvm_opStore_erased (bs : Bytes) {k : Nat} (h : nvOptime + bs.length ≤ k) :
    Tbl.get 0xFF#8 (opStore bs).dev.nvm k = 0xFF#8 := Tbl.get_setRun_ne 0xFF#8 [] nvOptime bs (.inr h)

/-- The record of 0 s of operating time in the first power cycle. -/
def opFirstRecord : Bytes := le 4 1 ++ le 4 0 ++ le 3 1 ++ le 1 1

/-- That record in slot 0, and in slot 1 the next one, torn: its first byte reads 0, and the others are still erased. -/
def tornBytes : Bytes := opFirstRecord ++ wordBytes (crc32c opFirstRecord) ++ [0#8]

def tornStore : State := opStore tornBytes

theorem tornStore_serves : Serves tornStore := opStore_serves tornBytes

theorem opNewest_tornStore :
    tornStore.dev.opNewest = some (0, opFirstRecord ++ wordBytes (crc32c opFirstRecord)) := by
  refine opNewest_first (by decide +kernel) fun i => ?_
  cases i with
  | zero => decide +kernel
  | succ i =>
    have hlen : tornBytes.length = 17 := rfl
    exact opAt_erased (nvRead_erased fun k hk => nvm_opStore_erased tornBytes (by omega))

/-- The torn slot is where the next record goes. -/
theorem opNext_tornStore : tornStore.dev.opNext = 1 := opNext_of_newest opNewest_tornStore

theorem opSeq_tornStore : tornStore.dev.opSeq = 2 := opSeq_of_newest opNewest_tornStore

theorem nvm_tornStore_slot : Tbl.get 0xFF#8 tornStore.dev.nvm (nvOptime + 16 * 1) = 0#8 := by decide +kernel

/-- Refutes O16 by its last clause: the clause has the record in its slot in every state, but the slot after the newest record need
not be erased. A slot that a power loss has torn (R525) fails its crc, so the next record goes there (R488); it is erased only where
a subsector begins, and a program sets no bit (R474). In `tornStore` the low byte of the sequence number, 2, comes out as 0. -/
theorem not_startUpSteps : ¬ Obligations.StartUpSteps := by
  unfold Obligations.StartUpSteps
  rintro ⟨-, -, -, -, -, -, -, hrecord⟩
  obtain ⟨e, hexec, -, hread, -⟩ := hrecord tornStore tornStore.dev.opRecordBytes tornStore_serves rfl
  obtain rfl : tornStore.dev.keepNvm tornStore.dev.opWrite = e := by
    simpa [exec_optimeRecordWrite tornStore_serves] using hexec
  rw [nvRead_keepNvm] at hread
  have hlow := opSlot_head_of_readBack (by rw [opNext_tornStore]; decide) hread
  rw [opNext_tornStore, opSeq_tornStore, nvm_tornStore_slot] at hlow
  exact absurd hlow (by decide)

end Sys2Proof.Machine
end

section
/-! Table commands: one that does not end in OK changes nothing, and what the row of an operation makes of the entry in front of a
command ring and of the request in the mailbox. -/
namespace Sys2Proof.Machine

/-! ## Refusals (R186) -/

/-- An outcome of a command leaves the device as it is unless its result is OK. -/
def Dev.KeptUnlessOk (d : Dev) (r : Nat × Dev) : Prop := r.1 ≠ tOk → r.2 = d

/-- An outcome that ends in a result and the device as it is. -/
theorem Dev.KeptUnlessOk.result (d : Dev) (x : Nat) : d.KeptUnlessOk (x, d) := fun _ => rfl

/-- An outcome of result OK. -/
theorem Dev.KeptUnlessOk.ok (d e : Dev) : d.KeptUnlessOk (tOk, e) := fun h => absurd rfl h

theorem Dev.KeptUnlessOk.ite {d : Dev} {c : Prop} [Decidable c] {a b : Nat × Dev} (ha : d.KeptUnlessOk a) (hb : d.KeptUnlessOk b) :
    d.KeptUnlessOk (if c then a else b) := by
  split
  · exact ha
  · exact hb

theorem tblCmdWrite_kept (d : Dev) (c : TblCmd) (dsc : BitVec 256) : d.KeptUnlessOk (d.tblCmdWrite c dsc) := by
  unfold Dev.tblCmdWrite
  refine .ite (.ite (.result d _) ?direct) (.ite (.result d _) ?hash)
  case direct =>
    split
    · exact .ok d _
    · exact .result d _
  case hash =>
    dsimp only
    split
    · exact .ok d _
    · split
      · exact .ok d _
      · exact .result d _
    · exact .result d _

theorem tblCmdDelete_kept (d : Dev) (c : TblCmd) (dsc : BitVec 256) : d.KeptUnlessOk (d.tblCmdDelete c dsc) := by
  unfold Dev.tblCmdDelete
  refine .ite (.ite (.result d _) (.ite (.ok d _) (.result d _))) (.ite (.result d _) ?_)
  split
  · exact .result d _
  · exact .ok d _

theorem tblCmdRead_kept (d : Dev) (c : TblCmd) (dsc : BitVec 256) : d.KeptUnlessOk (d.tblCmdRead c dsc) := by
  unfold Dev.tblCmdRead
  refine .ite (.ite (.result d _) (.ite (.ok d _) (.result d _))) (.ite (.result d _) ?_)
  split
  · exact .result d _
  · exact .ok d _

theorem routeAdd_kept (d : Dev) (c : TblCmd) (dsc : BitVec 256) : d.KeptUnlessOk (d.routeAdd c dsc) :=
  .ite (.result d _) (.ite (.ite (.result d _) (.ok d _)) (.ite (.result d _) (.ok d _)))

theorem routeDel_kept (d : Dev) (c : TblCmd) (dsc : BitVec 256) : d.KeptUnlessOk (d.routeDel c dsc) :=
  .ite (.result d _) (.ite (.ok d _) (.result d _))

theorem tblDump_kept (d : Dev) (c : TblCmd) (dsc : BitVec 256) : d.KeptUnlessOk (d.tblDump c dsc) := .ite (.result d _) (.ok d _)

/-- A flush always ends in OK. -/
theorem tblFlush_kept (d : Dev) (c : TblCmd) (dsc : BitVec 256) : d.KeptUnlessOk (d.tblFlush c dsc) := .ok d _

theorem tblCmd_kept (d : Dev) (c : TblCmd) : d.KeptUnlessOk (d.tblCmd c) := by
  unfold Dev.tblCmd
  refine .ite (.result d _) (.ite (.result d _) (.ite (.result d _) ?_))
  split
  · exact tblCmdWrite_kept d c _
  · exact tblCmdDelete_kept d c _
  · exact tblCmdRead_kept d c _
  · exact routeAdd_kept d c _
  · exact routeDel_kept d c _
  · exact tblDump_kept d c _
  · exact tblFlush_kept d c _

/-- Settles O35: the checks of a command come before what it changes, and each that fails ends it with the device as it was. -/
theorem tableRefusals : Obligations.TableRefusals := by
  unfold Obligations.TableRefusals
  exact tblCmd_kept

/-! ## The host's turn (R179, R185) -/

/-- A source that waits and whose turn it is has its operation, and the turn passes on. -/
theorem engOp_turn {d : Dev} {n : Nat} (f : Dev → Dev) (ht : d.engServes n = true) (hw : d.engWaits n = true) :
    d.engOp n f = (f d).engDone n := by
  unfold Dev.engOp
  rw [if_neg (by simp [ht]), if_pos hw]

/-- A row that comes before its turn does nothing. -/
theorem engOp_early {d : Dev} {n : Nat} (f : Dev → Dev) (ht : d.engServes n = false) : d.engOp n f = d := if_pos (by simp [ht])

/-- A ring with an entry in front is listed. -/
theorem mem_sqs_of_front {d : Dev} {q : Nat} {e : SqEnt} (h : d.frontEnt q = some e) : (q, d.sq q) ∈ d.host.sqs := by
  refine (Tbl.get_mem {} d.host.sqs q).resolve_left fun h0 => ?_
  have hents : (d.sq q).ents = [] := congrArg Sq.ents h0
  simp [Dev.frontEnt, hents] at h

theorem hostWaits_of_front {s : State} {q op : Nat} {e : SqEnt} (h : TableFront s q op e) : s.dev.hostWaits = true := by
  obtain ⟨hk, hr, hf, ho, -, -, -⟩ := h
  refine Bool.or_eq_true_iff.mpr (.inl (List.any_eq_true.mpr ⟨_, mem_sqs_of_front hf, ?_⟩))
  simp [hk, hr, hf, ho]

theorem tableRow_ring (d : Dev) (q : Fin 16384) (op : Nat) : d.tableRow (.ring q) op = d.engOp 0 fun d => d.tableEnt q op := rfl

theorem tableRow_mailbox (d : Dev) (src : MbxSrc) (p : Bytes) (op : Nat) :
    d.tableRow (.mailbox src p) op = d.engOp 0 fun d => d.serve src mbxTable p fun d c p => d.tableMbx op c p := rfl

theorem isOp_op (c : TblCmd) : c.isOp c.op = true := by simp [TblCmd.isOp]

/-- The TABLE entry in front of a command ring that runs is performed by the row of its operation. -/
theorem tableEnt_front {s : State} {q op : Nat} {e : SqEnt} (h : TableFront s q op e) :
    s.dev.tableEnt q op = (s.dev.runTblCmd e.tblCmd).2.endEnt q e 0 0 (s.dev.runTblCmd e.tblCmd).1 false := by
  obtain ⟨hk, hr, hf, ho, hu, rfl, -⟩ := h
  simp [Dev.tableEnt, Dev.onEntry, hk, hr, hf, ho, hu, isOp_op]

theorem runsTable_of_actTable {s : State} {c : Instr} {q : Fin 16384} {op : Nat} {e : SqEnt}
    (hx : exec c s = actTable (.ring q) op c s) (hc : Clocked pllT s) (h : TableFront s q op e) : RunsTable c s q e := by
  have hwaits := hostWaits_of_front h
  have hent := tableEnt_front h
  obtain ⟨-, -, -, -, -, -, ht⟩ := h
  refine yields_of_actIn (fun d => d.tableRow (.ring q) op) hx hc (congrArg s.dev.keep ?_)
  rw [tableRow_ring, engOp_turn _ ht hwaits, hent]

/-- A request that waits at its source, and comes first, is served with its payload (R436, R445). -/
theorem serve_waits {s : State} {src : MbxSrc} {req : Nat} (p : Bytes) (f : Dev → Nat → Bytes → Dev) (h : Waits src req s) :
    s.dev.serve src req p f = f s.dev (srcCode src) (s.dev.mbxPayload (srcCode src) p) := by
  obtain ⟨⟨-, hserving⟩, hreq, hfirst, hallowed, hlong⟩ := h
  simp [Dev.serve, hserving, hreq, hfirst, hallowed, hlong]

/-- The outcome of a table request of the mailbox: the response is the result of the command (log entry 108). -/
def Dev.mbxTblCmd (d : Dev) (src : Nat) (c : TblCmd) : Dev := (d.runTblCmd c).2.mbxEnd src mOk (le 1 (d.runTblCmd c).1)

theorem tableMbx_body (d : Dev) {op : Nat} (src : Nat) {p : Bytes} (hl : p.length = 96) (ho : (TblCmd.ofBytes p).op = op) :
    d.tableMbx op src p = d.mbxTblCmd src (TblCmd.ofBytes p) := by
  subst ho
  simp [Dev.tableMbx, Dev.mbxTblCmd, hl, isOp_op]

/-- The table request that waits at the mailbox is performed by the row of its operation. -/
theorem yields_of_tableRequest {s : State} {c : Instr} {src : MbxSrc} {p : Bytes} {op : Nat}
    (hx : exec c s = actTable (.mailbox src p) op c s) (hw : Waits src mbxTable s) (hs : s.dev.stopped [pllMgmt, pllT] = none)
    (ht : s.dev.engServes 0 = true) (hh : s.dev.hostWaits = true) (hl : (s.dev.mbxPayload (srcCode src) p).length = 96)
    (ho : (TblCmd.ofBytes (s.dev.mbxPayload (srcCode src) p)).op = op) :
    Yields c s (s.dev.keep ((s.dev.mbxTblCmd (srcCode src) (TblCmd.ofBytes (s.dev.mbxPayload (srcCode src) p))).engDone 0)) := by
  have hserve := serve_waits p (fun d c p => d.tableMbx op c p) hw
  obtain ⟨⟨⟨hup, -⟩, -⟩, -⟩ := hw
  refine yields_of_act _ hx hup (congrArg s.dev.keep ?_)
  rw [srcClocks, across_flows _ _ hs, tableRow_mailbox, engOp_turn _ ht hh, hserve, tableMbx_body _ _ hl ho]

/-- Settles O34: each operation by a ring and by the mailbox, which differ in the row alone. -/
theorem tableCommands : Obligations.TableCommands := by
  unfold Obligations.TableCommands
  exact ⟨fun _ _ _ => runsTable_of_actTable rfl, fun _ _ _ => yields_of_tableRequest rfl,
    fun _ _ _ => runsTable_of_actTable rfl, fun _ _ _ => yields_of_tableRequest rfl,
    fun _ _ _ => runsTable_of_actTable rfl, fun _ _ _ => yields_of_tableRequest rfl,
    fun _ _ _ => runsTable_of_actTable rfl, fun _ _ _ => yields_of_tableRequest rfl,
    fun _ _ _ => runsTable_of_actTable rfl, fun _ _ _ => yields_of_tableRequest rfl,
    fun _ _ _ => runsTable_of_actTable rfl, fun _ _ _ => yields_of_tableRequest rfl,
    fun _ _ _ => runsTable_of_actTable rfl, fun _ _ _ => yields_of_tableRequest rfl⟩

end Sys2Proof.Machine
end

section
/-! Vintages: how an old vintage ends, what each row of the protocol makes of it, and the turns of the table-access engine with
learning and ageing. -/
namespace Sys2Proof.Machine

/-! ## The end of the old vintage (R171, R173) -/

/-- The old vintage ends: counted in `c`, shown in bit `b` of SL_VNT_STATUS, and logged. -/
def Dev.oldEnds (d : Dev) (c b : Nat) : Dev :=
  ((({ d with vint := { d.vint with old := none } }).inc bankVint c).latchBit Reg.SL_VNT_STATUS b).logBit 0x20 0 b 0xFFFF []

theorem keep_oldEnds (d : Dev) (c b : Nat) : d.keep (d.oldEnds c b) = d.oldEnds c b :=
  keep_log _ _ _ (keep_latchBit _ _ (keep_inc _ _ rfl))

/-- What ends the old vintage leaves everything else but registers, counters and events. -/
theorem oldEnds_frame (d : Dev) (c b : Nat) : d.oldEnds c b = { d with
    vint := { d.vint with old := none }, regs := (d.oldEnds c b).regs, cnt := (d.oldEnds c b).cnt, events := (d.oldEnds c b).events } := by
  unfold Dev.oldEnds Dev.logBit Dev.inc
  rw [log_frame, bump_eq]
  rfl

theorem reclaimOld_old {d : Dev} {o : Nat} (h : d.vint.old = some o) : d.reclaimOld = d.oldEnds 2 9 := by
  simp only [Dev.reclaimOld, h, Dev.oldEnds]

theorem forceOld_old {d : Dev} {o : Nat} (h : d.vint.old = some o) : d.forceOld = d.oldEnds 3 10 := by
  simp only [Dev.forceOld, h, Dev.oldEnds]

/-- On a device that stands alone the old vintage is reclaimed when nothing carries it. -/
theorem reclaimAlone_free {d : Dev} {o : Nat} (h : d.vint.old = some o) (ha : d.alone = true) (hi : d.inflight o = 0) :
    d.reclaimAlone = d.oldEnds 2 9 := by
  simp only [Dev.reclaimAlone, h, ha, hi, and_self, if_true, reclaimOld_old h]

theorem drainCheck_passed {d : Dev} {o : Nat} (h : d.vint.old = some o) (hms : fld (d.reg Reg.SL_VNT_CTRL) 31 16 ≠ 0)
    (ht : d.vint.oldSince + fld (d.reg Reg.SL_VNT_CTRL) 31 16 * 10 ^ 6 ≤ d.time.tsc) : d.drainCheck = d.oldEnds 3 10 := by
  have hdue : d.drainDue = true := Bool.and_eq_true_iff.mpr ⟨decide_eq_true hms, decide_eq_true ht⟩
  exact (if_pos hdue).trans (forceOld_old h)

theorem drainCheck_within {d : Dev} (ht : d.time.tsc < d.vint.oldSince + fld (d.reg Reg.SL_VNT_CTRL) 31 16 * 10 ^ 6) :
    d.drainCheck = d := by
  have hdue : d.drainDue = false := Bool.and_eq_false_iff.mpr (.inr (decide_eq_false (by omega)))
  exact if_neg (by simp [hdue])

/-! ## Reclaim in a system (R172) -/

/-- A link is in the fabric's part of the device, beside the reclaim that the beacons carry. -/
theorem sansFab_modLink (d : Dev) (n : Nat) (f : Link → Link) : (d.modLink n f).sansFab = d.sansFab := rfl

theorem reclaim_modLink (d : Dev) (n : Nat) (f : Link → Link) : (d.modLink n f).fab.reclaim = d.fab.reclaim := rfl

/-- The manager's announcement: its beacons of one multiframe carry the vintage reclaimed. -/
theorem reclaimSend_free {d : Dev} {o : Nat} (h : d.vint.old = some o) (hm : d.isManager = true) (hz : d.allZero = true)
    (hi : d.inflight o = 0) : d.reclaimSend = ((d.oldEnds 2 9).fab.links.map (·.1)).foldl
      (fun d n => d.modLink n fun x => { x with flash := 256 })
      ((d.oldEnds 2 9).setFab { (d.oldEnds 2 9).fab with reclaim := some o, zeros := [] }) := by
  simp only [Dev.reclaimSend, h, hm, hz, hi, and_self, if_true, reclaimOld_old h]

theorem reclaimSend_announces {d : Dev} {o : Nat} (h : d.vint.old = some o) (hm : d.isManager = true) (hz : d.allZero = true)
    (hi : d.inflight o = 0) : d.reclaimSend.fab.reclaim = some o := by
  rw [reclaimSend_free h hm hz hi]
  exact foldl_field (·.fab.reclaim) _ (fun d n => reclaim_modLink d n _) _ _

theorem reclaimSend_frame {d : Dev} {o : Nat} (h : d.vint.old = some o) (hm : d.isManager = true) (hz : d.allZero = true)
    (hi : d.inflight o = 0) : d.reclaimSend = { d with
      vint := { d.vint with old := none }, fab := d.reclaimSend.fab, regs := (d.oldEnds 2 9).regs, cnt := (d.oldEnds 2 9).cnt,
      events := (d.oldEnds 2 9).events } := by
  have hrest : d.reclaimSend.sansFab = (d.oldEnds 2 9).sansFab := by
    rw [reclaimSend_free h hm hz hi]
    exact foldl_field Dev.sansFab _ (fun d n => sansFab_modLink d n _) _ _
  calc d.reclaimSend = { d.oldEnds 2 9 with fab := d.reclaimSend.fab } :=
        congrArg (fun x : Dev => { x with fab := d.reclaimSend.fab }) hrest
    _ = _ := congrArg (fun x : Dev => { x with fab := d.reclaimSend.fab }) (oldEnds_frame d 2 9)

/-- A worker follows the manager that it obeys. -/
theorem reclaimReceived_obeyed {d : Dev} {n o : Nat} (hb : (d.link n).bReclaim = some o) (hr : (d.link n).bRole = 2)
    (hm : d.fromManager (d.link n).nbrDev = true) (hc : (d.link n).bClaim = d.fab.obeyed) (h : d.vint.old = some o) :
    d.reclaimReceived n = d.oldEnds 2 9 := by
  simp only [Dev.reclaimReceived, hb, hr, hm, hc, h, and_self, if_true, reclaimOld_old h]

/-! ## Learning and ageing (R178, R181) -/

/-- A new key is learned: the engine reads its buckets and enters the item. -/
theorem learnNext_new {d : Dev} {it : LearnItem} {rest : List LearnItem} {dsc : BitVec 256} (hl : d.vint.learn = it :: rest)
    (hd : dsc = Tbl.get 0#256 d.prog.descs it.desc) (hh : isHash dsc = true)
    (hs : 2 + it.key.length + it.data.length ≤ descEsize dsc) (hcel : d.spr.cellar = false)
    (hf : hashFind (Dev.engRead { d with vint := { d.vint with learn := rest } } dsc) dsc it.key = []) :
    d.learnNext = (Dev.readBuckets { d with vint := { d.vint with learn := rest } } dsc it.key).learnNew it dsc := by
  subst hd
  unfold Dev.learnNext
  rw [hl]
  dsimp only
  rw [if_neg (by simp [hh, hs, hcel]), hf]

theorem epochNext_begins {d : Dev} (hs : d.vint.sweep = []) (hcel : d.spr.cellar = false) (hm : d.maxAge ≠ 0) :
    d.epochNext = { d with vint := { d.vint with
      epoch := (d.vint.epoch + 1) % 256, sweep := d.sweepTables.map fun t => (t, 0), epochDue := false } } := by
  unfold Dev.epochNext Dev.epochStep
  rw [if_neg (by simp [hs]), if_neg (by simp [hcel, hm])]

theorem epochNext_waits {d : Dev} (hs : d.vint.sweep ≠ []) (hcel : d.spr.cellar = false) :
    d.epochNext = { d with vint := { d.vint with epochDue := true } } := if_pos ⟨hs, by simp [hcel]⟩

/-- The ager's operation: one bucket of the sweep, or its end where ageing has stopped. -/
def Dev.ageOnce (d : Dev) : Dev :=
  if d.spr.cellar ∨ d.maxAge = 0 then { d with vint := { d.vint with sweep := [] } } else d.ageBucket

theorem ageOnce_bucket {d : Dev} (hcel : d.spr.cellar = false) (hm : d.maxAge ≠ 0) : d.ageOnce = d.ageBucket :=
  if_neg (by simp [hcel, hm])

theorem ageOnce_stops {d : Dev} (hm : d.maxAge = 0) : d.ageOnce = { d with vint := { d.vint with sweep := [] } } := if_pos (.inr hm)

/-- The ager has its operation in its turn, while a sweep runs. -/
theorem yields_of_agerTurn {s : State} {e : Dev} (hc : Clocked pllT s) (ht : s.dev.engServes 2 = true) (hw : s.dev.vint.sweep ≠ [])
    (he : s.dev.ageOnce = e) : Yields .agerSweepOperation s (s.dev.keep (e.sweepOver.engDone 2)) := by
  refine yields_of_actIn (fun d => d.engOp 2 fun d => d.ageOnce.sweepOver) rfl hc ?_
  rw [engOp_turn _ ht (by simpa [Dev.engWaits] using hw), he]

/-- Settles O33: each row by the lemma on what it makes of the vintage or of the engine's source. -/
theorem vintageRows : Obligations.VintageRows := by
  unfold Obligations.VintageRows
  refine ⟨fun s o hc h ha hi => ?_, fun s o hc h hms ht => ?_, fun s hc ht => ?_, fun s o hc h hm hz hi => ?_,
    fun s n o hc hb hr hm hcl h => ?_, fun s it rest dsc hc ht hl hd hh hs hcel hf => ?_, fun s hc ht => ?_,
    fun s hc hs hcel hm => ?_, fun s hc hs hcel => ?_, fun s hc ht hs hcel hm => ?_, fun s hc ht hs hm => ?_⟩
  case refine_1 => exact yields_of_actIn _ rfl hc (by rw [reclaimAlone_free h ha hi]; exact keep_oldEnds _ _ _)
  case refine_2 => exact yields_of_actIn _ rfl hc (by rw [drainCheck_passed h hms ht]; exact keep_oldEnds _ _ _)
  case refine_3 => exact yields_of_actIn _ rfl hc (by rw [drainCheck_within ht]; rfl)
  case refine_4 =>
    have hframe := reclaimSend_frame h hm hz hi
    have hkeep : s.dev.keep s.dev.reclaimSend = s.dev.reclaimSend := by rw [hframe]; rfl
    exact ⟨_, yields_of_actIn Dev.reclaimSend rfl hc hkeep, congrArg Dev.vint hframe, reclaimSend_announces h hm hz hi,
      by rw [hframe]⟩
  case refine_5 =>
    exact yields_of_actIn (fun d => d.reclaimReceived n) rfl hc (by rw [reclaimReceived_obeyed hb hr hm hcl h]; exact keep_oldEnds _ _ _)
  case refine_6 =>
    refine yields_of_actIn (fun d => d.engOp 1 Dev.learnNext) rfl hc ?_
    rw [engOp_turn _ ht (by simp [Dev.engWaits, hl]), learnNext_new hl hd hh hs hcel hf]
  case refine_7 => exact yields_of_actIn (fun d => d.engOp 1 Dev.learnNext) rfl hc (by rw [engOp_early _ ht]; rfl)
  case refine_8 => exact yields_of_actIn _ rfl hc (by rw [epochNext_begins hs hcel hm]; rfl)
  case refine_9 => exact yields_of_actIn _ rfl hc (by rw [epochNext_waits hs hcel]; rfl)
  case refine_10 => exact yields_of_agerTurn hc ht hs (ageOnce_bucket hcel hm)
  case refine_11 => exact yields_of_agerTurn hc ht hs (ageOnce_stops hm)

end Sys2Proof.Machine
end

section
/-! The start of forwarding: what the checks of the pools, the pages and the roles leave as it is, and the DRAM pools that become
ready after it. -/
namespace Sys2Proof.Machine

/-! ## What the start of forwarding leaves alone (R165, R215, R307) -/

/-- The device without the parts that the start of forwarding checks and sets up, beside the register that names the initial
vintage. -/
def Dev.startKept (d : Dev) : Dev × Word :=
  ({ d with bpm := {}, regs := [], cnt := [], events := [], fab := {}, reach := 0#32 }, d.reg Reg.SL_VNT_CTRL)

theorem startKept_latchBit (d : Dev) {k : Nat} (b : Nat) (h : Reg.SL_VNT_CTRL ≠ k) : (d.latchBit k b).startKept = d.startKept :=
  Prod.ext rfl (d.reg_latchBit_ne h)

theorem startKept_logBit (d : Dev) (src idx b inst : Nat) (data : Bytes) : (d.logBit src idx b inst data).startKept = d.startKept :=
  Prod.ext (by unfold Dev.logBit; rw [log_frame]; rfl) (log_reg _ _ _ _ (by decide))

theorem startKept_buildLists (d : Dev) : d.buildLists.startKept = d.startKept := by
  refine foldl_field Dev.startKept _ (fun d n => ?_) _ d
  rfl

/-- A pool that fails its check is disabled, and shown. -/
theorem startKept_checkPool (d : Dev) (t n : Nat) : (d.checkPool t n).startKept = d.startKept := by
  unfold Dev.checkPool
  split
  · rfl
  · rw [startKept_logBit, startKept_latchBit _ _ (by decide)]
    rfl

theorem startKept_checkPools (d : Dev) : d.checkPools.startKept = d.startKept :=
  (foldl_field Dev.startKept _ (fun d _ => startKept_checkPool d _ _) _ _).trans (startKept_buildLists d)

theorem startKept_activatePages (d : Dev) (n : Nat) : (d.activatePages n).startKept = d.startKept := by
  unfold Dev.activatePages
  split <;> rfl

theorem startKept_updateReach (d : Dev) : d.updateReach.startKept = d.startKept := by
  refine foldl_field Dev.startKept _ (fun d i => ?_) _ _
  split
  · exact startKept_latchBit d _ (by decide)
  · rfl

theorem startKept_startRole (d : Dev) : d.startRole.startKept = d.startKept := by
  unfold Dev.startRole
  split <;> rfl

/-! ## The start of forwarding (R165, R469) -/

/-- Forwarding has started on the device: its initial vintage is current, and none is old. -/
def Dev.initialVintage (d : Dev) : Dev :=
  { d with vint := { d.vint with started := true, current := fld (d.reg Reg.SL_VNT_CTRL) 3 0, old := none } }

theorem startKept_initialVintage {d e : Dev} (h : e.startKept = d.startKept) :
    e.initialVintage.startKept = d.initialVintage.startKept :=
  congrArg (fun x : Dev × Word =>
    ({ x.1 with vint := { x.1.vint with started := true, current := fld x.2 3 0, old := none } }, x.2)) h

/-- The start of forwarding before it looks at the losses that start-up found. -/
def Dev.startSetUp (d : Dev) : Dev :=
  ((List.range 256).foldl (fun d n => d.activatePages n) d.checkPools.initialVintage).updateReach.startRole

theorem forwardingStarts_eq (d : Dev) : d.forwardingStarts = d.startSetUp.startLosses := rfl

theorem startKept_startSetUp (d : Dev) : d.startSetUp.startKept = d.initialVintage.startKept := by
  rw [Dev.startSetUp, startKept_startRole, startKept_updateReach, foldl_field Dev.startKept _ startKept_activatePages]
  exact startKept_initialVintage (startKept_checkPools d)

/-- Whether a stack or the table region is lost is a matter of the memory controllers. -/
theorem stackLost_congr {d e : Dev} (h : e.mc = d.mc) (k : Nat) : e.stackLost k = d.stackLost k := by
  unfold Dev.stackLost Dev.mcOf
  rw [h]

theorem tableLost_congr {d e : Dev} (h : e.mc = d.mc) : e.tableLost = d.tableLost := by
  simp only [Dev.tableLost, stackLost_congr h]

/-- Where start-up has found no loss, none follows. -/
theorem startLosses_none {d e : Dev} (he : e.startKept = d.initialVintage.startKept) (hf : d.boot.dukFailed = false)
    (hd : d.dukLost = false) (ht : d.tableLost = false) : e.startLosses = e := by
  have hboot : e.boot.dukFailed = false := (congrArg (·.1.boot.dukFailed) he).trans hf
  have hduk : e.dukLost = false := (congrArg (·.1.dukLost) he).trans hd
  have htable : e.tableLost = false := (tableLost_congr (congrArg (·.1.mc) he)).trans ht
  simp [Dev.startLosses, hboot, hduk, htable]

theorem startKept_forwardingStarts {d : Dev} (hf : d.boot.dukFailed = false) (hd : d.dukLost = false) (ht : d.tableLost = false) :
    d.forwardingStarts.startKept = d.initialVintage.startKept := by
  rw [forwardingStarts_eq, startLosses_none (startKept_startSetUp d) hf hd ht]
  exact startKept_startSetUp d

/-- What the plain form makes of such a start. -/
theorem keep_startKept {d e : Dev} (h : e.startKept = d.initialVintage.startKept) :
    (d.keep e).vint = { d.vint with started := true, current := fld (d.reg Reg.SL_VNT_CTRL) 3 0, old := none } ∧
      (d.keep e).time = d.time ∧ (d.keep e).boot = d.boot ∧ (d.keep e).slices = d.slices ∧ (d.keep e).ports = d.ports :=
  ⟨congrArg (·.1.vint) h, congrArg (fun x => { x.1.time with now := d.time.now }) h, congrArg (·.1.boot) h,
    congrArg (·.1.slices) h, congrArg (·.1.ports) h⟩

/-! ## The DRAM pools (R215, R539) -/

/-- The device but its buffer pool manager. -/
def Dev.sansBpm (d : Dev) : Dev := { d with bpm := {} }

theorem frame_of_sansBpm {d e : Dev} (h : e.sansBpm = d.sansBpm) : e = { d with bpm := e.bpm } :=
  congrArg (fun x : Dev => { x with bpm := e.bpm }) h

theorem sansBpm_buildDram (d : Dev) (n : Nat) : (d.buildDram n).sansBpm = d.sansBpm := by
  refine foldl_field Dev.sansBpm _ (fun d m => ?_) _ d
  split <;> rfl

/-- The pool of a class is ready. -/
def Dev.setReady (d : Dev) (n : Nat) : Dev := { d with bpm := { d.bpm with ready := Tbl.set false d.bpm.ready (4 + n) true } }

theorem ready_setReady (d : Dev) (n : Nat) : Tbl.get false (d.setReady n).bpm.ready (4 + n) = true :=
  Tbl.get_set_same false d.bpm.ready (4 + n) true

theorem sansBpm_setReady (d : Dev) (n : Nat) : (d.setReady n).sansBpm = d.sansBpm := rfl

/-- The class whose turn it is gets its lists, and its pool is ready. -/
theorem dramReady_next {d : Dev} {n : Nat} (hs : d.vint.started = true) (hn : d.poolDone n = false)
    (hb : (List.range n).all d.poolDone = true) : d.dramReady n = (d.buildDram n).setReady n :=
  if_pos ⟨hs, by simp [hn], hb⟩

/-- Settles O17: what forwarding starts with is what its set-up leaves alone, and a pool that becomes ready is a change of the
buffer pool manager. -/
theorem forwardingStart : Obligations.ForwardingStart := by
  unfold Obligations.ForwardingStart
  refine ⟨fun s hc hstep hs hf hd ht => ?_, fun s c hc hs hn hb => ?_⟩
  · have hrow : (if s.dev.boot.step = 8 ∧ !s.dev.vint.started then s.dev.forwardingStarts else s.dev) = s.dev.forwardingStarts :=
      if_pos ⟨hstep, by simp [hs]⟩
    exact ⟨_, yields_of_actIn _ rfl hc (congrArg s.dev.keep hrow), keep_startKept (startKept_forwardingStarts hf hd ht)⟩
  · have hframe := frame_of_sansBpm ((sansBpm_setReady _ c.val).trans (sansBpm_buildDram s.dev c))
    refine ⟨(s.dev.buildDram c).setReady c, yields_of_actIn (fun d => d.dramReady c) rfl hc ?_, ready_setReady _ _, hframe⟩
    rw [dramReady_next hs hn hb, hframe]
    rfl

end Sys2Proof.Machine
end

section
/-! Reports, plans and snapshots: what a device sends to its manager, what the manager records and computes, and what a message in
the inbox is answered with. -/
namespace Sys2Proof.Machine

/-! ## The rows (R331, R435) -/

/-- A row of the firmware in the fabric's domain makes of a device that it serves what its effect makes of it. -/
theorem yields_of_fabricServing {c : Instr} {s : State} {e : Dev} (f : Dev → Dev)
    (hx : exec c s = actIn pllFabric c s fun d => d.ifServing f) (hc : Clocked pllFabric s) (hs : s.dev.mgmt.serving = true)
    (he : s.dev.keep (f s.dev) = e) : Yields c s e :=
  yields_of_actIn _ hx hc (by rw [ifServing_serves f hs, he])

/-- What firmware would leave as it is stays, served or not. -/
theorem ifServing_idle {d : Dev} {f : Dev → Dev} (h : f d = d) : d.ifServing f = d := by
  unfold Dev.ifServing
  split
  · exact h
  · rfl

/-- With no message there is none to handle. -/
theorem onMessage_empty {d : Dev} (typ : Nat) (src : Option Nat) (f : Dev → Nat → Bytes → Dev) (h : d.fab.inbox = []) :
    d.onMessage typ src f = d := by simp [Dev.onMessage, Dev.takeInbox, h]

/-! ## Reports (R320) -/

/-- A worker sends its report to the manager that it obeys, and counts the admitted cells afresh. -/
theorem sendReport_worker {d : Dev} (hm : d.isManager = false) (ho : d.fab.obeyed ≠ 0) : d.sendReport =
    Dev.sendMsg { d with fab := { d.fab with admitted := [] } } 4 (claimDev d.fab.obeyed) d.report.bytes := by
  unfold Dev.sendReport
  rw [if_neg (by simp [hm]), if_pos ho]

/-! ## The manager's plan (R321, R338) -/

/-- What the manager notes of the plan that it has sent: its generation, the devices that must answer, a refusal, and the demand
reported. -/
def Dev.planNotes (d : Dev) : Nat × List Nat × Bool × List (Nat × List Bytes) :=
  (d.fab.planGen, d.fab.planWait, d.fab.planNack, d.fab.history)

theorem planNotes_writePage (d : Dev) (n dir page gen : Nat) (es : List (Nat × Word)) :
    (d.writePage n dir page gen es).planNotes = d.planNotes := by
  unfold Dev.writePage
  split <;> rfl

theorem planNotes_writeLane (d : Dev) (p : Plan) (all : List PlanShare) (relays : List (Nat × Nat × Nat × Nat)) (n peer : Nat) :
    (d.writeLane p all relays n peer).planNotes = d.planNotes := (planNotes_writePage _ _ _ _ _ _).trans (planNotes_writePage _ _ _ _ _ _)

theorem planNotes_updateReach (d : Dev) : d.updateReach.planNotes = d.planNotes := by
  refine foldl_field Dev.planNotes _ (fun d i => ?_) _ _
  split <;> rfl

/-- Expanding a plan writes pages. -/
theorem planNotes_expandPlan (d : Dev) (p : Plan) : (d.expandPlan p).planNotes = d.planNotes := by
  unfold Dev.expandPlan
  rw [planNotes_updateReach]
  exact foldl_field Dev.planNotes _ (fun d x => planNotes_writeLane d p _ _ _ _) _ d

/-- A broadcast queues fragments on links. -/
theorem planNotes_broadcast (d : Dev) (typ : Nat) (payload : Bytes) : (d.broadcast typ payload).planNotes = d.planNotes := by
  refine foldl_field Dev.planNotes _ (fun d v => ?_) _ _
  split <;> rfl

/-- While a device must answer, no switch is armed. -/
theorem armPlan_waits {d : Dev} (h : d.fab.planWait ≠ []) : d.armPlan = d := if_pos (.inr (.inl h))

theorem makePlan_gen (gen : Nat) (devs : List Nat) (topo : List (Nat × Nat)) (m : Demand) : (makePlan gen devs topo m).gen = gen := by
  unfold makePlan
  dsimp only
  split <;> rfl

/-- A plan that devices must answer takes the next generation and waits for them, with the demand collected afresh. -/
theorem planNotes_recompute {d : Dev} (hm : d.isManager = true) (hn : 2 ≤ d.systemDevs.length)
    (ha : d.answering d.systemDevs ≠ []) :
    d.recompute.planNotes = (nextGen d.fab.planGen, d.answering d.systemDevs, false, []) := by
  unfold Dev.recompute
  dsimp only
  rw [if_neg (by simp [hm]; omega)]
  have hsent (e : Dev) (p : Plan) : ((e.expandPlan p).broadcast 3 p.bytes).planNotes = e.planNotes := by
    rw [planNotes_broadcast, planNotes_expandPlan]
  rw [armPlan_waits, hsent]
  · exact Prod.ext (makePlan_gen _ _ _ _) rfl
  · exact fun h => ha ((congrArg (·.2.1) (hsent _ _)).symm.trans h)

/-- A device that is no manager, or has no system, computes nothing. -/
theorem recompute_idle {d : Dev} (h : d.isManager = false ∨ d.systemDevs.length < 2) : d.recompute = d :=
  if_pos (h.imp_left fun hm => by simp [hm])

/-! ## A plan received (R331, R338) -/

/-- A whole plan of the obeyed manager is expanded, and answered with ACK where every page was written. -/
theorem planReceived_expands {d : Dev} {v : Nat} {bs : Bytes} (hm : d.fromManager v = true) (hl : bs.length = planLen)
    (hg : (Plan.ofBytes bs).gen ≠ 0) : d.planReceived v bs = (d.expandPlan (Plan.ofBytes bs)).sendMsg 2 v
      (answerBytes ((d.expandPlan (Plan.ofBytes bs)).planWritten (Plan.ofBytes bs)) true (Plan.ofBytes bs).gen 0) := by
  unfold Dev.planReceived
  dsimp only
  rw [if_neg (by simp [hm]), if_pos ⟨hl, hg⟩]

theorem planReceived_broken {d : Dev} {v : Nat} {bs : Bytes} (hm : d.fromManager v = true)
    (hb : bs.length ≠ planLen ∨ (Plan.ofBytes bs).gen = 0) :
    d.planReceived v bs = d.sendMsg 2 v (answerBytes false true (Plan.ofBytes bs).gen 0) := by
  unfold Dev.planReceived
  dsimp only
  rw [if_neg (by simp [hm]), if_neg (by tauto)]

theorem planReceived_foreign {d : Dev} {v : Nat} (bs : Bytes) (hm : d.fromManager v = false) :
    d.planReceived v bs = d.foreignMsg := by simp [Dev.planReceived, hm]

/-- The row of a plan that has come while the firmware serves. -/
theorem yields_of_plan {s : State} {v : Nat} {bs : Bytes} {d1 e : Dev} (hc : Clocked pllFabric s) (hs : s.dev.mgmt.serving = true)
    (ht : s.dev.takeInbox 3 none = (some (v, bs), d1)) (he : d1.planReceived v bs = e) : Yields .planReceive s (s.dev.keep e) :=
  yields_of_fabricServing (fun d => d.onMessage 3 none fun d v bs => d.planReceived v bs) rfl hc hs
    (congrArg s.dev.keep ((onMessage_taken _ ht).trans he))

/-! ## Snapshots (R336) -/

/-- The device with a snapshot of multiframe count `n` in its racking region, counted and shown. -/
def Dev.storeSnap (d : Dev) (n : Nat) (bs : Bytes) : Dev :=
  (((d.dramWrite rackRegion 0 bs).setFab { d.fab with snapshot := some n }).inc bankTrl 20).latchBit Reg.TRL_MGR_STATUS 9

theorem snapshot_storeSnap (d : Dev) (n : Nat) (bs : Bytes) : (d.storeSnap n bs).fab.snapshot = some n := by
  unfold Dev.storeSnap
  rw [Dev.latchBit_fab, Dev.inc_fab]
  rfl

theorem status_storeSnap (d : Dev) (n : Nat) (bs : Bytes) : bit ((d.storeSnap n bs).reg Reg.TRL_MGR_STATUS) 9 = true :=
  latchBit_sets _ _ 9 (by decide)

/-- A standby candidate stores a whole snapshot. -/
theorem snapReceived_whole {d : Dev} {v : Nat} {bs : Bytes} (hc : d.candidate = true) (hr : d.fab.role = 1) (hl : bs.length = snapLen)
    (ht : d.tableLost = false) : d.snapReceived v bs = (d.sentAt v).2.storeSnap (d.sentAt v).1 bs :=
  if_pos ⟨hc, hr, hl, by simp [ht]⟩

/-- Settles O46: each row by the lemma on what it makes of the message or of the plan. -/
theorem managerMessages : Obligations.ManagerMessages := by
  unfold Obligations.ManagerMessages
  refine ⟨fun s hc hs hm ho => ?_, fun s src v bs d1 hc hs ht => ?_, fun s src hc hi => ?_, fun s hc hs hm hn ha => ?_,
    fun s hc h => ?_, fun s v bs d1 hc hs ht => ⟨fun hm hl hg d2 hd => ?_, fun hm hb => ?_, fun hm => ?_⟩, fun s hc => ?_,
    fun s v bs d1 m hc ht hcand hr hl htab hsent => ?_⟩
  case refine_1 => exact yields_of_fabricServing Dev.sendReport rfl hc hs (congrArg s.dev.keep (sendReport_worker hm ho))
  case refine_2 =>
    exact yields_of_fabricServing (fun d => d.onMessage 4 (some src.val) fun d v bs => d.reportReceived v bs) rfl hc hs
      (congrArg s.dev.keep (onMessage_taken _ ht))
  case refine_3 =>
    refine yields_of_actIn
      (fun d => d.ifServing fun d => d.onMessage 4 (some src.val) fun d v bs => d.reportReceived v bs) rfl hc ?_
    rw [ifServing_idle (onMessage_empty _ _ _ hi)]
    rfl
  case refine_4 =>
    have hnotes := planNotes_recompute hm hn ha
    exact ⟨_, yields_of_fabricServing Dev.recompute rfl hc hs rfl, congrArg (·.1) hnotes, congrArg (·.2.1) hnotes,
      congrArg (·.2.2.1) hnotes, congrArg (·.2.2.2) hnotes⟩
  case refine_5 =>
    refine yields_of_actIn (fun d => d.ifServing Dev.recompute) rfl hc ?_
    rw [ifServing_idle (recompute_idle h)]
    rfl
  case refine_6 =>
    subst hd
    exact yields_of_plan hc hs ht (planReceived_expands hm hl hg)
  case refine_7 => exact yields_of_plan hc hs ht (planReceived_broken hm hb)
  case refine_8 => exact yields_of_plan hc hs ht (planReceived_foreign bs hm)
  case refine_9 => exact yields_of_actIn Dev.snapSend rfl hc (apply_ite s.dev.keep _ _ _)
  case refine_10 =>
    subst hsent
    have hrow : Yields .snapshotReceive s (s.dev.keep ((d1.sentAt v).2.storeSnap (d1.sentAt v).1 bs)) :=
      yields_of_actIn (fun d => d.onMessage 5 none fun d v bs => d.snapReceived v bs) rfl hc
        (congrArg s.dev.keep ((onMessage_taken _ ht).trans (snapReceived_whole hcand hr hl htab)))
    exact ⟨hrow, _, hrow, snapshot_storeSnap _ _ _, status_storeSnap _ _ _⟩

end Sys2Proof.Machine
end

section
/-! The buffer pool manager: what its refusals record, what an operation makes of a state entry, and what a cycle of an allocator makes
of the requests that wait. -/
namespace Sys2Proof.Machine

/-! ## Records (R202 to R204) -/

/-- `e` is `d` with more recorded: in registers, counters and events, and in the count of the refusals left out of the log (R204). -/
def Recorded (d e : Dev) : Prop :=
  ∃ regs cnt events quiet, e = { d with regs := regs, cnt := cnt, events := events, bpm := { d.bpm with quiet := quiet } }

theorem Recorded.trans {d e f : Dev} (h1 : Recorded d e) (h2 : Recorded e f) : Recorded d f := by
  obtain ⟨_, _, _, _, rfl⟩ := h1
  obtain ⟨_, _, _, _, rfl⟩ := h2
  exact ⟨_, _, _, _, rfl⟩

theorem Recorded.bufs {d e : Dev} (h : Recorded d e) : e.bpm.bufs = d.bpm.bufs := by
  obtain ⟨_, _, _, _, rfl⟩ := h
  rfl

theorem Recorded.free {d e : Dev} (h : Recorded d e) : e.bpm.free = d.bpm.free := by
  obtain ⟨_, _, _, _, rfl⟩ := h
  rfl

theorem Recorded.host {d e : Dev} (h : Recorded d e) : e.host = d.host := by
  obtain ⟨_, _, _, _, rfl⟩ := h
  rfl

theorem Recorded.keep {d e : Dev} (h : Recorded d e) : d.keep e = e := by
  obtain ⟨_, _, _, _, rfl⟩ := h
  rfl

theorem recorded_inc (d : Dev) (b i : Nat) : Recorded d (d.inc b i) := ⟨_, _, _, _, bump_eq d b i 1⟩

theorem recorded_setReg (d : Dev) (k : Nat) (v : Word) : Recorded d (d.setReg k v) := ⟨_, _, _, _, rfl⟩

theorem recorded_latchBit (d : Dev) (k b : Nat) : Recorded d (d.latchBit k b) := recorded_setReg _ _ _

theorem recorded_log (d : Dev) (src code : Nat) (data : Bytes) : Recorded d (d.log src code data) :=
  ⟨_, _, _, _, log_frame d src code data⟩

theorem recorded_bpmFault (d : Dev) (kind party found h : Nat) : Recorded d (d.bpmFault kind party found h) :=
  (recorded_setReg _ _ _).trans (recorded_setReg _ _ _)

/-- A refusal, logged or left out, is no more than a record when its log entry is. -/
theorem recorded_logRefusal (d : Dev) (kind party : Nat) {mk : Dev → Bytes → Dev} (h : ∀ e n, Recorded e (mk e n)) :
    Recorded d (d.logRefusal kind party mk) := by
  unfold Dev.logRefusal
  dsimp only
  split
  · split
    · exact ⟨_, _, _, _, rfl⟩
    · exact .trans ⟨_, _, _, _, rfl⟩ (h _ _)
  · exact .trans ⟨_, _, _, _, rfl⟩ (h _ _)

/-- It shows in a register only what its log entry shows there. -/
theorem reg_logRefusal (d : Dev) (kind party : Nat) {mk : Dev → Bytes → Dev} {k : Nat} (h : ∀ e n, (mk e n).reg k = e.reg k) :
    (d.logRefusal kind party mk).reg k = d.reg k := by
  unfold Dev.logRefusal
  dsimp only
  split
  · split
    · rfl
    · exact h _ _
  · exact h _ _

theorem recorded_revokedOp (d : Dev) (op party h : Nat) : Recorded d (d.revokedOp op party h) := by
  unfold Dev.revokedOp
  exact ((recorded_inc _ _ _).trans (recorded_bpmFault _ _ _ _ _)).trans (recorded_logRefusal _ _ _ fun _ _ => recorded_log _ _ _ _)

theorem recorded_retiredOp (d : Dev) (op party h : Nat) : Recorded d (d.retiredOp op party h) := by
  unfold Dev.retiredOp
  exact ((recorded_inc _ _ _).trans (recorded_bpmFault _ _ _ _ _)).trans (recorded_logRefusal _ _ _ fun _ _ => recorded_log _ _ _ _)

/-- What double frees and foreign operations share: bit `b` of BPM_STATUS, the last fault, and the log entry of the bit. -/
def Dev.refusalShown (d : Dev) (b kind party found h : Nat) : Dev :=
  ((d.latchBit Reg.BPM_STATUS b).bpmFault kind party found h).logRefusal kind party fun e n => e.logBit 0x50 0 b 0 (refusalData [] n)

theorem doubleFree_shown (d : Dev) (party h : Nat) :
    d.doubleFree party h = (d.inc bankBpm 12).refusalShown 10 1 party (d.buf h).tag h := rfl

theorem foreignOp_shown (d : Dev) (kind party h : Nat) :
    d.foreignOp kind party h = (d.inc bankBpm 13).refusalShown 11 kind party (d.buf h).tag h := rfl

theorem recorded_refusalShown (d : Dev) (b kind party found h : Nat) : Recorded d (d.refusalShown b kind party found h) :=
  ((recorded_latchBit _ _ _).trans (recorded_bpmFault _ _ _ _ _)).trans (recorded_logRefusal _ _ _ fun _ _ => recorded_log _ _ _ _)

theorem recorded_doubleFree (d : Dev) (party h : Nat) : Recorded d (d.doubleFree party h) := by
  rw [doubleFree_shown]
  exact (recorded_inc _ _ _).trans (recorded_refusalShown _ _ _ _ _ _)

theorem recorded_foreignOp (d : Dev) (kind party h : Nat) : Recorded d (d.foreignOp kind party h) := by
  rw [foreignOp_shown]
  exact (recorded_inc _ _ _).trans (recorded_refusalShown _ _ _ _ _ _)

/-- A refusal shown lets every register but MGMT_EVT_LOST read as its fault left it. -/
theorem reg_refusalShown (d : Dev) (b kind party found h : Nat) {k : Nat} (hk : k ≠ Reg.MGMT_EVT_LOST) :
    (d.refusalShown b kind party found h).reg k = ((d.latchBit Reg.BPM_STATUS b).bpmFault kind party found h).reg k :=
  reg_logRefusal _ _ _ fun _ _ => log_reg _ _ _ _ hk

theorem status_refusalShown (d : Dev) {b : Nat} (kind party found h : Nat) (hb : b < 24) :
    bit ((d.refusalShown b kind party found h).reg Reg.BPM_STATUS) b = true := by
  rw [reg_refusalShown _ _ _ _ _ _ (by decide), Dev.bpmFault, Dev.reg_setReg_ne _ _ (by decide), Dev.reg_setReg_ne _ _ (by decide)]
  exact latchBit_sets _ _ _ hb

theorem lastFaultBuf_refusalShown (d : Dev) (b kind party found h : Nat) :
    (d.refusalShown b kind party found h).reg Reg.BPM_LAST_FAULT_BUF = wd h :=
  (reg_refusalShown _ _ _ _ _ _ (by decide)).trans (Dev.reg_setReg_same _ _ _)

theorem lastFault_refusalShown (d : Dev) (b kind party found h : Nat) :
    (d.refusalShown b kind party found h).reg Reg.BPM_LAST_FAULT = wd (kind * 2 ^ 28 + party * 2 ^ 24 + found * 2 ^ 20) := by
  rw [reg_refusalShown _ _ _ _ _ _ (by decide), Dev.bpmFault, Dev.reg_setReg_ne _ _ (by decide), Dev.reg_setReg_same]

theorem wd_toNat (h : Word) : wd h.toNat = h := by simp [wd]

/-- A refusal, counted and shown, changes no buffer and names what it refused (R202, R203). -/
theorem refusalShown_effect {d e : Dev} {c b kind party found : Nat} {h : Word}
    (he : e = (d.inc bankBpm c).refusalShown b kind party found h.toNat) (hb : b < 24) :
    e.bpm.bufs = d.bpm.bufs ∧ e.bpm.free = d.bpm.free ∧ bit (e.reg Reg.BPM_STATUS) b = true ∧ e.reg Reg.BPM_LAST_FAULT_BUF = h ∧
      e.reg Reg.BPM_LAST_FAULT = wd (kind * 2 ^ 28 + party * 2 ^ 24 + found * 2 ^ 20) := by
  subst he
  have hrec := (recorded_inc d bankBpm c).trans (recorded_refusalShown _ b kind party found h.toNat)
  exact ⟨hrec.bufs, hrec.free, status_refusalShown _ _ _ _ _ hb, (lastFaultBuf_refusalShown ..).trans (wd_toNat h),
    lastFault_refusalShown ..⟩

/-! ## Operations on a state entry (R197) -/

/-- A party holds a buffer: its tag is not closed, and the buffer is allocated, not RETIRED, and the party's to operate on. -/
structure Holds (d : Dev) (party h : Nat) : Prop where
  live : d.tagState party ≠ .closed
  alloc : (d.buf h).alloc = true
  kept : (d.buf h).tag ≠ 15
  owns : ownsBuf party (d.buf h).tag = true

theorem bufHandOver_held {d : Dev} {party h : Nat} (newTag : Nat) (hh : Holds d party h) :
    d.bufHandOver party h newTag = d.setBuf h { d.buf h with tag := newTag, marked := true } := by
  simp [Dev.bufHandOver, hh.live, hh.alloc, hh.kept, hh.owns]

theorem bufSetRefs_held {d : Dev} {party h n : Nat} (hh : Holds d party h) (h0 : 0 < n) (hn : n ≤ 4095) :
    d.bufSetRefs party h n = d.setBuf h { d.buf h with refs := n } := by
  simp [Dev.bufSetRefs, hh.live, hh.alloc, hh.kept, hh.owns, h0.ne', hn]

/-- A free by the holder takes one reference, and the last returns the buffer. -/
theorem bufFree_held {d : Dev} {party h : Nat} (hh : Holds d party h) : d.bufFree party h =
    if 1 < (d.buf h).refs then d.setBuf h { d.buf h with refs := (d.buf h).refs - 1, marked := true } else d.returnBuf h := by
  simp [Dev.bufFree, hh.live, hh.alloc, hh.kept, hh.owns]

theorem bufHandOver_revoked {d : Dev} {party : Nat} (h newTag : Nat) (hs : d.tagState party = .closed) :
    d.bufHandOver party h newTag = d.revokedOp 3 party h := if_pos hs

theorem bufHandOver_foreign {d : Dev} {party h : Nat} (newTag : Nat) (hs : d.tagState party ≠ .closed)
    (ha : (d.buf h).alloc = true) (ht : (d.buf h).tag ≠ 15) (ho : ownsBuf party (d.buf h).tag = false) :
    d.bufHandOver party h newTag = d.foreignOp 3 party h := by
  simp [Dev.bufHandOver, hs, ha, ht, ho]

theorem bufFree_retired {d : Dev} {party h : Nat} (hs : d.tagState party ≠ .closed) (ha : (d.buf h).alloc = true)
    (ht : (d.buf h).tag = 15) : d.bufFree party h = d.retiredOp 2 party h := by
  simp [Dev.bufFree, hs, ha, ht]

theorem bufFree_free {d : Dev} {party h : Nat} (hs : d.tagState party ≠ .closed) (ha : (d.buf h).alloc = false) :
    d.bufFree party h = d.doubleFree party h := by
  simp [Dev.bufFree, hs, ha]

/-- The device with a buffer free again, at the tail of its list (R539). -/
def Dev.bufReturned (d : Dev) (h : Nat) : Dev :=
  (d.setBuf h { alloc := false, tag := (d.buf h).tag, refs := 0, marked := true, suspect := false }).setFreeList (d.listKey h)
    (d.freeList (d.listKey h) ++ [{ start := hIdx h, step := 1, cnt := 1 }])

theorem bufReturned_frame (d : Dev) (h : Nat) : d.bufReturned h = { d with bpm := (d.bufReturned h).bpm } := rfl

theorem alloc_bufReturned (d : Dev) (h : Nat) : ((d.bufReturned h).buf h).alloc = false :=
  congrArg BufEntry.alloc (d.buf_setBuf_same h _)

theorem buf_bufReturned_ne (d : Dev) {h g : Nat} (hg : g ≠ h) : (d.bufReturned h).buf g = d.buf g := d.buf_setBuf_ne _ hg

theorem freeList_bufReturned (d : Dev) (h : Nat) : (d.bufReturned h).freeList (d.listKey h) =
    d.freeList (d.listKey h) ++ [{ start := hIdx h, step := 1, cnt := 1 }] := Dev.freeList_setFreeList_same _ _ _

theorem freeList_bufReturned_ne (d : Dev) {h k : Nat} (hk : k ≠ d.listKey h) : (d.bufReturned h).freeList k = d.freeList k :=
  Dev.freeList_setFreeList_ne _ _ hk

/-- A buffer of a stack that is not lost returns to its list. -/
theorem returnBuf_kept {d : Dev} {h : Nat} (hl : d.onLostStack h = false) : d.returnBuf h = d.bufReturned h := if_neg (by simp [hl])

/-- An entry found good is operated on as it is. -/
theorem readEntry_good (d : Dev) (h : Nat) : d.readEntry h false = d := rfl

/-- One found uncorrectable is retired first (R214). -/
theorem readEntry_bad {d : Dev} {h : Nat} (hh : d.hasEntry h = true) : d.readEntry h true = d.stateEcc h := by
  simp [Dev.readEntry, Dev.stateEccs, hh]

theorem buf_stateEcc (d : Dev) (h : Nat) :
    (d.stateEcc h).buf h = { alloc := true, tag := 15, refs := 1, marked := true } := by
  unfold Dev.stateEcc Dev.countRetired Dev.buf
  rw [Dev.logBit_bpm, Dev.latchBit_bpm, Dev.inc_bpm]
  dsimp only
  rw [Dev.inc_bpm]
  exact Dev.buf_setBuf_same _ _ _

/-! ## BPM_RSV (R198) -/

theorem rsvWrite_within {d : Dev} {o t c : Nat} {v : Word} (h : d.rsvSum o t c (fld v 28 0) ≤ d.rsvLimit t c) :
    d.rsvWrite o t c v = d.setReg (Reg.BPM_RSV o t c) (wd (fld v 28 0)) := if_pos h

theorem rsvWrite_beyond {d : Dev} {o t c : Nat} {v : Word} (h : d.rsvLimit t c < d.rsvSum o t c (fld v 28 0)) :
    d.rsvWrite o t c v = (d.latchBit Reg.BPM_STATUS 9).logBit 0x50 0 9 0 [] := if_neg (not_le.mpr h)

theorem bpmRsv_ne_status (o t c : Nat) : Reg.BPM_RSV o t c ≠ Reg.BPM_STATUS := by
  unfold Reg.BPM_RSV Reg.BPM_STATUS
  omega

theorem bpmRsv_ne_evtLost (o : Fin 14) (t : Fin 2) (c : Fin 4) : Reg.BPM_RSV o t c ≠ Reg.MGMT_EVT_LOST := by
  unfold Reg.BPM_RSV Reg.MGMT_EVT_LOST
  omega

/-! ## The end of a packet's buffers and of its injection (Table 7.3, R386) -/

theorem host_returnBuf (d : Dev) (h : Nat) : (d.returnBuf h).host = d.host := by
  unfold Dev.returnBuf Dev.countRetired
  dsimp only
  split
  · rw [Dev.latchBit_host, Dev.inc_host]
    rfl
  · rfl

/-- FREE, refused or not, is nothing to the host interface. -/
theorem host_bufFree (d : Dev) (party h : Nat) : (d.bufFree party h).host = d.host := by
  have hset (x : BufEntry) : (d.setBuf h x).host = d.host := rfl
  simp only [Dev.bufFree, apply_ite Dev.host, (recorded_revokedOp d _ _ _).host, (recorded_retiredOp d _ _ _).host,
    (recorded_doubleFree d _ _).host, (recorded_foreignOp d _ _ _).host, hset, host_returnBuf, ite_self]

theorem host_freeOpt (d : Dev) (party : Nat) (h : Option Nat) : (d.freeOpt party h).host = d.host := by
  cases h with
  | none => rfl
  | some h => exact host_bufFree d party h

theorem host_endShare (d : Dev) (k : Pkt) : (d.endShare k).host = d.host := by
  unfold Dev.endShare
  split <;> rfl

theorem host_release (d : Dev) (k : Pkt) : (d.release k).host = d.host := by
  rw [Dev.release, endHold_frame]
  dsimp only
  rw [host_endShare, host_freeOpt, host_freeOpt, host_freeOpt]

/-- Nor is the drop of a packet. -/
theorem host_dropPkt (d : Dev) (k : Pkt) : (d.dropPkt k).host = d.host := by
  unfold Dev.dropPkt Dev.copyFail
  split
  · rw [Dev.inc_host, host_release]
  · split
    · split
      · rw [Dev.inc_host, host_release]
      · exact host_release d k
    · exact host_release d k

/-- Without command rings no injection waits to end. -/
theorem settleInjections_none {d : Dev} (h : d.host.sqs = []) : d.settleInjections = d := by
  unfold Dev.settleInjections
  rw [h]
  rfl

/-! ## The tags served in a cycle (R199) -/

/-- The tags in the order from the pointer. -/
def tagsFrom (p : Nat) : List Nat := (List.range 14).map fun i => (p + i) % 14

theorem nodup_tagsFrom (p : Nat) : (tagsFrom p).Nodup :=
  List.Nodup.map_on (fun i hi j hj h => by rw [List.mem_range] at hi hj; omega) List.nodup_range

theorem mem_tagsFrom (p : Nat) {t : Nat} (h : t < 14) : t ∈ tagsFrom p :=
  List.mem_map.mpr ⟨(t + 14 - p % 14) % 14, List.mem_range.mpr (by omega), by omega⟩

theorem filter_tagsFrom (p : Nat) {t : Nat} (h : t < 14) : (tagsFrom p).filter (· == t) = [t] := by
  rw [List.filter_beq, List.count_eq_one_of_mem (nodup_tagsFrom p) (mem_tagsFrom p h)]
  rfl

theorem servedTags_none {d : Dev} (k : Nat) (h : d.bpm.waiting = []) : d.servedTags k = [] := by
  simp [Dev.servedTags, Dev.reqsOf, h]

/-- The one request that waits is found under its own tag alone. -/
theorem reqsOf_one {d : Dev} {r : AllocReq} (h : d.bpm.waiting = [r]) (t : Nat) :
    d.reqsOf r.pool t = if t = d.reqTag r then [r] else [] := by
  by_cases ht : t = d.reqTag r
  · simp [Dev.reqsOf, h, ht]
  · simp [Dev.reqsOf, h, ht, Ne.symm ht]

theorem servedTags_one {d : Dev} {r : AllocReq} (h : d.bpm.waiting = [r]) (ht : d.reqTag r < 14) :
    d.servedTags r.pool = [d.reqTag r] := by
  have hp : (fun t => !((d.reqsOf r.pool t) == [])) = (· == d.reqTag r) := by
    funext t
    rw [reqsOf_one h]
    by_cases he : t = d.reqTag r <;> simp [he]
  unfold Dev.servedTags
  dsimp only
  rw [hp]
  exact congrArg (List.take 4) (filter_tagsFrom _ ht)

/-! ## A cycle of an allocator (R199 to R201) -/

/-- With nothing waiting the cycle moves the pointer alone. -/
theorem allocCycle_none {d : Dev} (k : Nat) (h : d.bpm.waiting = []) : d.allocCycle k = { d with bpm := { d.bpm with
    ptr := Tbl.set 0 d.bpm.ptr k ((Tbl.get 0 d.bpm.ptr k + 1) % 14) } } := by
  unfold Dev.allocCycle Dev.nextPtr
  rw [servedTags_none k h]
  rfl

/-- The device after the last request that waited is taken for its cycle, in which the pointer of the pool moves past its tag. -/
def Dev.lastTaken (d : Dev) (k tag : Nat) : Dev :=
  { d with bpm := { d.bpm with waiting := [], ptr := Tbl.set 0 d.bpm.ptr k ((tag + 1) % 14) } }

theorem lastTaken_frame (d : Dev) (k tag : Nat) : d.lastTaken k tag = { d with bpm := (d.lastTaken k tag).bpm } := rfl

/-- The cycle of the one request that waits serves it. -/
theorem allocCycle_one {d : Dev} {r : AllocReq} (h : d.bpm.waiting = [r]) (ht : d.reqTag r < 14) : d.allocCycle r.pool =
    (Dev.serveReq ((d.lastTaken r.pool (d.reqTag r)).sharedFree r.pool, d.lastTaken r.pool (d.reqTag r)) r).2 := by
  have hnow : (([d.reqTag r]).flatMap fun t => (d.reqsOf r.pool t).take 64) = [r] := by simp [reqsOf_one h]
  have hrest : removeReqs [r] [r] = [] := by simp [removeReqs]
  unfold Dev.allocCycle Dev.nextPtr
  rw [servedTags_one h ht]
  dsimp only
  rw [hnow, h, hrest]
  rfl

/-- A pool that is not open fails a live party's request, counted (R215). -/
theorem allocOne_closed {d : Dev} {k tag len : Nat} (sh : Int) (hs : d.tagState tag = .live) (hl : sizeClass len ≠ none)
    (hp : d.poolOpen k = false) : d.allocOne k tag len sh = (none, sh, (d.inc bankBpm 10).countFail k) := by
  simp [Dev.allocOne, hs, hl, hp]

/-- A live tag below its minimum has a buffer of an open pool if there is one (R200). -/
theorem allocOne_belowMin {d : Dev} {k tag len h : Nat} {e : Dev} (sh : Int) (hs : d.tagState tag = .live)
    (hl : sizeClass len ≠ none) (hp : d.poolOpen k = true) (hm : d.held tag k < d.minOf tag k)
    (ht : d.takeBuf k tag = some (h, e)) : d.allocOne k tag len sh = (some h, sh, e) := by
  simp [Dev.allocOne, hs, hl, hp, hm, ht]

/-- The device with a buffer handed out under a tag, and `rest` left on its list. -/
def Dev.bufTaken (d : Dev) (k h tag : Nat) (rest : List Seg) : Dev :=
  (d.setFreeList k rest).setBuf h { alloc := true, tag := tag, refs := 1, marked := true }

theorem bufTaken_frame (d : Dev) (k h tag : Nat) (rest : List Seg) :
    d.bufTaken k h tag rest = { d with bpm := (d.bufTaken k h tag rest).bpm } := rfl

theorem freeList_bufTaken (d : Dev) (k h tag : Nat) (rest : List Seg) : (d.bufTaken k h tag rest).freeList k = rest :=
  d.freeList_setFreeList_same k rest

theorem buf_bufTaken (d : Dev) (k h tag : Nat) (rest : List Seg) :
    (d.bufTaken k h tag rest).buf h = { alloc := true, tag := tag, refs := 1, marked := true } := Dev.buf_setBuf_same _ _ _

/-- An on-die pool hands out the head of its list (R539). -/
theorem takeBuf_onDie {d : Dev} {k i : Nat} (tag : Nat) {rest : List Seg} (hk : k < 8) (hp : popSeg (d.freeList k) = some (i, rest)) :
    d.takeBuf k tag = some (mkHandle 0 (k % 4) i, d.bufTaken k (mkHandle 0 (k % 4) i) tag rest) := by
  simp [Dev.takeBuf, Dev.bufTaken, poolTier, poolCls, hk, hp]

/-- A packet goes on to admission with the buffer granted to it, under the tag of the buffer (R193). -/
def Dev.granted (d : Dev) (k : Pkt) (h : Nat) : Dev :=
  { d with qm := { d.qm with arrived := d.qm.arrived ++ [{ k with handle := some h, tag := (d.buf h).tag }] } }

theorem granted_frame (d : Dev) (k : Pkt) (h : Nat) : d.granted k h = { d with qm := (d.granted k h).qm } := rfl

/-- From the request taken to the packet passed on, a grant changes the buffer pool manager and what waits for admission. -/
theorem grant_frame (d : Dev) (k h tag : Nat) (rest : List Seg) (p : Pkt) : ((d.lastTaken k tag).bufTaken k h tag rest).granted p h =
    { d with bpm := (((d.lastTaken k tag).bufTaken k h tag rest).granted p h).bpm,
             qm := (((d.lastTaken k tag).bufTaken k h tag rest).granted p h).qm } := by
  rw [granted_frame, bufTaken_frame, lastTaken_frame]

theorem freeList_granted (d : Dev) (k : Pkt) (h l : Nat) : (d.granted k h).freeList l = d.freeList l := rfl

theorem buf_granted (d : Dev) (k : Pkt) (h g : Nat) : (d.granted k h).buf g = d.buf g := rfl

theorem arrived_granted (d : Dev) (k : Pkt) (h : Nat) :
    (d.granted k h).qm.arrived = d.qm.arrived ++ [{ k with handle := some h, tag := (d.buf h).tag }] := rfl

theorem serveReq_granted {d e : Dev} {r : AllocReq} {sh : Int} {h : Nat} (hu : r.use = .handoff)
    (ha : d.allocOne r.pool (d.reqTag r) r.pkt.len sh = (some h, sh, e)) :
    (Dev.serveReq (sh, d) r).2 = e.granted r.pkt h := by
  unfold Dev.serveReq Dev.serveHandoff
  rw [hu]
  dsimp only
  rw [ha]
  rfl

theorem serveReq_failed {d e : Dev} {r : AllocReq} {sh : Int} (hu : r.use = .handoff)
    (ha : d.allocOne r.pool (d.reqTag r) r.pkt.len sh = (none, sh, e)) :
    (Dev.serveReq (sh, d) r).2 = e.dropPkt r.pkt := by
  unfold Dev.serveReq Dev.serveHandoff
  rw [hu]
  dsimp only
  rw [ha]

theorem reqTag_running {d : Dev} (r : AllocReq) (h : d.spr.cellar = false) : d.reqTag r = r.tag := if_neg (by simp [h])

/-- The one request that waits, of a live tag below its minimum at an open on-die pool, has the head of the list. -/
theorem allocCycle_belowMin {d : Dev} {r : AllocReq} {i : Nat} {rest : List Seg} (hw : d.bpm.waiting = [r]) (hk : r.pool < 8)
    (hu : r.use = .handoff) (hc : d.spr.cellar = false) (ht : r.tag < 14) (hs : d.tagState r.tag = .live)
    (hl : sizeClass r.pkt.len ≠ none) (hp : d.poolOpen r.pool = true) (hm : d.held r.tag r.pool < d.minOf r.tag r.pool)
    (hi : popSeg (d.freeList r.pool) = some (i, rest)) :
    d.allocCycle r.pool = ((d.lastTaken r.pool r.tag).bufTaken r.pool (mkHandle 0 (r.pool % 4) i) r.tag rest).granted r.pkt
      (mkHandle 0 (r.pool % 4) i) := by
  have hr := reqTag_running r hc
  rw [allocCycle_one hw (hr.trans_lt ht), hr]
  refine serveReq_granted hu ?_
  rw [reqTag_running r (d := d.lastTaken r.pool r.tag) hc]
  exact allocOne_belowMin _ hs hl hp hm (takeBuf_onDie _ hk hi)

/-- At a pool that is not open it fails, and its packet is dropped. -/
theorem allocCycle_closed {d : Dev} {r : AllocReq} (hw : d.bpm.waiting = [r]) (hu : r.use = .handoff) (hc : d.spr.cellar = false)
    (ht : r.tag < 14) (hs : d.tagState r.tag = .live) (hl : sizeClass r.pkt.len ≠ none) (hp : d.poolOpen r.pool = false) :
    d.allocCycle r.pool = (((d.lastTaken r.pool r.tag).inc bankBpm 10).countFail r.pool).dropPkt r.pkt := by
  have hr := reqTag_running r hc
  rw [allocCycle_one hw (hr.trans_lt ht), hr]
  refine serveReq_failed hu ?_
  rw [reqTag_running r (d := d.lastTaken r.pool r.tag) hc]
  exact allocOne_closed _ hs hl hp

/-! ## The rows -/

/-- The plain form passes on a change of the buffer pool manager and the queue manager. -/
theorem keep_bpm_qm {d e : Dev} (h : e = { d with bpm := e.bpm, qm := e.qm }) : d.keep e = e := by
  rw [h]
  rfl

/-- A cycle that finds no entry uncorrectable, of a device without command rings, does what the allocator does. -/
theorem yields_of_allocCycle {s : State} {k : Fin 12} {e : Dev} (hc : Clocked pllT s) (ha : s.dev.allocCycle k = e)
    (hq : e.host.sqs = []) : Yields (.bufferAllocate k []) s (s.dev.keep e) := by
  refine yields_of_actIn (fun d => ((d.retireFree k []).allocCycle k).settleInjections) rfl hc (congrArg s.dev.keep ?_)
  exact (congrArg Dev.settleInjections ha).trans (settleInjections_none hq)

theorem yields_of_handOver {s : State} {party newTag : Fin 14} {h : Word} {bad : Bool} {e f : Dev} (hc : Clocked pllT s)
    (he : s.dev.readEntry h.toNat bad = e) (hf : e.bufHandOver party h.toNat newTag = f) :
    Yields (.bufferHandOver party h newTag bad) s (s.dev.keep f) := by
  subst he
  exact yields_of_actIn (fun d => (d.readEntry h.toNat bad).bufHandOver party h.toNat newTag) rfl hc (congrArg s.dev.keep hf)

theorem yields_of_setRefs {s : State} {party : Fin 14} {h : Word} {n : Nat} {bad : Bool} {e f : Dev} (hc : Clocked pllT s)
    (he : s.dev.readEntry h.toNat bad = e) (hf : e.bufSetRefs party h.toNat n = f) :
    Yields (.bufferSetRefs party h n bad) s (s.dev.keep f) := by
  subst he
  exact yields_of_actIn (fun d => (d.readEntry h.toNat bad).bufSetRefs party h.toNat n) rfl hc (congrArg s.dev.keep hf)

theorem yields_of_free {s : State} {party : Fin 14} {h : Word} {bad : Bool} {e f : Dev} (hc : Clocked pllT s)
    (he : s.dev.readEntry h.toNat bad = e) (hf : e.bufFree party h.toNat = f) :
    Yields (.bufferFree party h bad) s (s.dev.keep f) := by
  subst he
  exact yields_of_actIn (fun d => (d.readEntry h.toNat bad).bufFree party h.toNat) rfl hc (congrArg s.dev.keep hf)

/-- Settles O36: each operation by what it makes of the entry in the state named, each refusal as no more than a record, and a cycle of
the allocator by the request that waits. -/
theorem bufferOps : Obligations.BufferOps := by
  unfold Obligations.BufferOps
  refine ⟨fun s party newTag h hc hs ha ht ho => ?handOver, fun s party h n hc hs ha ht ho h0 hn => ?setRefs,
    fun s party h hc hs ha ht ho hr => ?freeShared, fun s party h hc hs ha ht ho hr hl => ?freeLast,
    fun s party newTag h hc hs => ?revoked, fun s party h hc hs ha ht => ?retired, fun s party h hc hs ha => ?doubleFree,
    fun s party newTag h hc hs ha ht ho => ?foreign, fun s party newTag h hc he => ?eccHandOver, fun s party h n hc he => ?eccOthers,
    fun s o t c v ha hv => ?rsvWithin, fun s o t c v ha hv => ?rsvBeyond, fun s k hc hw hq => ?idle,
    fun s k r i rest hc hw hq hk hk8 hu hcel ht hs hl hp hm hi => ?belowMin,
    fun s k r hc hw hq hk hu hcel ht hs hl hp => ?closedPool⟩
  case handOver => exact yields_of_handOver hc (readEntry_good _ _) (bufHandOver_held _ ⟨hs, ha, ht, ho⟩)
  case setRefs => exact yields_of_setRefs hc (readEntry_good _ _) (bufSetRefs_held ⟨hs, ha, ht, ho⟩ h0 hn)
  case freeShared =>
    exact yields_of_free hc (readEntry_good _ _) ((bufFree_held ⟨hs, ha, ht, ho⟩).trans (if_pos hr))
  case freeLast =>
    have hfree := (bufFree_held ⟨hs, ha, ht, ho⟩).trans ((if_neg (not_lt.mpr hr)).trans (returnBuf_kept hl))
    have hrow := yields_of_free hc (readEntry_good _ _) hfree
    rw [keep_bpm_qm (bufReturned_frame _ _)] at hrow
    exact ⟨_, hrow, alloc_bufReturned _ _, fun g hg => buf_bufReturned_ne _ hg, freeList_bufReturned _ _,
      fun k hk => freeList_bufReturned_ne _ hk, bufReturned_frame _ _⟩
  case revoked =>
    exact ⟨yields_of_handOver hc (readEntry_good _ _) (bufHandOver_revoked _ _ hs), (recorded_revokedOp ..).bufs⟩
  case retired =>
    exact ⟨yields_of_free hc (readEntry_good _ _) (bufFree_retired hs ha ht), (recorded_retiredOp ..).bufs⟩
  case doubleFree =>
    have hrow := yields_of_free hc (readEntry_good _ _) (bufFree_free hs ha)
    rw [(recorded_doubleFree ..).keep] at hrow
    exact ⟨_, hrow, refusalShown_effect (doubleFree_shown ..) (by decide)⟩
  case foreign =>
    have hrow := yields_of_handOver hc (readEntry_good _ _) (bufHandOver_foreign newTag hs ha ht ho)
    rw [(recorded_foreignOp ..).keep] at hrow
    exact ⟨_, hrow, refusalShown_effect (foreignOp_shown ..) (by decide)⟩
  case eccHandOver => exact ⟨yields_of_handOver hc (readEntry_bad he) rfl, buf_stateEcc _ _⟩
  case eccOthers => exact ⟨yields_of_setRefs hc (readEntry_bad he) rfl, yields_of_free hc (readEntry_bad he) rfl⟩
  case rsvWithin => exact yields_of_actReg (fun d => d.rsvWrite o t c v) rfl ha (congrArg s.dev.keep (rsvWrite_within hv))
  case rsvBeyond =>
    exact ⟨yields_of_actReg (fun d => d.rsvWrite o t c v) rfl ha (congrArg s.dev.keep (rsvWrite_beyond hv)),
      (log_reg _ _ _ _ (bpmRsv_ne_evtLost o t c)).trans (Dev.reg_latchBit_ne _ (bpmRsv_ne_status o t c))⟩
  case idle => exact ⟨_, yields_of_allocCycle hc (allocCycle_none k hw) hq, rfl⟩
  case belowMin =>
    rw [← hk] at hk8 hp hm hi
    have hcycle := allocCycle_belowMin hw hk8 hu hcel ht hs hl hp hm hi
    rw [hk] at hcycle
    have hframe := grant_frame s.dev k (mkHandle 0 (k.val % 4) i) r.tag rest r.pkt
    have hrow := yields_of_allocCycle hc hcycle hq
    rw [keep_bpm_qm hframe] at hrow
    refine ⟨_, hrow, rfl, ?_, ?_, ?_, hframe⟩
    · rw [freeList_granted, freeList_bufTaken]
    · rw [buf_granted, buf_bufTaken]
    · rw [arrived_granted, buf_bufTaken]
      rfl
  case closedPool =>
    rw [← hk] at hp
    have hcycle := allocCycle_closed hw hu hcel ht hs hl hp
    rw [hk] at hcycle
    refine yields_of_allocCycle hc hcycle ?_
    rw [host_dropPkt, Dev.countFail, Dev.latchBit_host, Dev.inc_host, Dev.inc_host]
    exact hq

end Sys2Proof.Machine
end

section
/-! TMQ_CMD, REPL_CMD and TMQ_QSTAT: what each command makes of the device, by its result, and what a read of the entry then
shows (R240). -/
namespace Sys2Proof.Machine

/-! ## The staged words of an entry -/

/-- Staged words are those of any device whose staging registers hold the same. -/
theorem dataWords_congr {d e : Dev} {base : Nat → Nat} {n : Nat} (h : ∀ j < n, e.reg (base j) = d.reg (base j)) :
    e.dataWords base n = d.dataWords base n :=
  List.foldr_ext _ _ _ fun j hj acc => by rw [h j (List.mem_range.mp hj)]

/-- The end of a command, in a register that is no staged word, leaves them. -/
theorem dataWords_setReg (d : Dev) {base : Nat → Nat} {n k : Nat} (v : Word) (h : ∀ j < n, base j ≠ k) :
    (d.setReg k v).dataWords base n = d.dataWords base n :=
  dataWords_congr fun j hj => d.reg_setReg_ne v (h j hj)

theorem reg_setDataWords_ne (d : Dev) {base : Nat → Nat} {n k : Nat} (x : Nat) (h : ∀ j < n, k ≠ base j) :
    (d.setDataWords base n x).reg k = d.reg k :=
  List.foldlRecOn (motive := fun e : Dev => e.reg k = d.reg k) (List.range n) _ rfl fun e he j hj =>
    (e.reg_setReg_ne _ (h j (List.mem_range.mp hj))).trans he

theorem setDataWords_frame (d : Dev) (base : Nat → Nat) (n x : Nat) :
    d.setDataWords base n x = { d with regs := (d.setDataWords base n x).regs } :=
  List.foldlRecOn (motive := fun e : Dev => e = { d with regs := e.regs }) (List.range n)
    (fun d j => d.setReg (base j) (wd (x >>> (32 * j)))) rfl fun e he j _ =>
      congrArg (fun f : Dev => { f with regs := (e.setReg (base j) (wd (x >>> (32 * j)))).regs }) he

/-- One staged word holds the low half of an entry. -/
theorem dataWords_setDataWords_one (d : Dev) (base : Nat → Nat) (x : Nat) :
    (d.setDataWords base 1 x).dataWords base 1 = x % 2 ^ 32 := by
  simp [Dev.setDataWords, Dev.dataWords, wd]

/-- Two staged words hold an entry. -/
theorem dataWords_setDataWords_two (d : Dev) {base : Nat → Nat} (x : BitVec 64) (h : base 0 ≠ base 1) :
    (d.setDataWords base 2 x.toNat).dataWords base 2 = x.toNat := by
  have hput : d.setDataWords base 2 x.toNat = (d.setReg (base 0) (wd (x.toNat >>> 0))).setReg (base 1) (wd (x.toNat >>> 32)) := rfl
  have hget (e : Dev) : e.dataWords base 2 = (e.reg (base 0)).toNat + 2 ^ 32 * (e.reg (base 1)).toNat := rfl
  have hlt := x.isLt
  rw [hget, hput, Dev.reg_setReg_same, Dev.reg_setReg_ne _ _ h, Dev.reg_setReg_same]
  simp only [wd, BitVec.toNat_ofNat, Nat.shiftRight_eq_div_pow]
  omega

/-- A READ that has staged an entry and ended in register `k` shows the entry. -/
theorem staged_shown (d : Dev) {base : Nat → Nat} {k : Nat} (v : Word) (x : BitVec 64) (h : base 0 ≠ base 1) (hk : ∀ j, base j ≠ k) :
    BitVec.ofNat 64 (((d.setDataWords base 2 x.toNat).setReg k v).dataWords base 2) = x := by
  rw [dataWords_setReg _ _ fun j _ => hk j, dataWords_setDataWords_two d x h, BitVec.ofNat_toNat, BitVec.setWidth_eq]

/-- It has changed registers alone. -/
theorem staged_frame (d : Dev) (base : Nat → Nat) (n x k : Nat) (v : Word) :
    (d.setDataWords base n x).setReg k v = { d with regs := ((d.setDataWords base n x).setReg k v).regs } := by
  rw [setDataWords_frame]
  rfl

/-! ## The ends of a command (R537) -/

theorem keep_tmqResult {d e : Dev} (r : Nat) (h : d.keep e = e) : d.keep (e.tmqResult r) = e.tmqResult r :=
  keep_cmdResult Reg.TMQ_CMD Reg.TMQ_STATUS r h

theorem keep_replResult {d e : Dev} (r : Nat) (h : d.keep e = e) : d.keep (e.replResult r) = e.replResult r :=
  keep_cmdResult Reg.REPL_CMD Reg.REPL_STATUS r h

theorem keep_setDataWords (d : Dev) (base : Nat → Nat) (n x : Nat) : d.keep (d.setDataWords base n x) = d.setDataWords base n x :=
  keep_foldl _ (fun _ _ => keep_setReg _ _) rfl

/-- OK leaves the command register 0 and latches nothing. -/
theorem tmqResult_ok (d : Dev) : d.tmqResult 0 = d.setReg Reg.TMQ_CMD 0#32 := rfl

theorem replResult_ok (d : Dev) : d.replResult 0 = d.setReg Reg.REPL_CMD 0#32 := rfl

/-! ## The entries of TMQ_CMD: endpoint queues, endpoint groups, class nodes and ingress shares (Table 8.10) -/

/-- A write of an entry is in the queue manager. -/
theorem tmqSet_frame (d : Dev) (t i : Nat) (w : BitVec 64) : d.tmqSet t i w = { d with qm := (d.tmqSet t i w).qm } := by
  unfold Dev.tmqSet
  split <;> rfl

theorem reg_tmqSet (d : Dev) (t i : Nat) (w : BitVec 64) (k : Nat) : (d.tmqSet t i w).reg k = d.reg k := by
  rw [tmqSet_frame]
  rfl

theorem keep_tmqSet (d : Dev) (t i : Nat) (w : BitVec 64) : d.keep (d.tmqSet t i w) = d.tmqSet t i w := by
  rw [tmqSet_frame]
  rfl

theorem tmqGet_setReg (d : Dev) (k : Nat) (v : Word) (t i : Nat) : (d.setReg k v).tmqGet t i = d.tmqGet t i := rfl

/-- An entry stored against its reset value is read as it was written. -/
theorem get_set_reset (l : List (Nat × BitVec 64)) (i : Nat) (w rst : BitVec 64) :
    Tbl.get 0#64 (Tbl.set 0#64 l i (w ^^^ rst)) i ^^^ rst = w := by
  rw [Tbl.get_set_same, BitVec.xor_assoc, BitVec.xor_self, BitVec.xor_zero]

theorem tmqGet_tmqSet_same (d : Dev) (t i : Nat) (w : BitVec 64) : (d.tmqSet t i w).tmqGet t i = w := by
  match t with
  | 0 | 1 | 2 | _ + 3 => exact get_set_reset _ i w _

theorem tmqGet_tmqSet_ne (d : Dev) (t : Nat) {i j : Nat} (w : BitVec 64) (h : j ≠ i) :
    (d.tmqSet t i w).tmqGet t j = d.tmqGet t j := by
  match t with
  | 0 | 1 | 2 | _ + 3 => exact congrArg (· ^^^ _) (Tbl.get_set_ne _ _ _ h)

/-! ## TMQ_CMD by its result -/

section
variable {d : Dev} {t i : Nat} {w : BitVec 64}

theorem tmqWrite_outOfRange (hi : tmqLimit t ≤ i) : d.tmqWrite t i = d.tmqResult 1 := if_pos hi

theorem tmqWrite_reserved (hi : i < tmqLimit t) (hw : w = BitVec.ofNat 64 (d.dataWords Reg.TMQ_DATA 2))
    (hr : w &&& tmqReserved t ≠ 0#64) : d.tmqWrite t i = d.tmqResult 2 := by
  subst hw
  exact (if_neg hi.not_ge).trans (if_pos hr)

theorem tmqWrite_unreserved (hi : i < tmqLimit t) (hw : w = BitVec.ofNat 64 (d.dataWords Reg.TMQ_DATA 2))
    (hr : w &&& tmqReserved t = 0#64) :
    d.tmqWrite t i = if d.tmqInUse t i w then d.tmqResult 3 else (d.tmqSet t i w).tmqResult 0 := by
  subst hw
  exact (if_neg hi.not_ge).trans (if_neg (not_not_intro hr))

theorem tmqRead_outOfRange (hi : tmqLimit t ≤ i) : d.tmqRead t i = d.tmqResult 1 := if_pos hi

theorem tmqRead_staged (hi : i < tmqLimit t) :
    d.tmqRead t i = (d.setDataWords Reg.TMQ_DATA 2 (d.tmqGet t i).toNat).tmqResult 0 := if_neg hi.not_ge

end

/-! ## REPL_CMD by its result: target 0 is a group, target 1 a copy entry -/

section
variable {d : Dev} {i : Nat} {w : BitVec 64}

theorem replWrite_outOfRange {t : Nat} (hi : replLimit t ≤ i) : d.replWrite t i = d.replResult 1 := if_pos hi

theorem replWrite_group (hi : i < 65536) (hw : w = BitVec.ofNat 64 (d.dataWords Reg.REPL_DATA 1))
    (hr : w &&& 0x7FFC0000#64 = 0#64) :
    d.replWrite 0 i = Dev.replResult { d with qm := { d.qm with groups := Tbl.set 0#64 d.qm.groups i w } } 0 := by
  subst hw
  exact (if_neg hi.not_ge).trans (if_neg (not_not_intro hr))

theorem replWrite_copyReserved (hi : i < 262144) (hw : w = BitVec.ofNat 64 (d.dataWords Reg.REPL_DATA 2))
    (hr : w &&& replReserved 1 w ≠ 0#64) : d.replWrite 1 i = d.replResult 2 := by
  subst hw
  exact (if_neg hi.not_ge).trans (if_pos hr)

theorem replWrite_copy (hi : i < 262144) (hw : w = BitVec.ofNat 64 (d.dataWords Reg.REPL_DATA 2))
    (hr : w &&& replReserved 1 w = 0#64) :
    d.replWrite 1 i = Dev.replResult { d with qm := { d.qm with copies := Tbl.set 0#64 d.qm.copies i w } } 0 := by
  subst hw
  exact (if_neg hi.not_ge).trans (if_neg (not_not_intro hr))

theorem replRead_outOfRange {t : Nat} (hi : replLimit t ≤ i) : d.replRead t i = d.replResult 1 := if_pos hi

theorem replRead_group (hi : i < 65536) :
    d.replRead 0 i = (d.setDataWords Reg.REPL_DATA 1 (Tbl.get 0#64 d.qm.groups i).toNat).replResult 0 := if_neg hi.not_ge

theorem replRead_copy (hi : i < 262144) :
    d.replRead 1 i = (d.setDataWords Reg.REPL_DATA 2 (Tbl.get 0#64 d.qm.copies i).toNat).replResult 0 := if_neg hi.not_ge

end

/-! ## TMQ_QSTAT -/

/-- The answer is the depth of the selected queue, and its packets are latched. -/
theorem readQstat_selected {d : Dev} {q : Queue}
    (hq : q = d.queue (qKey (fld (d.reg Reg.TMQ_QSTAT_SEL) 20 18) (fld (d.reg Reg.TMQ_QSTAT_SEL) 17 0))) :
    d.readQstat = (wd q.depth, { d with qm := { d.qm with qstat := wd (b2n q.evac * 2 ^ 31 + satN 24 q.pkts.length) } }) := by
  rw [hq, Dev.readQstat]

/-! ## The rows -/

theorem yields_of_tmqWrite {s : State} {t : BitVec 2} {x : BitVec 18} {e : Dev} {r : Nat} (ha : Answers .bar0 Reg.TMQ_CMD s)
    (hw : s.dev.tmqWrite t.toNat x.toNat = e.tmqResult r) (hk : s.dev.keep e = e) : Yields (.tmqWrite t x) s (e.tmqResult r) :=
  yields_of_actReg (fun d => d.tmqWrite t.toNat x.toNat) rfl ha ((congrArg s.dev.keep hw).trans (keep_tmqResult r hk))

theorem yields_of_tmqRead {s : State} {t : BitVec 2} {x : BitVec 18} {e : Dev} {r : Nat} (ha : Answers .bar0 Reg.TMQ_CMD s)
    (hr : s.dev.tmqRead t.toNat x.toNat = e.tmqResult r) (hk : s.dev.keep e = e) : Yields (.tmqRead t x) s (e.tmqResult r) :=
  yields_of_actReg (fun d => d.tmqRead t.toNat x.toNat) rfl ha ((congrArg s.dev.keep hr).trans (keep_tmqResult r hk))

theorem yields_of_replWrite {s : State} {t : Fin 2} {x : BitVec 18} {e : Dev} {r : Nat} (ha : Answers .bar0 Reg.REPL_CMD s)
    (hw : s.dev.replWrite t x.toNat = e.replResult r) (hk : s.dev.keep e = e) : Yields (.replWrite t x) s (e.replResult r) :=
  yields_of_actReg (fun d => d.replWrite t x.toNat) rfl ha ((congrArg s.dev.keep hw).trans (keep_replResult r hk))

theorem yields_of_replRead {s : State} {t : Fin 2} {x : BitVec 18} {e : Dev} {r : Nat} (ha : Answers .bar0 Reg.REPL_CMD s)
    (hr : s.dev.replRead t x.toNat = e.replResult r) (hk : s.dev.keep e = e) : Yields (.replRead t x) s (e.replResult r) :=
  yields_of_actReg (fun d => d.replRead t x.toNat) rfl ha ((congrArg s.dev.keep hr).trans (keep_replResult r hk))

theorem yields_of_qstatRead {s : State} {p : Path} {v : Word} {q : Qm} (ha : Answers p Reg.TMQ_QSTAT_BYTES s)
    (hr : s.dev.readQstat = (v, { s.dev with qm := q })) : Yields (.qstatRead p) s (Dev.deliver { s.dev with qm := q } p v) := by
  refine yields_of_actRead Dev.readQstat rfl ha ?_
  rw [hr]
  exact keep_emit _ rfl

/-- Every index of 18 bits names a copy entry. -/
theorem copyIndex_lt (x : BitVec 18) : x.toNat < 262144 := x.isLt

/-- No staged word is the command register of its block. -/
theorem tmqData_ne_cmd (j : Nat) : Reg.TMQ_DATA j ≠ Reg.TMQ_CMD := by
  unfold Reg.TMQ_DATA Reg.TMQ_CMD
  omega

theorem replData_ne_cmd (j : Nat) : Reg.REPL_DATA j ≠ Reg.REPL_CMD := by
  unfold Reg.REPL_DATA Reg.REPL_CMD
  omega

/-- A write that ends OK changes its entry and the command register. -/
theorem tmqSet_ok_effect (d : Dev) (t i : Nat) (w : BitVec 64) {e : Dev} (he : e = (d.tmqSet t i w).tmqResult 0) :
    e.tmqGet t i = w ∧ e.reg Reg.TMQ_CMD = 0#32 ∧ RegsBut [Reg.TMQ_CMD] d e ∧
      (∀ j, j ≠ i → e.tmqGet t j = d.tmqGet t j) ∧ e = { d with regs := e.regs, qm := e.qm } := by
  rw [tmqResult_ok] at he
  subst he
  refine ⟨?stored, Dev.reg_setReg_same _ _ _, fun k hk => ?regs, fun j hj => ?others, ?frame⟩
  case stored => rw [tmqGet_setReg, tmqGet_tmqSet_same]
  case regs => rw [Dev.reg_setReg_ne _ _ (List.ne_of_not_mem_cons hk), reg_tmqSet]
  case others => rw [tmqGet_setReg, tmqGet_tmqSet_ne d t w hj]
  case frame =>
    rw [tmqSet_frame]
    rfl

/-- A read that ends OK shows the entry in the staged words. -/
theorem tmqRead_ok_effect (d : Dev) (x : BitVec 64) {e : Dev} (he : e = (d.setDataWords Reg.TMQ_DATA 2 x.toNat).tmqResult 0) :
    BitVec.ofNat 64 (e.dataWords Reg.TMQ_DATA 2) = x ∧ e.reg Reg.TMQ_CMD = 0#32 ∧
      RegsBut [Reg.TMQ_CMD, Reg.TMQ_DATA 0, Reg.TMQ_DATA 1] d e ∧ e = { d with regs := e.regs } := by
  rw [tmqResult_ok] at he
  subst he
  refine ⟨staged_shown d _ x (by decide) tmqData_ne_cmd, Dev.reg_setReg_same _ _ _, fun k hk => ?_, staged_frame ..⟩
  simp only [List.mem_cons, List.not_mem_nil, or_false, not_or] at hk
  obtain ⟨hcmd, h0, h1⟩ := hk
  rw [Dev.reg_setReg_ne _ _ hcmd]
  exact reg_setDataWords_ne d _ fun j hj => by interval_cases j <;> assumption

/-- Settles O41: each command by its result, from what the entries and the staged words hold after it. -/
theorem queueTables : Obligations.QueueTables := by
  unfold Obligations.QueueTables
  refine ⟨fun s t x w ha hx hw hr hu => ?tmqStored, fun s t x ha hx => ?tmqRange, fun s t x w ha hx hw hr => ?tmqReserved,
    fun s t x w ha hx hw hr hu => ?tmqBusy, fun s t x ha hx => ?tmqShown, fun s x w ha hx hw hr => ?groupStored,
    fun s x w ha hw hr => ?copyStored, fun s x w ha hw hr => ?copyReserved, fun s x ha hx => ?groupShown,
    fun s x ha => ?copyShown, fun s x ha hx => ?groupRange, fun s p q ha hq => ?qstat⟩
  case tmqStored =>
    have hwrite := (tmqWrite_unreserved hx hw hr).trans (if_neg (Bool.eq_false_iff.mp hu))
    exact ⟨_, yields_of_tmqWrite ha hwrite (keep_tmqSet ..), tmqSet_ok_effect _ _ _ _ rfl⟩
  case tmqRange =>
    exact ⟨yields_of_tmqWrite ha (tmqWrite_outOfRange hx) rfl, yields_of_tmqRead ha (tmqRead_outOfRange hx) rfl⟩
  case tmqReserved => exact yields_of_tmqWrite ha (tmqWrite_reserved hx hw hr) rfl
  case tmqBusy => exact yields_of_tmqWrite ha ((tmqWrite_unreserved hx hw hr).trans (if_pos hu)) rfl
  case tmqShown =>
    exact ⟨_, yields_of_tmqRead ha (tmqRead_staged hx) (keep_setDataWords ..), tmqRead_ok_effect _ _ rfl⟩
  case groupStored =>
    exact ⟨_, yields_of_replWrite ha (replWrite_group hx hw hr) rfl, Tbl.get_set_same _ _ _ _,
      fun j hj => Tbl.get_set_ne _ _ _ hj, Dev.reg_setReg_same _ _ _, rfl⟩
  case copyStored =>
    exact ⟨_, yields_of_replWrite ha (replWrite_copy (copyIndex_lt x) hw hr) rfl, Tbl.get_set_same _ _ _ _,
      fun j hj => Tbl.get_set_ne _ _ _ hj, Dev.reg_setReg_same _ _ _, rfl⟩
  case copyReserved => exact yields_of_replWrite ha (replWrite_copyReserved (copyIndex_lt x) hw hr) rfl
  case groupShown =>
    refine ⟨_, yields_of_replRead ha (replRead_group hx) (keep_setDataWords ..), ?_, Dev.reg_setReg_same _ _ _, staged_frame ..⟩
    rw [replResult_ok, dataWords_setReg _ _ fun j _ => replData_ne_cmd j, dataWords_setDataWords_one]
  case copyShown =>
    exact ⟨_, yields_of_replRead ha (replRead_copy (copyIndex_lt x)) (keep_setDataWords ..),
      staged_shown _ _ _ (by decide) replData_ne_cmd, Dev.reg_setReg_same _ _ _, staged_frame ..⟩
  case groupRange =>
    exact ⟨yields_of_replRead ha (replRead_outOfRange hx) rfl, yields_of_replWrite ha (replWrite_outOfRange hx) rfl⟩
  case qstat => exact yields_of_qstatRead ha (readQstat_selected hq)

end Sys2Proof.Machine
end

section
/-! The shared operations of a Trellis link: what counting its seconds, logging its defects and bringing TRL_REACH up to date leave
alone, and which defects are reported after one is set or taken back. -/
namespace Sys2Proof.Machine

/-! ## Notes of a link: its seconds and its log of defects (R290, R295 to R297) -/

/-- A link beside the seconds that it counts and the log of its defects. -/
def Link.sansNotes (x : Link) : Link := { x with pmCur := {}, pmPend := [], quiet := [] }

/-- Between `d` and `e` no more has changed of the links than the notes of link `n`. -/
def NotesLink (n : Nat) (d e : Dev) : Prop :=
  (∀ m, m ≠ n → e.link m = d.link m) ∧ (e.link n).sansNotes = (d.link n).sansNotes

theorem NotesLink.refl (n : Nat) (d : Dev) : NotesLink n d d := ⟨fun _ _ => rfl, rfl⟩

theorem NotesLink.trans {n : Nat} {d e f : Dev} (h1 : NotesLink n d e) (h2 : NotesLink n e f) : NotesLink n d f :=
  ⟨fun m hm => (h2.1 m hm).trans (h1.1 m hm), h2.2.trans h1.2⟩

/-- Every link is as it was beside its notes. -/
theorem NotesLink.sansNotes {n : Nat} {d e : Dev} (h : NotesLink n d e) (m : Nat) :
    (e.link m).sansNotes = (d.link m).sansNotes := by
  by_cases hm : m = n
  · rw [hm, h.2]
  · rw [h.1 m hm]

/-- What does not touch the fabric's part of the device notes nothing. -/
theorem notesLink_of_fab {d e : Dev} (n : Nat) (h : e.fab = d.fab) : NotesLink n d e := by
  have hlink (m : Nat) : e.link m = d.link m := by rw [Dev.link, h, Dev.link]
  exact ⟨fun m _ => hlink m, congrArg Link.sansNotes (hlink n)⟩

theorem notesLink_setLink {d : Dev} {n : Nat} {x : Link} (h : x.sansNotes = (d.link n).sansNotes) : NotesLink n d (d.setLink n x) :=
  ⟨fun _ hm => d.link_setLink_ne x hm, by rw [Dev.link_setLink_same, h]⟩

theorem notesLink_pmRoll (d : Dev) (n : Nat) : NotesLink n d (d.pmRoll n) := by
  unfold Dev.pmRoll
  dsimp only
  split
  · exact .refl n d
  · split <;> exact notesLink_setLink rfl

theorem notesLink_pmNote (d : Dev) (n : Nat) (f : PmSec → PmSec) : NotesLink n d (d.pmNote n f) :=
  (notesLink_pmRoll d n).trans (notesLink_setLink rfl)

theorem notesLink_pmBreak (d : Dev) (n : Nat) : NotesLink n d (d.pmBreak n) := notesLink_pmNote d n _

theorem notesLink_inc (d : Dev) (n b i : Nat) : NotesLink n d (d.inc b i) := notesLink_of_fab n (d.inc_fab b i)

theorem notesLink_cellDropped (d : Dev) (n : Nat) : NotesLink n d (d.cellDropped n) :=
  (notesLink_inc d n _ _).trans (notesLink_pmNote _ n _)

/-- Logging a change of a defect, or leaving it out of the log, is a note. -/
theorem notesLink_logDefect (d : Dev) (n b : Nat) {mk : Dev → Bytes → Dev} (h : ∀ e c, (mk e c).fab = e.fab) :
    NotesLink n d (d.logDefect n b mk) := by
  have hput (q : List (Nat × (Nat × Nat))) : NotesLink n d (d.modLink n fun x => { x with quiet := q }) := notesLink_setLink rfl
  have hlog (q : List (Nat × (Nat × Nat))) (c : Bytes) := (hput q).trans (notesLink_of_fab n (h _ c))
  unfold Dev.logDefect
  dsimp only
  split
  · exact hlog _ _
  · split
    · exact hput _
    · exact hlog _ _

/-! ## What counting seconds leaves beside the links -/

theorem pmRoll_frame (d : Dev) (n : Nat) : d.pmRoll n = { d with fab := { d.fab with links := (d.pmRoll n).fab.links } } := by
  unfold Dev.pmRoll
  dsimp only
  split
  · rfl
  · split <;> rfl

theorem pmNote_frame (d : Dev) (n : Nat) (f : PmSec → PmSec) :
    d.pmNote n f = { d with fab := { d.fab with links := (d.pmNote n f).fab.links } } := by
  have h := congrArg (fun e : Dev => { e with fab := { e.fab with links := (d.pmNote n f).fab.links } }) (pmRoll_frame d n)
  exact h

@[simp] theorem pmNote_regs (d : Dev) (n : Nat) (f : PmSec → PmSec) : (d.pmNote n f).regs = d.regs := by rw [pmNote_frame]
@[simp] theorem reg_pmNote (d : Dev) (n k : Nat) (f : PmSec → PmSec) : (d.pmNote n f).reg k = d.reg k := by
  rw [Dev.reg, pmNote_regs, Dev.reg]
@[simp] theorem reg_pmBreak (d : Dev) (n k : Nat) : (d.pmBreak n).reg k = d.reg k := reg_pmNote d n k _
@[simp] theorem reg_modLink (d : Dev) (n k : Nat) (f : Link → Link) : (d.modLink n f).reg k = d.reg k := rfl

@[simp] theorem link_keep (d e : Dev) (m : Nat) : (d.keep e).link m = e.link m := rfl
@[simp] theorem link_writeRw (d : Dev) (k : Nat) (rw v : Word) (m : Nat) : (d.writeRw k rw v).link m = d.link m := rfl

/-! ## TRL_REACH (R323) -/

/-- TRL_REACH and its status bit are beside the fabric's part of the device. -/
@[simp] theorem updateReach_fab (d : Dev) : d.updateReach.fab = d.fab := by
  refine foldl_field (·.fab) _ (fun d i => ?_) _ _
  split <;> rfl

@[simp] theorem link_updateReach (d : Dev) (m : Nat) : d.updateReach.link m = d.link m := by
  rw [Dev.link, updateReach_fab, Dev.link]

theorem reg_updateReach (d : Dev) {k : Nat} (h : k ≠ Reg.TRL_CAL_STATUS) : d.updateReach.reg k = d.reg k := by
  refine foldl_field (·.reg k) _ (fun d i => ?_) _ _
  split
  · exact d.reg_latchBit_ne h
  · rfl

/-! ## Reported defects (R286 to R290) -/

/-- The runs of frames toward a change are no reported defects. -/
theorem defects_setRun (x : Link) (b r : Nat) : (x.setRun b r).defects = x.defects := by
  unfold Link.setRun
  split <;> rfl

/-- Marking a defect changes that defect alone. -/
theorem has_mark (x : Link) (b : Nat) (v : Bool) {c : Nat} (hc : c < 10) :
    (x.mark b v).has c = if c = b then v else x.has c := by
  have hbit : (BitVec.ofNat 10 (2 ^ b)).getLsbD c = decide (c = b) := by
    rw [BitVec.getLsbD_ofNat, Nat.testBit_two_pow, decide_eq_true hc, Bool.true_and, decide_eq_decide.mpr eq_comm]
  rw [Link.has, Link.mark, defects_setRun]
  cases v
  · simp only [Bool.false_eq_true, if_false, BitVec.getLsbD_and, BitVec.getLsbD_not, hbit, hc]
    by_cases h : c = b <;> simp [h, Link.has]
  · simp only [if_true, BitVec.getLsbD_or, hbit]
    by_cases h : c = b <;> simp [h, Link.has]

/-- The detection that starts afresh below a defect changes no reported defect. -/
theorem has_afresh (x : Link) (b now c : Nat) : (x.afresh b now).has c = x.has c := rfl

/-- A note of the link leaves what it reports. -/
theorem NotesLink.has {n : Nat} {d e : Dev} (h : NotesLink n d e) (c : Nat) : (e.link n).has c = (d.link n).has c :=
  (congrArg (fun x : Link => x.has c) h.2 :)

/-- A defect taken back is no longer reported; the others are as they were. -/
theorem has_unsetDefect (d : Dev) (n b : Nat) {c : Nat} (hc : c < 10) :
    ((d.unsetDefect n b).link n).has c = (!decide (c = b) && (d.link n).has c) := by
  unfold Dev.unsetDefect
  dsimp only
  split
  case isFalse h =>
    by_cases hb : c = b <;> simp_all
  case isTrue h =>
    rw [(notesLink_logDefect _ n b fun e c => Dev.logNum_fab e _ _ _ _).has c, Dev.link_modLink_same, has_afresh, has_mark _ _ _ hc,
      (notesLink_pmRoll d n).has c]
    by_cases hb : c = b <;> simp [hb]

theorem link_unsetDefect_ne (d : Dev) (n b : Nat) {m : Nat} (h : m ≠ n) : (d.unsetDefect n b).link m = d.link m := by
  unfold Dev.unsetDefect
  dsimp only
  split
  · rw [(notesLink_logDefect _ n b fun e c => Dev.logNum_fab e _ _ _ _).1 m h, Dev.link_modLink_ne _ _ h, (notesLink_pmRoll d n).1 m h]
  · rfl

theorem link_clearAll_ne (d : Dev) (n : Nat) {m : Nat} (h : m ≠ n) : (d.clearAll n).link m = d.link m :=
  foldl_field (·.link m) _ (fun d b => link_unsetDefect_ne d n b h) _ d

/-- What is not reported is not reported after others are taken back. -/
theorem has_unsetDefects_of_not (d : Dev) (n : Nat) (l : List Nat) {c : Nat} (hc : c < 10) (h : (d.link n).has c = false) :
    ((l.foldl (fun d b => d.unsetDefect n b) d).link n).has c = false :=
  List.foldlRecOn (motive := fun e : Dev => (e.link n).has c = false) l _ h fun e he b _ => by
    rw [has_unsetDefect e n b hc, he, Bool.and_false]

/-- The alignment that LOS, LOL and LOA end, and the runs that begin anew, are no reported defects. -/
theorem has_setDefect (d : Dev) (n b : Nat) {c : Nat} (hc : c < 10) : ((d.setDefect n b).link n).has c =
    if c = b then true else (((List.range b).foldl (fun d c => d.unsetDefect n c) d).link n).has c := by
  unfold Dev.setDefect
  extract_lets d1 realign d2 d3 d4
  have hruns (x : Link) : ((List.range b).foldl (fun x c => x.setRun c 0) x).defects = x.defects :=
    List.foldlRecOn (motive := fun y : Link => y.defects = x.defects) _ _ rfl fun y hy c _ => (defects_setRun y c 0).trans hy
  have hreal (x : Link) : (realign x).has c = x.has c := by
    unfold realign
    split <;> rfl
  have h2 : (d2.link n).has c = if c = b then true else (d1.link n).has c := by
    rw [Dev.link_modLink_same, hreal, has_afresh, Link.has, hruns, ← Link.has, has_mark _ _ _ hc, (notesLink_pmRoll d1 n).has c]
  have h3 : NotesLink n d2 d3 := by
    unfold d3
    split
    · exact notesLink_pmNote _ _ _
    · exact .refl n d2
  have h4 : NotesLink n d3 d4 := notesLink_of_fab n rfl
  rw [(notesLink_logDefect d4 n b fun e c => Dev.logBit_fab e _ _ _ _ _).has c, h4.has c, h3.has c, h2]

/-- A defect that is set is reported. -/
theorem has_setDefect_same (d : Dev) (n : Nat) {b : Nat} (hb : b < 10) : ((d.setDefect n b).link n).has b = true := by
  rw [has_setDefect d n b hb, if_pos rfl]

/-- No other defect comes to be reported with it. -/
theorem has_setDefect_of_not (d : Dev) (n : Nat) {b c : Nat} (hc : c < 10) (hne : c ≠ b) (h : (d.link n).has c = false) :
    ((d.setDefect n b).link n).has c = false := by
  rw [has_setDefect d n b hc, if_neg hne, has_unsetDefects_of_not d n _ hc h]

/-- A defect logged, or left out of the log, shows in a register only what its log entry shows there. -/
theorem reg_logDefect (d : Dev) (n b : Nat) {mk : Dev → Bytes → Dev} {k : Nat} (h : ∀ e c, (mk e c).reg k = e.reg k) :
    (d.logDefect n b mk).reg k = d.reg k := by
  unfold Dev.logDefect
  dsimp only
  split
  · exact h _ _
  · split
    · rfl
    · exact h _ _

/-- The event of a status bit changes no register but MGMT_EVT_LOST. -/
theorem reg_logBit (d : Dev) (src idx b inst : Nat) (data : Bytes) {k : Nat} (h : k ≠ Reg.MGMT_EVT_LOST) :
    (d.logBit src idx b inst data).reg k = d.reg k := log_reg _ _ _ _ h

/-- A defect that is set shows in the status of its link and in that of the block. -/
theorem status_setDefect (d : Dev) (n : Fin 256) {b : Nat} (hb : b < 10) :
    bit ((d.setDefect n b).reg (Reg.TRL_LINK_STATUS n)) (8 + b) = true ∧ bit ((d.setDefect n b).reg Reg.TRL_STATUS) 8 = true := by
  unfold Dev.setDefect
  extract_lets d1 realign d2 d3 d4
  have hlost : Reg.TRL_LINK_STATUS n ≠ Reg.MGMT_EVT_LOST := by
    have := n.isLt
    unfold Reg.TRL_LINK_STATUS Reg.MGMT_EVT_LOST
    omega
  have hblock : Reg.TRL_LINK_STATUS n ≠ Reg.TRL_STATUS := by
    unfold Reg.TRL_LINK_STATUS Reg.TRL_STATUS
    omega
  constructor
  · rw [reg_logDefect d4 n b fun e c => reg_logBit e _ _ _ _ _ hlost, Dev.reg_latchBit_ne _ hblock]
    exact latchBit_sets _ _ _ (by omega)
  · rw [reg_logDefect d4 n b fun e c => reg_logBit e _ _ _ _ _ (by decide)]
    exact latchBit_sets _ _ _ (by decide)

end Sys2Proof.Machine
end

section
/-! A Trellis link: what a write of its control register makes of it, what its overhead slots and codewords meet, how a defect is
declared and cleared, and what becomes of its seconds. -/
namespace Sys2Proof.Machine

/-! ## TRL_LINK_CTRL (R283, R290, R297) -/

/-- Bits written within the mask of a plain register are set beside what it holds. -/
theorem masked_or (w m o : Word) (h : o &&& m = o) : (w &&& ~~~m) ||| ((w ||| o) &&& m) = w ||| o := by
  ext i hi
  have hbit : (o[i] && m[i]) = o[i] := by rw [← BitVec.getElem_and, h]
  simp only [BitVec.getElem_or, BitVec.getElem_and, BitVec.getElem_not]
  generalize o[i] = a at hbit ⊢
  generalize m[i] = b at hbit ⊢
  cases a <;> cases b <;> simp_all

/-- A bit of the mask of a plain register is written. -/
theorem masked_bit (w v : Word) {m : Word} {i : Nat} (h : bit m i = true) : bit ((w &&& ~~~m) ||| (v &&& m)) i = bit v i := by
  unfold bit at h ⊢
  rw [BitVec.getLsbD_or, BitVec.getLsbD_and, BitVec.getLsbD_and, BitVec.getLsbD_not, h]
  simp

/-- The enable bit written to 1 is set beside what the register holds. -/
theorem setFld_enable (w : Word) : setFld w 0 0 1 = w ||| 1#32 := by
  refine BitVec.eq_of_getLsbD_eq fun i hi => (setFld_bit w 0 0 1 i (by decide) (by decide)).trans ?_
  rw [BitVec.getLsbD_or, BitVec.getLsbD_one]
  by_cases h : i = 0 <;> simp [h, bit]

/-- A link that is enabled starts, within a second that is not counted. -/
theorem linkCtrlWrite_on {d : Dev} {n : Nat} {v : Word} (h0 : bit (d.reg (Reg.TRL_LINK_CTRL n)) 0 = false) (hv : bit v 0 = true)
    (h4 : bit v 4 = false) : d.linkCtrlWrite n v =
      (((d.pmBreak n).writeRw (Reg.TRL_LINK_CTRL n) 0x307#32 v).modLink n fun x => x.start d.time.tsc).updateReach := by
  simp only [Dev.linkCtrlWrite, h0, hv, h4]
  rfl

/-- A link that is disabled stops, after its defects have cleared. -/
theorem linkCtrlWrite_off {d : Dev} {n : Nat} {v : Word} (h0 : bit (d.reg (Reg.TRL_LINK_CTRL n)) 0 = true) (hv : bit v 0 = false)
    (h4 : bit v 4 = false) : d.linkCtrlWrite n v =
      ((((d.clearAll n).pmBreak n).writeRw (Reg.TRL_LINK_CTRL n) 0x307#32 v).modLink n Link.stop).updateReach := by
  simp only [Dev.linkCtrlWrite, h0, hv, h4]
  rfl

/-- pm_clear clears the bins of a link that stays as it is. -/
theorem linkCtrlWrite_pmClear {d : Dev} {n : Nat} {v : Word} (hv : bit v 0 = bit (d.reg (Reg.TRL_LINK_CTRL n)) 0)
    (h4 : bit v 4 = true) : d.linkCtrlWrite n v =
      ((d.writeRw (Reg.TRL_LINK_CTRL n) 0x307#32 v).pmRoll n).modLink n Link.pmClear := by
  simp [Dev.linkCtrlWrite, hv, h4]

/-- The control register of a link is not the status register of the calendars. -/
theorem ctrl_ne_calStatus (n : Nat) : Reg.TRL_LINK_CTRL n ≠ Reg.TRL_CAL_STATUS := by
  unfold Reg.TRL_LINK_CTRL Reg.TRL_CAL_STATUS
  omega

/-- TRL_LINK_ENABLE of a link that is off. -/
theorem linkEnable_starts {s : State} {n : Fin 256} (ha : Answers .bar0 (Reg.TRL_LINK_CTRL n) s)
    (h0 : bit (s.dev.reg (Reg.TRL_LINK_CTRL n)) 0 = false) (h4 : bit (s.dev.reg (Reg.TRL_LINK_CTRL n)) 4 = false) :
    Completes (.trlLinkEnable n) s fun d e => (e.link n).align = 1 ∧ (e.link n).txOn = true ∧ (e.link n).txFrame = 0 ∧
      e.reg (Reg.TRL_LINK_CTRL n) = d.reg (Reg.TRL_LINK_CTRL n) ||| 1#32 ∧ (∀ m, m ≠ n.val → e.link m = d.link m) := by
  have hrow : Yields (.trlLinkEnable n) s _ := yields_of_actReg
    (fun d => d.linkCtrlWrite n (setFld (d.reg (Reg.TRL_LINK_CTRL n)) 0 0 1)) rfl ha (congrArg s.dev.keep
      (linkCtrlWrite_on h0 (setFld_bit _ _ _ _ _ (by decide) (by decide)) ((setFld_bit _ _ _ _ _ (by decide) (by decide)).trans h4)))
  generalize hd : (s.dev.pmBreak n).writeRw (Reg.TRL_LINK_CTRL n) 0x307#32 (setFld (s.dev.reg (Reg.TRL_LINK_CTRL n)) 0 0 1) = d1 at hrow
  have hstart : (((d1.modLink n fun x => x.start s.dev.time.tsc).updateReach).link n) = (d1.link n).start s.dev.time.tsc := by
    rw [link_updateReach, Dev.link_modLink_same]
  refine ⟨_, hrow, congrArg Link.align hstart, congrArg Link.txOn hstart, congrArg Link.txFrame hstart, ?_, fun m hm => ?_⟩
  · rw [reg_keep, reg_updateReach _ (ctrl_ne_calStatus n), reg_modLink, ← hd, (writeRw_effect _ _ _ _).1, reg_pmBreak,
      setFld_enable, masked_or _ _ _ rfl]
  · refine (link_updateReach _ m).trans ((Dev.link_modLink_ne _ _ hm).trans ?_)
    rw [← hd, link_writeRw, (notesLink_pmBreak s.dev n).1 m hm]

/-- TRL_LINK_DISABLE of a link that is on. -/
theorem linkDisable_stops {s : State} {n : Fin 256} (ha : Answers .bar0 (Reg.TRL_LINK_CTRL n) s)
    (h0 : bit (s.dev.reg (Reg.TRL_LINK_CTRL n)) 0 = true) (h4 : bit (s.dev.reg (Reg.TRL_LINK_CTRL n)) 4 = false) :
    Completes (.trlLinkDisable n) s fun d e => (e.link n).align = 0 ∧ (e.link n).txOn = false ∧ (e.link n).defects = 0#10 ∧
      bit (e.reg (Reg.TRL_LINK_CTRL n)) 0 = false ∧ (∀ m, m ≠ n.val → e.link m = d.link m) := by
  have hoff : bit (setFld (s.dev.reg (Reg.TRL_LINK_CTRL n)) 0 0 0) 0 = false := setFld_bit _ _ _ _ _ (by decide) (by decide)
  have hrow : Yields (.trlLinkDisable n) s _ := yields_of_actReg
    (fun d => d.linkCtrlWrite n (setFld (d.reg (Reg.TRL_LINK_CTRL n)) 0 0 0)) rfl ha (congrArg s.dev.keep
      (linkCtrlWrite_off h0 hoff ((setFld_bit _ _ _ _ _ (by decide) (by decide)).trans h4)))
  generalize hv : setFld (s.dev.reg (Reg.TRL_LINK_CTRL n)) 0 0 0 = v at hrow hoff
  generalize hd : ((s.dev.clearAll n).pmBreak n).writeRw (Reg.TRL_LINK_CTRL n) 0x307#32 v = d1 at hrow
  have hstop : (((d1.modLink n Link.stop).updateReach).link n) = (d1.link n).stop := by
    rw [link_updateReach, Dev.link_modLink_same]
  refine ⟨_, hrow, congrArg Link.align hstop, congrArg Link.txOn hstop, congrArg Link.defects hstop, ?_, fun m hm => ?_⟩
  · rw [reg_keep, reg_updateReach _ (ctrl_ne_calStatus n), reg_modLink, ← hd, (writeRw_effect _ _ _ _).1,
      masked_bit _ _ rfl, hoff]
  · refine (link_updateReach _ m).trans ((Dev.link_modLink_ne _ _ hm).trans ?_)
    rw [← hd, link_writeRw, (notesLink_pmBreak _ n).1 m hm, link_clearAll_ne s.dev n hm]

/-- A closed 15-minute bin is empty after pm_clear. -/
theorem pmClear_closed (x : Link) {i : Nat} (h : i < 17) (h0 : 0 < i) : x.pmClear.pmBins.getD i {} = {} := by
  have hcur : (decide (i = 0) || decide (i = 17)) = false := by simp; omega
  have hget : x.pmClear.pmBins.getD i {} = (x.pmBins.getD i {}).emptied (i = 0 || i = 17) := by
    simp [Link.pmClear, List.getD_eq_getElem?_getD, show i < 19 by omega]
  rw [hget, hcur]
  rfl

/-- PM_CLEAR. -/
theorem pmClear_empties {s : State} {n : Fin 256} (ha : Answers .bar0 (Reg.TRL_LINK_CTRL n) s) :
    Completes (.pmClear n) s fun d e => (e.link n).align = (d.link n).align ∧ (∀ m, m ≠ n.val → e.link m = d.link m) ∧
      (∀ i, i < 17 → 0 < i → (e.link n).pmBins.getD i {} = {}) := by
  have hrow : Yields (.pmClear n) s _ := yields_of_actReg
    (fun d => d.linkCtrlWrite n (d.reg (Reg.TRL_LINK_CTRL n) ||| 0x10#32)) rfl ha (congrArg s.dev.keep
      (linkCtrlWrite_pmClear (by simp [bit]) (by simp [bit])))
  generalize hd : s.dev.writeRw (Reg.TRL_LINK_CTRL n) 0x307#32 (s.dev.reg (Reg.TRL_LINK_CTRL n) ||| 0x10#32) = d1 at hrow
  have hroll := notesLink_pmRoll d1 n
  have hclear := Dev.link_modLink_same (d1.pmRoll n) n Link.pmClear
  refine ⟨_, hrow, ?_, fun m hm => ?_, fun i hi h0 => ?_⟩
  · refine (congrArg Link.align hclear).trans ((congrArg Link.align hroll.2 :).trans ?_)
    rw [← hd]
    rfl
  · refine (Dev.link_modLink_ne _ _ hm).trans ((hroll.1 m hm).trans ?_)
    rw [← hd]
    rfl
  · exact (congrArg (fun x : Link => x.pmBins.getD i {}) hclear).trans (pmClear_closed _ hi h0)

/-! ## A framer that sends again (R271) -/

/-- One transmitter of a framer takes its idle state. -/
def Dev.laneIdle (v : Bool) (f : Nat) (d : Dev) (i : Nat) : Dev :=
  d.modLink (8 * f + i) fun x => { x with txIdle := v, lineBuf := [] }

theorem framerIdle_lanes (d : Dev) (f : Nat) (v : Bool) : d.framerIdle f v = (List.range 8).foldl (Dev.laneIdle v f) d := rfl

theorem laneIdle_same (v : Bool) (f : Nat) (d : Dev) (i : Nat) : ((d.laneIdle v f i).link (8 * f + i)).txIdle = v := by
  rw [Dev.laneIdle, Dev.link_modLink_same]

theorem laneIdle_ne (v : Bool) (f : Nat) (d : Dev) {i m : Nat} (h : m ≠ 8 * f + i) : (d.laneIdle v f i).link m = d.link m :=
  Dev.link_modLink_ne _ _ h

/-- A transmitter that has the state keeps it when another takes it. -/
theorem laneIdle_keeps {v : Bool} {f : Nat} {d : Dev} {m : Nat} (i : Nat) (h : (d.link m).txIdle = v) :
    ((d.laneIdle v f i).link m).txIdle = v := by
  by_cases hm : m = 8 * f + i
  · rw [hm, laneIdle_same]
  · rw [laneIdle_ne v f d hm, h]

/-- What is the same beside the fabric's part differs in that part. -/
theorem frame_of_sansFab {d e : Dev} (h : e.sansFab = d.sansFab) : e = { d with fab := e.fab } :=
  congrArg (fun x : Dev => { x with fab := e.fab }) h

/-- A framer's idle state is in its links. -/
theorem framerIdle_frame (d : Dev) (f : Nat) (v : Bool) : d.framerIdle f v = { d with fab := (d.framerIdle f v).fab } :=
  frame_of_sansFab (foldl_field Dev.sansFab _ (fun e _ => sansFab_modLink e _ _) _ d)

/-- A link of another framer stays as it is. -/
theorem framerIdle_other (d : Dev) {f m : Nat} (v : Bool) (h : m / 8 ≠ f) : (d.framerIdle f v).link m = d.link m := by
  rw [framerIdle_lanes]
  refine List.foldlRecOn (motive := fun e : Dev => e.link m = d.link m) _ _ rfl fun e he i hi => ?_
  have hlt := List.mem_range.mp hi
  rw [laneIdle_ne v f e (by omega), he]

/-- Every link of the framer takes its idle state on its turn, and the later turns leave it. -/
theorem framerIdle_own (d : Dev) (f : Nat) (v : Bool) {i : Nat} (h : i < 8) : ((d.framerIdle f v).link (8 * f + i)).txIdle = v := by
  obtain ⟨before, after, hsplit⟩ := List.append_of_mem (List.mem_range.mpr h)
  rw [framerIdle_lanes, hsplit, List.foldl_append, List.foldl_cons]
  exact List.foldlRecOn (motive := fun e : Dev => (e.link (8 * f + i)).txIdle = v) after _ (laneIdle_same v f _ i)
    fun e he j _ => laneIdle_keeps j he

/-- FABRIC_TX_RESUME once the transmit PLL is locked. -/
theorem txResume_sends {s : State} {f : Fin 32} (hc : Clocked pllFabric s) (hl : s.dev.framerLocked f = true) :
    Completes (.fabricTxResume f) s fun d e => (∀ i, i < 8 → (e.link (8 * f + i)).txIdle = false) ∧
      (∀ m, m / 8 ≠ f.val → e.link m = d.link m) ∧ e = { d with fab := e.fab } := by
  have hframe := framerIdle_frame s.dev f false
  have hrow : Yields (.fabricTxResume f) s (s.dev.framerIdle f false) :=
    yields_of_actIn (fun d => if d.framerLocked f then d.framerIdle f false else d) rfl hc (by rw [if_pos hl, hframe]; rfl)
  exact ⟨_, hrow, fun i hi => framerIdle_own _ _ _ hi, fun m hm => framerIdle_other _ _ hm, hframe⟩

/-! ## Codewords and overhead received (R268, R282 to R285) -/

theorem codewordLock_hunts {d : Dev} {n : Nat} {w : Bool} (h : (d.link n).align = 1) (hw : w = bit (d.reg (Reg.TRL_LINK_CTRL n)) 9) :
    d.codewordLock n w = (d.modLink n fun x => { x with align := 2, cands := [], swapped := w }).lofCheck n := if_pos ⟨h, hw⟩

/-- A lane of the wrong polarity, or one whose link does not acquire, does not lock. -/
theorem codewordLock_none {d : Dev} {n : Nat} {w : Bool} (h : (d.link n).align ≠ 1 ∨ w ≠ bit (d.reg (Reg.TRL_LINK_CTRL n)) 9) :
    d.codewordLock n w = d := if_neg fun hl => h.elim (· hl.1) (· hl.2)

/-- Nothing is heard on a lane of the wrong polarity (log entry 103). -/
theorem overheadIn_unheard {d : Dev} {n : Nat} (pos : Nat) (bs : Bytes) (cws : List Codeword) (bad : Bool) (h : d.hears n = false) :
    d.overheadIn n pos bs cws bad = d := by simp [Dev.overheadIn, h]

/-- Overhead on a lane of the right polarity meets the alignment that the link has with its codewords counted. -/
theorem overheadReceive_heard {s : State} {n : Fin 256} (pos : Nat) (bs : Bytes) (cws : List Codeword) (bad : Bool) {e : Dev}
    (hl : Locked pllFabric s) (hh : s.dev.hears n = true) (he : (s.dev.takeCws n cws).overheadAt n pos bs bad = e) :
    Yields (.overheadReceive n pos bs cws bad) s (s.dev.keep e.updateReach) :=
  yields_of_actLive (fun d => d.overheadIn n pos bs cws bad) rfl hl (by rw [Dev.overheadIn, if_pos hh, he])

theorem overheadAt_sync {d : Dev} {n pos : Nat} (bs : Bytes) (bad : Bool) (h : (d.link n).align = 4) (hp : (d.link n).pos = pos) :
    d.overheadAt n pos bs bad = d.syncFrame n bs bad := by simp [Dev.overheadAt, h, hp]

theorem overheadAt_hunt {d : Dev} {n : Nat} (pos : Nat) (bs : Bytes) (bad : Bool) (h : (d.link n).align = 2 ∨ (d.link n).align = 3) :
    d.overheadAt n pos bs bad = d.hunt n pos bs := if_pos h

/-- A link that is off, or acquires, examines no overhead. -/
theorem overheadAt_none {d : Dev} {n : Nat} (pos : Nat) (bs : Bytes) (bad : Bool) (h : (d.link n).align < 2) :
    d.overheadAt n pos bs bad = d := by
  unfold Dev.overheadAt
  dsimp only
  rw [if_neg (by omega), if_neg (by omega)]

/-! ## A frame sent (R269, R272, R280, R281) -/

/-- The line code of a link takes bytes and may send a codeword. -/
theorem lineOut_link (d : Dev) (n : Nat) (bs : Bytes) :
    ∃ buf scr, (d.lineOut n bs).link n = { d.link n with lineBuf := buf, scr := scr } := by
  unfold Dev.lineOut
  dsimp only
  split
  · exact ⟨_, _, Dev.link_setLink_same _ _ _⟩
  · exact ⟨_, _, Dev.link_setLink_same _ _ _⟩

theorem lineOut_regs (d : Dev) (n : Nat) (bs : Bytes) : (d.lineOut n bs).regs = d.regs := by
  unfold Dev.lineOut
  dsimp only
  split <;> rfl

/-- What was sent stays sent. -/
theorem mem_out_lineOut {d : Dev} {o : Output} (n : Nat) (bs : Bytes) (h : o ∈ d.out) : o ∈ (d.lineOut n bs).out := by
  unfold Dev.lineOut
  dsimp only
  split
  · exact h
  · exact List.mem_cons_of_mem _ h

theorem length_be (n x : Nat) : (be n x).length = n := by
  have hle : ∀ n x, (le n x).length = n := fun n => by
    induction n with
    | zero => exact fun _ => rfl
    | succ n ih => exact fun x => congrArg (· + 1) (ih (x / 256))
  rw [be, List.length_reverse, hle]

/-- A field of a string is the part that stands there. -/
theorem slice_append (l m r : Bytes) : Machine.slice (l ++ m ++ r) l.length m.length = m := by
  refine List.ext_getElem (by simp [Machine.slice]) fun i hi hm => ?_
  simp [Machine.slice, List.getD_eq_getElem?_getD, List.getElem?_append, hm]

/-- An overhead slot begins with the frame alignment word and the number of its frame (Table 10.3). -/
theorem ohBody_head (d : Dev) (n dep unk : Nat) (tail : Bytes) :
    Machine.slice (d.ohBody n dep unk ++ tail) 0 8 = faw ∧
      Machine.slice (d.ohBody n dep unk ++ tail) 8 4 = be 1 ((d.link n).txFrame % 256) ++ be 3 ((d.link n).txFrame / 256) := by
  obtain ⟨rest, hrest⟩ : ∃ rest, d.ohBody n dep unk ++ tail =
      faw ++ (be 1 ((d.link n).txFrame % 256) ++ be 3 ((d.link n).txFrame / 256)) ++ rest := by
    simp only [Dev.ohBody, List.append_assoc, List.append_cancel_left_eq, exists_eq']
  have hfaw : faw.length = 8 := length_be 8 _
  have hnum : (be 1 ((d.link n).txFrame % 256) ++ be 3 ((d.link n).txFrame / 256)).length = 4 := by
    rw [List.length_append, length_be, length_be]
  generalize be 1 ((d.link n).txFrame % 256) ++ be 3 ((d.link n).txFrame / 256) = num at hrest hnum ⊢
  rw [hrest]
  constructor
  · have h := slice_append [] faw (num ++ rest)
    rwa [List.nil_append, ← List.append_assoc, hfaw] at h
  · have h := slice_append faw num rest
    rwa [hfaw, hnum] at h

/-- A link whose next frame has departed at `t`. -/
def Link.frameSent (x : Link) (t : DevTime) : Link :=
  { x with txFrame := x.txFrame + 1, txMsg := popFrag x.txMsg, flash := x.flash - 1,
           ttDep := ((x.txFrame % 256, t.stamped) :: x.ttDep).take 16 }

/-- A transmitter that is on and not idle sends the overhead slot of its next frame, which also enters the line code. -/
theorem overheadOut_sends {d : Dev} {n : Nat} (hon : (d.link n).txOn = true) (hid : (d.link n).txIdle = false) :
    ∃ (e : Dev) (bs : Bytes), e.regs = d.regs ∧ Output.overhead n bs ∈ e.out ∧ Machine.slice bs 0 8 = faw ∧
      Machine.slice bs 8 4 = be 1 ((d.link n).txFrame % 256) ++ be 3 ((d.link n).txFrame / 256) ∧
      d.overheadOut n = (e.setLink n ((d.link n).frameSent d.time.now)).lineOut n bs := by
  unfold Dev.overheadOut
  extract_lets x u v body slot d1 d2
  obtain ⟨hfaw, hnum⟩ := ohBody_head v.2 n u.1 v.1 (be 2 (crc16 body).toNat)
  have hcount : d2 = d1 ∨ d2 = d1.inc bankTrl 14 := by
    unfold d2
    split
    · exact .inl rfl
    · exact .inr rfl
  refine ⟨d2, slot, ?_, ?_, hfaw, hnum, if_neg (by simp [x, hon, hid])⟩
  · rcases hcount with h | h <;> rw [h]
    · rfl
    · exact Dev.inc_regs d1 _ _
  · have hout : Output.overhead n slot ∈ d1.out := List.mem_cons_self
    rcases hcount with h | h <;> rw [h]
    · exact hout
    · rwa [Dev.inc_out]

/-- OVERHEAD_TRANSMIT. -/
theorem overheadTransmit_sends {s : State} {n : Fin 256} (hc : Clocked pllFabric s) (hon : (s.dev.link n).txOn = true)
    (hid : (s.dev.link n).txIdle = false) :
    Completes (.overheadTransmit n) s fun d e => (e.link n).txFrame = (d.link n).txFrame + 1 ∧
      (e.link n).ttDep.head? = some ((d.link n).txFrame % 256, d.time.now.stamped) ∧ SameRegs d e ∧
      (∃ bs : Bytes, Output.overhead n bs ∈ e.out ∧ Machine.slice bs 0 8 = faw ∧
        Machine.slice bs 8 4 = be 1 ((d.link n).txFrame % 256) ++ be 3 ((d.link n).txFrame / 256)) := by
  obtain ⟨e, bs, hregs, hout, hfaw, hnum, hsends⟩ := overheadOut_sends hon hid
  have hrow : Yields (.overheadTransmit n) s _ :=
    yields_of_actIn (fun d => d.overheadOut n) rfl hc (congrArg s.dev.keep hsends)
  obtain ⟨buf, scr, hline⟩ := lineOut_link (e.setLink n ((s.dev.link n).frameSent s.dev.time.now)) n bs
  rw [Dev.link_setLink_same] at hline
  refine ⟨_, hrow, ?_, ?_, ?_, bs, ?_, hfaw, hnum⟩
  · rw [link_keep, hline]
    rfl
  · rw [link_keep, hline]
    rfl
  · rw [SameRegs, Dev.keep_regs, lineOut_regs]
    exact hregs
  · rw [Dev.keep_out]
    exact mem_out_lineOut n bs hout

/-! ## Defects that the lane sees (R286, R287, R290) -/

theorem defectDeclared_declares {d : Dev} {n b : Nat} (ha : ((d.sigRoll n).link n).align ≠ 0) (hb : laneDefect b = true)
    (hh : ((d.sigRoll n).link n).has b = false) (hs : ((d.sigRoll n).link n).suppressed b = false)
    (hd : ((d.sigRoll n).link n).declares b = true) : d.defectDeclared n b = ((d.sigRoll n).setDefect n b).updateReach :=
  if_neg (by simp [ha, hb, hh, hs, hd])

theorem defectCleared_clears {d : Dev} {n b : Nat} (hb : laneDefect b = true) (hc : ((d.sigRoll n).link n).clears b = true) :
    d.defectCleared n b = (((d.sigRoll n).unsetDefect n b).lofCheck n).updateReach := if_pos ⟨hb, hc⟩

theorem defectCleared_stays {d : Dev} {n b : Nat} (h : laneDefect b = false ∨ ((d.sigRoll n).link n).clears b = false) :
    d.defectCleared n b = d.sigRoll n := if_neg (by rcases h with h | h <;> simp [h])

/-- LOF, which the alignment shows, is the only defect that the check may report. -/
theorem has_lofCheck_of_not {d : Dev} {n b : Nat} (hb : b < 10) (hl : b ≠ 6) (h : (d.link n).has b = false) :
    ((d.lofCheck n).link n).has b = false := by
  unfold Dev.lofCheck
  dsimp only
  split
  · exact has_setDefect_of_not d n hb hl h
  · exact h

/-- DEFECT_DECLARE of a defect that its criterion declares. -/
theorem defectDeclare_declares {s : State} {n : Fin 256} {b : Fin 10} (hc : Clocked pllFabric s)
    (ha : ((s.dev.sigRoll n).link n).align ≠ 0) (hb : laneDefect b = true) (hh : ((s.dev.sigRoll n).link n).has b = false)
    (hs : ((s.dev.sigRoll n).link n).suppressed b = false) (hd : ((s.dev.sigRoll n).link n).declares b = true) :
    Yields (.defectDeclare n b) s (s.dev.keep ((s.dev.sigRoll n).setDefect n b).updateReach) ∧
    Completes (.defectDeclare n b) s fun _ e => (e.link n).has b = true ∧ bit (e.reg (Reg.TRL_LINK_STATUS n)) (8 + b) = true ∧
      bit (e.reg Reg.TRL_STATUS) 8 = true := by
  have hrow := yields_of_actIn (c := .defectDeclare n b) (fun d => d.defectDeclared n b) rfl hc
    (congrArg s.dev.keep (defectDeclared_declares ha hb hh hs hd))
  obtain ⟨hlink, hblock⟩ := status_setDefect (s.dev.sigRoll n) n b.isLt
  have hcal : Reg.TRL_LINK_STATUS n ≠ Reg.TRL_CAL_STATUS := by
    unfold Reg.TRL_LINK_STATUS Reg.TRL_CAL_STATUS
    omega
  refine ⟨hrow, _, hrow, ?_, ?_, ?_⟩
  · exact (congrArg (Link.has · b) (link_updateReach _ _)).trans (has_setDefect_same _ n b.isLt)
  · rw [reg_keep, reg_updateReach _ hcal, hlink]
  · rw [reg_keep, reg_updateReach _ (by decide), hblock]

/-- DEFECT_CLEAR of a defect that its criterion clears. -/
theorem defectClear_clears {s : State} {n : Fin 256} {b : Fin 10} (hc : Clocked pllFabric s) (hb : laneDefect b = true)
    (hcl : ((s.dev.sigRoll n).link n).clears b = true) :
    Yields (.defectClear n b) s (s.dev.keep (((s.dev.sigRoll n).unsetDefect n b).lofCheck n).updateReach) ∧
    Completes (.defectClear n b) s fun _ e => (e.link n).has b = false := by
  have hrow := yields_of_actIn (c := .defectClear n b) (fun d => d.defectCleared n b) rfl hc
    (congrArg s.dev.keep (defectCleared_clears hb hcl))
  have hlane : b.val ≠ 6 := fun h => by simp [h, laneDefect] at hb
  have hun : (((s.dev.sigRoll n).unsetDefect n b).link n).has b = false := by simp [has_unsetDefect _ _ _ b.isLt]
  exact ⟨hrow, _, hrow, (congrArg (Link.has · b) (link_updateReach _ _)).trans (has_lofCheck_of_not b.isLt hlane hun)⟩

/-! ## Seconds that become final (R297) -/

theorem pmFinal_waits {d : Dev} {n : Nat} (h : ((d.pmRoll n).link n).pmPend.length < 11) : d.pmFinal n = d.pmRoll n := by
  unfold Dev.pmFinal
  dsimp only
  split
  · rfl
  · exact if_pos h

/-- Ten seconds that follow make the oldest final. -/
theorem pmFinal_enters {d : Dev} {n : Nat} {c : PmSec} {rest : List PmSec} (hr : d.pmRoll n = d) (hp : (d.link n).pmPend = c :: rest)
    (hl : 10 ≤ rest.length) (hb : bit (d.reg Reg.TRL_CTRL) 0 = true) : d.pmFinal n =
      ((d.setLink n { d.link n with pmPend := rest, unavail := pmUnavail (d.link n).unavail (c :: rest) }).pmEnter n 0 900 c
        (rest.headD (d.link n).pmCur) (pmUnavail (d.link n).unavail (c :: rest))).pmEnter n 17 86400 c
        (rest.headD (d.link n).pmCur) (pmUnavail (d.link n).unavail (c :: rest)) := by
  unfold Dev.pmFinal
  dsimp only
  rw [hr, hp]
  dsimp only
  rw [if_neg (by rw [List.length_cons]; omega), if_pos hb]

/-! ## The rows of a link -/

/-- Settles O43: the rows one by one, each by the lemma on what it makes of the link. -/
theorem trellisLink : Obligations.TrellisLink := by
  unfold Obligations.TrellisLink
  refine ⟨fun s n ha h0 h4 => linkEnable_starts ha h0 h4, fun s n ha h0 h4 => linkDisable_stops ha h0 h4,
    fun s n ha => pmClear_empties ha, fun s f hc hl => txResume_sends hc hl, fun s n w hc ha hw => ?_, fun s n w hc h => ?_,
    fun s n pos bs cws bad hl hh d1 hd => ?_, fun s n pos bs cws bad hl hh => ?_,
    fun s n hc hon hid => overheadTransmit_sends hc hon hid, fun s n b hc d1 hd ha hb hh hs hdecl => ?_, fun s n b hc d1 hd => ?_,
    fun s p n ha => ?_, fun s n hc d1 hd hlen => ?_, fun s n c rest ua hc hr hp hlen hen hua => ?_, fun s p n b ha hb => ?_,
    fun s p n b ha hb => ?_⟩
  case refine_1 => exact yields_of_actIn (fun d => d.codewordLock n w) rfl hc (congrArg s.dev.keep (codewordLock_hunts ha hw))
  case refine_2 => exact yields_of_actIn (fun d => d.codewordLock n w) rfl hc (by rw [codewordLock_none h]; rfl)
  case refine_3 =>
    subst hd
    exact ⟨fun ha hp => overheadReceive_heard pos bs cws bad hl hh (overheadAt_sync bs bad ha hp),
      fun ha => overheadReceive_heard pos bs cws bad hl hh (overheadAt_hunt pos bs bad ha),
      fun ha => overheadReceive_heard pos bs cws bad hl hh (overheadAt_none pos bs bad ha)⟩
  case refine_4 =>
    exact yields_of_actLive (fun d => d.overheadIn n pos bs cws bad) rfl hl (by rw [overheadIn_unheard pos bs cws bad hh]; rfl)
  case refine_5 =>
    subst hd
    exact defectDeclare_declares hc ha hb hh hs hdecl
  case refine_6 =>
    subst hd
    exact ⟨fun hb hcl => defectClear_clears hc hb hcl,
      fun h => yields_of_actIn (fun d => d.defectCleared n b) rfl hc (congrArg s.dev.keep (defectCleared_stays h))⟩
  case refine_7 => exact yields_of_actRead (fun d => d.readTtOffset n) rfl ha rfl
  case refine_8 =>
    subst hd
    exact yields_of_actIn (fun d => d.pmFinal n) rfl hc (congrArg s.dev.keep (pmFinal_waits hlen))
  case refine_9 =>
    subst hua
    exact yields_of_actIn (fun d => d.pmFinal n) rfl hc (congrArg s.dev.keep (pmFinal_enters hr hp hlen hen))
  case refine_10 =>
    subst hb
    exact yields_of_actRead (fun d => d.readBin n false) rfl ha rfl
  case refine_11 =>
    subst hb
    exact yields_of_actRead (fun d => d.readBin n true) rfl ha rfl

end Sys2Proof.Machine
end

section
/-! Cells, reassembly and calendar pages: what fills a cell slot, what a received cell meets, what the timers of a context make of it, and
what page commands and switches make of the pages. -/
namespace Sys2Proof.Machine

/-! ## Slots sent (R309, R310) -/

/-- A transmitter that is off or idle, or has sent no overhead slot yet, sends no cell. -/
theorem fillSlot_off {d : Dev} {n : Nat} (i : Nat) (h : (d.link n).txOn = false ∨ (d.link n).txIdle = true ∨ (d.link n).txFrame = 0) :
    d.fillSlot n i = d := if_pos (by simpa using h)

/-- A transmitter that sends frames. -/
theorem fillSlot_on {d : Dev} {n : Nat} (hon : (d.link n).txOn = true) (hid : (d.link n).txIdle = false) (hf : (d.link n).txFrame ≠ 0) :
    ¬((!(d.link n).txOn) = true ∨ (d.link n).txIdle = true ∨ (d.link n).txFrame = 0) := by simp [hon, hid, hf]

theorem fillSlot_ais {d : Dev} {n : Nat} (i : Nat) (hon : (d.link n).txOn = true) (hid : (d.link n).txIdle = false)
    (hf : (d.link n).txFrame ≠ 0) (ha : d.sendsAis n = true) : d.fillSlot n i = d.sendIdle n :=
  (if_neg (fillSlot_on hon hid hf)).trans (if_pos ha)

/-- A RELAY slot carries the cell that waits for it. -/
theorem fillSlot_relay {d : Dev} {n i pg t : Nat} {r : Relay} (hon : (d.link n).txOn = true) (hid : (d.link n).txIdle = false)
    (hf : (d.link n).txFrame ≠ 0) (ha : d.sendsAis n = false) (hp : (d.link n).txPage = some pg)
    (ht : t = 64 * (((d.link n).txFrame - 1) % 16) + i) (he : fld (d.connEntry n 0 pg t) 31 30 = 2)
    (hr : (d.fab.relays.find? fun r => r.link = n && r.slot = t && r.ready ≤ d.time.tsc) = some r) :
    d.fillSlot n i = d.sendRelay n r := by
  have htype : txType (d.connEntry n 0 pg t) = 2 := by simp [txType, he]
  subst ht
  unfold Dev.fillSlot
  extract_lets x t e relay
  rw [if_neg (fillSlot_on hon hid hf), if_neg (by simp [ha])]
  have hent : e = d.connEntry n 0 pg t := by simp only [e, x, hp]
  have hrel : relay = some r := hr
  rw [hent, htype, hrel]
  rfl

/-- An idle cell leaves on its link and in its line code. -/
theorem sendIdle_sends (d : Dev) (n : Nat) :
    Output.cell n idleCell.bytes ∈ (d.sendIdle n).out ∧ (d.sendIdle n).regs = d.regs := by
  unfold Dev.sendIdle Dev.cellOut
  rw [Dev.inc_out, Dev.inc_regs, lineOut_regs]
  exact ⟨mem_out_lineOut n _ List.mem_cons_self, rfl⟩

/-! ## Cells received (R279, R294, R310) -/

theorem cellIn_unheard {d : Dev} {n : Nat} (i : Nat) (bs : Bytes) (cws : List Codeword) (bad : Bool) (h : d.hears n = false) :
    d.cellIn n i bs cws bad = d := by simp [Dev.cellIn, h]

/-- Out of SYNC a cell slot counts its codewords alone. -/
theorem cellIn_unaligned {d : Dev} {n : Nat} (i : Nat) (bs : Bytes) (cws : List Codeword) (bad : Bool) (h : d.hears n = true)
    (ha : ((d.takeCws n cws).link n).align ≠ 4) : d.cellIn n i bs cws bad = d.takeCws n cws := by
  unfold Dev.cellIn
  extract_lets d1
  rw [if_pos h, if_neg fun hb => ha hb.2]
  exact if_pos ha

/-- In SYNC the cell meets the checks, in a frame that an uncorrectable codeword has made errored. -/
theorem cellReceive_heard {s : State} {n : Fin 256} {i : Fin 64} {bs : Bytes} {cws : List Codeword} {bad : Bool} {d1 d2 e : Dev}
    (hl : Locked pllFabric s) (hh : s.dev.hears n = true) (hd1 : d1 = s.dev.takeCws n cws) (ha : (d1.link n).align = 4)
    (hd2 : d2 = if bad then d1.frameError n else d1) (he : d2.cellAt n i bs = e) :
    Yields (.cellReceive n i bs cws bad) s (s.dev.keep e) := by
  refine yields_of_actLive (fun d => d.cellIn n i bs cws bad) rfl hl (congrArg s.dev.keep ?_)
  have hin : s.dev.cellIn n i bs cws bad = d2.cellAt n i bs := by
    simp only [Dev.cellIn, hh, if_true, ← hd1, ha, and_true, ← hd2]
  rw [hin, he]

/-- On a link in SYNC, without a defect of rank 1 to 6 and no loop, a cell meets the checks of R279. -/
theorem cellAt_checks {d : Dev} {n : Nat} (i : Nat) (bs : Bytes) (hs : (d.link n).align = 4) (hd : (d.link n).down = false)
    (hl : (d.link n).selfLoop d.devId = false) : d.cellAt n i bs =
      if (Cell.ofBytes bs n).malformed bs then ((d.inc (bankLink n) 5).frameError n).cellDropped n
      else if (Cell.ofBytes bs n).payBad bs then ((d.inc (bankLink n) 6).frameError n).cellDropped n
      else if (Cell.ofBytes bs n).valid then
        (d.inc (bankLink n) 0).routeCell n (64 * ((d.link n).rxMfi % 16) + i) (Cell.ofBytes bs n) bs
      else d := by
  unfold Dev.cellAt
  dsimp only
  rw [if_neg (by simp [hs]), if_neg (by simp [hd, hl])]

/-! ## The timers of a context (R313) -/

theorem gapExpires_none {d : Dev} {k : Nat} (h : (d.ctx k).gap = none) : d.gapExpires k = d := by simp [Dev.gapExpires, h]

theorem ctxIdle_empty {d : Dev} {k : Nat} (h : (d.ctx k).held = []) :
    d.ctxIdle k = d.setCtx k { d.ctx k with sync := false } := if_pos h

/-- The contexts are beside the links and the counters. -/
theorem ctx_cellDropped (d : Dev) (n k : Nat) : (d.cellDropped n).ctx k = d.ctx k := by
  unfold Dev.cellDropped
  rw [pmNote_frame, Dev.ctx, Dev.ctx, Dev.inc_fab]

theorem ctx_inc (d : Dev) (b i k : Nat) : (d.inc b i).ctx k = d.ctx k := by rw [Dev.ctx, Dev.inc_fab, Dev.ctx]

/-- Where no packet is in assembly, a cell that joins is dropped. -/
theorem asmJoin_none {d : Dev} {k : Nat} (c : Cell) (h : (d.ctx k).pkt = none) : d.asmJoin k c =
    (if (d.ctx k).skip then (if c.last then d.setCtx k { d.ctx k with skip := false } else d) else d.inc bankTrl 5).cellDropped
      c.link := by
  unfold Dev.asmJoin
  dsimp only
  split
  next => rfl
  next hk => simp [h] at hk

/-- It changes no more of the contexts than whether the cells of its own are passed over. -/
theorem asmJoin_stray {d : Dev} {k : Nat} (c : Cell) (h : (d.ctx k).pkt = none) :
    (∃ skip, (d.asmJoin k c).ctx k = { d.ctx k with skip := skip }) ∧ ∀ j, j ≠ k → (d.asmJoin k c).ctx j = d.ctx j := by
  simp only [asmJoin_none c h, ctx_cellDropped]
  split
  · split
    · exact ⟨⟨false, Dev.ctx_setCtx_same _ _ _⟩, fun j hj => Dev.ctx_setCtx_ne _ _ hj⟩
    · exact ⟨⟨(d.ctx k).skip, rfl⟩, fun _ _ => rfl⟩
  · exact ⟨⟨(d.ctx k).skip, ctx_inc _ _ _ _⟩, fun j _ => ctx_inc _ _ _ _⟩

/-- A held cell that is due is assembled, and the next one becomes due. -/
theorem drainHeld_due {d : Dev} {k : Nat} {c : Cell} (m : Nat) (h : ((d.ctx k).held.find? fun c => c.seq = (d.ctx k).exp) = some c) :
    d.drainHeld k (m + 1) = ((d.setCtx k { d.ctx k with held := (d.ctx k).held.erase c, exp := ((d.ctx k).exp + 1) % 65536 }).assemble
      k c).drainHeld k m := by
  rw [Dev.drainHeld]
  dsimp only
  rw [h]

/-- The gap timer stops when no cell is held. -/
theorem drainHeld_empty {d : Dev} {k : Nat} (m : Nat) (h : (d.ctx k).held = []) :
    d.drainHeld k (m + 1) = d.setCtx k { d.ctx k with gap := none } := by
  rw [Dev.drainHeld]
  dsimp only
  rw [h]
  rfl

/-- The only held cell, when it is due and no packet is in assembly, leaves its context with nothing held. -/
theorem drainHeld_single {d : Dev} {k : Nat} {c : Cell} (hh : (d.ctx k).held = [c]) (he : (d.ctx k).exp = c.seq)
    (hp : (d.ctx k).pkt = none) (hc : c.first = false) :
    (∃ skip, (d.drainHeld k 2).ctx k =
      { d.ctx k with held := [], exp := (c.seq + 1) % 65536, gap := none, skip := skip }) ∧
      ∀ j, j ≠ k → (d.drainHeld k 2).ctx j = d.ctx j := by
  have hdue := drainHeld_due (d := d) (k := k) (c := c) 1 (by simp [hh, he])
  rw [hh, he, List.erase_cons_head, Dev.assemble, if_neg (by simp [hc])] at hdue
  generalize hd1 : d.setCtx k { d.ctx k with held := [], exp := (c.seq + 1) % 65536 } = d1 at hdue
  have hctx : d1.ctx k = { d.ctx k with held := [], exp := (c.seq + 1) % 65536 } := by rw [← hd1, Dev.ctx_setCtx_same]
  obtain ⟨⟨skip, hskip⟩, hother⟩ := asmJoin_stray (d := d1) (k := k) c (by rw [hctx]; exact hp)
  rw [hctx] at hskip
  rw [hdue, drainHeld_empty 0 (congrArg Ctx.held hskip)]
  refine ⟨⟨skip, by rw [Dev.ctx_setCtx_same, hskip]⟩, fun j hj => ?_⟩
  rw [Dev.ctx_setCtx_ne _ _ hj, hother j hj, ← hd1, Dev.ctx_setCtx_ne _ _ hj]

/-- The device with a context in sequence from `q` on, its gap timer stopped. -/
def Dev.resynced (d : Dev) (k q : Nat) : Dev := d.setCtx k { d.ctx k with sync := true, exp := q, gap := none }

theorem ctx_resynced_same (d : Dev) (k q : Nat) : (d.resynced k q).ctx k = { d.ctx k with sync := true, exp := q, gap := none } :=
  Dev.ctx_setCtx_same _ _ _

/-- A gap timer that expires out of sequence takes the context into sequence at its one held cell, and stays stopped where that leaves
nothing held. -/
theorem gapExpires_resyncs {d : Dev} {k t : Nat} {c : Cell} (hg : (d.ctx k).gap = some t) (hs : (d.ctx k).sync = false)
    (hh : (d.ctx k).held = [c]) (hd : (((d.resynced k c.seq).drainHeld k 2).ctx k).held = []) :
    d.gapExpires k = (d.resynced k c.seq).drainHeld k 2 := by
  have hlen : (d.ctx k).held.length + 1 = 2 := by rw [hh]; rfl
  unfold Dev.gapExpires
  dsimp only
  split
  next _ c' _ hfirst =>
    obtain rfl : c = c' := by simpa [hh, firstHeld] using hfirst
    rw [if_pos (show (!(d.ctx k).sync) = true by simp [hs]), hlen]
    exact if_pos hd
  next hnone => exact (hnone t c hg (by rw [hh]; rfl)).elim

/-- A gap timer that expires over one held cell, out of sequence and with no packet in assembly, brings the context into sequence behind
that cell. -/
theorem gapExpires_single {d : Dev} {k t : Nat} {c : Cell} (hg : (d.ctx k).gap = some t) (hs : (d.ctx k).sync = false)
    (hp : (d.ctx k).pkt = none) (hh : (d.ctx k).held = [c]) (hc : c.first = false) :
    ((d.gapExpires k).ctx k).sync = true ∧ ((d.gapExpires k).ctx k).held = [] ∧
      ((d.gapExpires k).ctx k).exp = (c.seq + 1) % 65536 ∧ ∀ j, j ≠ k → (d.gapExpires k).ctx j = d.ctx j := by
  have hctx := ctx_resynced_same d k c.seq
  obtain ⟨⟨skip, hskip⟩, hother⟩ := drainHeld_single (d := d.resynced k c.seq) (k := k) (c := c)
    (by rw [hctx]; exact hh) (by rw [hctx]) (by rw [hctx]; exact hp) hc
  rw [gapExpires_resyncs hg hs hh (congrArg Ctx.held hskip), hskip, hctx]
  exact ⟨rfl, rfl, rfl, fun j hj => (hother j hj).trans (Dev.ctx_setCtx_ne _ _ hj)⟩

/-! ## Pages (R304, R306, R325, R537) -/

theorem calWrite_obeyed {d : Dev} (t n pg x : Nat) (h : d.fab.obeyed ≠ 0) : d.calWrite t n pg x = d.calResult 4 := if_pos h

/-- A command on a header has index 0. -/
theorem calWrite_badIndex {d : Dev} {t x : Nat} (n pg : Nat) (h : d.fab.obeyed = 0) (ht : 2 ≤ t) (hx : x ≠ 0) :
    d.calWrite t n pg x = d.calResult 1 := by simp [Dev.calWrite, calHeader, h, ht, hx]

/-- An entry for a standby page is written, and its page is empty. -/
theorem calWrite_entry {d : Dev} {t n pg : Nat} (x : Nat) (h : d.fab.obeyed = 0) (ht : t < 2)
    (hb : d.badConn t (d.reg Reg.TRL_CAL_DATA) = false) (hp : (d.link n).page t ≠ some pg) :
    d.calWrite t n pg x = ((d.setConn n t pg x (d.reg Reg.TRL_CAL_DATA)).updateReach).calResult 0 := by
  have hhead : calHeader t = false := decide_eq_false (by omega)
  have hdir : calDir t = t := Nat.mod_eq_of_lt ht
  simp [Dev.calWrite, Dev.pageWriteFails, hhead, hdir, h, hb, hp]

/-- The active page takes no generation. -/
theorem calWrite_active {d : Dev} {t n pg x : Nat} (h : d.fab.obeyed = 0) (ht : 2 ≤ t) (hx : x = 0)
    (hp : (d.link n).page (calDir t) = some pg) : d.calWrite t n pg x = d.calResult 3 := by
  simp [Dev.calWrite, Dev.pageWriteFails, calHeader, h, ht, hx, hp]

/-- A standby page takes its generation. -/
theorem calWrite_header {d : Dev} {t n pg x : Nat} (h : d.fab.obeyed = 0) (ht : 2 ≤ t) (hx : x = 0)
    (hp : (d.link n).page (calDir t) ≠ some pg) :
    d.calWrite t n pg x = (d.setGen n (calDir t) pg (fld (d.reg Reg.TRL_CAL_DATA) 15 0)).calResult 0 := by
  simp [Dev.calWrite, Dev.pageWriteFails, calHeader, h, ht, hx, hp]

theorem calRead_entry {d : Dev} {t : Nat} (n pg x : Nat) (ht : t < 2) :
    d.calRead t n pg x = (d.setReg Reg.TRL_CAL_DATA (d.connEntry n t pg x)).calResult 0 := by
  have hhead : calHeader t = false := decide_eq_false (by omega)
  have hdir : calDir t = t := Nat.mod_eq_of_lt ht
  simp [Dev.calRead, hhead, hdir]

theorem calRead_header {d : Dev} {t x : Nat} (n pg : Nat) (ht : 2 ≤ t) (hx : x = 0) :
    d.calRead t n pg x = (d.setReg Reg.TRL_CAL_DATA (wd (d.gen n (calDir t) pg))).calResult 0 := by
  simp [Dev.calRead, calHeader, ht, hx]

theorem calRead_badIndex {d : Dev} {t x : Nat} (n pg : Nat) (ht : 2 ≤ t) (hx : x ≠ 0) : d.calRead t n pg x = d.calResult 1 := by
  simp [Dev.calRead, calHeader, ht, hx]

/-- A command that ends well shows result 0. -/
theorem reg_calResult_ok (d : Dev) : (d.calResult 0).reg Reg.TRL_CAL_CMD = 0#32 := d.reg_setReg_same _ _

/-- It changes nothing in the fabric's part of the device. -/
theorem fab_calResult_ok (d : Dev) : (d.calResult 0).fab = d.fab := rfl

theorem calResult_ok (d : Dev) : d.calResult 0 = d.setReg Reg.TRL_CAL_CMD (put 0 28) := rfl

/-- The entry written is what the page then holds. -/
theorem connEntry_setConn_same (d : Dev) (n dir pg x : Nat) (w : Word) : (d.setConn n dir pg x w).connEntry n dir pg x = w :=
  Tbl.get_set_same _ _ _ _

theorem gen_setGen_same (d : Dev) (n dir pg g : Nat) : (d.setGen n dir pg g).gen n dir pg = g := Tbl.get_set_same _ _ _ _

/-- A page that an entry is written to is empty: its generation is 0 (R304). -/
theorem gen_setConn_same (d : Dev) (n dir pg x : Nat) (w : Word) : (d.setConn n dir pg x w).gen n dir pg = 0 :=
  gen_setGen_same d n dir pg 0

section
variable {s : State} {t : BitVec 2} {l : BitVec 8} {pg : Bool} {x : BitVec 10} (ha : Answers .bar0 Reg.TRL_CAL_CMD s)
include ha

/-- CAL_WRITE ends with what the write of the page comes to. -/
theorem calWrite_yields {e : Dev} (h : s.dev.calWrite t.toNat l.toNat (b2n pg) x.toNat = e) :
    Yields (.calWrite t l pg x) s (s.dev.keep e) :=
  yields_of_actReg (fun d => d.calWrite t.toNat l.toNat (b2n pg) x.toNat) rfl ha (congrArg s.dev.keep h)

theorem calRead_yields {e : Dev} (h : s.dev.calRead t.toNat l.toNat (b2n pg) x.toNat = e) :
    Yields (.calRead t l pg x) s (s.dev.keep e) :=
  yields_of_actReg (fun d => d.calRead t.toNat l.toNat (b2n pg) x.toNat) rfl ha (congrArg s.dev.keep h)

/-- CAL_WRITE of a connection entry. -/
theorem calWrite_writesEntry (ho : s.dev.fab.obeyed = 0) (ht : t.toNat < 2)
    (hb : s.dev.badConn t.toNat (s.dev.reg Reg.TRL_CAL_DATA) = false) (hp : (s.dev.link l.toNat).page t.toNat ≠ some (b2n pg)) :
    Completes (.calWrite t l pg x) s fun d e =>
      e.connEntry l.toNat t.toNat (b2n pg) x.toNat = d.reg Reg.TRL_CAL_DATA ∧ e.gen l.toNat t.toNat (b2n pg) = 0 ∧
        e.fab.links = d.fab.links ∧ e.reg Reg.TRL_CAL_CMD = 0#32 := by
  have hrow := calWrite_yields ha (calWrite_entry x.toNat ho ht hb hp)
  generalize hd : s.dev.setConn l.toNat t.toNat (b2n pg) x.toNat (s.dev.reg Reg.TRL_CAL_DATA) = d1 at hrow
  have hfab : (s.dev.keep (d1.updateReach.calResult 0)).fab = d1.fab := by rw [Dev.keep_fab, fab_calResult_ok, updateReach_fab]
  refine ⟨_, hrow, ?_, ?_, ?_, by rw [reg_keep, reg_calResult_ok]⟩
  · rw [Dev.connEntry, hfab, ← hd]
    exact connEntry_setConn_same _ _ _ _ _ _
  · rw [Dev.gen, hfab, ← hd]
    exact gen_setConn_same _ _ _ _ _ _
  · rw [hfab, ← hd]
    rfl

/-- CAL_READ of a connection entry. -/
theorem calRead_readsEntry (ht : t.toNat < 2) :
    Completes (.calRead t l pg x) s fun d e => e.reg Reg.TRL_CAL_DATA = d.connEntry l.toNat t.toNat (b2n pg) x.toNat ∧
      e.reg Reg.TRL_CAL_CMD = 0#32 ∧ RegsBut [Reg.TRL_CAL_CMD, Reg.TRL_CAL_DATA] d e ∧ e = { d with regs := e.regs } := by
  refine ⟨_, calRead_yields ha (calRead_entry _ _ _ ht), ?_, by rw [reg_keep, reg_calResult_ok], fun k hk => ?_, rfl⟩
  · rw [reg_keep, calResult_ok, Dev.reg_setReg_ne _ _ (by decide), Dev.reg_setReg_same]
  · rw [List.mem_cons, List.mem_singleton, not_or] at hk
    rw [reg_keep, calResult_ok, Dev.reg_setReg_ne _ _ hk.1, Dev.reg_setReg_ne _ _ hk.2]

/-- CAL_READ of a generation. -/
theorem calRead_readsHeader (ht : 2 ≤ t.toNat) (hx : x.toNat = 0) :
    Completes (.calRead t l pg x) s fun d e =>
      e.reg Reg.TRL_CAL_DATA = wd (d.gen l.toNat (calDir t.toNat) (b2n pg)) ∧ e.reg Reg.TRL_CAL_CMD = 0#32 := by
  refine ⟨_, calRead_yields ha (calRead_header _ _ ht hx), ?_, by rw [reg_keep, reg_calResult_ok]⟩
  rw [reg_keep, calResult_ok, Dev.reg_setReg_ne _ _ (by decide), Dev.reg_setReg_same]

/-- CAL_WRITE of the generation of a standby page. -/
theorem calWrite_writesHeader (ht : 2 ≤ t.toNat) (hx : x.toNat = 0) (ho : s.dev.fab.obeyed = 0)
    (hp : (s.dev.link l.toNat).page (calDir t.toNat) ≠ some (b2n pg)) :
    Completes (.calWrite t l pg x) s fun d e =>
      e.gen l.toNat (calDir t.toNat) (b2n pg) = fld (d.reg Reg.TRL_CAL_DATA) 15 0 ∧ e.reg Reg.TRL_CAL_CMD = 0#32 := by
  refine ⟨_, calWrite_yields ha (calWrite_header ho ht hx hp), ?_, by rw [reg_keep, reg_calResult_ok]⟩
  rw [Dev.gen, Dev.keep_fab, fab_calResult_ok]
  exact gen_setGen_same _ _ _ _ _

end

/-! ## Page switches (R311, R316, R318) -/

theorem txSwitch_none {d : Dev} {n : Nat} (h : (d.link n).txDue = none) : d.txSwitch n = d := by simp [Dev.txSwitch, h]

theorem txSwitch_fails {d : Dev} {n : Nat} {a : Nat × Nat} (h : (d.link n).txDue = some a) (hg : d.gen n 0 ((d.link n).standby 0) = 0) :
    d.txSwitch n = (d.setLink n { d.link n with txArm := (d.link n).txArm.erase a }).switchFails n := by simp [Dev.txSwitch, h, hg]

theorem txSwitch_switches {d : Dev} {n : Nat} {a : Nat × Nat} (h : (d.link n).txDue = some a)
    (hg : d.gen n 0 ((d.link n).standby 0) ≠ 0) : d.txSwitch n =
      ((((d.setLink n { d.link n with txArm := (d.link n).txArm.erase a }).modLink n fun x =>
        { x with txPage := some ((d.link n).standby 0) }).switched).dropStaleRelays n).updateReach := by simp [Dev.txSwitch, h, hg]

/-- A relay cell dropped is a note of the link that it came by. -/
theorem notesLink_relayDrop (d : Dev) (n : Nat) : NotesLink n d (d.relayDrop n) := by
  unfold Dev.relayDrop
  exact ((notesLink_inc d n _ _).trans (notesLink_of_fab n (Dev.latchBit_fab _ _ _))).trans (notesLink_cellDropped _ n)

/-- Dropping the relay cells of a link leaves every link beside its notes. -/
theorem sansNotes_dropStaleRelays (d : Dev) (n m : Nat) : ((d.dropStaleRelays n).link m).sansNotes = (d.link m).sansNotes := by
  unfold Dev.dropStaleRelays
  extract_lets keeps
  exact foldl_field (fun e : Dev => (e.link m).sansNotes) (fun e (r : Relay) => e.relayDrop r.inLink)
    (fun e r => (notesLink_relayDrop e r.inLink).sansNotes m) _ _

theorem txPage_dropStaleRelays (d : Dev) (n m : Nat) : ((d.dropStaleRelays n).link m).txPage = (d.link m).txPage :=
  (congrArg (fun x : Link => x.txPage) (sansNotes_dropStaleRelays d n m) :)

/-- A page switch is counted and shown beside the links. -/
theorem link_switched (d : Dev) (m : Nat) : d.switched.link m = d.link m := by
  rw [Dev.link, Dev.switched, Dev.latchBit_fab, Dev.inc_fab, Dev.link]

/-- CAL_TX_PAGE_SWITCH at the boundary of a page with a generation. -/
theorem txPageSwitch_switches {s : State} {n : Fin 256} {a : Nat × Nat} (hc : Clocked pllFabric s) (h : (s.dev.link n).txDue = some a)
    (hg : s.dev.gen n 0 ((s.dev.link n).standby 0) ≠ 0) :
    Completes (.calTxPageSwitch n) s fun d e => (e.link n).txPage = some ((d.link n).standby 0) := by
  have hrow : Yields (.calTxPageSwitch n) s _ := yields_of_actIn (fun d => d.txSwitch n) rfl hc (congrArg s.dev.keep
    (txSwitch_switches h hg))
  refine ⟨_, hrow, ?_⟩
  beta_reduce
  rw [link_keep, link_updateReach, txPage_dropStaleRelays, link_switched, Dev.link_modLink_same]

theorem rxSwitch_switches {d : Dev} {n t : Nat} (h : (d.link n).rxArm = some t) (hb : (d.link n).rxBoundary = true)
    (ha : d.rxAgrees n = true) (ht : 10 * d.time.now.units ≤ (10 * t + 236304) * nsUnit) : d.rxSwitch n =
      ((d.setLink n { d.link n with rxArm := none }).modLink n fun x => { x with rxPage := some (x.standby 1) }).switched := by
  simp [Dev.rxSwitch, h, hb, ha, ht]

/-- CAL_RX_PAGE_SWITCH at the received boundary that the persistent request names. -/
theorem rxPageSwitch_switches {s : State} {n : Fin 256} {t : Nat} (hc : Clocked pllFabric s) (h : (s.dev.link n).rxArm = some t)
    (hb : (s.dev.link n).rxBoundary = true) (ha : s.dev.rxAgrees n = true)
    (ht : 10 * s.dev.time.now.units ≤ (10 * t + 236304) * nsUnit) :
    Completes (.calRxPageSwitch n) s fun d e => (e.link n).rxPage = some ((d.link n).standby 1) ∧ (e.link n).rxArm = none ∧
      bit (e.reg Reg.TRL_CAL_STATUS) 9 = true := by
  have hrow : Yields (.calRxPageSwitch n) s _ := yields_of_actIn (fun d => d.rxSwitch n) rfl hc (congrArg s.dev.keep
    (rxSwitch_switches h hb ha ht))
  generalize hd : (s.dev.setLink n _).modLink n _ = d1 at hrow
  have hlink : d1.switched.link n = { s.dev.link n with rxArm := none, rxPage := some ((s.dev.link n).standby 1) } := by
    rw [link_switched, ← hd, Dev.link_modLink_same, Dev.link_setLink_same]
    rfl
  refine ⟨_, hrow, ?_, ?_, ?_⟩
  · rw [link_keep, hlink]
  · rw [link_keep, hlink]
  · rw [reg_keep, Dev.switched]
    exact latchBit_sets _ _ 9 (by decide)

theorem rxGivesUp_armed {d : Dev} {n t : Nat} (h : (d.link n).rxArm = some t) :
    d.rxGivesUp n = (d.modLink n fun x => { x with rxArm := none }).switchFails n := by simp [Dev.rxGivesUp, h]

/-! ## The rows of cells and calendars -/

/-- Settles O44: the rows one by one, each by the lemma on what it makes of the slot, the cell, the context or the page. -/
theorem trellisCells : Obligations.TrellisCells := by
  unfold Obligations.TrellisCells
  refine ⟨fun s n i hc h => ?_, fun s n i hc hon hid hf ha => ?_, fun s n i pg r t hc hon hid hf ha hp ht he hr => ?_,
    fun s n i bs cws bad hl hh d1 hd ha => ?_, fun s n i bs cws bad hl hh => ?_,
    fun s n i bs cws bad c d1 d2 hl hh hd1 ha1 hd2 ha hd hloop hcell => ?_, fun s src tc hc hg => ?_,
    fun s src tc c t hc hg hs hp hh hf => ?_, fun s src tc hc hh => ?_, fun s t l pg x ha ho => ?_,
    fun s t l pg x w ha ho ht hw hb hp => ?_, fun s t l pg x ha ht => calRead_readsEntry ha ht,
    fun s t l pg x ha ht => ⟨fun hx => calRead_readsHeader ha ht hx, fun hx => calRead_yields ha (calRead_badIndex _ _ ht hx),
      fun hx ho => calWrite_yields ha (calWrite_badIndex _ _ ho ht hx), fun hx ho hp => ?_,
      fun hx ho hp => calWrite_writesHeader ha ht hx ho hp⟩,
    fun s n hc h => ?_, fun s n a d1 hc h hd => ⟨fun hg => ?_, fun hg => txPageSwitch_switches hc h hg⟩,
    fun s n t hc h hb ha ht => rxPageSwitch_switches hc h hb ha ht, fun s n t hc h => ?_⟩
  case refine_1 => exact yields_of_actIn (fun d => d.fillSlot n i) rfl hc (by rw [fillSlot_off i h]; rfl)
  case refine_2 =>
    have hrow : Yields (.cellSlotTransmit n i) s _ :=
      yields_of_actIn (fun d => d.fillSlot n i) rfl hc (congrArg s.dev.keep (fillSlot_ais i hon hid hf ha))
    obtain ⟨hout, hregs⟩ := sendIdle_sends s.dev n
    exact ⟨hrow, _, hrow, hout, hregs⟩
  case refine_3 =>
    exact yields_of_actIn (fun d => d.fillSlot n i) rfl hc (congrArg s.dev.keep (fillSlot_relay hon hid hf ha hp ht he hr))
  case refine_4 =>
    subst hd
    exact yields_of_actLive (fun d => d.cellIn n i bs cws bad) rfl hl (congrArg s.dev.keep (cellIn_unaligned i bs cws bad hh ha))
  case refine_5 =>
    exact yields_of_actLive (fun d => d.cellIn n i bs cws bad) rfl hl (by rw [cellIn_unheard i bs cws bad hh]; rfl)
  case refine_6 =>
    subst hcell
    have hchecks := cellAt_checks i bs ha hd hloop
    have hrow {e : Dev} := cellReceive_heard (i := i) (bs := bs) (e := e) hl hh hd1 ha1 hd2
    refine ⟨fun hm => hrow (hchecks.trans (if_pos hm)), fun hm hpb => ?_, fun hm hpb hv => ?_, fun hm hpb hv => ?_⟩
    all_goals rw [if_neg (by simp [hm])] at hchecks
    · exact hrow (hchecks.trans (if_pos hpb))
    · exact hrow (hchecks.trans ((if_neg (by simp [hpb])).trans (if_pos hv)))
    · exact hrow (hchecks.trans ((if_neg (by simp [hpb])).trans (if_neg (by simp [hv]))))
  case refine_7 => exact yields_of_actIn (fun d => d.gapExpires (ctxKey src tc)) rfl hc (by rw [gapExpires_none hg]; rfl)
  case refine_8 =>
    exact ⟨_, yields_of_actIn (fun d => d.gapExpires (ctxKey src tc)) rfl hc rfl, gapExpires_single hg hs hp hh hf⟩
  case refine_9 => exact yields_of_actIn (fun d => d.ctxIdle (ctxKey src tc)) rfl hc (by rw [ctxIdle_empty hh]; rfl)
  case refine_10 => exact calWrite_yields ha (calWrite_obeyed _ _ _ _ ho)
  case refine_11 =>
    subst hw
    exact calWrite_writesEntry ha ho ht hb hp
  case refine_12 => exact calWrite_yields ha (calWrite_active ho ht hx hp)
  case refine_13 => exact yields_of_actIn (fun d => d.txSwitch n) rfl hc (by rw [txSwitch_none h]; rfl)
  case refine_14 =>
    subst hd
    exact yields_of_actIn (fun d => d.txSwitch n) rfl hc (congrArg s.dev.keep (txSwitch_fails h hg))
  case refine_15 => exact yields_of_actIn (fun d => d.rxGivesUp n) rfl hc (congrArg s.dev.keep (rxGivesUp_armed h))

end Sys2Proof.Machine
end

section
/-! Election, and the loss of the manager: the role that a device holds and the claim that it obeys, through the operations that change
one of them and those that leave both. -/
namespace Sys2Proof.Machine

/-! ## The role and the obeyed claim (R330, R331) -/

/-- The role state and the claim that the device obeys. -/
def Dev.allegiance (d : Dev) : Nat × Nat := (d.fab.role, d.fab.obeyed)

theorem allegiance_of_fab {d e : Dev} (h : e.fab = d.fab) : e.allegiance = d.allegiance := by rw [Dev.allegiance, h, Dev.allegiance]

theorem allegiance_latchBit (d : Dev) (k b : Nat) : (d.latchBit k b).allegiance = d.allegiance := rfl

theorem allegiance_setTimeLink (d : Dev) (t : Option (Nat × Bool)) : (d.setTimeLink t).allegiance = d.allegiance := rfl

theorem allegiance_pmNote (d : Dev) (n : Nat) (f : PmSec → PmSec) : (d.pmNote n f).allegiance = d.allegiance := by
  rw [pmNote_frame]
  rfl

theorem fab_noteCut (b : Bool) (d : Dev) : (Dev.noteCut b d).fab = d.fab := by
  unfold Dev.noteCut
  split <;> rfl

theorem fab_noteValid (b : Bool) (d : Dev) : (Dev.noteValid b d).fab = d.fab := by
  unfold Dev.noteValid
  dsimp only
  split <;> split <;> rfl

theorem fab_gatesFollow (b : Bool) (d : Dev) : (Dev.gatesFollow b d).fab = d.fab := by
  unfold Dev.gatesFollow
  split
  · exact (Dev.latchBit_fab _ _ _).trans (Dev.inc_fab _ _ _)
  · rfl

/-- A write of TIME_CTRL is beside the fabric's part of the device. -/
theorem fab_writeTimeCtrl (d : Dev) (v : Word) : (d.writeTimeCtrl v).fab = d.fab := by
  unfold Dev.writeTimeCtrl
  extract_lets before old d1 new raw d2
  have h2 : d2.fab = d.fab := by
    unfold d2
    split
    · rfl
    · split <;> rfl
  exact ((fab_noteValid _ _).trans (fab_noteCut _ _)).trans h2

/-- Validity of device time marks the seconds of links alone. -/
theorem allegiance_validFollow (b : Bool) (d : Dev) : (Dev.validFollow b d).allegiance = d.allegiance := by
  have hg := allegiance_of_fab (fab_gatesFollow b d)
  unfold Dev.validFollow
  dsimp only
  split
  · exact hg
  · exact (foldl_field Dev.allegiance _ (fun e n => allegiance_pmNote e n _) _ _).trans hg

theorem allegiance_ctrlWrite (d : Dev) (v : Word) : (d.ctrlWrite v).allegiance = d.allegiance :=
  (allegiance_validFollow _ _).trans (allegiance_of_fab (fab_writeTimeCtrl d v))

theorem allegiance_followTime (d : Dev) : d.followTime.allegiance = d.allegiance := by
  unfold Dev.followTime Dev.ifServing
  split
  · rfl
  · split
    · exact allegiance_ctrlWrite _ _
    · rfl

theorem allegiance_chooseTimeLink (d : Dev) : d.chooseTimeLink.allegiance = d.allegiance := by
  unfold Dev.chooseTimeLink
  dsimp only
  split
  · exact allegiance_setTimeLink _ _
  · split
    · split <;> exact (allegiance_setTimeLink _ _).trans (allegiance_followTime d)
    · exact (allegiance_setTimeLink _ _).trans (allegiance_followTime d)

/-- Discarding HELD entries touches launch entries and their registers alone. -/
theorem allegiance_dropForeignHeld (d : Dev) (c : Nat) : (d.dropForeignHeld c).allegiance = d.allegiance := by
  unfold Dev.dropForeignHeld
  exact foldl_field Dev.allegiance (fun d i => (d.discardEntry i).latchBit Reg.LNCH_STATUS 6) (fun _ _ => rfl) _ d

/-- A role that is set is held, and the claim obeyed stays. -/
theorem allegiance_setRole (d : Dev) (r : Nat) : (d.setRole r).allegiance = (r, d.fab.obeyed) := by
  unfold Dev.setRole
  split
  next h => rw [h]; rfl
  next => rfl

/-- A claim that is set is obeyed, and the role stays. -/
theorem allegiance_setObeyed (d : Dev) (c : Nat) : (d.setObeyed c).allegiance = (d.fab.role, c) := by
  unfold Dev.setObeyed
  dsimp only
  split
  next h => rw [h]; rfl
  next =>
    split
    · rfl
    · rw [allegiance_chooseTimeLink, allegiance_dropForeignHeld, allegiance_latchBit, allegiance_setTimeLink]
      rfl

/-! ## The end of an election (R330, R335) -/

theorem elected_electing {d : Dev} (hc : d.candidate = true) (hv : d.vint.started = true) (hr : d.fab.role = 0) :
    d.elected = d.becomeActive := if_pos ⟨hc, hv, hr⟩

theorem elected_idle {d : Dev} (h : d.candidate = false ∨ d.vint.started = false ∨ d.fab.role ≠ 0) : d.elected = d := by
  refine if_neg ?_
  rintro ⟨hc, hv, hr⟩
  rcases h with h | h | h
  · exact absurd hc (by simp [h])
  · exact absurd hv (by simp [h])
  · exact h hr

/-- A candidate that reaches ACTIVE obeys its own claim, whatever plan it starts from and wherever it takes time from. -/
theorem allegiance_becomeActive (d : Dev) : d.becomeActive.allegiance = (2, d.ownClaim) := by
  unfold Dev.becomeActive
  extract_lets base f0 f1 d1 src
  have h1 : d1.allegiance = (2, d.ownClaim) := by
    unfold d1
    rw [allegiance_setObeyed]
    exact congrArg (fun a : Nat × Nat => (a.1, d.ownClaim)) (allegiance_setRole _ 2)
  clear_value d1
  split
  · exact h1
  · split
    · exact (allegiance_ctrlWrite _ _).trans h1
    · exact h1

/-! ## The loss of the manager (R333, R334) -/

/-- A standby candidate, which claims when the manager is lost (R333). -/
def Dev.standsBy (d : Dev) : Bool := d.candidate && d.fab.role = 1

/-- The fabric's part of a device that has lost its manager: it obeys nobody, and a standby candidate is in ELECTING with a claim of the
epoch after the lost manager's. -/
def Dev.bereftFab (d : Dev) : Fabric :=
  { d.fab with
    obeyed := 0
    timeLink := none
    role := if d.standsBy then 0 else d.fab.role
    roleOn := d.standsBy || d.fab.roleOn
    claim := if d.standsBy then (claimEpoch d.fab.obeyed + 1) % 2048 * 32 + d.devId else d.fab.claim }

theorem bereftFab_standby {d : Dev} (hc : d.candidate = true) (hr : d.fab.role = 1) :
    d.bereftFab.role = 0 ∧ d.bereftFab.claim = (claimEpoch d.fab.obeyed + 1) % 2048 * 32 + d.devId := by
  have hs : d.standsBy = true := by simp [Dev.standsBy, hc, hr]
  exact ⟨if_pos hs, if_pos hs⟩

theorem bereftFab_other {d : Dev} (h : d.candidate = false ∨ d.fab.role ≠ 1) :
    d.bereftFab.role = d.fab.role ∧ d.bereftFab.claim = d.fab.claim := by
  have hs : ¬d.standsBy = true := by rcases h with h | h <;> simp [Dev.standsBy, h]
  exact ⟨if_neg hs, if_neg hs⟩

/-- The loss of the manager is counted, shown and logged. -/
def Dev.bereft (d : Dev) : Dev :=
  ((((d.setFab d.bereftFab).inc bankTrl 19).latchBit Reg.TRL_MGR_STATUS 8).logBit 0x70 2 8 0 []).setTimeLink none

/-- A device that obeys another loses its manager, and with it the source of time where that is the fabric (R334). -/
theorem managerLost_eq (d : Dev) : d.managerLost = if d.fab.obeyed = 0 ∨ d.isManager then d
    else if d.bereft.src = 3 then d.bereft.ifServing Dev.sourceLoss else d.bereft := rfl

theorem bereft_fab (d : Dev) : d.bereft.fab = d.bereftFab := by
  have hlog : ((((d.setFab d.bereftFab).inc bankTrl 19).latchBit Reg.TRL_MGR_STATUS 8).logBit 0x70 2 8 0 []).fab = d.bereftFab :=
    ((Dev.logBit_fab _ _ _ _ _ _).trans (Dev.latchBit_fab _ _ _)).trans (Dev.inc_fab _ _ _)
  exact congrArg (fun f : Fabric => { f with timeLink := none }) hlog

theorem bereft_status (d : Dev) : bit (d.bereft.reg Reg.TRL_MGR_STATUS) 8 = true := by
  have hreg : d.bereft.reg Reg.TRL_MGR_STATUS =
      (((d.setFab d.bereftFab).inc bankTrl 19).latchBit Reg.TRL_MGR_STATUS 8).reg Reg.TRL_MGR_STATUS :=
    reg_logBit _ _ _ _ _ _ (by decide)
  rw [hreg]
  exact latchBit_sets _ _ 8 (by decide)

/-- The source of time stays selected. -/
theorem bereft_src (d : Dev) : d.bereft.src = d.src := by
  have hreg : d.bereft.reg Reg.TIME_CTRL = d.reg Reg.TIME_CTRL :=
    calc d.bereft.reg Reg.TIME_CTRL
      _ = (((d.setFab d.bereftFab).inc bankTrl 19).latchBit Reg.TRL_MGR_STATUS 8).reg Reg.TIME_CTRL :=
        reg_logBit _ _ _ _ _ _ (by decide)
      _ = ((d.setFab d.bereftFab).inc bankTrl 19).reg Reg.TIME_CTRL := Dev.reg_latchBit_ne _ (by decide)
      _ = d.reg Reg.TIME_CTRL := reg_inc _ _ _ _
  rw [Dev.src, hreg, Dev.src]

theorem managerLost_idle {d : Dev} (h : d.fab.obeyed = 0) : d.managerLost = d := if_pos (.inl h)

/-- A worker whose time does not come through the fabric loses no source of time with its manager. -/
theorem managerLost_worker {d : Dev} (ho : d.fab.obeyed ≠ 0) (hm : d.isManager = false) (hs : d.src ≠ 3) :
    d.managerLost = d.bereft := by
  rw [managerLost_eq, if_neg (by simp [ho, hm]), if_neg (by rwa [bereft_src])]

/-- Settles O45: the two rows, each by what it makes of the role and of the claim obeyed. -/
theorem managers : Obligations.Managers := by
  unfold Obligations.Managers
  refine ⟨fun s hc hcand hv hr => ?_, fun s hc h => ?_, fun s hc ho hm hs => ?_, fun s hc ho => ?_⟩
  case refine_1 =>
    have hrow : Yields .electTimeout s (s.dev.keep s.dev.becomeActive) :=
      yields_of_actIn Dev.elected rfl hc (congrArg s.dev.keep (elected_electing hcand hv hr))
    obtain ⟨hrole, hobeyed⟩ := Prod.mk.inj (allegiance_becomeActive s.dev)
    exact ⟨hrow, _, hrow, hrole, hobeyed⟩
  case refine_2 => exact yields_of_actIn Dev.elected rfl hc (by rw [elected_idle h]; rfl)
  case refine_3 =>
    have hrow : Yields .managerLoss s (s.dev.keep s.dev.bereft) :=
      yields_of_actIn Dev.managerLost rfl hc (congrArg s.dev.keep (managerLost_worker ho hm hs))
    refine ⟨_, hrow, ?_⟩
    dsimp only
    rw [Dev.keep_fab, bereft_fab]
    exact ⟨rfl, bereft_status _, bereftFab_standby, bereftFab_other⟩
  case refine_4 => exact yields_of_actIn Dev.managerLost rfl hc (by rw [managerLost_idle ho]; rfl)

end Sys2Proof.Machine
end

section
/-! Steps, forms and reset: what a step on a waiting command is, that every command goes on, what a device in reset leaves alone, and
the lock bits that stay set. -/
namespace Sys2Proof.Machine

/-! ## Every command goes on (opcode_table.json) -/

/-- Every command ends in a next state, and leaves the queue to the step. -/
theorem exec_completes (c : Instr) (s : State) : ∃ e : Dev, exec c s = .next { s with dev := e } := by
  cases ha : actsInReset c with
  | false =>
    rcases exec_form c s ha with ⟨f, hf⟩ | ⟨-, f, hf⟩ | ⟨-, f, hf⟩
    · exact ⟨_, hf⟩
    · exact ⟨_, hf⟩
    · exact ⟨_, hf⟩
  | true =>
    obtain ⟨f, hf⟩ := exec_actRaw c s ha
    exact ⟨_, hf⟩

/-- A step with a command at the front of the queue is that command, with the rest of the queue. -/
theorem step_cons (s : State) (c : Instr) (cs : List Instr) : step { s with pending := c :: cs } = exec c { s with pending := cs } := rfl

/-- Settles O3: by the form of the row. -/
theorem everyCommandCompletes : Obligations.EveryCommandCompletes := by
  unfold Obligations.EveryCommandCompletes
  intro c s
  obtain ⟨e, he⟩ := exec_completes c s
  exact ⟨_, he, rfl⟩

/-- Settles O1: the queue is left by the command as the step gave it. -/
theorem stepRunsTheFront : Obligations.StepRunsTheFront := by
  unfold Obligations.StepRunsTheFront
  refine ⟨step_cons, fun s t c cs h => ?_⟩
  obtain ⟨e, he⟩ := exec_completes c { s with pending := cs }
  rw [step_cons, he] at h
  injection h with h
  rw [← h]

/-- Settles O9: each form acts on a device that runs alone. -/
theorem resetHoldsStill : Obligations.ResetHoldsStill := by
  unfold Obligations.ResetHoldsStill
  intro c s hup ha
  rcases exec_form c s ha with ⟨f, hf⟩ | ⟨-, f, hf⟩ | ⟨-, f, hf⟩
  · rw [hf, act_down f hup]
  · rw [hf, actBus_down f hup]
  · rw [hf, actNvm_down f hup]

/-- Settles O5: the flash of the reset state is empty. -/
theorem invariantAtReset : Obligations.InvariantAtReset := by
  unfold Obligations.InvariantAtReset
  obtain ⟨hn, -, -⟩ := reset_memory_wf
  exact ⟨hn, fun h => absurd h Bool.false_ne_true⟩

end Sys2Proof.Machine
end

section
/-! Power, SYS_RST_N and the always-on clock: what each row makes of the device. -/
namespace Sys2Proof.Machine

/-! ## Power loss (R525) -/

/-- A torn record is in the flash, and takes a free value. -/
theorem tear_frame (d : Dev) (a n : Nat) (good : Bytes → Bool) :
    d.tear a n good = { d with nvm := (d.tear a n good).nvm, free := d.free + 1 } := by
  unfold Dev.tear
  dsimp only
  split <;> rfl

theorem tearNvm_frame (d : Dev) : d.tearNvm = { d with nvm := d.tearNvm.nvm, free := d.tearNvm.free } := by
  unfold Dev.tearNvm
  extract_lets d1 d2
  have h1 : d1 = { d with nvm := d1.nvm, free := d1.free } := by
    unfold d1
    split
    · rfl
    · rw [tear_frame]
  have h2 : d2 = { d with nvm := d2.nvm, free := d2.free } := by
    unfold d2
    rw [tear_frame, tear_frame d1, h1]
  split
  · rfl
  · split
    · rw [nvSpoil_frame, h2]
    · exact h2

/-- In reset there is no record in flight. -/
theorem powerLoss_inReset {d : Dev} (hp : d.powered = true) (hr : d.inReset = true) : d.powerLoss = { d with powered := false } := by
  simp [Dev.powerLoss, hp, hr]

/-- Power loss leaves the device without power, and what it spoils lies in the flash. -/
theorem powerLoss_running {d : Dev} (hp : d.powered = true) :
    d.powerLoss = { d with powered := false, nvm := d.powerLoss.nvm, free := d.powerLoss.free } := by
  by_cases hr : d.inReset = true
  · rw [powerLoss_inReset hp hr]
  · have h : d.powerLoss = { d.tearNvm with powered := false } := by simp [Dev.powerLoss, hp, hr]
    rw [h]
    exact congrArg (fun e : Dev => { e with powered := false }) (tearNvm_frame d)

/-! ## SYS_RST_N asserted (R467, R526) -/

/-- Every register but GLB_STRAP is at its reset value once only GLB_STRAP is listed. -/
theorem reg_resetAll (d : Dev) {k : Nat} (h : k ≠ Reg.GLB_STRAP) : (d.resetAll.emit .pinsRelease).reg k = regReset k := by
  have hn : Tbl.get 0#32 (d.regs.filter fun p => p.1 = Reg.GLB_STRAP) k = 0#32 :=
    Tbl.get_of_not_mem _ _ _ fun p hp => by
      have hs := (List.mem_filter.mp hp).2
      exact fun hk => h (hk.symm.trans (of_decide_eq_true hs))
  change Tbl.get 0#32 (d.regs.filter fun p => p.1 = Reg.GLB_STRAP) k ^^^ regReset k = regReset k
  rw [hn, BitVec.zero_xor]

theorem sysRst_powered {d : Dev} (hp : d.powered = true) : d.sysRst = d.resetAll.emit .pinsRelease := by
  unfold Dev.sysRst
  rw [hp]
  rfl

/-! ## The rows -/

/-- What a row that acts in reset yields. -/
theorem yields_of_actRaw {c : Instr} {s : State} {e : Dev} (f : Dev → Dev) (hx : exec c s = actRaw s f) (he : f s.dev = e) :
    Yields c s e := by
  rw [Yields, hx, actRaw, he]

/-- Settles O12: each row by what it makes of the device. -/
theorem powerAndReset : Obligations.PowerAndReset := by
  unfold Obligations.PowerAndReset
  refine ⟨fun s hp => ?_, fun s hp => ?_, fun s hp hr => ?_, fun s hp => ?_, fun s => ?_, fun s => ?_⟩
  case refine_1 => exact yields_of_actRaw Dev.powerOn rfl (by unfold Dev.powerOn; rw [hp]; rfl)
  case refine_2 => exact ⟨s.dev.powerLoss, rfl, powerLoss_running hp⟩
  case refine_3 => exact yields_of_actRaw Dev.powerLoss rfl (powerLoss_inReset hp hr)
  case refine_4 =>
    exact ⟨_, yields_of_actRaw Dev.sysRst rfl (sysRst_powered hp), fun k hk => reg_resetAll s.dev hk, fun b i => rfl, rfl⟩
  case refine_5 => exact yields_of_actRaw (fun d => { d with mgmt := { d.mgmt with aonOn := false } }) rfl rfl
  case refine_6 => exact yields_of_actRaw (fun d => { d with mgmt := { d.mgmt with aonOn := true } }) rfl rfl

/-! ## SYS_RST_N released (R443, R466, R468, R523) -/

/-- A sensor keeps the device in reset only after a trip. -/
theorem tooHot_untripped {d : Dev} (h : d.mgmt.thermtripN = false) : d.tooHot = false := by
  unfold Dev.tooHot
  rw [h, Bool.false_and]

/-- A release that nothing hinders latches the straps and resets the flash; a trip that is over raises THERMTRIP_N before. -/
theorem sysRelease_cool {d : Dev} (straps : Word) (hp : d.powered = true) (ha : d.rstAsserted = true) (ht : d.tooHot = false) :
    d.sysRelease straps = { d.setReg Reg.GLB_STRAP (straps &&& strapMask) with
      inReset := false, rstAsserted := false, nvmOctal := false, mgmt := { d.mgmt with thermtripN := false },
      out := .flashReset :: .pin pinNvmRstN true :: .pin pinNvmRstN false :: .pin pinSdVsel false ::
        (if d.mgmt.thermtripN then .pin pinThermtripN true :: d.out else d.out) } := by
  unfold Dev.sysRelease
  rw [hp, ha, ht]
  dsimp only
  cases d.mgmt.thermtripN <;> rfl

theorem sysRelease_hot {d : Dev} (straps : Word) (hp : d.powered = true) (ha : d.rstAsserted = true) (ht : d.tooHot = true) :
    d.sysRelease straps = { d with rstAsserted := false } := by
  unfold Dev.sysRelease
  rw [hp, ha, ht]
  rfl

/-- Settles O13: by whether a trip is over, was never there, or still holds. -/
theorem resetRelease : Obligations.ResetRelease := by
  unfold Obligations.ResetRelease
  refine ⟨fun s straps hp ha ht => ?_, fun s straps hp ha ht hc => ?_, fun s straps hp ha hc => ?_⟩
  case refine_1 =>
    refine yields_of_actRaw (fun d => d.sysRelease straps) rfl ?_
    have hm : { s.dev.mgmt with thermtripN := false } = s.dev.mgmt := by rw [← ht]
    rw [sysRelease_cool straps hp ha (tooHot_untripped ht), hm, ht]
    rfl
  case refine_2 =>
    refine yields_of_actRaw (fun d => d.sysRelease straps) rfl ?_
    rw [sysRelease_cool straps hp ha hc, ht]
    rfl
  case refine_3 => exact yields_of_actRaw (fun d => d.sysRelease straps) rfl (sysRelease_hot straps hp ha hc)

end Sys2Proof.Machine
end

section
/-! The flash: which shared operations leave it alone, that every change of it keeps its canonical form, and the invariant of every
step. -/
namespace Sys2Proof.Machine

/-! ## What leaves the flash alone -/

/-! ### Requests and their ends (R374, R390, R437, R438) -/

@[simp] theorem nvm_modSq (d : Dev) (q : Nat) (f : Sq → Sq) : (d.modSq q f).nvm = d.nvm := rfl

@[simp] theorem nvm_wakeLink (d : Dev) : d.wakeLink.nvm = d.nvm := by
  unfold Dev.wakeLink
  split
  · exact Dev.inc_nvm _ _ _
  · rfl

@[simp] theorem nvm_dmaOut (d : Dev) (a : Nat) (bs : Bytes) : (d.dmaOut a bs).nvm = d.nvm := by
  unfold Dev.dmaOut Dev.dmaWrites Dev.dmaEmit
  split
  · rw [foldl_field (·.nvm) _ fun e r => Dev.emit_nvm _ _, nvm_wakeLink]
  · rfl

@[simp] theorem nvm_endEnt (d : Dev) (q : Nat) (e : SqEnt) (status len result : Nat) (more : Bool) :
    (d.endEnt q e status len result more).nvm = d.nvm := by
  unfold Dev.endEnt
  extract_lets u e1 d1 d2
  have h2 : d2.nvm = d.nvm := by
    unfold d2
    split
    · exact Dev.inc_nvm _ _ _
    · rfl
  split
  · exact h2
  · exact h2

@[simp] theorem nvm_setMbxData (d : Dev) (bs : Bytes) : (d.setMbxData bs).nvm = d.nvm := by
  unfold Dev.setMbxData
  exact foldl_field (·.nvm) (fun d (p : Nat × Word) => d.setReg (Reg.MGMT_MBX_DATA p.1) p.2) (fun _ _ => rfl) _ _

@[simp] theorem nvm_mbxGive (d : Dev) (src result : Nat) (resp : Bytes) : (d.mbxGive src result resp).nvm = d.nvm := by
  unfold Dev.mbxGive
  split
  · exact nvm_setMbxData d resp
  · split
    · rfl
    · unfold Dev.ringEnds
      split
      · rfl
      · rw [nvm_endEnt]
        split
        · rfl
        · exact nvm_dmaOut _ _ _

@[simp] theorem nvm_mbxEnd (d : Dev) (src result : Nat) (resp : Bytes) : (d.mbxEnd src result resp).nvm = d.nvm := by
  unfold Dev.mbxEnd
  dsimp only
  rw [nvm_mbxGive, apply_ite Dev.nvm]
  simp

@[simp] theorem nvm_mbxHold (d : Dev) (src : Nat) : (d.mbxHold src).nvm = d.nvm := by
  unfold Dev.mbxHold
  split
  · rfl
  · split <;> rfl

/-! ### Restarts of the cores (R434, R435) -/

@[simp] theorem nvm_setFw (d : Dev) (f : FwState → FwState) : (d.setFw f).nvm = d.nvm := rfl

@[simp] theorem nvm_stagingEnds (d : Dev) (result : Nat) : (d.stagingEnds result).nvm = d.nvm := by
  unfold Dev.stagingEnds
  split
  · rfl
  · exact nvm_mbxEnd _ _ _ _

@[simp] theorem nvm_requestsRestarted (d : Dev) : d.requestsRestarted.nvm = d.nvm := by
  unfold Dev.requestsRestarted
  extract_lets d1 d2 d3
  have h2 : d2.nvm = d.nvm := by
    unfold d2 d1
    split <;> simp
  have h3 : d3.nvm = d.nvm := by
    unfold d3
    split
    · rw [nvm_mbxEnd, h2]
    · exact h2
  rw [foldl_field (·.nvm), h3]
  intro e q
  split
  · exact nvm_mbxEnd _ _ _ _
  · rfl

@[simp] theorem nvm_returnBuf (d : Dev) (h : Nat) : (d.returnBuf h).nvm = d.nvm := by
  unfold Dev.returnBuf
  dsimp only
  split
  · unfold Dev.countRetired
    rw [Dev.latchBit_nvm, Dev.inc_nvm]
    rfl
  · rfl

@[simp] theorem nvm_revokeTag (d : Dev) (tag : Nat) : (d.revokeTag tag).nvm = d.nvm := by
  unfold Dev.revokeTag Dev.forceFree
  simp only [Dev.logBit_nvm, Dev.latchBit_nvm, Dev.bump_nvm]
  rw [foldl_field (·.nvm)]
  exact fun e h => nvm_returnBuf _ _

@[simp] theorem nvm_mgmtRestart (d : Dev) (cause : Nat) : (d.mgmtRestart cause).nvm = d.nvm := by
  unfold Dev.mgmtRestart
  simp only [nvm_revokeTag, Dev.latchBit_nvm, Dev.inc_nvm]
  exact nvm_requestsRestarted d

/-! ### TIME_CTRL (R46) -/

theorem nvm_noteCut (b : Bool) (d : Dev) : (Dev.noteCut b d).nvm = d.nvm := by
  unfold Dev.noteCut
  split <;> rfl

theorem nvm_noteValid (b : Bool) (d : Dev) : (Dev.noteValid b d).nvm = d.nvm := by
  unfold Dev.noteValid
  dsimp only
  split <;> split <;> rfl

theorem nvm_writeTimeCtrl (d : Dev) (v : Word) : (d.writeTimeCtrl v).nvm = d.nvm := by
  unfold Dev.writeTimeCtrl
  extract_lets before old d1 new raw d2
  have h2 : d2.nvm = d.nvm := by
    unfold d2
    split
    · rfl
    · split <;> rfl
  exact ((nvm_noteValid _ _).trans (nvm_noteCut _ _)).trans h2

theorem nvm_validFollow (b : Bool) (d : Dev) : (Dev.validFollow b d).nvm = d.nvm := by
  have hg : (Dev.gatesFollow b d).nvm = d.nvm := by
    unfold Dev.gatesFollow
    split
    · simp
    · rfl
  unfold Dev.validFollow
  dsimp only
  split
  · exact hg
  · exact (foldl_field (·.nvm) _ (fun e n => by rw [pmNote_frame]) _ _).trans hg

@[simp] theorem nvm_ctrlWrite (d : Dev) (v : Word) : (d.ctrlWrite v).nvm = d.nvm :=
  (nvm_validFollow _ _).trans (nvm_writeTimeCtrl d v)

@[simp] theorem nvm_writeFreqAdj (d : Dev) (v : Word) : (d.writeFreqAdj v).nvm = d.nvm := by
  unfold Dev.writeFreqAdj
  extract_lets a d1 d2
  rw [apply_ite Dev.nvm]
  exact ite_self _

/-! ### What goes on by itself (log entry 1) -/

@[simp] theorem nvm_startPauses (d : Dev) (n : Nat) : (d.startPauses n).nvm = d.nvm := by
  induction n generalizing d with
  | zero => rfl
  | succ n ih =>
    unfold Dev.startPauses
    split
    · rfl
    · exact ih _

@[simp] theorem nvm_memSettles (d : Dev) : d.memSettles.nvm = d.nvm := by
  unfold Dev.memSettles
  rw [nvm_startPauses, foldl_field (·.nvm)]
  intro e k
  split <;> rfl

@[simp] theorem nvm_auditTurns (d : Dev) : d.auditTurns.nvm = d.nvm := by
  unfold Dev.auditTurns
  split <;> rfl

@[simp] theorem nvm_linkRests (d : Dev) : d.linkRests.nvm = d.nvm := by
  unfold Dev.linkRests
  split
  · split <;> rfl
  · rfl

/-! ## What keeps the canonical form -/

/-- The flash is in its canonical form. -/
def Dev.flashWf (d : Dev) : Prop := Tbl.Wf 0xFF#8 d.nvm

theorem Dev.flashWf.of_nvm {d e : Dev} (hd : d.flashWf) (h : e.nvm = d.nvm) : e.flashWf := by
  unfold Dev.flashWf
  rw [h]
  exact hd

theorem Dev.flashWf.ite {c : Prop} [Decidable c] {d e : Dev} (hd : d.flashWf) (he : e.flashWf) : (if c then d else e).flashWf := by
  split
  · exact hd
  · exact he

theorem flashWf_setBoot {d : Dev} (b : Boot) (h : d.flashWf) : ({ d with boot := b } : Dev).flashWf := h
theorem flashWf_setFw {d : Dev} (f : FwState → FwState) (h : d.flashWf) : (d.setFw f).flashWf := h
theorem flashWf_keepNvm {d e : Dev} (h : e.flashWf) : (d.keepNvm e).flashWf := h
theorem flashWf_inc {d : Dev} (b i : Nat) (h : d.flashWf) : (d.inc b i).flashWf := h.of_nvm (Dev.inc_nvm d b i)
theorem flashWf_nvErase {d : Dev} (a n : Nat) (h : d.flashWf) : (d.nvErase a n).flashWf := nvErase_wf a n h
theorem flashWf_nvProgram {d : Dev} (a : Nat) (bs : Bytes) (h : d.flashWf) : (d.nvProgram a bs).flashWf := nvProgram_wf a bs h
theorem flashWf_nvSpoil {d : Dev} (a n : Nat) (h : d.flashWf) : (d.nvSpoil a n).flashWf := nvSpoil_wf a n h
theorem flashWf_tear {d : Dev} (a n : Nat) (good : Bytes → Bool) (h : d.flashWf) : (d.tear a n good).flashWf := tear_wf a n good h
theorem flashWf_mbxEnd {d : Dev} (c r : Nat) (resp : Bytes) (h : d.flashWf) : (d.mbxEnd c r resp).flashWf := h.of_nvm (nvm_mbxEnd d c r resp)
theorem flashWf_mgmtRestart {d : Dev} (cause : Nat) (h : d.flashWf) : (d.mgmtRestart cause).flashWf := h.of_nvm (nvm_mgmtRestart d cause)
theorem flashWf_stagingEnds {d : Dev} (r : Nat) (h : d.flashWf) : (d.stagingEnds r).flashWf := h.of_nvm (nvm_stagingEnds d r)

/-! ### Records and images (R450, R454, R459, R475, R488) -/

theorem flashWf_hdrWrite {d : Dev} (f : Bytes → Bytes) (h : d.flashWf) : (d.hdrWrite f).flashWf := by
  unfold Dev.hdrWrite
  dsimp only
  exact flashWf_nvProgram _ _ ((flashWf_nvErase _ _ h).ite h)

theorem flashWf_opWrite {d : Dev} (h : d.flashWf) : d.opWrite.flashWf := by
  unfold Dev.opWrite
  extract_lets a r d1 d2
  have h2 : d2.flashWf := flashWf_nvProgram _ _ ((flashWf_nvErase _ _ h).ite h)
  clear_value d2
  exact h2.of_nvm rfl

theorem flashWf_eventStore {d : Dev} (e : Event) (h : d.flashWf) : (d.eventStore e).flashWf := by
  unfold Dev.eventStore
  extract_lets k d1 full m d2
  have h2 : d2.flashWf := (flashWf_nvProgram (nvEvents + 64 * k) (d.eventRecord k e) h).of_nvm (Dev.inc_nvm _ _ _)
  exact (h.of_nvm (by simp)).ite ((h2.of_nvm (Dev.latchBit_nvm _ _ _)).ite h2)

theorem flashWf_clearCut {d : Dev} (h : d.flashWf) : d.clearCut.flashWf := by
  unfold Dev.clearCut
  split
  · exact h
  · extract_lets f keep d1 n m d2
    have h1 : d1.flashWf := flashWf_nvErase _ _ (h.of_nvm (Dev.takeFree_nvm d))
    have h2 : d2.flashWf := h1.of_nvm rfl
    exact flashWf_eventStore _ (h2.of_nvm (Dev.latchBit_nvm _ _ _))

theorem flashWf_eraseEnds {d : Dev} (h : d.flashWf) : d.eraseEnds.flashWf := by
  unfold Dev.eraseEnds
  split
  · exact h
  · extract_lets d1 m d2
    have h2 : d2.flashWf := (flashWf_nvErase nvEvents (64 * eventSlots) h).of_nvm rfl
    exact h.ite (flashWf_mbxEnd _ _ _ (flashWf_eventStore _ (h2.of_nvm (Dev.latchBit_nvm _ _ _))))

theorem flashWf_eventNext {d : Dev} (h : d.flashWf) : d.eventNext.flashWf := by
  unfold Dev.eventNext
  split
  · exact h
  · exact h.ite (flashWf_eventStore _ (h.of_nvm rfl))

/-! ### Trials and restarts (R434, R460 to R462) -/

theorem flashWf_fallBack {d : Dev} (h : d.flashWf) : d.fallBack.flashWf := by
  unfold Dev.fallBack
  extract_lets s v d1 d2
  have h1 : d1.flashWf := (flashWf_hdrWrite (hdrFallBack s) h).of_nvm (nvm_setFw _ _)
  have h2 : d2.flashWf := by
    unfold d2
    split
    · exact flashWf_mbxEnd _ _ _ (flashWf_setFw _ h1)
    · exact h1
  exact flashWf_mgmtRestart _ (h2.of_nvm (by simp))

theorem flashWf_trialCommit {d : Dev} (h : d.flashWf) : d.trialCommit.flashWf := by
  unfold Dev.trialCommit
  extract_lets s epoch d1
  exact (flashWf_hdrWrite (hdrSetState s 1) h).of_nvm (by simp [d1])

theorem flashWf_restartOrFall {d : Dev} (cause : Nat) (h : d.flashWf) : (d.restartOrFall cause).flashWf :=
  ((flashWf_mgmtRestart _ (flashWf_trialCommit h)).ite (flashWf_fallBack h)).ite (flashWf_mgmtRestart _ h)

theorem flashWf_fwReady {d : Dev} (h : d.flashWf) : d.fwReady.flashWf := by
  unfold Dev.fwReady
  extract_lets m d0 fab d1 d2 d3
  have h0 : d0.flashWf := h.of_nvm rfl
  have h1 : d1.flashWf := by
    unfold d1
    split
    · exact h0.of_nvm (nvm_ctrlWrite _ _)
    · exact h0
  have h2 : d2.flashWf := flashWf_clearCut (h1.of_nvm (Dev.logBit_nvm _ _ _ _ _ _))
  have h3 : d3.flashWf := (flashWf_setFw _ h2).ite h2
  split
  · exact flashWf_inc _ _ (flashWf_mbxEnd _ _ _ (flashWf_setFw _ h3))
  · exact h3

/-! ### Staging (R459, R460) -/

theorem flashWf_stageBlock {d : Dev} (j : FwJob) (h : d.flashWf) : (d.stageBlock j).flashWf := by
  unfold Dev.stageBlock
  extract_lets b a d1
  have h1 : d1.flashWf := (flashWf_nvProgram _ _ h).ite h
  have h2 := flashWf_nvProgram (a + fwHeader + fwBlock * b) (imgBlock j.file b) h1
  exact ((flashWf_stagingEnds _ h).ite (flashWf_setFw _ h2)).ite ((flashWf_stagingEnds _ h).ite (flashWf_setFw _ h))

theorem flashWf_activateImage {d : Dev} (j : FwJob) (h : d.flashWf) : (d.activateImage j).flashWf := by
  unfold Dev.activateImage
  extract_lets s d1 d2
  exact flashWf_mgmtRestart _ ((flashWf_hdrWrite _ h).of_nvm (nvm_setFw d1 _))

theorem flashWf_stagingStep {d : Dev} (h : d.flashWf) : d.stagingStep.flashWf := by
  unfold Dev.stagingStep
  split
  · exact h
  · exact (flashWf_stageBlock _ h).ite ((flashWf_activateImage _ h).ite (flashWf_stagingEnds _ h))

theorem nvm_cardVolts (d : Dev) (file : CardFile) (uhs : Bool) : (d.cardVolts file uhs).nvm = d.nvm := by
  unfold Dev.cardVolts
  split <;> rfl

theorem flashWf_fwStage {d : Dev} (c : Nat) (file : CardFile) (sigOk : Bool) (nvm : NvmCheck) (h : d.flashWf) :
    (d.fwStage c file sigOk nvm).flashWf := by
  have hr (r : Nat) : (d.updateRefused c r).flashWf := flashWf_mbxEnd _ _ _ (h.of_nvm (nvm_setFw d _))
  unfold Dev.fwStage
  split
  · exact hr _
  · exact hr _
  · exact hr _
  · extract_lets s d1
    have h1 : d1.flashWf := flashWf_hdrWrite _ (flashWf_nvErase _ _ h)
    exact (hr _).ite ((hr _).ite (h1.of_nvm (by simp)))

theorem flashWf_fwUpdate {d : Dev} (c : Nat) (file : CardFile) (sigOk : Bool) (nvm : NvmCheck) (uhs : Bool) (h : d.flashWf) :
    (d.fwUpdate c file sigOk nvm uhs).flashWf :=
  (flashWf_mbxEnd _ _ _ h).ite ((flashWf_mbxEnd _ _ _ h).ite (flashWf_fwStage _ _ _ _ (h.of_nvm (nvm_cardVolts _ _ _))))

/-! ### Start-up (R472, R473, R484 to R488) -/

theorem nvm_bootSlot (d : Dev) (s : Nat) (card : Bool) : (d.bootSlot s card).nvm = d.nvm := rfl

theorem flashWf_install {d : Dev} (f : Bytes) (h : d.flashWf) : (d.install f).flashWf := by
  unfold Dev.install
  extract_lets s d1
  have h1 : d1.flashWf := flashWf_nvProgram _ _ (flashWf_nvErase _ _ h)
  exact (flashWf_hdrWrite _ h1).of_nvm (nvm_bootSlot _ _ _)

theorem flashWf_recover {d : Dev} (file : CardFile) (sigOk uhs : Bool) (h : d.flashWf) : (d.recover file sigOk uhs).flashWf := by
  unfold Dev.recover
  extract_lets d1
  have h1 : d1.flashWf := h.of_nvm (nvm_cardVolts _ _ _)
  clear_value d1
  refine h.ite ?_
  split
  · exact flashWf_install _ h1
  · exact h1.of_nvm rfl

@[simp] theorem nvm_loadCal (d : Dev) : d.loadCal.nvm = d.nvm := by
  unfold Dev.loadCal
  dsimp only
  split
  · exact nvm_writeFreqAdj _ _
  · rfl

@[simp] theorem nvm_loadOptime (d : Dev) : d.loadOptime.nvm = d.nvm := by
  unfold Dev.loadOptime
  dsimp only
  split
  · rfl
  · split
    · rfl
    · exact Dev.logNum_nvm _ _ _ _ _

@[simp] theorem nvm_eventScan (d : Dev) : d.eventScan.nvm = d.nvm := Dev.bump_nvm _ _ _ _

@[simp] theorem nvm_reportTrip (d : Dev) : d.reportTrip.nvm = d.nvm := by
  unfold Dev.reportTrip
  split
  · simp
  · rfl

theorem flashWf_reportFallback {d : Dev} (h : d.flashWf) : d.reportFallback.flashWf := by
  unfold Dev.reportFallback
  extract_lets s hd d1
  have h1 : d1.flashWf := flashWf_hdrWrite _ (h.of_nvm (Dev.logNum_nvm _ _ _ _ _))
  exact h.ite ((h1.of_nvm (by simp)).ite h1)

theorem flashWf_calibrated {d : Dev} (h : d.flashWf) : d.calibrated.flashWf := by
  unfold Dev.calibrated
  extract_lets d1 d2
  have h1 : d1.flashWf := flashWf_clearCut (flashWf_reportFallback (h.of_nvm (by simp)))
  clear_value d1
  have h2 : d2.nvm = d1.nvm := foldl_field (·.nvm) (fun d k => d.modMc k fun m => { m with st := .training }) (fun _ _ => rfl) _ _
  clear_value d2
  exact h1.of_nvm h2

/-! ### Writes through the mailbox (R482) -/

/-- A request that is refused leaves the flash alone, so what is served decides. -/
theorem flashWf_serve {d : Dev} (s : MbxSrc) (req : Nat) (given : Bytes) {f : Dev → Nat → Bytes → Dev}
    (hf : ∀ c p, (f d c p).flashWf) (h : d.flashWf) : (d.serve s req given f).flashWf :=
  h.ite ((flashWf_mbxEnd _ _ _ h).ite ((flashWf_mbxEnd _ _ _ h).ite (hf _ _)))

theorem flashWf_nvmGate {d : Dev} (c : Nat) (p : Bytes) (codes : List Nat) {f : Dev → Nat → Nat → Bytes → Dev}
    (hf : ∀ code off data, (f d code off data).flashWf) (h : d.flashWf) : (d.nvmGate c p codes f).flashWf :=
  have hr (r : Nat) : (d.mbxEnd c r []).flashWf := flashWf_mbxEnd _ _ _ h
  h.ite ((hr _).ite ((hr _).ite ((hr _).ite (hf _ _ _))))

theorem flashWf_cfgSelect {d : Dev} (c half : Nat) (data : Bytes) (ok : Bool) (h : d.flashWf) :
    (d.cfgSelect c half data ok).flashWf := by
  unfold Dev.cfgSelect
  extract_lets d1
  have h1 : d1.flashWf := flashWf_hdrWrite _ h
  clear_value d1
  exact (flashWf_mbxEnd _ _ _ h).ite ((flashWf_mbxEnd _ _ _ (flashWf_setBoot _ h1)).ite (flashWf_mbxEnd _ _ _ (flashWf_nvSpoil _ _ h)))

theorem flashWf_regionWrite {d : Dev} (c base size off : Nat) (data : Bytes) (ok : Bool) (h : d.flashWf) :
    (d.regionWrite c base size off data ok).flashWf := by
  unfold Dev.regionWrite
  extract_lets d1 d2
  have h2 : d2.flashWf := flashWf_nvProgram _ _ ((flashWf_nvErase _ _ h).ite h)
  have hs := (flashWf_nvSpoil base size h).ite (c := data = []) (flashWf_nvSpoil (base + off) data.length h)
  exact (flashWf_mbxEnd _ _ _ h).ite ((flashWf_mbxEnd _ _ _ hs).ite
    ((flashWf_mbxEnd _ _ _ (flashWf_nvErase _ _ h)).ite (flashWf_mbxEnd _ _ _ h2)))

theorem flashWf_halfWrite {d : Dev} (c code off : Nat) (data : Bytes) (ok : Bool) (h : d.flashWf) :
    (d.halfWrite c code off data ok).flashWf :=
  (flashWf_mbxEnd _ _ _ h).ite (flashWf_regionWrite _ _ _ _ _ _ h)

/-! ### Power loss (R525) -/

theorem flashWf_tearNvm {d : Dev} (h : d.flashWf) : d.tearNvm.flashWf := by
  unfold Dev.tearNvm
  extract_lets d1 d2
  have h1 : d1.flashWf := h.ite (flashWf_tear _ _ _ h)
  have h2 : d2.flashWf := flashWf_tear _ _ _ (flashWf_tear _ _ _ h1)
  exact h.ite ((flashWf_nvSpoil _ _ h2).ite h2)

theorem flashWf_powerLoss {d : Dev} (h : d.flashWf) : d.powerLoss.flashWf := by
  unfold Dev.powerLoss
  extract_lets d1
  have h1 : d1.flashWf := h.ite (flashWf_tearNvm h)
  clear_value d1
  exact h.ite (h1.of_nvm rfl)

/-! ## The invariant of every step -/

/-- A row that may write the flash keeps its canonical form when its effect does. -/
theorem actNvmIn_wf {b : Nat} {c : Instr} {s t : State} {f : Dev → Dev} (ht : actNvmIn b c s f = .next t) (h : s.dev.flashWf)
    (hf : s.dev.flashWf → (f s.dev).flashWf) : t.dev.flashWf := by
  unfold actNvmIn actNvm at ht
  injection ht with ht
  subst ht
  dsimp only
  split
  · refine flashWf_keepNvm ?_
    unfold Dev.across
    split
    · exact h.of_nvm (Dev.park_nvm _ _ _)
    · exact hf h
  · exact h

/-- Nor does firmware that does not serve. -/
theorem flashWf_ifServing {d : Dev} {f : Dev → Dev} (h : d.flashWf) (hf : d.flashWf → (f d).flashWf) : (d.ifServing f).flashWf := by
  unfold Dev.ifServing
  split
  · exact hf h
  · exact h

/-- Every command keeps the flash in its canonical form. -/
theorem exec_keeps_wf {c : Instr} {s t : State} (hx : exec c s = .next t) (h : s.dev.flashWf) : t.dev.flashWf := by
  cases hw : writesFlash c with
  | false => exact h.of_nvm (exec_keeps_nvm hx hw)
  | true =>
    cases c
    case powerLoss =>
      rw [actRaw_next (f := Dev.powerLoss) hx]
      exact flashWf_powerLoss h
    case bootRecovery file sigOk uhs =>
      exact actNvmIn_wf (f := fun d => d.recover file sigOk uhs) hx h (flashWf_recover file sigOk uhs)
    case calibrationLoad =>
      exact actNvmIn_wf (f := fun d => if d.boot.step = 3 then d.calibrated else d) hx h fun h => (flashWf_calibrated h).ite h
    case optimeRecordWrite =>
      exact actNvmIn_wf (f := fun d => d.ifServing Dev.opWrite) hx h fun h => flashWf_ifServing h flashWf_opWrite
    case fwUpdate src file sigOk nvm uhs =>
      exact actNvmIn_wf (f := fun d => d.serve src 6 [] fun d c _ => d.fwUpdate c file sigOk nvm uhs) hx h fun h =>
        flashWf_serve _ _ _ (fun c _ => flashWf_fwUpdate c file sigOk nvm uhs h) h
    case mbxRestart src =>
      exact actNvmIn_wf (f := fun d => d.serve src 7 [] fun d c _ => (d.mbxEnd c mOk []).restartOrFall 4) hx h fun h =>
        flashWf_serve _ _ _ (fun c _ => flashWf_restartOrFall 4 (flashWf_mbxEnd _ _ _ h)) h
    case nvmCfgSelect src nvm =>
      exact actNvmIn_wf (f := fun d => d.serve src 10 [] fun d c p => d.nvmGate c p [0] fun d _ off data =>
          d.cfgSelect c off data (nvm == .good)) hx h fun h =>
        flashWf_serve _ _ _ (fun c p => flashWf_nvmGate c p _ (fun _ _ _ => flashWf_cfgSelect _ _ _ _ h) h) h
    case nvmWriteConfigHalf src nvm =>
      exact actNvmIn_wf (f := fun d => d.serve src 10 [] fun d c p => d.nvmGate c p [1, 2] fun d code off data =>
          d.halfWrite c code off data (nvm == .good)) hx h fun h =>
        flashWf_serve _ _ _ (fun c p => flashWf_nvmGate c p _ (fun _ _ _ => flashWf_halfWrite _ _ _ _ _ h) h) h
    case nvmWriteCalibration src nvm =>
      exact actNvmIn_wf (f := fun d => d.serve src 10 [] fun d c p => d.nvmGate c p [3] fun d _ off data =>
          d.regionWrite c nvCal 0x00100000 off data (nvm == .good)) hx h fun h =>
        flashWf_serve _ _ _ (fun c p => flashWf_nvmGate c p _ (fun _ _ _ => flashWf_regionWrite _ _ _ _ _ _ h) h) h
    case mgmtWdogExpire =>
      exact actNvmIn_wf (f := fun d => if d.coresRun then d.restartOrFall 3 else d) hx h fun h => (flashWf_restartOrFall 3 h).ite h
    case mgmtFwReady =>
      exact actNvmIn_wf (f := fun d => if d.coresRun ∧ !d.mgmt.serving then d.fwReady else d) hx h fun h => (flashWf_fwReady h).ite h
    case trialCommit =>
      exact actNvmIn_wf (f := fun d => d.ifServing fun d => if d.mgmt.fw.state = 3 ∧ d.trialOver then d.trialCommit else d) hx h
        fun h => flashWf_ifServing h fun h => (flashWf_trialCommit h).ite h
    case evtClearEraseComplete => exact actNvmIn_wf (f := Dev.eraseEnds) hx h flashWf_eraseEnds
    case eventRecordWrite => exact actNvmIn_wf (f := Dev.eventNext) hx h flashWf_eventNext
    all_goals cases hw

/-- SYS_RST_N that is held means that the device is in reset. -/
abbrev Dev.resetHeld (d : Dev) : Prop := d.rstAsserted = true → d.inReset = true

theorem resetHeld_keep {d : Dev} (e : Dev) (h : d.resetHeld) : (d.keep e).resetHeld := h

theorem tripSample_inReset (d : Dev) (h : d.inReset = true) : d.tripSample.inReset = true := by
  unfold Dev.tripSample
  dsimp only
  split
  · split
    · exact h
    · rfl
  · exact h

/-- A sample may put the device in reset, and leaves SYS_RST_N as it is. -/
theorem sample_resetHeld {d : Dev} (temps : List (BitVec 12)) (h : d.resetHeld) : (d.sample temps).resetHeld := by
  have ht : (d.aonSample temps).tripSample.rstAsserted = d.rstAsserted := by
    rw [tripSample_frame]
    rfl
  have hr : (d.aonSample temps).tripSample.resetHeld := fun ha => tripSample_inReset _ (h (ht ▸ ha))
  unfold Dev.sample
  dsimp only
  split
  · exact hr
  · split
    · exact resetHeld_keep _ hr
    · exact hr

theorem sysRelease_resetHeld {d : Dev} (straps : Word) (h : d.resetHeld) : (d.sysRelease straps).resetHeld := by
  unfold Dev.sysRelease
  dsimp only
  split
  · exact h
  · split
    · exact fun ha => absurd ha Bool.false_ne_true
    · split <;> exact fun ha => absurd ha Bool.false_ne_true

/-- A device without power has none to lose. -/
theorem powerLoss_unpowered {d : Dev} (hp : d.powered = false) : d.powerLoss = d := by simp [Dev.powerLoss, hp]

/-- Every command leaves SYS_RST_N held by a device in reset alone. -/
theorem exec_keeps_resetHeld {c : Instr} {s t : State} (hx : exec c s = .next t) (h : s.dev.resetHeld) : t.dev.resetHeld := by
  cases hp : powers c with
  | false =>
    obtain ⟨-, hr, ha⟩ := exec_keeps_power hx hp
    rwa [Dev.resetHeld, hr, ha]
  | true =>
    cases c
    case powerOn =>
      rw [actRaw_next (f := Dev.powerOn) hx]
      unfold Dev.powerOn
      split
      · exact h
      · exact fun _ => rfl
    case powerLoss =>
      rw [actRaw_next (f := Dev.powerLoss) hx]
      cases hp : s.dev.powered with
      | false =>
        rw [powerLoss_unpowered hp]
        exact h
      | true =>
        rw [powerLoss_running hp]
        exact h
    case sysRstAssert =>
      rw [actRaw_next (f := Dev.sysRst) hx]
      unfold Dev.sysRst
      split
      · exact fun _ => rfl
      · exact h
    case sysRstRelease straps =>
      rw [actRaw_next (f := fun d => d.sysRelease straps) hx]
      exact sysRelease_resetHeld straps h
    case sensorSample temps =>
      rw [actRaw_next (f := fun d => if d.powered ∧ d.mgmt.aonOn then d.sample temps else d) hx]
      split
      · exact sample_resetHeld temps h
      · exact h
    all_goals cases hp

/-- Every command keeps the invariant. -/
theorem exec_keeps_inv {c : Instr} {s t : State} (hx : exec c s = .next t) (h : Inv s) : Inv t := by
  obtain ⟨hw, hr⟩ := h
  exact ⟨exec_keeps_wf hx hw, exec_keeps_resetHeld hx hr⟩

/-- A device that idles keeps the invariant: it may go on with a staging, and changes no power and no reset. -/
theorem idle_keeps_inv {d : Dev} (hw : d.flashWf) (hr : d.resetHeld) : d.idle.flashWf ∧ d.idle.resetHeld := by
  obtain ⟨-, hi, ha, -, -⟩ := idle_keeps d
  refine ⟨?_, by rwa [Dev.resetHeld, hi, ha]⟩
  cases hup : d.up with
  | false => rwa [idle_down hup]
  | true =>
    have h1 : d.memSettles.auditTurns.linkRests.flashWf := hw.of_nvm (by simp)
    rw [idle_up hup]
    exact flashWf_keepNvm ((flashWf_stagingStep h1).ite h1)

/-- Settles O6: by the command that acts, waiting or at the front, or by the idle device. -/
theorem invariantEveryStep : Obligations.InvariantEveryStep := by
  unfold Obligations.InvariantEveryStep
  intro s t h hx
  match hq : s.pending with
  | c :: cs =>
    have hs : step s = exec c { s with pending := cs } := by simp [step, hq]
    rw [hs] at hx
    exact exec_keeps_inv hx h
  | [] =>
    rw [step_empty hq] at hx
    unfold stepEmpty at hx
    split at hx
    case h_1 before p after _ =>
      obtain ⟨e, he⟩ := exec_completes p.2 { s with dev := { s.dev with parked := [] } }
      have hi := exec_keeps_inv he h
      rw [he] at hx
      injection hx with hx
      subst hx
      exact hi
    case h_2 =>
      injection hx with hx
      subst hx
      exact idle_keeps_inv h.1 h.2

end Sys2Proof.Machine
end

section
/-! GLB_LOCK: its bits stay set, and a write of a register that one of them locks leaves the record of its refusal alone. -/
namespace Sys2Proof.Machine

/-- Whatever the step does, but for SYS_RST_N and power-on, a set bit of GLB_LOCK stays set. -/
theorem exec_keeps_lockBit {c : Instr} {s t : State} {i : Nat} (hx : exec c s = .next t) (hr : resets c = false)
    (hi : s.dev.lock.getLsbD i = true) : t.dev.lock.getLsbD i = true := by
  cases hb : writesBus c with
  | false => rwa [(exec_keeps_lock_time hx hb hr).1]
  | true =>
    obtain ⟨f, hf⟩ := exec_actBus c s hb
    obtain ⟨-, -, -, -, -, hl⟩ := actBus_keeps (hf.symm.trans hx)
    exact hl i hi

/-! ## Refused writes (R71, R499) -/

/-- A write of a register that its domain locks is refused. -/
theorem refuse_locked {d : Dev} {p : Path} {off dom : Nat} {h : RegHit} (hs : d.silent off = false)
    (hf : fdieOffset off = false ∨ d.fdieUp = true) (hd : decodeReg off = some h) (hk : h.row.lock = some dom)
    (hl : d.lock.getLsbD dom = true) : d.refuse p off = some (0xFF, (d.lockedWrite p off).noteAlias h) := by
  have hf' : ¬(fdieOffset off = true ∧ (!d.fdieUp) = true) := by
    rcases hf with hf | hf <;> simp [hf]
  unfold Dev.refuse
  rw [hs, if_neg Bool.false_ne_true, if_neg hf', hd]
  dsimp only
  rw [hk]
  exact if_pos hl

/-- A whole write that its way lets through and the register fabric refuses leaves the refusal. -/
theorem access_refused {d : Dev} {p : Path} {off : Nat} (v : Word) (c : Instr) {r : Nat × Dev} (hu : d.busUp p = true)
    (hf : d.busFlows p off = true) (hw : d.hostWakes p = d) (hr : d.refuse p off = some r) :
    d.access p off v false c = r.2.settleDue := by
  unfold Dev.access
  rw [if_neg Bool.false_ne_true, request_flows c _ hu hf hw]
  unfold Dev.busWrite
  rw [hr]

theorem registerWrite_locked {s : State} {p : Path} {off : BitVec 26} (v : Word) {h : RegHit} {dom : Nat} (ha : Answers p off.toNat s)
    (hd : decodeReg off.toNat = some h) (hk : h.row.lock = some dom) (hl : s.dev.lock.getLsbD dom = true) :
    Yields (.registerWrite p off v false) s (s.dev.keepBus ((s.dev.lockedWrite p off.toNat).noteAlias h).settleDue) := by
  obtain ⟨⟨hup, hu, hf, hw⟩, hs, hfd⟩ := ha
  have hx := actBus_up (fun d => d.access p off.toNat v false (.registerWrite p off v false)) hup
  rwa [access_refused v _ hu hf hw (refuse_locked hs hfd hd hk hl)] at hx

/-- What every refusal under a lock leaves, before a REG_WRITE launch logs it. -/
def Dev.lockRefusal (d : Dev) (p : Path) (off : Nat) : Dev := ((d.inc bankGlb 1).latchBit Reg.GLB_STATUS 10).lastFault 1 p off

theorem lockedWrite_eq (d : Dev) (p : Path) (off : Nat) : d.lockedWrite p off =
    if p = .launch then (d.lockRefusal p off).logBit 0x00 0 10 0 (le 4 off) else d.lockRefusal p off := by
  unfold Dev.lockedWrite Dev.lockRefusal
  dsimp only

theorem counter_lockRefusal (d : Dev) (p : Path) (off : Nat) (h : d.chained bankGlb 1 = false) :
    (d.lockRefusal p off).counter bankGlb 1 = d.counter bankGlb 1 + 1#32 := by
  unfold Dev.lockRefusal Dev.lastFault
  rw [counter_setReg, counter_latchBit]
  exact (inc_effect d bankGlb 1 h).1

theorem reg_lockRefusal (d : Dev) (p : Path) (off : Nat) {k : Nat} (h1 : k ≠ Reg.GLB_STATUS) (h2 : k ≠ Reg.GLB_LAST_FAULT) :
    (d.lockRefusal p off).reg k = d.reg k := by
  unfold Dev.lockRefusal Dev.lastFault
  rw [Dev.reg_setReg_ne _ _ h2, Dev.reg_latchBit_ne _ h1, reg_inc]

theorem status_lockRefusal (d : Dev) (p : Path) (off : Nat) : bit ((d.lockRefusal p off).reg Reg.GLB_STATUS) 10 = true := by
  unfold Dev.lockRefusal Dev.lastFault
  rw [Dev.reg_setReg_ne _ _ (by decide)]
  exact latchBit_sets _ _ 10 (by decide)

/-- The refusal is counted and latched, and changes no register beside its record. -/
theorem lockedWrite_effect (d : Dev) (p : Path) (off : Nat) (h : d.chained bankGlb 1 = false) :
    (d.lockedWrite p off).counter bankGlb 1 = d.counter bankGlb 1 + 1#32 ∧
    bit ((d.lockedWrite p off).reg Reg.GLB_STATUS) 10 = true ∧
    (∀ k, k ≠ Reg.GLB_STATUS → k ≠ Reg.GLB_LAST_FAULT → k ≠ Reg.MGMT_EVT_LOST → (d.lockedWrite p off).reg k = d.reg k) := by
  rw [lockedWrite_eq]
  split
  · refine ⟨?_, ?_, fun k h1 h2 h3 => ?_⟩
    · exact (counter_log _ _ _ _ (by decide) (by decide)).trans (counter_lockRefusal d p off h)
    · rw [Dev.logBit, log_reg _ _ _ _ (by decide)]
      exact status_lockRefusal d p off
    · rw [Dev.logBit, log_reg _ _ _ _ h3, reg_lockRefusal d p off h1 h2]
  · exact ⟨counter_lockRefusal d p off h, status_lockRefusal d p off, fun k h1 h2 _ => reg_lockRefusal d p off h1 h2⟩

/-- Settles O8: the bits by the forms of the rows, the refusals by their record. -/
theorem locksStaySet : Obligations.LocksStaySet := by
  unfold Obligations.LocksStaySet
  refine ⟨fun c s t i hx hr hi => exec_keeps_lockBit hx hr hi, fun s hp => ⟨_, yields_of_actRaw Dev.sysRst rfl (sysRst_powered hp), rfl⟩,
    fun s hp => ⟨s.dev.powerOn, rfl, ?_⟩, fun s p off v h dom ha hd hk hl => registerWrite_locked v ha hd hk hl,
    fun d p off h => lockedWrite_effect d p off h⟩
  unfold Dev.powerOn
  rw [hp]
  rfl

end Sys2Proof.Machine
end

section
/-! The configuration image: the record before which the loader stands, applied by the row of its type, and how records and loading
end. -/
namespace Sys2Proof.Machine

/-! ## Records (R477, R478, R480) -/

/-- The row of a record's type applies it when its form is the row's. -/
theorem cfgRow_applies {d : Dev} {r : CfgRec} {form : CfgRec → Bool} (f : Dev → CfgRec → Nat × Dev) (hl : d.cfgLoads = true)
    (hn : d.cfgNext = .record r) (hf : form r = true) : d.cfgRow r.typ form f = ((f d r).2.settleDue).cfgDone r (f d r).1 := by
  unfold Dev.cfgRow
  rw [hl, hn]
  simp [hf]

theorem applies_of_onRecord {c : Instr} {s : State} {r : CfgRec} {typ : Nat} {form : CfgRec → Bool} {f : Dev → CfgRec → Nat × Dev}
    {x : Nat × Dev} (hx : exec c s = onRecord c s typ form f) (hl : Loads s r) (ht : r.typ = typ) (hf : form r = true)
    (he : f s.dev r = x) : Applies c s r x := by
  obtain ⟨hup, hc, hld, hn⟩ := hl
  subst ht he
  rw [Applies, Yields, hx, onRecord, actBus_up _ hup, across_flows c _ hc, cfgRow_applies f hld hn hf]

/-- Settles O18: each row by its type, its form and its items. -/
theorem configRecords : Obligations.ConfigRecords := by
  unfold Obligations.ConfigRecords
  refine ⟨fun s r hl ht hw => ?_, fun s r hl ht hw => ?_, fun s r hl ht hb hw => ?_, fun s r hl ht hb hw => ?_, fun s r hl ht hw => ?_,
    fun s r n hl ht hi hn hw => ?_, fun s r hl ht hi hw => ?_, fun s r hl ht hw => ?_, fun s r n hl ht hn hw => ?_,
    fun s r hl ht hw => ?_, fun s r hl ht hw => ?_, fun s r hl ht hw => ?_⟩
  case refine_1 => exact applies_of_onRecord rfl hl ht rfl (if_pos hw)
  case refine_2 => exact applies_of_onRecord rfl hl ht rfl (if_pos hw)
  case refine_3 => exact applies_of_onRecord rfl hl ht (by rw [hb]; rfl) (if_pos hw)
  case refine_4 => exact applies_of_onRecord rfl hl ht hb (if_pos hw)
  case refine_5 => exact applies_of_onRecord rfl hl ht rfl (if_pos hw)
  case refine_6 =>
    subst hn
    have hpos : stageItemBytes (r.target / 2 ^ 28 % 16) ≠ 0 := by
      generalize r.target / 2 ^ 28 % 16 = i at hi
      interval_cases i <;> decide
    refine applies_of_onRecord rfl hl ht rfl ?_
    dsimp only
    rw [if_pos ⟨hpos, hw⟩, if_neg (Nat.ne_of_lt hi)]
  case refine_7 =>
    have hn : stageItemBytes (r.target / 2 ^ 28 % 16) = 96 := by rw [hi]; rfl
    refine applies_of_onRecord rfl hl ht rfl ?_
    dsimp only
    rw [hn, if_pos ⟨by decide, hw⟩, if_pos hi]
  case refine_8 => exact applies_of_onRecord rfl hl ht rfl (if_pos hw)
  case refine_9 =>
    subst hn
    exact applies_of_onRecord rfl hl ht rfl (if_pos ⟨by omega, hw⟩)
  case refine_10 => exact applies_of_onRecord rfl hl ht rfl (if_pos hw)
  case refine_11 => exact applies_of_onRecord rfl hl ht rfl (if_pos hw)
  case refine_12 => exact applies_of_onRecord rfl hl ht rfl (if_pos hw)

/-! ## Ends (R478 to R480) -/

/-- A record that failed, counted and logged. -/
def Dev.cfgFault (d : Dev) (r : CfgRec) (n : Nat) : Dev :=
  (d.setRegFld Reg.GLB_CFG_FAULTS 15 0 (min 0xFFFF (fld (d.reg Reg.GLB_CFG_FAULTS) 15 0 + 1))).logNum 0x00 1 0
    (le 4 d.boot.pos ++ le 1 r.typ ++ le 1 n)

theorem cfgFault_boot (d : Dev) (r : CfgRec) (n : Nat) : (d.cfgFault r n).boot = d.boot := by
  unfold Dev.cfgFault
  rw [Dev.logNum_boot, Dev.setRegFld_boot]

/-- A failed record without halt lets loading go on at the next head. -/
theorem cfgDone_goesOn {d : Dev} {r : CfgRec} {n : Nat} (hn : n ≠ 0) (hh : r.halt = false) :
    d.cfgDone r n = { d.cfgFault r n with boot := { d.boot with pos := d.boot.pos + 8 + 4 * ceilDiv r.len 4 } } := by
  rw [← cfgFault_boot d r n]
  unfold Dev.cfgDone
  rw [if_neg hn, hh]
  rfl

/-- One with halt ends it. -/
theorem cfgDone_halts {d : Dev} {r : CfgRec} {n : Nat} (hn : n ≠ 0) (hh : r.halt = true) :
    d.cfgDone r n = { d.cfgFault r n with boot := { d.boot with loading := false, endCause := 4, endOff := d.boot.pos } } := by
  rw [← cfgFault_boot d r n]
  unfold Dev.cfgDone
  rw [if_neg hn, hh]
  rfl

/-- Settles O19: a record by its result and its halt bit, loading by what stands at the next head. -/
theorem configEnds : Obligations.ConfigEnds := by
  unfold Obligations.ConfigEnds
  refine ⟨fun d r => rfl, fun d r n hn => ⟨d.cfgFault r n, rfl, cfgDone_goesOn hn, cfgDone_halts hn⟩, fun s c hc hl hn => ?_,
    fun s r hc hl hn ht => ?_⟩
  case refine_1 =>
    refine yields_of_actIn _ rfl hc ?_
    dsimp only
    rw [if_pos hl, hn]
    rfl
  case refine_2 =>
    refine yields_of_actIn _ rfl hc ?_
    dsimp only
    rw [if_pos hl, hn]
    dsimp only
    rw [ht, if_neg Bool.false_ne_true]
    rfl

end Sys2Proof.Machine
end

section
/-! Start-up: the boot ROM, recovery from the card, the calibration set and the end of training. -/
namespace Sys2Proof.Machine

/-! ## The boot ROM and recovery (R472, R473) -/

/-- An event of one clock domain that may write the flash makes of the device what its effect makes of it. -/
theorem yields_of_actNvmIn {c : Instr} {s : State} {b : Nat} {e : Dev} (f : Dev → Dev) (hx : exec c s = actNvmIn b c s f)
    (h : Clocked b s) (he : s.dev.keepNvm (f s.dev) = e) : Yields c s e := by rw [Yields, hx, actNvmIn_up f h.1 h.2, he]

theorem romVerify_chosen {d : Dev} {a b : Bool} {x : Nat} (hs : d.boot.step = 2) (hf : d.boot.fail = 0) (hx : d.chooseSlot a b = some x) :
    d.romVerify a b = if d.bootMode = 2 then { d with nvmOctal := true } else ({ d with nvmOctal := true } : Dev).bootSlot x false := by
  unfold Dev.romVerify
  rw [if_neg (by simp [hs, hf]), hx]
  rfl

theorem romVerify_none {d : Dev} {a b : Bool} (hs : d.boot.step = 2) (hf : d.boot.fail = 0) (hx : d.chooseSlot a b = none) :
    d.romVerify a b = { d with nvmOctal := true, boot := { d.boot with noSlot := true } } := by
  unfold Dev.romVerify
  rw [if_neg (by simp [hs, hf]), hx]

/-- Recovery installs the image that the card holds, in the mode for it or with no slot that passes. -/
theorem recover_installs {d : Dev} {file : CardFile} {ok uhs : Bool} {f : Bytes} (hs : d.boot.step = 2) (hf : d.boot.fail = 0)
    (hm : d.bootMode = 2 ∨ d.boot.noSlot = true) (hx : d.cardImage file ok = some f) :
    d.recover file ok uhs = (d.cardVolts file uhs).install f := by
  simp only [Dev.recover, if_neg (show ¬ (d.boot.step ≠ 2 ∨ d.boot.fail ≠ 0 ∨ (d.bootMode ≠ 2 ∧ (!d.boot.noSlot) = true)) by
    rcases hm with hm | hm <;> simp [hs, hf, hm]), hx]

/-- With no image there it halts with cause 1. -/
theorem recover_halts {d : Dev} {file : CardFile} {ok uhs : Bool} (hs : d.boot.step = 2) (hf : d.boot.fail = 0)
    (hm : d.bootMode = 2 ∨ d.boot.noSlot = true) (hx : d.cardImage file ok = none) :
    d.recover file ok uhs = { d.cardVolts file uhs with boot := { (d.cardVolts file uhs).boot with fail := 1 } } := by
  simp only [Dev.recover, if_neg (show ¬ (d.boot.step ≠ 2 ∨ d.boot.fail ≠ 0 ∨ (d.bootMode ≠ 2 ∧ (!d.boot.noSlot) = true)) by
    rcases hm with hm | hm <;> simp [hs, hf, hm]), hx]

/-- An image is on a card that is there. -/
theorem cardImage_file {d : Dev} {file : CardFile} {ok : Bool} {f : Bytes} (h : d.cardImage file ok = some f) : file = .file f := by
  unfold Dev.cardImage at h
  split at h
  · split at h
    · injection h with h
      rw [h]
    · cases h
  · cases h

/-- The voltage of a card that is there: SD_VSEL is driven high when it accepts 1.80 V. -/
theorem cardVolts_file (d : Dev) (f : Bytes) (uhs : Bool) : d.cardVolts (.file f) uhs = { d with
    out := if uhs then .pin pinSdVsel true :: d.out else d.out, mgmt := { d.mgmt with sdVsel := d.mgmt.sdVsel || uhs } } := by
  unfold Dev.cardVolts
  cases uhs with
  | true => rw [if_pos ⟨rfl, by simp⟩, Bool.or_true]; rfl
  | false => rw [if_neg (by simp), Bool.or_false]; rfl

theorem cardVolts_frame (d : Dev) (file : CardFile) (uhs : Bool) :
    d.cardVolts file uhs = { d with mgmt := (d.cardVolts file uhs).mgmt, out := (d.cardVolts file uhs).out } := by
  unfold Dev.cardVolts
  split <;> rfl

theorem ite_flash (p : Prop) [Decidable p] {d e : Dev} (h : ∃ n, e = { d with nvm := n }) : ∃ n, (if p then e else d) = { d with nvm := n } := by
  split
  · exact h
  · exact ⟨d.nvm, rfl⟩

theorem nvProgram_flash {d e : Dev} (h : ∃ n, e = { d with nvm := n }) (a : Nat) (bs : Bytes) :
    ∃ n, e.nvProgram a bs = { d with nvm := n } := by
  obtain ⟨n, rfl⟩ := h
  exact ⟨_, nvProgram_frame _ a bs⟩

theorem nvErase_flash (d : Dev) (a n : Nat) : ∃ m, d.nvErase a n = { d with nvm := m } := ⟨_, nvErase_frame d a n⟩

theorem slotErase_flash (d : Dev) (s n : Nat) : ∃ m, d.slotErase s n = { d with nvm := m } := nvErase_flash d _ _

/-- A record of the boot header is in the flash. -/
theorem hdrWrite_flash {d e : Dev} (h : ∃ n, e = { d with nvm := n }) (f : Bytes → Bytes) : ∃ n, e.hdrWrite f = { d with nvm := n } := by
  obtain ⟨n, rfl⟩ := h
  exact nvProgram_flash (ite_flash _ (nvErase_flash _ _ _)) _ _

/-- What writes only the flash before a record and a boot boots with another flash. -/
theorem hdrWrite_bootSlot {d e : Dev} (h : ∃ n, e = { d with nvm := n }) (g : Bytes → Bytes) (x : Nat) :
    ∃ (y : Nat) (n : List Host.Cell), (e.hdrWrite g).bootSlot x true = ({ d with nvm := n } : Dev).bootSlot y true := by
  obtain ⟨n, hn⟩ := hdrWrite_flash h g
  rw [hn]
  exact ⟨x, n, rfl⟩

theorem slotWrite_flash (d : Dev) (s : Nat) (f : Bytes) : ∃ n, (d.slotErase s f.length).nvProgram (nvSlot s) f = { d with nvm := n } :=
  nvProgram_flash (slotErase_flash d _ _) _ _

/-- An installed image is in the flash, and boots. -/
theorem install_boots (d : Dev) (f : Bytes) : ∃ (x : Nat) (nvm : List Host.Cell), d.install f = ({ d with nvm := nvm } : Dev).bootSlot x true := by
  unfold Dev.install
  extract_lets s d1
  have h1 : ∃ n, d1 = { d with nvm := n } := slotWrite_flash d s f
  clear_value d1 s
  generalize (fun r => hdrSetActive s (hdrSetState s 2 (hdrSetVersion s (imgVersion f) r))) = g
  exact hdrWrite_bootSlot h1 g s

/-! ## Training (R362, R363, R470) -/

theorem setEntries_frame (k : Nat → Nat) (g : Nat → LEntry) (l : List Nat) (d : Dev) : l.foldl (fun d i => d.setEntry (k i) (g i)) d =
    { d with lnch := (l.foldl (fun d i => d.setEntry (k i) (g i)) d).lnch } := by
  induction l generalizing d with
  | nil => rfl
  | cons i l ih => rw [List.foldl_cons, ih]; rfl

theorem setBoot_frame {d e : Dev} (h : e = { d with lnch := e.lnch }) (b : Boot → Boot) :
    ({ e with boot := b e.boot } : Dev) = { d with lnch := e.lnch, boot := b e.boot } := by
  rw [h]

/-- The end of training arms the retraining entries and begins step 5. -/
theorem trainEnds_frame (d : Dev) : ∃ l b, d.trainEnds = { d with lnch := l, boot := b } := by
  unfold Dev.trainEnds
  extract_lets _ e
  have he : e = { d with lnch := e.lnch } := setEntries_frame _ _ _ d
  clear_value e
  split
  · exact ⟨_, _, setBoot_frame he fun b => { b with step := 5 }⟩
  · exact ⟨d.lnch, d.boot, rfl⟩

theorem keep_trainEnds {d e : Dev} (h : d.keep e = e) : d.keep e.trainEnds = e.trainEnds := by
  obtain ⟨l, b, hx⟩ := trainEnds_frame e
  rw [hx]
  exact congrArg (fun x : Dev => { x with lnch := l, boot := b }) h

/-! ## The calibration set (R469) -/

/-- The stacks begin to train, one by one. -/
theorem mcOf_trainAll (l : List Nat) (d : Dev) (k : Nat) : ((l.foldl (fun d k => d.modMc k fun m => { m with st := .training }) d).mcOf k).st =
    if k ∈ l then .training else (d.mcOf k).st := by
  induction l generalizing d with
  | nil => rfl
  | cons j l ih =>
    rw [List.foldl_cons, ih]
    by_cases hk : k = j
    · subst hk
      simp
    · rw [Dev.mcOf_modMc_ne _ _ hk]
      simp [hk]

/-- Step 3 ends with firmware serving and every stack training. -/
theorem calibrated_ends (d : Dev) : d.calibrated.boot.step = 4 ∧ d.calibrated.mgmt.serving = true ∧
    ∀ k < 8, (d.calibrated.mcOf k).st = .training := by
  unfold Dev.calibrated
  extract_lets d1 d2
  clear_value d1
  have h2 : ∀ k < 8, (d2.mcOf k).st = .training := fun k hk =>
    (mcOf_trainAll (List.range 8) d1 k).trans (if_pos (List.mem_range.mpr hk))
  clear_value d2
  exact ⟨rfl, rfl, h2⟩

theorem keepNvm_keeps {d e : Dev} (h : e.boot.step = 4 ∧ e.mgmt.serving = true ∧ ∀ k < 8, (e.mcOf k).st = .training) :
    (d.keepNvm e).boot.step = 4 ∧ (d.keepNvm e).mgmt.serving = true ∧ ∀ k < 8, ((d.keepNvm e).mcOf k).st = .training := h

/-- Settles O15: each row by what it makes of the device. -/
theorem startUp : Obligations.StartUp := by
  unfold Obligations.StartUp
  refine ⟨fun s a b x hc hs hf hm hx => ?_, fun s a b x hc hs hf hm hx => ?_, fun s a b hc hs hf hx => ?_,
    fun s file ok uhs f hc hs hf hm hx => ?_, fun s file ok uhs hc hs hf hm hx => ?_, fun s hc hs => ?_, fun s k hc hs ht => ?_,
    fun s hr hs hd hn h2 h3 => ?_⟩
  case refine_1 =>
    refine ⟨_, yields_of_actIn (fun d => d.romVerify a b) rfl hc (congrArg s.dev.keep (romVerify_chosen hs hf hx)), ?_⟩
    rw [if_neg hm]
    exact ⟨rfl, rfl, rfl, rfl, rfl, rfl⟩
  case refine_2 => exact yields_of_actIn (fun d => d.romVerify a b) rfl hc (by rw [romVerify_chosen hs hf hx, if_pos hm]; rfl)
  case refine_3 => exact yields_of_actIn (fun d => d.romVerify a b) rfl hc (by rw [romVerify_none hs hf hx]; rfl)
  case refine_4 =>
    obtain rfl := cardImage_file hx
    obtain ⟨y, nvm, hi⟩ := install_boots (s.dev.cardVolts (.file f) uhs) f
    refine ⟨_, yields_of_actNvmIn (fun d => d.recover (.file f) ok uhs) rfl hc (congrArg s.dev.keepNvm ((recover_installs hs hf hm hx).trans hi)), ?_⟩
    rw [cardVolts_file]
    exact ⟨rfl, rfl, rfl, rfl, rfl⟩
  case refine_5 =>
    refine yields_of_actNvmIn (fun d => d.recover file ok uhs) rfl hc ?_
    rw [recover_halts hs hf hm hx, cardVolts_frame]
    rfl
  case refine_6 =>
    refine ⟨_, yields_of_actNvmIn (fun d => if d.boot.step = 3 then d.calibrated else d) rfl hc
      (congrArg s.dev.keepNvm (if_pos hs)), ?_⟩
    exact keepNvm_keeps (calibrated_ends s.dev)
  case refine_7 =>
    refine yields_of_actIn (fun d => d.stackTrained k ((none : Option (Fin 16)).map (·.val))) rfl hc ?_
    have he : s.dev.stackTrained k none = (s.dev.modMc k fun m => { m with st := .ready }).trainEnds :=
      if_neg (by simp [hs, ht])
    rw [Option.map_none, he]
    exact keep_trainEnds rfl
  case refine_8 =>
    refine yields_of_act (fun d => d.dukTrains true) rfl hr ?_
    have he : s.dev.dukTrains true = Dev.trainEnds { s.dev with boot := { s.dev.boot with dukTrained := true, fdieReady := true } } := by
      simp [Dev.dukTrains, hs, hd, hn, h2, h3]
    rw [he]
    exact keep_trainEnds rfl

end Sys2Proof.Machine
end

section
/-! Counter rows: clears, the harvest engine and the selection of a meter (R507 to R519). -/
namespace Sys2Proof.Machine

/-! ## Clears (R511) -/

/-- A filter by key keeps the entries of the keys that pass, and drops the others. -/
theorem Tbl.get_filter_key {α : Type} (dflt : α) (p : Nat → Bool) (t : List (Nat × α)) (k : Nat) :
    Tbl.get dflt (t.filter fun x => p x.1) k = if p k then Tbl.get dflt t k else dflt := by
  induction t with
  | nil => simp [Tbl.get]
  | cons x t ih =>
    obtain ⟨j, v⟩ := x
    by_cases hj : p j = true
    · rw [List.filter_cons_of_pos (by exact hj)]
      by_cases hk : j = k
      · subst hk; simp [Tbl.get, hj]
      · simpa [Tbl.get, hk] using ih
    · rw [List.filter_cons_of_neg (by exact hj), ih]
      by_cases hk : j = k
      · subst hk; simp [hj]
      · simp [Tbl.get, hk]

/-- A clear of a bank makes its counters 0 and leaves every other. -/
theorem counter_clearBank (d : Dev) (b c : Nat) {i : Nat} (h : i < 256) :
    (d.clearBank b).counter c i = if c = b then 0#32 else d.counter c i := by
  have hk : cntKey c i / 256 = c := by unfold cntKey; omega
  have := Tbl.get_filter_key 0#32 (fun k => decide (k / 256 ≠ b)) d.cnt (cntKey c i)
  rw [Dev.counter, Dev.clearBank, this, hk]
  by_cases hc : c = b <;> simp [hc, Dev.counter]

theorem counter_clearBanks (l : List Nat) (d : Dev) (c : Nat) {i : Nat} (h : i < 256) :
    (l.foldl (fun d b => d.clearBank b) d).counter c i = if c ∈ l then 0#32 else d.counter c i := by
  induction l generalizing d with
  | nil => simp
  | cons b l ih =>
    rw [List.foldl_cons, ih, counter_clearBank _ _ _ h]
    by_cases hb : c = b <;> simp [hb]

/-- A command that ends OK counts in the bank of CNT, and no counter of another bank changes. -/
theorem counter_cntOk (d : Dev) {c i : Nat} (h : i < 256) (hc : c ≠ bankCnt) : (d.cntResult 0).counter c i = d.counter c i := by
  have hb : bankCnt = 432 := rfl
  exact (bump_other _ bankCnt 4 1 (by unfold cntKey; omega) (by unfold cntKey; omega)).trans rfl

theorem reg_cntOk (d : Dev) (k : Nat) : (d.cntResult 0).reg k = if k = Reg.CNT_CMD then 0#32 else d.reg k := by
  rw [Dev.cntResult, if_pos rfl, reg_inc]
  split
  · rename_i hk; rw [hk, Dev.reg_setReg_same]; decide
  · rename_i hk; rw [Dev.reg_setReg_ne _ _ hk]

/-- The banks of the sets before that of CNT lie before its bank. -/
theorem setBanks_lt {t b : Nat} (ht : t < 19) (hb : b ∈ setBanks t) : b < bankCnt := by
  have h : ∀ t < 19, (setInfo.getD t (0, 0, 0)).1 + (setInfo.getD t (0, 0, 0)).2.1 ≤ bankCnt := by decide
  have ht' := h t ht
  unfold setBanks at hb
  split at hb
  · rename_i x n w hx
    obtain ⟨j, hj, rfl⟩ := List.mem_map.mp hb
    rw [List.getD_eq_getElem?_getD, hx] at ht'
    exact lt_of_lt_of_le (Nat.add_lt_add_left (List.mem_range.mp hj) x) ht'
  · cases hb

theorem mem_maskBanks {m : Word} {b : Nat} :
    b ∈ ((List.range 20).filter fun s => bit m s).flatMap setBanks ↔ ∃ t < 20, bit m t = true ∧ b ∈ setBanks t := by
  simp [List.mem_flatMap, List.mem_filter, and_assoc]

/-! ## The harvest engine (R514) -/

/-- A fold of steps that count, and move no byte, does so as well. -/
theorem foldl_counts {α : Type} (f : Dev → α → Dev) (hf : ∀ d x, f d x = { d with mc := (f d x).mc, cnt := (f d x).cnt }) (l : List α)
    (d : Dev) : l.foldl f d = { d with mc := (l.foldl f d).mc, cnt := (l.foldl f d).cnt } := by
  induction l generalizing d with
  | nil => rfl
  | cons x l ih =>
    rw [List.foldl_cons, ih]
    rw [hf d x]

/-- A write of the device is in the stacks, their channels and the counters. -/
theorem dramWrite_frame (d : Dev) (r a : Nat) (bs : Bytes) : d.dramWrite r a bs =
    { d with dram := (d.dramWrite r a bs).dram, mc := (d.dramWrite r a bs).mc, cnt := (d.dramWrite r a bs).cnt } := by
  unfold Dev.dramWrite
  rw [foldl_counts _ (fun d m => foldl_counts _ (fun d k => writeCopy_frame d _ k) _ d)]
  rw [dramStore_frame]

theorem dramWrite_qm (d : Dev) (r a : Nat) (bs : Bytes) : (d.dramWrite r a bs).qm = d.qm := by rw [dramWrite_frame]

theorem noms_hvLost (d : Dev) : d.hvLost.qm.noms = d.qm.noms := by simp [Dev.hvLost]

theorem noms_hvToQueue (d : Dev) (bs : Bytes) : (d.hvToQueue bs).qm.noms = d.qm.noms := by
  unfold Dev.hvToQueue
  extract_lets hq
  split
  · rename_i d1 h
    unfold Dev.hostItem at h
    extract_lets at h
    split at h
    · cases h
    · injection h with h
      rw [← h, Dev.inc_qm]
      rfl
  · exact noms_hvLost d

theorem noms_hvRing {d e : Dev} {bs : Bytes} (h : d.hvRing bs = some e) : e.qm.noms = d.qm.noms := by
  unfold Dev.hvRing at h
  extract_lets size base prod cons wrap u skip start room d1 at h
  split at h
  · cases h
  · injection h with h
    rw [← h, Dev.setReg_qm, dramWrite_qm, dramWrite_qm]

theorem noms_hvToRing (d : Dev) (h : Harvest) (bs : Bytes) : (d.hvToRing h bs).2.qm.noms = d.qm.noms := by
  unfold Dev.hvToRing
  split
  · exact noms_hvLost d
  · split
    · rename_i d1 h1
      exact (congrArg Qm.noms (Dev.inc_qm _ _ _)).trans (noms_hvRing h1)
    · exact noms_hvLost d

/-- No block of a harvest reaches the packets that wait for the Trellis. -/
theorem noms_hvSend (d : Dev) (h : Harvest) (bs : Bytes) : (d.hvSend h bs).2.qm.noms = d.qm.noms := by
  unfold Dev.hvSend
  split
  · exact noms_hvToQueue d bs
  · exact (noms_hvToQueue _ bs).trans (noms_hvToRing d h bs)
  · exact noms_hvToRing d h bs

/-- The engine sends the block in front and stands before the next of the same harvest. -/
theorem hvNext_passes {d : Dev} {h : Harvest} {hs : List Harvest} {b c : HvBlock} {bs : List HvBlock} (ha : d.harv.active = h :: hs)
    (hb : h.blocks = b :: c :: bs) : ∃ r : Bool × Dev, r.2.qm.noms = d.qm.noms ∧ d.hvNext = { r.2 with
      harv := { r.2.harv with active := { h with blocks := c :: bs, index := h.index + 1, stopped := r.1 } :: hs } } := by
  unfold Dev.hvNext
  rw [ha]
  simp only [hb]
  exact ⟨_, noms_hvSend d h _, rfl⟩

/-- Settles O55: the clears by the counters that they leave, the engine by what it sends. -/
theorem counterRows : Obligations.CounterRows := by
  unfold Obligations.CounterRows
  refine ⟨fun s b hc hb hn => ?_, fun s b hc hb => ?_, fun s hc => ?_, fun s hc ha => ?_, fun s h hs b c bs hc ha hb => ?_, fun s v hc => ?_⟩
  case refine_1 =>
    refine ⟨_, yields_of_actReg (fun d => d.cntClearBank b.toNat) rfl hc (congrArg s.dev.keep (if_neg (by omega))), fun i hi => ?_,
      fun c i hi h1 h2 => ?_, ?_, fun k hk => ?_⟩
    · exact (counter_cntOk _ hi hn).trans ((counter_clearBank _ _ _ hi).trans (if_pos rfl))
    · exact (counter_cntOk _ hi h2).trans ((counter_clearBank _ _ _ hi).trans (if_neg h1))
    · exact (reg_cntOk _ _).trans (if_pos rfl)
    · exact (reg_cntOk _ _).trans (if_neg (List.mem_singleton.not.mp hk))
  case refine_2 => exact yields_of_actReg (fun d => d.cntClearBank b.toNat) rfl hc (congrArg s.dev.keep (if_pos hb))
  case refine_3 =>
    refine ⟨_, yields_of_actReg Dev.cntClearSet rfl hc rfl, fun t b i ht hm hb hi => ?_, fun b i hi h1 h2 => ?_, ?_⟩
    · exact (counter_cntOk _ hi (setBanks_lt ht hb).ne).trans ((counter_clearBanks _ _ _ hi).trans
        (if_pos (mem_maskBanks.mpr ⟨t, ht.trans (by decide), hm, hb⟩)))
    · refine (counter_cntOk _ hi h1).trans ((counter_clearBanks _ _ _ hi).trans (if_neg fun hb => ?_))
      obtain ⟨t, ht, hm, hb⟩ := mem_maskBanks.mp hb
      exact h2 t ht hm hb
    · exact (reg_cntOk _ _).trans (if_pos rfl)
  case refine_4 =>
    refine yields_of_actIn Dev.hvNext rfl hc ?_
    have he : s.dev.hvNext = s.dev := by simp only [Dev.hvNext, ha]
    rw [he]
    rfl
  case refine_5 =>
    obtain ⟨r, hr, he⟩ := hvNext_passes ha hb
    exact ⟨_, yields_of_actIn Dev.hvNext rfl hc (congrArg s.dev.keep he), r.1, rfl, hr⟩
  case refine_6 =>
    refine ⟨_, yields_of_actReg (fun d => d.mtrSelect v) rfl hc rfl, Dev.reg_setReg_same _ _ _, rfl, fun k hk => ?_, rfl⟩
    exact Dev.reg_setReg_ne _ _ (List.mem_singleton.not.mp hk)

end Sys2Proof.Machine
end

section
/-! Lines read, written and scrubbed in the RL stacks (R347 to R357). -/
namespace Sys2Proof.Machine

/-! ## Reads (R350, R352) -/

/-- A read of a line goes to the copy that the rule names. -/
theorem readRegion_reads {d : Dev} {r m k : Nat} (e : DramEcc) (c : Instr) (hm : m < d.regionLines r) (hw : d.writeWaits r m = none)
    (hk : d.copyFor r m = some k) (hl : d.stackLost k = false) (hf : d.flows (memDom k (lineAt (d.stackLine r m)).channel) = true) :
    d.readRegion r m e c = (d.readLine k (d.stackLine r m) e).2.countRedirect r m k := by
  simp only [Dev.readRegion, if_neg (Nat.not_le.mpr hm), hw, hk, Dev.readCopy, across_one _ _ hf, hl, Bool.false_eq_true, if_false]

theorem readRegion_waits {d : Dev} {r m k : Nat} (e : DramEcc) (c : Instr) (hm : m < d.regionLines r) (hw : d.writeWaits r m = none)
    (hk : d.copyFor r m = some k) (hf : d.flows (memDom k (lineAt (d.stackLine r m)).channel) = false) :
    d.readRegion r m e c = d.park (memDom k (lineAt (d.stackLine r m)).channel) c := by
  simp only [Dev.readRegion, if_neg (Nat.not_le.mpr hm), hw, hk, Dev.readCopy]
  exact across_waits _ _ (by rw [stopped_one, hf]; rfl)

/-- The first copy of a mirrored line is out of service: a read goes to the other. -/
theorem copyFor_second {d : Dev} {r m a b : Nat} (hr : r = 1 ∨ r = 3) (ho : readOrder r m = [a, b])
    (ha : d.copyOut a (d.stackLine r m) = true) (hb : d.copyOut b (d.stackLine r m) = false) : d.copyFor r m = some b := by
  rw [Dev.copyFor, if_pos hr, ho]
  simp [ha, hb]

theorem countRedirect_second {d e : Dev} {r m a b : Nat} (ho : readOrder r m = [a, b])
    (ha : d.copyOut a (d.stackLine r m) = true) (hb : d.copyOut b (d.stackLine r m) = false) :
    e.countRedirect r m b = e.inc (bankMc a) 11 := by
  have hab : a ≠ b := fun h => by simp [h, hb] at ha
  rw [Dev.countRedirect, ho]
  exact if_neg hab

theorem stackLost_of_copyOut {d : Dev} {k n : Nat} (h : d.copyOut k n = false) : d.stackLost k = false :=
  (Bool.or_eq_false_iff.mp h).1

/-! ## Writes (R353) -/

/-- A fold that sets one value at several keys sets it at those, and at no other. -/
theorem Tbl.get_setAll {α β : Type} [DecidableEq α] (dflt v : α) (f : β → Nat) (l : List β) (t : List (Nat × α)) (c : Nat) :
    Tbl.get dflt (l.foldl (fun t k => Tbl.set dflt t (f k) v) t) c = if c ∈ l.map f then v else Tbl.get dflt t c := by
  induction l generalizing t with
  | nil => simp
  | cons k l ih =>
    rw [List.foldl_cons, ih]
    by_cases hc : c = f k
    · subst hc; simp
    · simp [hc, Tbl.get_set_ne _ _ _ hc]

/-- The stacks that hold a line and are not lost. -/
def Dev.liveCopies (d : Dev) (r m : Nat) : List Nat := (copiesOf r m).filter fun k => !d.stackLost k

theorem storeByte_get {d : Dev} {r m i : Nat} (hm : m < d.regionLines r) (hi : i < 64) (x : Byte) (c : Nat) :
    Tbl.get 0#8 (d.storeByte r (64 * m + i) x).dram c =
      if c ∈ (d.liveCopies r m).map fun k => stackKey k (d.stackLine r m) i then x else Tbl.get 0#8 d.dram c := by
  have h1 : (64 * m + i) / 64 = m := by omega
  have h2 : (64 * m + i) % 64 = i := by omega
  rw [Dev.storeByte, h1, h2, if_neg (Nat.not_le.mpr hm)]
  exact Tbl.get_setAll _ _ _ _ _ _

/-- A byte of a line is at one place of a stack. -/
theorem stackKey_inj {k l n b c : Nat} (hb : b < 64) (hc : c < 64) (h : stackKey k n b = stackKey l n c) : b = c := by
  unfold stackKey at h
  omega

theorem storeByte_regionLines (d : Dev) (r a : Nat) (x : Byte) (q : Nat) : (d.storeByte r a x).regionLines q = d.regionLines q := by
  rw [storeByte_frame]; rfl
theorem storeByte_stackLine (d : Dev) (r a : Nat) (x : Byte) (q m : Nat) : (d.storeByte r a x).stackLine q m = d.stackLine q m := by
  rw [storeByte_frame]; rfl
theorem storeByte_liveCopies (d : Dev) (r a : Nat) (x : Byte) (q m : Nat) : (d.storeByte r a x).liveCopies q m = d.liveCopies q m := by
  rw [storeByte_frame]; rfl

/-- A store within a line leaves every byte of the stacks outside the places that it writes. -/
theorem dramStore_other {r m c : Nat} (bs : Bytes) {d : Dev} {i : Nat} (hm : m < d.regionLines r) (hi : i + bs.length ≤ 64)
    (hc : ∀ k ∈ d.liveCopies r m, ∀ b, i ≤ b → b < 64 → c ≠ stackKey k (d.stackLine r m) b) :
    Tbl.get 0#8 (d.dramStore r (64 * m + i) bs).dram c = Tbl.get 0#8 d.dram c := by
  induction bs generalizing d i with
  | nil => rfl
  | cons x bs ih =>
    rw [List.length_cons] at hi
    have hx : c ∉ (d.liveCopies r m).map fun k => stackKey k (d.stackLine r m) i := fun h => by
      obtain ⟨k, hk, rfl⟩ := List.mem_map.mp h
      exact hc k hk i le_rfl (by omega) rfl
    refine (ih (i := i + 1) (by rwa [storeByte_regionLines]) (by omega) ?_).trans ((storeByte_get hm (by omega) x c).trans (if_neg hx))
    rw [storeByte_liveCopies, storeByte_stackLine]
    exact fun k hk b hb => hc k hk b (by omega)

/-- A store within a line is found at every stack that holds the line and is not lost. -/
theorem dramStore_found {r m k : Nat} (bs : Bytes) {d : Dev} {i : Nat} (hm : m < d.regionLines r) (hi : i + bs.length ≤ 64)
    (hk : k ∈ d.liveCopies r m) (j : Nat) (hj : j < bs.length) :
    Tbl.get 0#8 (d.dramStore r (64 * m + i) bs).dram (stackKey k (d.stackLine r m) (i + j)) = bs[j] := by
  induction bs generalizing d i j with
  | nil => cases hj
  | cons x bs ih =>
    rw [List.length_cons] at hi hj
    have hm' : m < (d.storeByte r (64 * m + i) x).regionLines r := by rwa [storeByte_regionLines]
    cases j with
    | zero =>
      refine (dramStore_other bs (i := i + 1) hm' (by omega) fun l _ b h1 h2 h => ?_).trans
        ((storeByte_get hm (by omega) x _).trans (if_pos (List.mem_map.mpr ⟨k, hk, rfl⟩)))
      rw [storeByte_stackLine] at h
      exact absurd (stackKey_inj (by omega) h2 h) (by omega)
    | succ j =>
      have := ih (i := i + 1) hm' (by omega) (by rwa [storeByte_liveCopies]) j (by omega)
      rw [storeByte_stackLine, Nat.add_right_comm, Nat.add_assoc] at this
      exact this

/-- No request on a channel loses a stack. -/
theorem stackLost_modChan (d : Dev) (k c : Nat) (f : Chan → Chan) (j : Nat) : (d.modChan k c f).stackLost j = d.stackLost j := by
  unfold Dev.stackLost Dev.modChan
  by_cases h : j = k
  · subst h; simp [Mc.setChan]
  · rw [Dev.mcOf_modMc_ne _ _ h]

theorem stackLost_inc (d : Dev) (b i j : Nat) : (d.inc b i).stackLost j = d.stackLost j := by
  rw [Dev.stackLost, Dev.mcOf, Dev.inc_mc]
  rfl

theorem stackLost_writeCopy (d : Dev) (n k j : Nat) : (d.writeCopy n k).stackLost j = d.stackLost j := by
  unfold Dev.writeCopy Dev.issueWrite Dev.wakeRank
  split
  · exact stackLost_inc _ _ _ _
  · rw [stackLost_inc, stackLost_modChan, stackLost_modChan]

theorem stackLost_dramWrite (d : Dev) (r a : Nat) (bs : Bytes) (j : Nat) : (d.dramWrite r a bs).stackLost j = d.stackLost j := by
  unfold Dev.dramWrite
  rw [foldl_field (·.stackLost j) _ fun d m => foldl_field (·.stackLost j) _ (fun d k => stackLost_writeCopy d _ k j) _ _, dramStore_frame]
  rfl

theorem mem_readOrder {r m k : Nat} : k ∈ readOrder r m ↔ k ∈ copiesOf r m := by
  unfold readOrder
  split
  · rfl
  · exact List.mem_reverse

theorem mem_liveCopies {d : Dev} {r m k : Nat} : k ∈ d.liveCopies r m ↔ k ∈ copiesOf r m ∧ d.stackLost k = false := by
  simp [Dev.liveCopies]

theorem copyFor_live {d : Dev} {r m k : Nat} (h : d.copyFor r m = some k) : k ∈ d.liveCopies r m := by
  unfold Dev.copyFor at h
  split at h
  · exact mem_liveCopies.mpr ⟨mem_readOrder.mp (List.mem_of_find?_eq_some h),
      stackLost_of_copyOut (by simpa using List.find?_some h)⟩
  · exact mem_liveCopies.mpr ⟨List.mem_of_find?_eq_some h, by simpa using List.find?_some h⟩

/-- The copy that answers holds the line, and is not lost. -/
theorem dataCopy_live {d : Dev} {r m : Nat} (h : d.lineAlive r m = true) : ∃ k ∈ d.liveCopies r m, d.dataCopy r m = some k := by
  unfold Dev.dataCopy
  split
  · rename_i k hk
    exact ⟨k, copyFor_live hk, rfl⟩
  · obtain ⟨j, hj, hl⟩ := List.any_eq_true.mp h
    cases hf : (readOrder r m).find? fun k => !d.stackLost k with
    | none => exact absurd hl (List.find?_eq_none.mp hf j (mem_readOrder.mpr hj))
    | some k => exact ⟨k, mem_liveCopies.mpr ⟨mem_readOrder.mp (List.mem_of_find?_eq_some hf), by simpa using List.find?_some hf⟩, rfl⟩

/-- A line that was written reads back (R347, R353). -/
theorem dramWrite_reads {d : Dev} {r m : Nat} {line : Bytes} (hm : m < d.regionLines r) (hl : line.length = 64)
    (ha : d.lineAlive r m = true) : (d.dramWrite r (64 * m) line).dramRead r (64 * m) 64 = line := by
  have hs := fun j => stackLost_dramWrite d r (64 * m) line j
  have hd := dramWrite_dram d r (64 * m) line
  have hp : (d.dramWrite r (64 * m) line).part = d.part := by rw [dramWrite_frame]
  generalize d.dramWrite r (64 * m) line = e at hs hd hp
  have hsl : e.stackLine r m = d.stackLine r m := by rw [Dev.stackLine, hp]; rfl
  have hrl : e.regionLines r = d.regionLines r := by rw [Dev.regionLines, hp]; rfl
  have hlive : e.liveCopies r m = d.liveCopies r m := by simp only [Dev.liveCopies, hs]
  obtain ⟨k, hk, hc⟩ := dataCopy_live (d := e) (r := r) (m := m) (by simpa only [Dev.lineAlive, hs] using ha)
  rw [hlive] at hk
  refine List.ext_getElem (by simp [Dev.dramRead, hl]) fun i h1 h2 => ?_
  have hi : i < 64 := by omega
  have hq : (64 * m + i) / 64 = m := by omega
  have hr : (64 * m + i) % 64 = i := by omega
  have hf := dramStore_found line (i := 0) hm (by omega) hk i h2
  rw [Nat.add_zero, Nat.zero_add] at hf
  simp only [Dev.dramRead, List.getElem_map, List.getElem_range, Dev.dramByte, hq, hr, hrl, if_neg (Nat.not_le.mpr hm), hc, hsl, hd]
  exact hf

theorem dramWrite_other {d : Dev} {r m a : Nat} {line : Bytes} (hm : m < d.regionLines r) (hl : line.length = 64)
    (ha : ∀ k ∈ copiesOf r m, ∀ b, b < 64 → a ≠ stackKey k (d.stackLine r m) b) :
    Tbl.get 0#8 (d.dramWrite r (64 * m) line).dram a = Tbl.get 0#8 d.dram a := by
  rw [dramWrite_dram]
  exact dramStore_other line (i := 0) hm (by omega) fun k hk b _ => ha k (mem_liveCopies.mp hk).1 b

theorem padTo_whole {n : Nat} {bs : Bytes} (h : bs.length = n) : padTo n (bs.take n) = bs := by
  rw [padTo, List.take_of_length_le h.le, h, Nat.sub_self, List.replicate_zero, List.append_nil]

/-- A line that every copy takes is written. -/
theorem writeRegion_writes {d : Dev} {r m : Nat} {line : Bytes} (c : Instr) (hm : m < d.regionLines r) (hl : line.length = 64)
    (hf : ∀ k ∈ copiesOf r m, d.flows (memDom k (lineAt (d.stackLine r m)).channel) = true) :
    d.writeRegion r m line c = d.dramWrite r (64 * m) line := by
  have hs : d.stopped ((copiesOf r m).map fun k => memDom k (lineAt (d.stackLine r m)).channel) = none :=
    List.find?_eq_none.mpr fun b hb => by
      obtain ⟨k, hk, rfl⟩ := List.mem_map.mp hb
      simp [hf k hk]
  rw [Dev.writeRegion, if_neg (Nat.not_le.mpr hm), across_flows _ _ hs, padTo_whole hl]

theorem keep_dramWrite (d : Dev) (r a : Nat) (bs : Bytes) : d.keep (d.dramWrite r a bs) = d.dramWrite r a bs := by
  rw [dramWrite_frame]
  rfl

/-! ## ECC and scrub (R354, R357) -/

/-- Up to three symbols in error are corrected, four and five are not (R354). -/
theorem judge_symbols (d : Dev) (n : Fin 73) (h : n.val ≤ 5) : d.judge (.symbols n) =
    if n.val = 0 then (.clean, d) else if n.val ≤ 3 then (.corrected, d) else (.bad, d) := by
  simp only [Dev.judge, if_pos h]

theorem scrubNext_reads {d : Dev} {k n : Nat} (e : DramEcc) (hn : n = (d.mcOf k).scrub) (hb : bit (d.reg (Reg.MC_CTRL k)) 8 = true)
    (hs : d.canServe k n = true) : d.scrubNext k e = if n + 1 = 2 ^ 28
      then (((d.modMc k fun m => { m with scrub := 0 }).inc (bankMc k) 13).readLine k n e).2
      else ((d.modMc k fun m => { m with scrub := n + 1 }).readLine k n e).2 := by
  subst hn
  unfold Dev.scrubNext
  rw [if_neg (by simp [hb, hs])]
  split <;> simp_all

/-- Settles O47: reads by the copy that the rule names, the write by the bytes that it stores. -/
theorem dramLines : Obligations.DramLines := by
  unfold Obligations.DramLines
  refine ⟨fun s r m ecc k hr hm hw hk hl hf => ?_, fun s r m a b ecc hr h13 hm hw ho ha hb hf => ?_,
    fun s r m ecc k b hr hm hw hk hb hf => ?_, fun s r m ecc hr hm => ?_, fun s r m line hr hm hl ha hf => ?_,
    fun s r m b line hr hm hs => ?_, fun d n hn => ⟨judge_symbols d n hn, rfl⟩, fun s k ecc n hc hn hb hs hw => ?_,
    fun s k ecc n hc hn hb hs hw => ?_, fun s k ecc hc hb => ?_⟩
  case refine_1 =>
    exact yields_of_act (fun d => d.readRegion r m ecc (.dramRead r m ecc)) rfl hr (by rw [readRegion_reads _ _ hm hw hk hl hf])
  case refine_2 =>
    refine yields_of_act (fun d => d.readRegion r m ecc (.dramRead r m ecc)) rfl hr ?_
    rw [readRegion_reads _ _ hm hw (copyFor_second h13 ho ha hb) (stackLost_of_copyOut hb) hf, countRedirect_second ho ha hb]
  case refine_3 =>
    refine yields_of_act (fun d => d.readRegion r m ecc (.dramRead r m ecc)) rfl hr ?_
    subst hb
    rw [readRegion_waits _ _ hm hw hk hf]
    rfl
  case refine_4 =>
    refine yields_of_act (fun d => d.readRegion r m ecc (.dramRead r m ecc)) rfl hr ?_
    rw [Dev.readRegion, if_pos hm]
    rfl
  case refine_5 =>
    refine ⟨s.dev.dramWrite r (64 * m) line, yields_of_act (fun d => d.writeRegion r m line (.dramWrite r m line)) rfl hr ?_,
      dramWrite_reads hm hl ha, fun a h => dramWrite_other hm hl h, fun h => dramWrite_wf _ _ _ h, ?_, dramWrite_frame _ _ _ _⟩
    · rw [writeRegion_writes _ hm hl hf, keep_dramWrite]
    · rw [dramWrite_frame]
  case refine_6 =>
    refine yields_of_act (fun d => d.writeRegion r m line (.dramWrite r m line)) rfl hr ?_
    rw [Dev.writeRegion, if_neg (Nat.not_le.mpr hm), across_waits _ _ hs]
    rfl
  case refine_7 =>
    refine yields_of_actIn (fun d => d.scrubNext k ecc) rfl hc ?_
    rw [scrubNext_reads _ hn hb hs, if_neg hw]
  case refine_8 =>
    refine yields_of_actIn (fun d => d.scrubNext k ecc) rfl hc ?_
    rw [scrubNext_reads _ hn hb hs, if_pos hw]
  case refine_9 =>
    refine yields_of_actIn (fun d => d.scrubNext k ecc) rfl hc ?_
    rw [Dev.scrubNext, if_pos (by simp [hb])]
    rfl

end Sys2Proof.Machine
end

section
/-! Rings of the host: doorbells, fetching, completions, enabling and draining (R381 to R400). -/
namespace Sys2Proof.Machine

/-! ## What the engine's own operations leave as it was -/

theorem hostWakes_frame (d : Dev) (p : Path) : d.hostWakes p = { d with host := { d.host with link := (d.hostWakes p).host.link } } := by
  unfold Dev.hostWakes
  split <;> rfl

theorem wakeLink_frame (d : Dev) : d.wakeLink = { d with host := { d.host with link := d.wakeLink.host.link }, cnt := d.wakeLink.cnt } := by
  unfold Dev.wakeLink
  split
  · unfold Dev.inc
    rw [bump_eq]
  · rfl

theorem emits_frame {α : Type} (g : α → Output) (l : List α) (d : Dev) :
    l.foldl (fun d r => d.emit (g r)) d = { d with out := (l.foldl (fun d r => d.emit (g r)) d).out } := by
  induction l generalizing d with
  | nil => rfl
  | cons x l ih => rw [List.foldl_cons, ih]; rfl

/-- Reads that are asked for wake the link, and change nothing else but the outputs. -/
theorem dmaAsk_frame (d : Dev) (a n : Nat) : d.dmaAsk a n = { d with
    host := { d.host with link := (d.dmaAsk a n).host.link }, cnt := (d.dmaAsk a n).cnt, out := (d.dmaAsk a n).out } := by
  unfold Dev.dmaAsk
  rw [emits_frame]
  rw [wakeLink_frame]

theorem dmaEmit_frame (d : Dev) (a : Nat) (bs : Bytes) (r : Bool) : d.dmaEmit a bs r = { d with
    host := { d.host with link := (d.dmaEmit a bs r).host.link }, cnt := (d.dmaEmit a bs r).cnt, out := (d.dmaEmit a bs r).out } := by
  unfold Dev.dmaEmit
  rw [emits_frame]
  rw [wakeLink_frame]

@[simp] theorem sqs_wakeLink (d : Dev) : d.wakeLink.host.sqs = d.host.sqs := by rw [wakeLink_frame]
@[simp] theorem sqs_setVec (d : Dev) (v : Nat) (x : Vec) : (d.setVec v x).host.sqs = d.host.sqs := rfl
@[simp] theorem sqs_modCq (d : Dev) (c : Nat) (f : Cq → Cq) : (d.modCq c f).host.sqs = d.host.sqs := rfl
@[simp] theorem sqs_setCq (d : Dev) (c : Nat) (x : Cq) : (d.setCq c x).host.sqs = d.host.sqs := rfl

@[simp] theorem sqs_dmaOut (d : Dev) (a : Nat) (bs : Bytes) : (d.dmaOut a bs).host.sqs = d.host.sqs := by
  unfold Dev.dmaOut Dev.dmaWrites
  split
  · rw [dmaEmit_frame]
  · rfl

@[simp] theorem sqs_sendVec (d : Dev) (v : Nat) : (d.sendVec v).host.sqs = d.host.sqs := by
  unfold Dev.sendVec
  dsimp only
  split
  · split
    · simp
    · rfl
  · split <;> simp

@[simp] theorem sqs_countVec (d : Dev) (v : Nat) : (d.countVec v).host.sqs = d.host.sqs := by
  unfold Dev.countVec
  dsimp only
  split <;> simp

@[simp] theorem sqs_writeCpl (d : Dev) (c : Nat) (x : Cpl) (o : Bool) : (d.writeCpl c x o).host.sqs = d.host.sqs := by
  unfold Dev.writeCpl
  extract_lets y d1 w d2 d3
  have h2 : d2.host.sqs = d.host.sqs := by simp [d2, d1]
  have h3 : d3.host.sqs = d.host.sqs := (apply_ite (fun e : Dev => e.host.sqs) _ _ _).trans (by simp [h2])
  split
  · exact h3
  · exact (sqs_countVec _ _).trans h3

/-- A completion leaves the rings as they are without its entry. -/
theorem sqs_complete (d : Dev) (q : Nat) (e : SqEnt) : (d.complete q e).host.sqs = (d.dropEnt q e).host.sqs := by
  unfold Dev.complete
  extract_lets c d1 h
  split
  · simp [d1]
  · split
    · simp [d1]
    · split <;> simp [d1]

/-- The entry whose completion is due leaves its ring's list. -/
theorem complete_drops (d : Dev) (q : Nat) (e : SqEnt) : ∀ x ∈ ((d.complete q e).sq q).ents, x.id ≠ e.id := by
  have h : (d.complete q e).sq q = (d.dropEnt q e).sq q := congrArg (fun t => Tbl.get ({} : Sq) t q) (sqs_complete d q e)
  rw [h, Dev.dropEnt, Dev.sq_modSq_same]
  intro x hx
  simpa using (List.mem_filter.mp hx).2

theorem sq_keep (d e : Dev) (q : Nat) : (d.keep e).sq q = e.sq q := rfl
theorem cq_keep (d e : Dev) (c : Nat) : (d.keep e).cq c = e.cq c := rfl

/-! ## Doorbells (R384, R392) -/

theorem sqDoorbell_rings {d : Dev} {q : Nat} {v : Word} (h1 : fld v 31 20 = 0) (h2 : (d.sq q).st = .active)
    (h3 : fld v 19 0 < d.sqSize q) : d.sqDoorbell q v false = d.setSq q ((d.sq q).ring (d.sqSize q) (fld v 19 0)) :=
  if_neg (by simp [h1, h2, h3])

theorem sqDoorbell_ignored {d : Dev} {q : Nat} {v : Word} {p : Bool}
    (h : p = true ∨ fld v 31 20 ≠ 0 ∨ (d.sq q).st ≠ .active ∨ d.sqSize q ≤ fld v 19 0) : d.sqDoorbell q v p = d.dbError := if_pos h

theorem cqDoorbell_moves {d : Dev} {c : Nat} {v : Word} (h1 : fld v 31 16 = 0) (h2 : (d.cq c).on = true)
    (h3 : fld v 15 0 < d.cqSize c)
    (h4 : ringDist (d.cqSize c) (d.cq c).head (fld v 15 0) ≤ ringDist (d.cqSize c) (d.cq c).head (d.cq c).tail)
    (h5 : (d.cq c).held = []) :
    d.cqDoorbell c v false = (d.modCq c fun x => { x with head := fld v 15 0 }).modCq c fun x => { x with stopped := false } := by
  have h : d.cqDoorbell c v false = (d.modCq c fun x => { x with head := fld v 15 0 }).resumeCq c := if_neg (by simp [h1, h2, h3, h4])
  rw [h, Dev.resumeCq, Dev.cq_modCq_same, h5]
  rfl

theorem cqDoorbell_ignored {d : Dev} {c : Nat} {v : Word} {p : Bool}
    (h : p = true ∨ fld v 31 16 ≠ 0 ∨ (d.cq c).on = false ∨ d.cqSize c ≤ fld v 15 0) : d.cqDoorbell c v p = d.dbError :=
  if_pos (by rcases h with h | h | h | h <;> simp [h])

theorem wakes_doorbell {d : Dev} (f : Dev → Dev) (h : d.busUp .bar0 = true) :
    (if d.busUp .bar0 then f (d.hostWakes .bar0) else d) = f (d.hostWakes .bar0) := if_pos h

/-! ## Fetching (R381, R382, R385) -/

theorem mayFetch_may {d : Dev} {q : Nat} (h : (d.mayFetch q).1 = true) : (d.mayFetch q).2 = d := by
  revert h
  unfold Dev.mayFetch
  dsimp only
  split
  · exact fun h => absurd h (by simp)
  · split
    · exact fun h => absurd h (by simp)
    · exact fun _ => rfl

theorem mayFetch_fst (d : Dev) (q : Nat) : (d.mayFetch q).1 =
    !(decide (64 ≤ (d.sq q).ents.length ∨ 4096 ≤ d.placesUsed ∨ (d.cq (d.sqCq q)).stopped = true) ||
      decide ((!d.cqCompat (d.sqCq q)) = true ∧ d.cqSize (d.sqCq q) - 1 + d.cqOvf (d.sqCq q) ≤ d.cqK (d.sqCq q))) := by
  unfold Dev.mayFetch
  extract_lets c
  split
  · rename_i h; rw [decide_eq_true h]; rfl
  · rename_i h
    rw [decide_eq_false h]
    split
    · rename_i h2; rw [decide_eq_true h2]; rfl
    · rename_i h2; rw [decide_eq_false h2]; rfl

/-- Whether a ring may be fetched from does not depend on whose turn it is. -/
theorem mayFetch_turn (d : Dev) (q p : Nat) : ((d.tookTurn p).mayFetch q).1 = (d.mayFetch q).1 :=
  (mayFetch_fst _ _).trans (mayFetch_fst d q).symm

/-- The device that takes what the read of unit 0 returned. -/
theorem unitRead_acts {d : Dev} {q : Nat} (hw : d.wantsUnit q = true) (hm : (d.mayFetch q).1 = true)
    (ht : (d.sq q).unitOut = true ∨ d.servedRing = some q) : ∃ e : Dev, (∀ u, d.unitRead q (some u) = e.takeUnit q u) ∧
      e.sq q = d.sq q ∧ e.regs = d.regs ∧ ((d.sq q).unitOut = false → e.host.turn.1 = q) := by
  have hc : ¬ ((!d.wantsUnit q) = true ∨ (!(d.sq q).unitOut) = true ∧ d.servedRing ≠ some q) := by
    rcases ht with ht | ht <;> simp [hw, ht]
  by_cases hu : (d.sq q).unitOut = true
  · refine ⟨d, fun u => ?_, rfl, rfl, fun h => by simp [hu] at h⟩
    rw [Dev.unitRead, if_neg hc]
    simp only [hu, if_true, hm, Bool.not_true, Bool.false_eq_true, if_false, mayFetch_may hm]
  · have hm' : ((d.tookTurn q).mayFetch q).1 = true := (mayFetch_turn d q q).trans hm
    refine ⟨(d.tookTurn q).dmaAsk (d.sqBase q + 32 * (d.sq q).head) 32, fun u => ?_, ?_, ?_, fun _ => ?_⟩
    · rw [Dev.unitRead, if_neg hc]
      simp only [if_neg hu, hm', Bool.not_true, Bool.false_eq_true, if_false, mayFetch_may hm']
    · rw [dmaAsk_frame]; rfl
    · rw [dmaAsk_frame]; rfl
    · rw [dmaAsk_frame]; rfl

theorem unitRead_idle {d : Dev} {q : Nat} (u : Option Bytes) (h1 : (d.sq q).unitOut = false) (h2 : d.servedRing ≠ some q) :
    d.unitRead q u = d := if_pos (by simp [h1, h2])

/-- Unit 0 of the ring's phase makes an entry, and the head passes it. -/
theorem takeUnit_owned {d : Dev} {q : Nat} {u : Bytes} (hp : (u.getD 0 0).getLsbD 7 = (d.sq q).phase) (h0 : 0 < (u.getD 2 0).toNat)
    (h1 : (u.getD 2 0).toNat ≤ 128) (h2 : (d.sq q).head + (u.getD 2 0).toNat < d.sqSize q) :
    ∃ x : SqEnt, x.op = (u.getD 1 0).toNat ∧ x.units = (u.getD 2 0).toNat ∧ x.tag = unle (Machine.slice u 4 4) ∧
      (d.takeUnit q u).sq q = { d.sq q with
        ahead := if (d.sq q).beyond then (d.sq q).ahead ++ [(d.sq q).head] else [], polls := 0, unitOut := false, waitDb := false,
        head := (d.sq q).head + (u.getD 2 0).toNat, ents := (d.sq q).ents ++ [x] } ∧
      (d.takeUnit q u).host.turn = d.host.turn ∧ (d.takeUnit q u).regs = d.regs := by
  unfold Dev.takeUnit
  extract_lets x b0 units y op f e
  rw [if_neg (not_not_intro hp), if_neg (by simp only [units, x]; omega)]
  refine ⟨e, rfl, rfl, rfl, ?_, ?_, ?_⟩
  · have hy : y = { d.sq q with
        ahead := if (d.sq q).beyond then (d.sq q).ahead ++ [(d.sq q).head] else [], polls := 0, unitOut := false, waitDb := false,
        head := (d.sq q).head + (u.getD 2 0).toNat } := if_neg (Nat.not_le.mpr h2)
    clear_value e f
    rw [Dev.sq, Dev.inc_host]
    exact (Dev.sq_setSq_same _ _ _).trans (by rw [hy])
  · rw [Dev.inc_host]; rfl
  · rw [Dev.inc_regs]; rfl

/-- Unit 0 of the other phase counts a poll. -/
theorem takeUnit_notOwned {d : Dev} {q : Nat} {u : Bytes} (hp : (u.getD 0 0).getLsbD 7 ≠ (d.sq q).phase) :
    ∃ w : Bool, (d.takeUnit q u).sq q = { d.sq q with polls := (d.sq q).polls + 1, unitOut := false, waitDb := w } := by
  have h : d.takeUnit q u = d.notOwned q := if_pos hp
  rw [h, Dev.notOwned, Dev.sq, Dev.inc_host]
  exact ⟨_, Dev.sq_modSq_same _ _ _⟩

theorem unitRead_fails {d : Dev} {q : Nat} (hw : d.wantsUnit q = true) (hm : (d.mayFetch q).1 = true) (hu : (d.sq q).unitOut = true) :
    d.unitRead q none = (d.mayFetch q).2.takeFree.2.faultEnt q 5 ((d.mayFetch q).2.takeFree.1 % 2 ^ 32) := by
  rw [Dev.unitRead, if_neg (by simp [hw, hu])]
  simp only [hu, if_true, hm, Bool.not_true, Bool.false_eq_true, if_false]

theorem restRead_ready {d : Dev} {q : Nat} {e : SqEnt} (bs : Bytes) (h : ((d.sq q).ents.find? fun e => e.st = .reading) = some e) :
    d.restRead q (some bs) = d.putEnt q { e with
      bytes := e.bytes ++ padTo (32 * (e.units - 1)) (bs.take (32 * (e.units - 1))), st := .ready } := by
  simp only [Dev.restRead, h, Dev.putEnt]

theorem restRead_fails {d : Dev} {q : Nat} {e : SqEnt} (h : ((d.sq q).ents.find? fun e => e.st = .reading) = some e) :
    d.restRead q none = if (d.sq q).st = .active then (d.endEnt q e 5 0 0 false).ringFault q else d.endEnt q e 5 0 0 false := by
  simp only [Dev.restRead, h]

/-- A read of an entry's rest that gets no completion, with no frame out. -/
theorem readTimeout_rest {d : Dev} {q : Nat} {e : SqEnt} (hf : ∀ x ∈ (d.sq q).ents, x.st ≠ .frame)
    (h : ((d.sq q).ents.find? fun e => e.st = .reading) = some e) (ha : (d.sq q).st = .active) :
    d.readTimeout q = (d.endEnt q e 5 0 0 false).ringFault q := by
  have h1 : ¬ ((d.sq q).ents.any fun e => e.st = .frame) = true := by simpa using hf
  have h2 : ((d.sq q).ents.any fun e => e.st = .reading) = true :=
    List.any_eq_true.mpr ⟨e, List.mem_of_find?_eq_some h, List.find?_some (p := fun e : SqEnt => decide (e.st = .reading)) h⟩
  simp only [Dev.readTimeout, if_neg h1, if_pos h2, restRead_fails h, if_pos ha]

/-! ## Control of the rings (R396 to R400) -/

/-- A write of a register's writable bits with what it holds, or with other bits changed, leaves it. -/
theorem word_rewritten (x b rw : Word) (h : b &&& rw = 0#32) : ((x &&& ~~~rw) ||| ((x ||| b) &&& rw)) = x ∧
    ((x &&& ~~~rw) ||| ((x &&& ~~~b) &&& rw)) = x := by
  constructor <;> ext i hi <;> have hb := congrArg (fun w : Word => w[i]) h <;> simp at hb ⊢ <;> grind

/-- What the validity of a ring rests on. -/
theorem sqValid_congr {d e : Dev} (q : Nat) (hr : ∀ k, e.reg k = d.reg k) (hh : e.host = d.host) : e.sqValid q = d.sqValid q := by
  simp only [Dev.sqValid, Dev.sqSize, Dev.sqBase, Dev.sqKind, Dev.sqCq, Dev.sq, Dev.cq, hr, hh]
  rfl

/-- A write of a register with what its writable bits hold leaves every register. -/
theorem reg_writeRw_own (d : Dev) {k : Nat} {rw v : Word} (h : ((d.reg k &&& ~~~rw) ||| (v &&& rw)) = d.reg k) (j : Nat) :
    (d.writeRw k rw v).reg j = d.reg j := by
  by_cases hj : j = k
  · rw [hj, (writeRw_effect d k rw v).1, h]
  · exact (writeRw_effect d k rw v).2 j hj

/-- A field is made of its bits. -/
theorem fld_congr {v w : Word} {hi lo : Nat} (h : ∀ i, lo ≤ i → i ≤ hi → v.getLsbD i = w.getLsbD i) (hl : lo ≤ hi) :
    fld v hi lo = fld w hi lo := by
  refine Nat.eq_of_testBit_eq fun i => ?_
  simp only [fld, Nat.testBit_mod_two_pow, Nat.testBit_shiftRight]
  by_cases hi' : i < hi - lo + 1
  · have := h (lo + i) (by omega) (by omega)
    simp only [hi', decide_true, Bool.true_and]
    exact this
  · simp [hi']

/-- The fields below bit 31 do not depend on it. -/
theorem fld_enable (w : Word) : fld (w ||| 0x80000000#32) 29 16 = fld w 29 16 ∧ fld (w &&& 0x7FFFFFFF#32) 29 16 = fld w 29 16 := by
  constructor <;> refine fld_congr (fun i h1 h2 => ?_) (by decide) <;> interval_cases i <;> simp

theorem bit_enable (w : Word) : bit (w ||| 0x80000000#32) 31 = true ∧ bit (w &&& 0x7FFFFFFF#32) 31 = false := by
  simp [bit]

/-- enable is none of the bits that a write of HOST_SQ_CTRL sets of itself. -/
theorem sqMask_high (b : Bool) : 0x80000000#32 &&& (if b = true then 0x3FFF00FF#32 else 0x000000FF#32) = 0#32 := by cases b <;> decide

/-- The enable of a ring is decided over the registers as they were (R397). -/
theorem sqCtrlWrite_enable {d : Dev} {q : Nat} (h : bit (d.reg (Reg.HOST_SQ_CTRL q)) 31 = false) :
    ∃ d1 : Dev, d1.host = d.host ∧ (∀ k, d1.reg k = d.reg k) ∧
      d.sqCtrlWrite q (d.reg (Reg.HOST_SQ_CTRL q) ||| 0x80000000#32) = if d.sqValid q
        then (d1.setReg (Reg.HOST_SQ_CTRL q) (d.reg (Reg.HOST_SQ_CTRL q) ||| 0x80000000#32)).setSq q { st := .active, phase := true }
        else d1.cfgRefused := by
  unfold Dev.sqCtrlWrite
  extract_lets key old idle d1 d2
  have hr : ∀ k, d1.reg k = d.reg k := reg_writeRw_own d (word_rewritten _ _ _ (sqMask_high idle)).1
  have h2 : d2 = d1 := if_neg (by simp [old, key, (fld_enable _).1])
  have hh : d1.host = d.host := rfl
  clear_value d2 d1
  subst h2
  refine ⟨d2, hh, hr, ?_⟩
  rw [if_pos ⟨(bit_enable _).1, by simp [old, key, h]⟩, sqValid_congr q hr hh, hr]

theorem sqCtrlWrite_disable {d : Dev} {q : Nat} (h : bit (d.reg (Reg.HOST_SQ_CTRL q)) 31 = true) :
    ∃ d1 : Dev, d1.host = d.host ∧ (∀ k, d1.reg k = d.reg k) ∧ d.sqCtrlWrite q (d.reg (Reg.HOST_SQ_CTRL q) &&& 0x7FFFFFFF#32) =
        (d1.setReg (Reg.HOST_SQ_CTRL q) (d.reg (Reg.HOST_SQ_CTRL q) &&& 0x7FFFFFFF#32)).sqStop q := by
  unfold Dev.sqCtrlWrite
  extract_lets key old idle d1 d2
  have hr : ∀ k, d1.reg k = d.reg k := reg_writeRw_own d (word_rewritten _ 0x80000000#32 _ (sqMask_high idle)).2
  have h2 : d2 = d1 := if_neg (by simp [old, key, (fld_enable _).2])
  have hh : d1.host = d.host := rfl
  clear_value d2 d1
  subst h2
  refine ⟨d2, hh, hr, ?_⟩
  have hb := (bit_enable (d.reg (Reg.HOST_SQ_CTRL q))).2
  rw [if_neg (by simp [hb]), if_pos ⟨by simp [hb], h⟩, hr]

/-- A ring without entries that is stopped drains, when no punt item is in progress (R398). -/
theorem sqStop_idle {d : Dev} {q : Nat} (hp : d.host.punt = none) (he : (d.sq q).ents = []) :
    d.sqStop q = d.modSq q fun x => { x with st := .draining, unitOut := false } := by
  unfold Dev.sqStop
  extract_lets kind d1 d2
  have h1 : d1.host.punt = none := hp
  have hd : d2 = d1 := by simp only [d2, h1]
  have h2 : (d1.sq q).ents = [] := by
    rw [Dev.sq_modSq_same]
    exact he
  rw [hd, Dev.flushEnts, h2]
  rfl

/-- A CQ is enabled over the registers as they were (R400). -/
theorem cqCtrlWrite_enable {d : Dev} {c : Nat} (ho : (d.cq c).on = false) (h1 : d.cqBase c % 4096 = 0) (h2 : 16 ≤ d.cqSize c)
    (h3 : d.cqSize c ≤ 65536) : ∃ d1 : Dev, d1.host = d.host ∧ (∀ k, d1.reg k = d.reg k) ∧
      d.cqCtrlWrite c (d.reg (Reg.HOST_CQ_CTRL c) ||| 0x80000000#32) =
        (d1.setReg (Reg.HOST_CQ_CTRL c) (d.reg (Reg.HOST_CQ_CTRL c) ||| 0x80000000#32)).setCq c { on := true, phase := true } := by
  unfold Dev.cqCtrlWrite
  extract_lets key on d1 valid busy
  have hr : ∀ k, d1.reg k = d.reg k := reg_writeRw_own d (word_rewritten _ _ _ (by decide)).1
  have hv : valid = true := by simp [valid, h1, h2, h3]
  have hh : d1.host = d.host := rfl
  clear_value d1
  refine ⟨d1, hh, hr, ?_⟩
  rw [if_pos ⟨(bit_enable _).1, by simp [on, ho]⟩, if_pos hv, hr]

theorem cqCtrlWrite_disable {d : Dev} {c : Nat} (ho : (d.cq c).on = true) (hh : (d.cq c).held = [])
    (hs : ∀ p ∈ d.host.sqs, d.sqCq p.1 = c → p.2.st = .disabled) : ∃ d1 : Dev, d1.host = d.host ∧ (∀ k, d1.reg k = d.reg k) ∧
      d.cqCtrlWrite c (d.reg (Reg.HOST_CQ_CTRL c) &&& 0x7FFFFFFF#32) =
        (d1.setReg (Reg.HOST_CQ_CTRL c) (d.reg (Reg.HOST_CQ_CTRL c) &&& 0x7FFFFFFF#32)).modCq c fun x => { x with on := false } := by
  unfold Dev.cqCtrlWrite
  extract_lets key on d1 valid busy
  have hr : ∀ k, d1.reg k = d.reg k := reg_writeRw_own d (word_rewritten _ 0x80000000#32 _ (by decide)).2
  have hb : busy = false := by simpa [busy, hh] using hs
  have h1 : d1.host = d.host := rfl
  clear_value d1
  have h31 := (bit_enable (d.reg (Reg.HOST_CQ_CTRL c))).2
  refine ⟨d1, h1, hr, ?_⟩
  rw [if_neg (by simp [h31]), if_pos ⟨by simp [h31], ho⟩, hb, if_neg (by simp), hr]

theorem sqPoll_polls {d : Dev} {q : Nat} (h1 : (d.sq q).st = .active) (h2 : (d.sq q).polls ≠ 0) (h3 : (d.sq q).waitDb = false)
    (h4 : (d.sq q).unitOut = false) (h5 : d.busMaster = true) :
    d.sqPoll q = (d.modSq q fun x => { x with unitOut := true }).dmaAsk (d.sqBase q + 32 * (d.sq q).head) 32 :=
  if_pos (by simp [h1, h2, h3, h4, h5])

theorem reg_congr {d e : Dev} (h : e.regs = d.regs) (k : Nat) : e.reg k = d.reg k := by rw [Dev.reg, h]; rfl

theorem hostWakes_cq (d : Dev) (p : Path) (c : Nat) : (d.hostWakes p).cq c = d.cq c := by rw [hostWakes_frame]; rfl
theorem hostWakes_regs (d : Dev) (p : Path) : (d.hostWakes p).regs = d.regs := by rw [hostWakes_frame]

/-- A refused configuration is noted, and changes no other register. -/
theorem cfgRefused_effect (d : Dev) : d.cfgRefused.host = d.host ∧ bit (d.cfgRefused.reg Reg.HOST_STATUS) 9 = true ∧
    ∀ k, k ≠ Reg.HOST_STATUS → d.cfgRefused.reg k = d.reg k := ⟨rfl, latchBit_sets _ _ _ (by decide), fun _ h => Dev.reg_latchBit_ne _ h⟩

theorem sqCtrl_ne_status (q : Nat) : Reg.HOST_SQ_CTRL q ≠ Reg.HOST_STATUS := by
  unfold Reg.HOST_SQ_CTRL Reg.HOST_STATUS
  omega

/-- Settles O49: each row by what it makes of the host engine. -/
theorem hostRings : Obligations.HostRings := by
  unfold Obligations.HostRings
  refine ⟨fun s q v t d hc hb hd ht h1 h2 h3 => ?_, fun s q v p d hc hb hd h => ?_, fun s c v hc hb h1 h2 h3 h4 h5 => ?_,
    fun s c v p d hc hb hd h => ?_, fun s q u hc hw hm ht hp h0 h1 h2 => ?_, fun s q u hc hw hm ht hp => ?_, fun s q u hc h1 h2 => ?_,
    fun s q hc h1 h2 h3 h4 h5 => ?_, fun s q bs e hc h => ?_, fun s q e hc h => ?_, fun s q hc hw hm hu => ?_, fun s q hc h => ?_,
    fun s q r e hc h => ⟨?_, complete_drops _ _ _⟩, fun s q hc hv h => ?_, fun s q hc hv h => ?_, fun s q hc h ha hp he => ?_,
    fun s q hc h1 h2 => ?_, fun s c hc ho h1 h2 h3 => ?_, fun s c hc ho hh hs => ?_, fun s q e hc hf h ha => ?_⟩
  case refine_1 =>
    subst hd ht
    refine yields_of_actIn (fun d => if d.busUp .bar0 then (d.hostWakes .bar0).sqDoorbell q v false else d) rfl hc ?_
    rw [wakes_doorbell (fun d => d.sqDoorbell q v false) hb, sqDoorbell_rings h1 h2 h3, hostWakes_frame]
    rfl
  case refine_2 =>
    subst hd
    refine yields_of_actIn (fun d => if d.busUp .bar0 then (d.hostWakes .bar0).sqDoorbell q v p else d) rfl hc ?_
    rw [wakes_doorbell (fun d => d.sqDoorbell q v p) hb, sqDoorbell_ignored h]
    rfl
  case refine_3 =>
    have hq (b : Nat) := hostWakes_cq s.dev .bar0 b
    have hr := hostWakes_regs s.dev .bar0
    have hz : (s.dev.hostWakes .bar0).cqSize c = s.dev.cqSize c := by rw [Dev.cqSize, reg_congr hr]; rfl
    have hm := wakes_doorbell (fun d => d.cqDoorbell c v false) hb
    have he := hm.trans (cqDoorbell_moves (v := v) h1 (by rw [hq, h2]) (by rw [hz]; exact h3) (by rw [hz, hq]; exact h4) (by rw [hq, h5]))
    refine ⟨_, yields_of_actIn (fun d => if d.busUp .bar0 then (d.hostWakes .bar0).cqDoorbell c v false else d) rfl hc
      (congrArg s.dev.keep he), ?_, fun b hb' => ?_, hr⟩
    · refine (cq_keep _ _ _).trans ((Dev.cq_modCq_same _ _ _).trans ?_)
      rw [Dev.cq_modCq_same, hq]
    · exact (cq_keep _ _ _).trans <| (Dev.cq_modCq_ne _ _ hb').trans ((Dev.cq_modCq_ne _ _ hb').trans (hq b))
  case refine_4 =>
    subst hd
    refine yields_of_actIn (fun d => if d.busUp .bar0 then (d.hostWakes .bar0).cqDoorbell c v p else d) rfl hc ?_
    rw [wakes_doorbell (fun d => d.cqDoorbell c v p) hb, cqDoorbell_ignored h]
    rfl
  case refine_5 =>
    obtain ⟨d1, he, hs, hr, hturn⟩ := unitRead_acts hw hm ht
    have h2' : (d1.sq q).head + (u.getD 2 0).toNat < d1.sqSize q := by rw [hs, Dev.sqSize, reg_congr hr]; exact h2
    obtain ⟨x, ho, hu, hg, hq, htt, hrr⟩ := takeUnit_owned (by rw [hs]; exact hp) h0 h1 h2'
    refine ⟨_, yields_of_actIn (fun d => d.unitRead q (some u)) rfl hc (congrArg s.dev.keep (he u)), ?_⟩
    have hq' : (s.dev.keep (d1.takeUnit q u)).sq q = _ := hq
    beta_reduce
    rw [hq', hs]
    exact ⟨rfl, rfl, rfl, ⟨x, rfl, ho, hu, hg⟩, fun h => (congrArg Prod.fst htt).trans (hturn h), hrr.trans hr⟩
  case refine_6 =>
    obtain ⟨d1, he, hs, -, -⟩ := unitRead_acts hw hm ht
    obtain ⟨w, hq⟩ := takeUnit_notOwned (by rw [hs]; exact hp)
    refine ⟨_, yields_of_actIn (fun d => d.unitRead q (some u)) rfl hc (congrArg s.dev.keep (he u)), ?_⟩
    have hq' : (s.dev.keep (d1.takeUnit q u)).sq q = _ := hq
    beta_reduce
    rw [hq', hs]
    exact ⟨rfl, rfl, rfl, rfl⟩
  case refine_7 =>
    refine yields_of_actIn (fun d => d.unitRead q u) rfl hc ?_
    rw [unitRead_idle u h1 h2]
    rfl
  case refine_8 =>
    exact yields_of_actIn (fun d => d.sqPoll q) rfl hc (congrArg s.dev.keep (sqPoll_polls h1 h2 h3 h4 h5))
  case refine_9 =>
    refine yields_of_actIn (fun d => d.restRead q (some bs)) rfl hc ?_
    rw [restRead_ready bs h]
    rfl
  case refine_10 => exact yields_of_actIn (fun d => d.restRead q none) rfl hc (congrArg s.dev.keep (restRead_fails h))
  case refine_11 => exact yields_of_actIn (fun d => d.unitRead q none) rfl hc (congrArg s.dev.keep (unitRead_fails hw hm hu))
  case refine_12 =>
    refine yields_of_actIn (fun d => d.completeNext q) rfl hc ?_
    simp only [Dev.completeNext, h]
    rfl
  case refine_13 =>
    refine yields_of_actIn (fun d => d.completeNext q) rfl hc ?_
    simp only [Dev.completeNext, h]
  case refine_14 =>
    obtain ⟨d1, hh, hr, he⟩ := sqCtrlWrite_enable h
    rw [if_pos hv] at he
    refine ⟨_, yields_of_actReg (fun d => d.sqCtrlWrite q (d.reg (Reg.HOST_SQ_CTRL q) ||| 0x80000000#32)) rfl hc
      (congrArg s.dev.keep he), Dev.sq_setSq_same _ _ _, fun p hp => ?_, Dev.reg_setReg_same _ _ _, fun k hk => ?_⟩
    · refine (Dev.sq_setSq_ne _ _ hp).trans ?_
      rw [Dev.sq, Dev.setReg_host, hh]; rfl
    · exact (Dev.reg_setReg_ne _ _ (List.mem_singleton.not.mp hk)).trans (hr k)
  case refine_15 =>
    obtain ⟨d1, hh, hr, he⟩ := sqCtrlWrite_enable h
    rw [hv, if_neg (by simp)] at he
    obtain ⟨h1, h2, h3⟩ := cfgRefused_effect d1
    refine ⟨_, yields_of_actReg (fun d => d.sqCtrlWrite q (d.reg (Reg.HOST_SQ_CTRL q) ||| 0x80000000#32)) rfl hc
      (congrArg s.dev.keep he), h1.trans hh, ?_, h2⟩
    exact (congrArg (bit · 31) ((h3 _ (sqCtrl_ne_status q)).trans (hr _))).trans h
  case refine_16 =>
    obtain ⟨d1, hh, hr, hx⟩ := sqCtrlWrite_disable h
    have hs (p : Nat) : (d1.setReg (Reg.HOST_SQ_CTRL q) (s.dev.reg (Reg.HOST_SQ_CTRL q) &&& 0x7FFFFFFF#32)).sq p = s.dev.sq p := by
      rw [Dev.sq, Dev.setReg_host, hh]; rfl
    have hz := hx.trans (sqStop_idle (by rw [Dev.setReg_host, hh, hp]) (by rw [hs, he]))
    refine ⟨_, yields_of_actReg (fun d => d.sqCtrlWrite q (d.reg (Reg.HOST_SQ_CTRL q) &&& 0x7FFFFFFF#32)) rfl hc
      (congrArg s.dev.keep hz), ?_, ?_, fun p hp => (sq_keep _ _ _).trans ((Dev.sq_modSq_ne _ _ hp).trans (hs p)), fun k hk => ?_⟩
    · refine (sq_keep _ _ _).trans ((Dev.sq_modSq_same _ _ _).trans ?_)
      rw [hs]
    · exact (congrArg (bit · 31) (Dev.reg_setReg_same _ _ _)).trans (bit_enable _).2
    · exact (Dev.reg_setReg_ne _ _ (List.mem_singleton.not.mp hk)).trans (hr k)
  case refine_17 =>
    refine yields_of_actIn (fun d => d.sqDrained q) rfl hc ?_
    have hx : s.dev.sqDrained q = s.dev.modSq q fun x => { x with st := .disabled } := if_pos ⟨h1, h2⟩
    rw [hx]
    rfl
  case refine_18 =>
    obtain ⟨d1, hh, hr, he⟩ := cqCtrlWrite_enable ho h1 h2 h3
    refine ⟨_, yields_of_actReg (fun d => d.cqCtrlWrite c (d.reg (Reg.HOST_CQ_CTRL c) ||| 0x80000000#32)) rfl hc
      (congrArg s.dev.keep he), Dev.cq_setCq_same _ _ _, ?_, fun p hp => ?_, fun k hk => ?_⟩
    · exact (congrArg (bit · 31) (Dev.reg_setReg_same _ _ _)).trans (bit_enable _).1
    · refine (Dev.cq_setCq_ne _ _ hp).trans ?_
      rw [Dev.cq, Dev.setReg_host, hh]; rfl
    · exact (Dev.reg_setReg_ne _ _ (List.mem_singleton.not.mp hk)).trans (hr k)
  case refine_19 =>
    obtain ⟨d1, h1, hr, he⟩ := cqCtrlWrite_disable ho hh hs
    refine ⟨_, yields_of_actReg (fun d => d.cqCtrlWrite c (d.reg (Reg.HOST_CQ_CTRL c) &&& 0x7FFFFFFF#32)) rfl hc
      (congrArg s.dev.keep he), ?_, ?_, fun p hp => ?_, fun k hk => ?_⟩
    · refine (cq_keep _ _ _).trans ((Dev.cq_modCq_same _ _ _).trans ?_)
      rw [Dev.cq, Dev.setReg_host, h1]; rfl
    · exact (congrArg (bit · 31) (Dev.reg_setReg_same _ _ _)).trans (bit_enable _).2
    · refine (cq_keep _ _ _).trans ((Dev.cq_modCq_ne _ _ hp).trans ?_)
      rw [Dev.cq, Dev.setReg_host, h1]; rfl
    · exact (Dev.reg_setReg_ne _ _ (List.mem_singleton.not.mp hk)).trans (hr k)
  case refine_20 =>
    exact yields_of_actIn (fun d => d.readTimeout q) rfl hc (congrArg s.dev.keep (readTimeout_rest hf h ha))

end Sys2Proof.Machine
end

section
/-! The endpoint, injections, punts, interrupts and sleep (R371 to R395). -/
namespace Sys2Proof.Machine

/-! ## The endpoint (R371, R372, R376) -/

theorem pcieUp_trained {d : Dev} (speed w : Nat) (h : d.host.link ≠ 7) : d.pcieUp speed w = d := if_neg (by simp [h])

theorem pcieUp_trains {d : Dev} {speed w : Nat} (hc : d.clocked pllPciePhy = true) (hl : d.host.link = 7) (hs : speed ≠ 0)
    (hw : pcieWidth w = true) :
    d.pcieUp speed w = { d with host := { d.host with linkUp := true, speed := speed, width := w, link := 0 } } :=
  if_pos ⟨hc, hl, hs, hw⟩

theorem pciWrites_one (d : Dev) (c : CfgWrite) :
    d.pciWrites [c] = if d.pciAnswers then (d.hostWakes .bar0).pciWrite c else d := rfl

/-- A buffer that returns touches the buffers, a counter and one status register. -/
theorem returnBuf_other (d : Dev) (h : Nat) : (d.returnBuf h).host = d.host ∧ (d.returnBuf h).prog = d.prog ∧
    (d.returnBuf h).qm = d.qm ∧ ∀ k, k ≠ Reg.BPM_STATUS → (d.returnBuf h).reg k = d.reg k := by
  unfold Dev.returnBuf Dev.countRetired
  dsimp only
  split
  · refine ⟨?_, ?_, ?_, fun k hk => ?_⟩
    · rw [Dev.latchBit_host, Dev.inc_host]; rfl
    · rw [Dev.latchBit_prog, Dev.inc_prog]; rfl
    · rw [Dev.latchBit_qm, Dev.inc_qm]; rfl
    · rw [Dev.reg_latchBit_ne _ hk, reg_inc]; rfl
  · exact ⟨rfl, rfl, rfl, fun k _ => rfl⟩

/-- So does the revocation of one buffer. -/
theorem forceFree_other (d : Dev) (h : Nat) (x : BufEntry) : ((d.setBuf h x).forceFree h).host = d.host ∧
    ((d.setBuf h x).forceFree h).prog = d.prog ∧ ((d.setBuf h x).forceFree h).qm = d.qm ∧
    ∀ k, k ≠ Reg.BPM_STATUS → ((d.setBuf h x).forceFree h).reg k = d.reg k := returnBuf_other (d.setBuf h x) h

/-- What a revocation leaves: everything but buffers, counters, events and two status registers (R206). -/
theorem revokeTag_other (d : Dev) (tag : Nat) : (d.revokeTag tag).host = d.host ∧ (d.revokeTag tag).prog = d.prog ∧
    (d.revokeTag tag).qm = d.qm ∧ ∀ k, k ≠ Reg.BPM_STATUS → k ≠ Reg.MGMT_EVT_LOST → (d.revokeTag tag).reg k = d.reg k := by
  unfold Dev.revokeTag
  extract_lets hs d1 d2
  have h1 : d1.host = d.host := by rw [foldl_field (·.host)]; exact fun e h => (forceFree_other e h _).1
  have h2 : d1.prog = d.prog := by rw [foldl_field (·.prog)]; exact fun e h => (forceFree_other e h _).2.1
  have h3 : d1.qm = d.qm := by rw [foldl_field (·.qm)]; exact fun e h => (forceFree_other e h _).2.2.1
  have h4 : ∀ k, k ≠ Reg.BPM_STATUS → d1.reg k = d.reg k := fun k hk => by
    rw [foldl_field (·.reg k)]; exact fun e h => (forceFree_other e h _).2.2.2 k hk
  clear_value d1
  refine ⟨?_, ?_, ?_, fun k hk he => ?_⟩
  · rw [Dev.logBit_host, Dev.latchBit_host, Dev.bump_host, h1]
  · rw [Dev.logBit_prog, Dev.latchBit_prog, Dev.bump_prog, h2]
  · rw [Dev.logBit_qm, Dev.latchBit_qm, Dev.bump_qm, h3]
  · rw [reg_logBit (h := he), Dev.reg_latchBit_ne _ hk, reg_bump, h4 k hk]

/-- A register's word as the table of written registers holds it. -/
theorem regs_of_reg {d e : Dev} {k : Nat} (h : e.reg k = d.reg k) : Tbl.get 0#32 e.regs k = Tbl.get 0#32 d.regs k :=
  BitVec.xor_left_inj (regReset k) |>.mp h

/-- The endpoint after PERST_N, which takes the link down, and after FLR, which leaves it (R376). -/
def HostIf.afterReset (h : HostIf) (down : Bool) : HostIf :=
  if down then {} else { linkUp := h.linkUp, speed := h.speed, width := h.width, link := h.link, pci := h.afterFlr }

/-- The reset of the engine: its registers are at their reset values, the programs and the queues stay (R376). -/
theorem hostReset_resets (d : Dev) (l : Bool) :
    (d.hostReset l).host = d.host.afterReset l ∧
    (d.hostReset l).prog = d.prog ∧ (d.hostReset l).qm.queues = d.qm.queues ∧
    ∀ k, 0x900000 ≤ k → k < 0xA00000 → Tbl.get 0#32 (d.hostReset l).regs k = 0#32 := by
  unfold Dev.hostReset
  extract_lets h d1 regs
  have h1 : d1.prog = d.prog ∧ d1.qm.queues = d.qm.queues := by
    simp only [d1]
    split
    · exact ⟨by rw [endHold_frame], queues_endHold _ _⟩
    · exact ⟨rfl, rfl⟩
  refine ⟨rfl, h1.1, h1.2, fun k h0 h9 => ?_⟩
  exact (Tbl.get_filter_key 0#32 (fun k => decide (k < 0x900000) || decide (0xA00000 ≤ k)) d1.regs k).trans
    (if_neg (by simp; omega))

/-- PERST_N and FLR (R376). -/
theorem endpointReset_resets (d : Dev) (l : Bool) :
    (d.endpointReset l).host = d.host.afterReset l ∧
    (∀ k, 0x900000 ≤ k → k < 0xA00000 → Tbl.get 0#32 (d.endpointReset l).regs k = 0#32) ∧
    (d.endpointReset l).prog = d.prog ∧ (d.endpointReset l).qm.queues = d.qm.queues := by
  obtain ⟨h1, h2, h3, h4⟩ := hostReset_resets d l
  obtain ⟨r1, r2, r3, r4⟩ := revokeTag_other (d.hostReset l).discardInjections 10
  refine ⟨r1.trans h1, fun k h0 h9 => ?_, r2.trans h2, (congrArg Qm.queues r3).trans h3⟩
  exact (regs_of_reg (r4 k (by unfold Reg.BPM_STATUS; omega) (by unfold Reg.MGMT_EVT_LOST; omega))).trans (h4 k h0 h9)

/-! ## The front entry of a ring (R380, R385 to R388) -/

theorem onEntry_acts {d : Dev} {q : Nat} {ops : List Nat} {e : SqEnt} (f : Dev → SqEnt → Dev) (hr : d.sqRuns q = true)
    (hf : d.frontEnt q = some e) (ho : ops.contains e.op = true) : d.onEntry q ops f = f d e := by
  simp only [Dev.onEntry, hr, Bool.not_true, Bool.false_eq_true, if_false, hf, ho, if_true]

theorem badOp_ends {d : Dev} {q : Nat} {e : SqEnt} (hr : d.sqRuns q = true) (hf : d.frontEnt q = some e)
    (ho : opListed (d.sqKind q) e.op = false) : d.badOp q = d.endEnt q e 2 0 0 false := by
  simp only [Dev.badOp, hr, Bool.not_true, Bool.false_eq_true, if_false, hf, ho]

/-- An injection that carries its frame asks for its buffer. -/
theorem inject_inline {d : Dev} {q : Nat} {e : SqEnt} (hc : d.spr.cellar = false) (ho : e.injOk = true) (hi : e.injInline = true)
    (hf : d.framesOut q = false) : d.inject q e = d.injectFrame q e (Machine.slice e.bytes 32 e.injLen) := by
  simp only [Dev.inject, hc, ho, hi, hf, Bool.not_true, Bool.false_eq_true, if_false, if_true]

theorem inject_byAddress {d : Dev} {q : Nat} {e : SqEnt} (hc : d.spr.cellar = false) (ho : e.injOk = true) (hi : e.injInline = false)
    (hb : d.busMaster = true) : d.inject q e =
      (d.putEnt q { e with st := .frame }).dmaAsk (unle (Machine.slice e.bytes 8 8)) e.injLen := by
  simp only [Dev.inject, hc, ho, hi, hb, Bool.not_true, Bool.false_eq_true, if_false, if_true]

theorem injectRow_acts {d : Dev} {q op : Nat} {e : SqEnt} (hk : d.sqKind q = 0) (hr : d.sqRuns q = true) (hf : d.frontEnt q = some e)
    (ho : e.op = op) : d.injectRow q op = d.inject q e :=
  (if_neg (not_not_intro hk)).trans (onEntry_acts _ hr hf (by simp [ho]))

theorem frameRead_injects {d : Dev} {q : Nat} {e : SqEnt} (bs : Bytes) (h : ((d.sq q).ents.find? fun e => e.st = .frame) = some e)
    (hc : d.spr.cellar = false) : d.frameRead q (some bs) = d.injectFrame q e (padTo e.injLen (bs.take e.injLen)) := by
  simp only [Dev.frameRead, h, hc, Bool.false_eq_true, if_false]

theorem frameRead_fails {d : Dev} {q : Nat} {e : SqEnt} (h : ((d.sq q).ents.find? fun e => e.st = .frame) = some e) :
    d.frameRead q none = d.endEnt q e 5 0 0 false := by
  simp only [Dev.frameRead, h]

theorem postBuffer_lends {d : Dev} {q : Nat} {e : SqEnt} (hk : d.sqKind q = 1) (hr : d.sqRuns q = true) (hf : d.frontEnt q = some e)
    (ho : e.op = 3) (hp : e.postOk = true) : d.postBuffer q = d.putEnt q { e with st := .posted } :=
  (if_neg (not_not_intro hk)).trans ((onEntry_acts _ hr hf (by simp [ho])).trans (if_pos hp))

/-! ## Punts (R387) -/

theorem puntWrite_fills {d : Dev} {hq r : Nat} {rest : Bytes} {k : Pkt} (h : d.host.punt = some (hq, r, rest, k)) (hr : rest ≠ [])
    (hb : d.busMaster = true) : d.puntWrite = d.puntFill hq r rest k := by
  simp only [Dev.puntWrite, h, hr, hb, Bool.not_true, Bool.false_eq_true, or_self, if_false]

/-- No item starts while none of output 9 has crossed whole. -/
theorem puntWrite_idle {d : Dev} (h : d.host.punt = none) (hk : ∀ k ∈ (d.noms 9).head?, k.left ≠ 0) : d.puntWrite = d := by
  have hn : ((d.noms 9).head?.filter fun k => k.left = 0) = none := by
    cases hh : (d.noms 9).head? with
    | none => rfl
    | some k => simp [Option.filter, hk k (by simp [hh])]
  simp only [Dev.puntWrite, h, Dev.puntStart, hn]

theorem puntEnds_done {d : Dev} {hq r : Nat} {k : Pkt} (h : d.host.punt = some (hq, r, [], k)) : d.puntEnds = d.puntDone k := by
  simp only [Dev.puntEnds, h]

/-! ## Interrupts (R393, R395) -/

theorem busMaster_awake {d : Dev} (h : d.busMaster = true) : d.host.linkUp = true ∧ d.host.d3 = false := by
  simp only [Dev.busMaster, Bool.and_eq_true, Bool.not_eq_true'] at h
  exact ⟨h.1.1, h.2⟩

/-- The message of a vector that may be sent is sent. -/
theorem sendVec_sends {d : Dev} {v : Nat} (hb : d.busMaster = true) (hx : d.host.msix = true) (hf : d.host.fnMask = false)
    (hm : (d.vec v).masked = false) : (d.sendVec v).vec v = { d.vec v with unsig := 0, pba := false } ∧
      (d.sendVec v).out = .msix v (d.vec v).addr (d.vec v).data :: d.out ∧ (d.sendVec v).regs = d.regs := by
  have h : d.sendVec v = (((d.setVec v { d.vec v with unsig := 0, pba := false }).wakeLink).emit
      (.msix v (d.vec v).addr (d.vec v).data)).inc bankHost 14 := by
    unfold Dev.sendVec
    dsimp only
    rw [if_neg (by simp [(busMaster_awake hb).2]), if_neg (by simp [hm, hf, hx, hb])]
  rw [h, wakeLink_frame]
  refine ⟨?_, ?_, ?_⟩
  · rw [Dev.vec, Dev.inc_host]
    exact Dev.vec_setVec_same _ _ _
  · rw [Dev.inc_out]; rfl
  · rw [Dev.inc_regs]; rfl

/-- It is left pending while it is masked or MSI-X is off. -/
theorem sendVec_pends {d : Dev} {v : Nat} (h3 : d.host.d3 = false)
    (h : (d.vec v).masked = true ∨ d.host.fnMask = true ∨ d.host.msix = false) :
    d.sendVec v = d.setVec v { d.vec v with unsig := 0, pba := true } := by
  unfold Dev.sendVec
  dsimp only
  rw [if_neg (by simp [h3]), if_pos (by rcases h with h | h | h <;> simp [h])]

theorem vecWrite_pba (x : Vec) (dw : Nat) (w : Word) : (x.write dw w).pba = x.pba := by
  unfold Vec.write
  split <;> rfl

theorem vecWrite_quiet {d : Dev} {v : Nat} (dw : Nat) (w : Word) (h : (d.vec v).pba = false) :
    d.vecWrite v dw w = d.setVec v ((d.vec v).write dw w) := by
  unfold Dev.vecWrite
  dsimp only
  rw [Dev.vec_setVec_same, vecWrite_pba, if_neg (by simp [h])]

/-- An unmask of a vector that is pending sends it. -/
theorem vecWrite_unmask {d : Dev} {v : Nat} (w : Word) (hb : d.busMaster = true) (hx : d.host.msix = true) (hf : d.host.fnMask = false)
    (hp : (d.vec v).pba = true) (hw : bit w 0 = false) :
    (d.vecWrite v 3 w).vec v = { d.vec v with unsig := 0, pba := false, masked := false } ∧
      (d.vecWrite v 3 w).out = .msix v (d.vec v).addr (d.vec v).data :: d.out := by
  unfold Dev.vecWrite
  extract_lets d1
  have hv : d1.vec v = { d.vec v with masked := false } := by
    rw [Dev.vec_setVec_same, ← hw]
    rfl
  obtain ⟨h1, h2, -⟩ := sendVec_sends (d := d1) (v := v) hb hx hf (by rw [hv])
  rw [if_pos (by simp [hv, hp]), h1, h2, hv]
  exact ⟨rfl, rfl⟩

theorem hostWakes_vec (d : Dev) (p : Path) (v : Nat) : (d.hostWakes p).vec v = d.vec v := by rw [hostWakes_frame]; rfl

/-! ## Sleep (R395) -/

theorem d3_endEnt (d : Dev) (q : Nat) (e : SqEnt) (status len result : Nat) (more : Bool) :
    (d.endEnt q e status len result more).host.d3 = d.host.d3 := by
  unfold Dev.endEnt
  extract_lets u e1 d1 d2
  have h2 : d2.host.d3 = d.host.d3 := by
    simp only [d2]
    split
    · rw [Dev.inc_host]; rfl
    · rfl
  split
  · exact (congrArg HostIf.d3 (Dev.latchBit_host _ _ _)).trans h2
  · exact h2

theorem d3_d3Flush (d : Dev) (q : Nat) : (d.d3Flush q).host.d3 = d.host.d3 := by
  unfold Dev.d3Flush
  split
  · rfl
  · unfold Dev.flushEnts
    refine foldl_field (·.host.d3) _ (fun e x => ?_) _ _
    split
    · rfl
    · exact d3_endEnt _ _ _ _ _ _ _

/-- The function sleeps, and notes it. -/
theorem d3Enter_sleeps (d : Dev) : d.d3Enter.host.d3 = true ∧ bit (d.d3Enter.reg Reg.HOST_STATUS) 12 = true := by
  unfold Dev.d3Enter
  extract_lets d1 d2 qs
  have h2 : (qs.foldl (fun d q => d.d3Flush q) d2).host.d3 = true := foldl_field (·.host.d3) _ (fun e q => d3_d3Flush e q) qs d2
  generalize qs.foldl (fun d q => d.d3Flush q) d2 = e at h2
  exact ⟨h2, latchBit_sets _ _ _ (by decide)⟩

/-- With no CQ, no vector and no write that waits, nothing resumes. -/
theorem hostResumes_nothing {d : Dev} (hc : d.host.cqs = []) (hv : d.host.vecs = []) (hd : d.host.dmaHeld = []) : d.hostResumes = d := by
  have hh : ({ d with host := { d.host with dmaHeld := [] } } : Dev) = d := by rw [← hd]
  have hf : d.dmaFlush = d := by rw [Dev.dmaFlush, hd, hh]; exact ite_self d
  rw [Dev.hostResumes, hf, hc, Dev.deliverVecs]
  simp only [List.map_nil, List.foldl_nil, hv]

theorem d0Return_quiet {d : Dev} (hc : d.host.cqs = []) (hv : d.host.vecs = []) (hd : d.host.dmaHeld = []) :
    d.d0Return = Dev.hostWakes { d with host := { d.host with d3 := false } } .bar0 := by
  unfold Dev.d0Return
  refine hostResumes_nothing ?_ ?_ ?_ <;> rw [hostWakes_frame] <;> assumption

theorem keepBus_park (d : Dev) (b : Nat) (c : Instr) : d.keepBus (d.park b c) = d.park b c :=
  keepBus_of_unchanged rfl rfl rfl rfl rfl

/-- Settles O50: each row by what it makes of the endpoint and the ring engine. -/
theorem hostEngines : Obligations.HostEngines := by
  unfold Obligations.HostEngines
  refine ⟨fun s speed w hc hp hl hs hw => ?_, fun s speed w c hc hl => ⟨fun ha => ?_, fun ha => ?_⟩, fun s hr => ?_, fun s hr hl => ?_,
    fun s q e hc hr hf ho => ?_, fun s q e hc hr hf ho => ?_, fun s q e hc hk hr hf ho hce hok hi hfo => ?_,
    fun s q e hc hk hr hf ho hce hok hi hb => ?_, fun s q e bs hc h hce => ?_, fun s q e hc h => ?_, fun s q e hc hk hr hf ho hp => ?_,
    fun s q e hr hs hk hq hf ho => ?_, fun s q b hr hs => ?_, fun s hq r rest k hc h hr hb => ?_, fun s hc h hk => ?_,
    fun s hq r k hc h => ?_, fun s v hc hm hu hb hx hf hv hl => ?_, fun s v hc hm hu h3 h => ?_, fun s v dw w hc hl h => ?_,
    fun s v w hc hb hx hf hp hw => ?_, fun s v dw w hc hl => ?_, fun s hc hl h3 hp he => ?_, fun s hc h3 hcq hv hd => ?_⟩
  case refine_1 =>
    exact yields_of_actIn (fun d => (d.pcieUp speed w).pciWrites []) rfl hc (congrArg s.dev.keep (pcieUp_trains hp hl hs hw))
  case refine_2 =>
    refine yields_of_actIn (fun d => (d.pcieUp speed w).pciWrites [c]) rfl hc ?_
    rw [pcieUp_trained _ _ hl, pciWrites_one, if_pos ha]
  case refine_3 =>
    refine yields_of_actIn (fun d => (d.pcieUp speed w).pciWrites [c]) rfl hc ?_
    rw [pcieUp_trained _ _ hl, pciWrites_one, if_neg (by simp [ha])]
    rfl
  case refine_4 => exact ⟨_, yields_of_act (fun d => d.endpointReset true) rfl hr rfl, endpointReset_resets s.dev true⟩
  case refine_5 =>
    obtain ⟨h1, h2, -, -⟩ := endpointReset_resets s.dev false
    refine ⟨_, yields_of_act (fun d => if d.host.linkUp then d.endpointReset false else d) rfl hr (congrArg s.dev.keep (if_pos hl)), ?_, h2⟩
    refine (h1 : _).trans ?_
    rw [HostIf.afterReset, if_neg (by simp), hl]
  case refine_6 =>
    exact yields_of_actIn (fun d => d.onEntry q [0] fun d e => d.dropEnt q e) rfl hc
      (congrArg s.dev.keep (onEntry_acts _ hr hf (by simp [ho])))
  case refine_7 => exact yields_of_actIn (fun d => d.badOp q) rfl hc (congrArg s.dev.keep (badOp_ends hr hf ho))
  case refine_8 =>
    exact yields_of_actIn (fun d => d.injectRow q 1) rfl hc
      (congrArg s.dev.keep ((injectRow_acts hk hr hf ho).trans (inject_inline hce hok hi hfo)))
  case refine_9 =>
    exact yields_of_actIn (fun d => d.injectRow q 2) rfl hc
      (congrArg s.dev.keep ((injectRow_acts hk hr hf ho).trans (inject_byAddress hce hok hi hb)))
  case refine_10 =>
    exact yields_of_actIn (fun d => d.frameRead q (some bs)) rfl hc (congrArg s.dev.keep (frameRead_injects bs h hce))
  case refine_11 => exact yields_of_actIn (fun d => d.frameRead q none) rfl hc (congrArg s.dev.keep (frameRead_fails h))
  case refine_12 => exact yields_of_actIn (fun d => d.postBuffer q) rfl hc (congrArg s.dev.keep (postBuffer_lends hk hr hf ho hp))
  case refine_13 =>
    refine yields_of_actBus (fun d => d.across (d.batchClocks q) (.regBatch q) fun d =>
      if d.sqKind q = 2 then d.onEntry q [0x11] fun d e => d.regBatch q e else d) rfl hr (congrArg s.dev.keepBus ?_)
    rw [across_flows _ _ hs, if_pos hk, onEntry_acts _ hq hf (by simp [ho])]
  case refine_14 =>
    refine yields_of_actBus (fun d => d.across (d.batchClocks q) (.regBatch q) fun d =>
      if d.sqKind q = 2 then d.onEntry q [0x11] fun d e => d.regBatch q e else d) rfl hr ?_
    rw [across_waits _ _ hs, keepBus_park]
  case refine_15 => exact yields_of_actIn Dev.puntWrite rfl hc (congrArg s.dev.keep (puntWrite_fills h hr hb))
  case refine_16 => exact yields_of_actIn Dev.puntWrite rfl hc (congrArg s.dev.keep (puntWrite_idle h hk))
  case refine_17 => exact yields_of_actIn Dev.puntEnds rfl hc (congrArg s.dev.keep (puntEnds_done h))
  case refine_18 =>
    obtain ⟨h1, h2, h3⟩ := sendVec_sends hb hx hf hv
    exact ⟨_, yields_of_actIn (fun d => d.vecTimer v) rfl hc (congrArg s.dev.keep (if_pos ⟨hm, hu⟩)), h1, h2, h3⟩
  case refine_19 =>
    exact yields_of_actIn (fun d => d.vecTimer v) rfl hc (congrArg s.dev.keep ((if_pos ⟨hm, hu⟩).trans (sendVec_pends h3 h)))
  case refine_20 =>
    refine yields_of_actIn (fun d => if d.host.linkUp then (d.hostWakes .bar0).vecWrite v dw w else d) rfl hc ?_
    rw [if_pos hl, vecWrite_quiet _ _ (by rw [hostWakes_vec, h]), hostWakes_vec, hostWakes_frame]
    rfl
  case refine_21 =>
    obtain ⟨h1, h2⟩ := vecWrite_unmask (d := s.dev.hostWakes .bar0) (v := v) w (by rw [hostWakes_frame]; exact hb)
      (by rw [hostWakes_frame]; exact hx) (by rw [hostWakes_frame]; exact hf) (by rw [hostWakes_vec, hp]) hw
    rw [hostWakes_vec] at h1 h2
    refine ⟨_, yields_of_actIn (fun d => if d.host.linkUp then (d.hostWakes .bar0).vecWrite v 3 w else d) rfl hc
      (congrArg s.dev.keep (if_pos (busMaster_awake hb).1)), h1, ?_⟩
    exact h2 ▸ List.mem_cons_self
  case refine_22 =>
    refine yields_of_actIn (fun d => if d.host.linkUp then (d.hostWakes .bar0).vecWrite v dw w else d) rfl hc ?_
    rw [if_neg (by simp [hl])]
    rfl
  case refine_23 =>
    exact ⟨_, yields_of_actIn (fun d => if d.host.linkUp ∧ !d.host.d3 then d.d3Enter else d) rfl hc
      (congrArg s.dev.keep (if_pos ⟨hl, by simp [h3]⟩)), d3Enter_sleeps s.dev⟩
  case refine_24 =>
    refine yields_of_actIn (fun d => if d.host.d3 then d.d0Return else d) rfl hc ?_
    rw [if_pos h3, d0Return_quiet hcq hv hd, hostWakes_frame]
    rfl

end Sys2Proof.Machine
end

section
/-! Hangs, racking, claims, draining, tasting and forced moves (R403 to R430). -/
namespace Sys2Proof.Machine

/-! ## What the end of a packet leaves of the sequencer and the slices (R422) -/

/-- The sequencer, what each slice is, SPR_STATUS and device time. -/
def Dev.sprSide (d : Dev) : Spr × (Nat → SState × Option Nat × Nat) × Word × TimeBase :=
  (d.spr, fun n => ((d.slice n).st, (d.slice n).pg, (d.slice n).cause), d.reg Reg.SPR_STATUS, d.time)

theorem sprSide_setReg (d : Dev) {k : Nat} (v : Word) (h : k ≠ Reg.SPR_STATUS) : (d.setReg k v).sprSide = d.sprSide := by
  rw [Dev.sprSide, Dev.reg_setReg_ne _ _ h.symm]
  rfl

theorem sprSide_latchBit (d : Dev) {k : Nat} (b : Nat) (h : k ≠ Reg.SPR_STATUS) : (d.latchBit k b).sprSide = d.sprSide := sprSide_setReg _ _ h

@[simp] theorem sprSide_bump (d : Dev) (b i n : Nat) : (d.bump b i n).sprSide = d.sprSide := by rw [bump_eq]; rfl
@[simp] theorem sprSide_inc (d : Dev) (b i : Nat) : (d.inc b i).sprSide = d.sprSide := sprSide_bump d b i 1

@[simp] theorem sprSide_log (d : Dev) (src code : Nat) (x : Bytes) : (d.log src code x).sprSide = d.sprSide := by
  unfold Dev.log
  split
  · rfl
  · rw [sprSide_inc, sprSide_setReg _ _ (by decide)]

@[simp] theorem sprSide_bpmFault (d : Dev) (kind party found h : Nat) : (d.bpmFault kind party found h).sprSide = d.sprSide := by
  rw [Dev.bpmFault, sprSide_setReg _ _ (by decide), sprSide_setReg _ _ (by decide)]

theorem sprSide_logRefusal (d : Dev) (kind party : Nat) {mk : Dev → Bytes → Dev} (h : ∀ e n, (mk e n).sprSide = e.sprSide) :
    (d.logRefusal kind party mk).sprSide = d.sprSide := by
  unfold Dev.logRefusal
  dsimp only
  split
  · split
    · rfl
    · exact h _ _
  · exact h _ _

theorem sprSide_revokedOp (d : Dev) (op party h : Nat) : (d.revokedOp op party h).sprSide = d.sprSide :=
  (sprSide_logRefusal _ _ _ fun e n => sprSide_log e _ _ _).trans (by rw [sprSide_bpmFault, sprSide_inc])
theorem sprSide_retiredOp (d : Dev) (op party h : Nat) : (d.retiredOp op party h).sprSide = d.sprSide :=
  (sprSide_logRefusal _ _ _ fun e n => sprSide_log e _ _ _).trans (by rw [sprSide_bpmFault, sprSide_inc])
theorem sprSide_doubleFree (d : Dev) (party h : Nat) : (d.doubleFree party h).sprSide = d.sprSide :=
  (sprSide_logRefusal _ _ _ fun e n => sprSide_log e _ _ _).trans
    (by rw [sprSide_bpmFault, sprSide_latchBit _ _ (by decide), sprSide_inc])
theorem sprSide_foreignOp (d : Dev) (kind party h : Nat) : (d.foreignOp kind party h).sprSide = d.sprSide :=
  (sprSide_logRefusal _ _ _ fun e n => sprSide_log e _ _ _).trans
    (by rw [sprSide_bpmFault, sprSide_latchBit _ _ (by decide), sprSide_inc])

theorem sprSide_returnBuf (d : Dev) (h : Nat) : (d.returnBuf h).sprSide = d.sprSide := by
  unfold Dev.returnBuf Dev.countRetired
  dsimp only
  split
  · rw [sprSide_latchBit _ _ (by decide), sprSide_inc]; rfl
  · rfl

theorem sprSide_bufFree (d : Dev) (party h : Nat) : (d.bufFree party h).sprSide = d.sprSide := by
  have hset (x : BufEntry) : (d.setBuf h x).sprSide = d.sprSide := rfl
  simp only [Dev.bufFree, apply_ite Dev.sprSide, sprSide_revokedOp, sprSide_retiredOp, sprSide_doubleFree, sprSide_foreignOp,
    hset, sprSide_returnBuf, ite_self]

@[simp] theorem sprSide_freeOpt (d : Dev) (party : Nat) (h : Option Nat) : (d.freeOpt party h).sprSide = d.sprSide := by
  cases h with
  | none => rfl
  | some h => exact sprSide_bufFree d party h

@[simp] theorem sprSide_endHold (d : Dev) (uid : Nat) : (d.endHold uid).sprSide = d.sprSide := by rw [endHold_frame]; rfl

@[simp] theorem sprSide_endShare (d : Dev) (k : Pkt) : (d.endShare k).sprSide = d.sprSide := by
  unfold Dev.endShare
  split <;> rfl

@[simp] theorem sprSide_copyFail (d : Dev) (k : Pkt) : (d.copyFail k).sprSide = d.sprSide := by
  unfold Dev.copyFail
  split
  · exact sprSide_inc _ _ _
  · split
    · split
      · exact sprSide_inc _ _ _
      · rfl
    · rfl

@[simp] theorem sprSide_dropPkt (d : Dev) (k : Pkt) : (d.dropPkt k).sprSide = d.sprSide := by simp [Dev.dropPkt, Dev.release]

@[simp] theorem sprSide_cellarDrop (d : Dev) (ks : List Pkt) : (d.cellarDrop ks).sprSide = d.sprSide :=
  foldl_field Dev.sprSide _ (fun d k => by simp) ks d

theorem sprSide_emptyNodes (d : Dev) (q : Nat) : (d.emptyNodes q).sprSide = d.sprSide := by
  have hz (e : Dev) (n : Nat) : (e.zeroDeficit n).sprSide = e.sprSide := rfl
  unfold Dev.emptyNodes
  split
  · rfl
  · split
    · rfl
    · simp only [apply_ite Dev.sprSide, hz, ite_self]

theorem sprSide_cellarFlushQueue (d : Dev) (q : Nat) : (d.cellarFlushQueue q).sprSide = d.sprSide := by
  unfold Dev.cellarFlushQueue
  dsimp only
  rw [sprSide_cellarDrop, sprSide_emptyNodes]
  rfl

/-- The device with other fences. -/
def Dev.withFences (d : Dev) (fs : List (Nat × Nat)) : Dev := { d with spr := { d.spr with fences := fs } }

theorem fences_foldl {α : Type} (f : Dev → α → Dev) (hf : ∀ d a, ∃ fs, f d a = d.withFences fs) (l : List α) (d : Dev) :
    ∃ fs, l.foldl f d = d.withFences fs := by
  induction l generalizing d with
  | nil => exact ⟨d.spr.fences, rfl⟩
  | cons a l ih =>
    obtain ⟨fs, h⟩ := hf d a
    obtain ⟨gs, h'⟩ := ih (f d a)
    exact ⟨gs, h'.trans (by rw [h]; rfl)⟩

theorem fence_withFences (d : Dev) (n g : Nat) : ∃ fs, d.fence n g = d.withFences fs := by
  unfold Dev.fence
  split
  · exact ⟨d.spr.fences, rfl⟩
  · exact ⟨_, rfl⟩

/-- A slice that loses its packets is what it was. -/
theorem sprSide_setSlice (d : Dev) (n : Nat) {x : Slice} (h1 : x.st = (d.slice n).st) (h2 : x.pg = (d.slice n).pg)
    (h3 : x.cause = (d.slice n).cause) : (d.setSlice n x).sprSide = d.sprSide := by
  have hs : (fun m => (((d.setSlice n x).slice m).st, ((d.setSlice n x).slice m).pg, ((d.setSlice n x).slice m).cause)) =
      fun m => ((d.slice m).st, (d.slice m).pg, (d.slice m).cause) := by
    funext m
    by_cases hm : m = n
    · subst hm; rw [Dev.slice_setSlice_same, h1, h2, h3]
    · rw [Dev.slice_setSlice_ne _ _ hm]
  rw [Dev.sprSide, hs]
  rfl

/-- The steps of R422 leave what the sequencer holds but for its fences, and what each slice is. -/
theorem sprSide_cellarSteps (d : Dev) : ∃ fs, d.cellarSteps.sprSide = (d.withFences fs).sprSide := by
  unfold Dev.cellarSteps
  extract_lets d1 d2 _ evs d3 _ d4
  obtain ⟨fs, h1⟩ : ∃ fs, d1 = d.withFences fs :=
    fences_foldl _ (fun e n => fences_foldl _ (fun e g => fence_withFences e n g) _ e) _ d
  have h2 : d2.sprSide = d1.sprSide := foldl_field Dev.sprSide _ (fun e n => by
    rw [foldl_field Dev.sprSide _ fun _ _ => sprSide_endHold _ _]
    exact sprSide_setSlice e n rfl rfl rfl) _ d1
  clear_value d1 d2
  have hevs : evs.sprSide = d2.sprSide := rfl
  have h3 : d3.sprSide = evs.sprSide := foldl_field Dev.sprSide _ (fun e q => sprSide_cellarFlushQueue e q) _ evs
  clear_value d3
  have h4 : d4.sprSide = d3.sprSide := (sprSide_cellarDrop _ _).trans rfl
  clear_value d4
  have h5 (e : Dev) (o : Nat) : (({ e with qm := { e.qm with noms := Tbl.set [] e.qm.noms o ((e.noms o).filter fun k => !k.reading) } }
      : Dev).cellarDrop ((e.noms o).filter fun k => k.reading)).sprSide = e.sprSide := (sprSide_cellarDrop _ _).trans rfl
  refine ⟨fs, ?_⟩
  calc _ = d4.sprSide := foldl_field Dev.sprSide _ h5 _ d4
    _ = (d.withFences fs).sprSide := by rw [h4, h3, hevs, h2, h1]

/-- Entry to cellar mode: its cause, no takeover any more, and the slices as they were (R421, R422). -/
theorem enterCellar_enters {d : Dev} (c : Nat) (h : d.spr.cellar = false) : (d.enterCellar c).spr.cellar = true ∧
    (d.enterCellar c).spr.cellarCause = c ∧ (d.enterCellar c).spr.rack = none ∧
    (∀ n, ((d.enterCellar c).slice n).st = (d.slice n).st ∧ ((d.enterCellar c).slice n).cause = (d.slice n).cause) ∧
    bit ((d.enterCellar c).reg Reg.SPR_STATUS) 12 = true ∧
    ∀ b, b < 24 → b ≠ 12 → bit ((d.enterCellar c).reg Reg.SPR_STATUS) b = bit (d.reg Reg.SPR_STATUS) b := by
  unfold Dev.enterCellar
  rw [if_neg (by simp [h])]
  extract_lets _ d1
  obtain ⟨fs, hs⟩ := sprSide_cellarSteps d1
  generalize d1.cellarSteps = e at hs
  have hspr : e.spr = { d1.spr with fences := fs } := congrArg (·.1) hs
  have hsl (n : Nat) : ((e.slice n).st, (e.slice n).pg, (e.slice n).cause) = ((d.slice n).st, (d.slice n).pg, (d.slice n).cause) :=
    congrFun (congrArg (·.2.1) hs) n
  have hreg : e.reg Reg.SPR_STATUS = d.reg Reg.SPR_STATUS := congrArg (·.2.2.1) hs
  have hb (x : Bytes) (b : Nat) : bit ((((e.inc bankSpr 18).latchBit Reg.SPR_STATUS 12).logBit 0xC0 0 12 0 x).reg Reg.SPR_STATUS) b =
      bit (((e.inc bankSpr 18).latchBit Reg.SPR_STATUS 12).reg Reg.SPR_STATUS) b := by rw [reg_logBit (h := by decide)]
  have hsp (x : Bytes) : (((e.inc bankSpr 18).latchBit Reg.SPR_STATUS 12).logBit 0xC0 0 12 0 x).spr = { d1.spr with fences := fs } := by
    rw [Dev.logBit_spr, Dev.latchBit_spr, Dev.inc_spr, hspr]
  have hss (x : Bytes) (n : Nat) : (((e.inc bankSpr 18).latchBit Reg.SPR_STATUS 12).logBit 0xC0 0 12 0 x).slice n = e.slice n := by
    rw [Dev.slice, Dev.logBit_slices, Dev.latchBit_slices, Dev.inc_slices]; rfl
  rw [hsp]
  refine ⟨rfl, rfl, rfl, fun n => ?_, ?_, fun b h1 h2 => ?_⟩
  · rw [hss]
    exact ⟨congrArg (·.1) (hsl n), congrArg (·.2.2) (hsl n)⟩
  · rw [hb]
    exact latchBit_sets _ _ _ (by decide)
  · rw [hb, latchBit_low _ _ _ _ h1 h2, reg_inc, hreg]

/-! ## A hung slice (R407 to R410) -/

theorem sprSide_sliceLoses (d : Dev) (n : Nat) : (d.sliceLoses n).sprSide = d.sprSide := by
  unfold Dev.sliceLoses
  extract_lets x sent d1 d2 d3
  have h1 : d1.sprSide = d.sprSide := sprSide_setSlice d n rfl rfl rfl
  have h2 : d2.sprSide = d1.sprSide := foldl_field Dev.sprSide _ (fun e k => by rw [sprSide_endHold, sprSide_endShare]) _ d1
  have h3 : d3.sprSide = d2.sprSide := foldl_field Dev.sprSide _ (fun e k => by split <;> simp) _ d2
  rw [sprSide_bump, h3, h2, h1]

/-- A declaration counts, shows `failed`, and is logged (R408). -/
theorem declared_shows (d : Dev) (n c : Nat) (g : Option Nat) : (d.declared n c g).slices = d.slices ∧ (d.declared n c g).spr = d.spr ∧
    (d.declared n c g).bpm = d.bpm ∧ (d.declared n c g).time = d.time ∧ bit ((d.declared n c g).reg Reg.SPR_STATUS) 9 = true := by
  unfold Dev.declared
  extract_lets d1
  have h1 : d1 = { d with cnt := d1.cnt } := by
    unfold d1
    split
    · exact bump_eq _ _ _ _
    · rfl
  clear_value d1
  refine ⟨?_, ?_, ?_, ?_, ?_⟩
  · rw [Dev.logBit_slices, Dev.latchBit_slices, h1]
  · rw [Dev.logBit_spr, Dev.latchBit_spr, h1]
  · rw [Dev.logBit_bpm, Dev.latchBit_bpm, h1]
  · rw [Dev.logBit_time, Dev.latchBit_time, h1]
  · rw [reg_logBit (h := by decide)]
    exact latchBit_sets _ _ _ (by decide)

/-- The slice in SPARE is found by the states of the slices. -/
theorem spareSlice_congr {d e : Dev} (h : ∀ n, (e.slice n).st = .spare ↔ (d.slice n).st = .spare) : e.spareSlice = d.spareSlice := by
  simp only [Dev.spareSlice, h]

theorem fitSpare_eq {d : Dev} {k : Nat} (h : d.fitSpare = some k) :
    d.spr.fit = true ∧ d.spr.rack = none ∧ d.spareSlice = some k := by
  unfold Dev.fitSpare at h
  split at h
  · rename_i hc
    exact ⟨hc.1, Option.isNone_iff_eq_none.mp hc.2, h⟩
  · cases h

theorem fitSpare_of {d : Dev} {k : Nat} (h1 : d.spr.fit = true) (h2 : d.spr.rack = none) (h3 : d.spareSlice = some k) :
    d.fitSpare = some k := by
  rw [Dev.fitSpare, if_pos ⟨h1, by rw [h2]; rfl⟩, h3]

theorem fenced_fence (d : Dev) (n g : Nat) : (d.fence n g).fenced n g = true := by
  unfold Dev.fence
  split
  · assumption
  · simp [Dev.fenced]

theorem fence_other (d : Dev) (n g : Nat) : (d.fence n g).spr.fit = d.spr.fit ∧ (d.fence n g).spr.rack = d.spr.rack ∧
    (d.fence n g).slices = d.slices ∧ (d.fence n g).time = d.time := by
  unfold Dev.fence
  split <;> exact ⟨rfl, rfl, rfl, rfl⟩

theorem slice_of_slices {d e : Dev} (h : e.slices = d.slices) (n : Nat) : e.slice n = d.slice n := by rw [Dev.slice, h]; rfl

/-- The failure of an ACTIVE slice, before its takeover (R404, R408): fenced, its work lost, its tag draining. -/
def Dev.fails (d : Dev) (n c g : Nat) : Dev :=
  ((((d.fence n g).sliceLoses n).setTag n .draining).modSlice n fun s => { s with st := .failed, cause := c, pg := none }).declared n c (some g)

theorem fails_shows (d : Dev) (n c g : Nat) : ((d.fails n c g).slice n).st = .failed ∧ ((d.fails n c g).slice n).cause = c ∧
    ((d.fails n c g).slice n).pg = none ∧ (∀ m, m ≠ n → ((d.fails n c g).slice m).st = (d.slice m).st) ∧
    (d.fails n c g).fenced n g = true ∧ (d.fails n c g).tagState n = .draining ∧ (d.fails n c g).spr.fit = d.spr.fit ∧
    (d.fails n c g).spr.rack = d.spr.rack ∧ (d.fails n c g).time = d.time ∧ bit ((d.fails n c g).reg Reg.SPR_STATUS) 9 = true := by
  unfold Dev.fails
  obtain ⟨f1, f2, f3, f4⟩ := fence_other d n g
  have hf := fenced_fence d n g
  have hs := sprSide_sliceLoses (d.fence n g) n
  generalize d.fence n g = e at f1 f2 f3 f4 hf hs
  generalize e.sliceLoses n = x at hs
  have hspr : x.spr = e.spr := congrArg (·.1) hs
  have hsl (m : Nat) : (x.slice m).st = (e.slice m).st := congrArg (·.1) (congrFun (congrArg (·.2.1) hs) m)
  have htm : x.time = e.time := congrArg (·.2.2.2) hs
  obtain ⟨g1, g2, g3, g4, g5⟩ := declared_shows ((x.setTag n .draining).modSlice n fun s => { s with st := .failed, cause := c, pg := none })
    n c (some g)
  have hy := slice_of_slices g1 n
  rw [Dev.slice_modSlice_same] at hy
  refine ⟨by rw [hy], by rw [hy], by rw [hy], fun m hm => ?_, ?_, ?_, ?_, ?_, ?_, g5⟩
  · rw [slice_of_slices g1 m, Dev.slice_modSlice_ne _ _ hm]
    exact (hsl m).trans (by rw [slice_of_slices f3])
  · rw [Dev.fenced, g2]
    exact (congrArg (fun y : Spr => y.fences.contains (n, g)) hspr).trans hf
  · rw [Dev.tagState, g3]
    exact Tbl.get_set_same TagState.live x.bpm.tags n .draining
  · rw [g2]
    exact (congrArg Spr.fit hspr).trans f1
  · rw [g2]
    exact (congrArg Spr.rack hspr).trans f2
  · rw [g4]
    exact htm.trans f4

/-- The fit spare is chosen for the port group of the failed slice (R409, R410). -/
theorem declare_active {d : Dev} {n c g k : Nat} (hc : d.spr.cellar = false) (hv : d.vint.started = true) (ha : (d.slice n).st = .active)
    (hg : (d.slice n).pg = some g) (hk : d.fitSpare = some k) : d.declare n c =
      (d.fails n c g).setRack (some { spare := k, pg := g, old := n, move := false, begun := false, since := d.time.tsc }) := by
  obtain ⟨k1, k2, k3⟩ := fitSpare_eq hk
  obtain ⟨s1, -, -, s2, -, -, s3, s4, s5, -⟩ := fails_shows d n c g
  have hsp : (d.fails n c g).spareSlice = d.spareSlice := spareSlice_congr fun m => by
    by_cases hm : m = n
    · subst hm; simp [s1, ha]
    · rw [s2 m hm]
  have hf : (d.fails n c g).fitSpare = some k := fitSpare_of (s3.trans k1) (s4.trans k2) (hsp.trans k3)
  have hd : d.declare n c = (d.fails n c g).takeover n g := by
    simp only [Dev.declare, hc, hv, Bool.not_true, Bool.false_eq_true, or_self, if_false, ha, hg]
    rfl
  rw [hd, Dev.takeover, hf, s5]

theorem hung_active {d : Dev} {n : Nat} (h : d.hung n = true) : (d.slice n).st = .active := by
  simp only [Dev.hung, Bool.and_eq_true, decide_eq_true_eq] at h
  exact h.1.1.2

/-! ## Racking (R410 to R416) -/

/-- A stack of reads moves no byte and touches no register. -/
theorem countReads_frame (d : Dev) (r a n : Nat) :
    d.countReads r a n = { d with mc := (d.countReads r a n).mc, cnt := (d.countReads r a n).cnt } :=
  foldl_counts _ (fun d m => by
    split
    · exact sendRead_frame _ _ _ _
    · rfl) _ d

theorem fillSlice_frame (d : Dev) (n : Nat) : d.fillSlice n =
    { d with smem := (d.fillSlice n).smem, mc := (d.fillSlice n).mc, cnt := (d.fillSlice n).cnt } := by
  unfold Dev.fillSlice
  rw [foldl_counts _ fun d x => countReads_frame d _ _ _]

theorem openWindow_other (d : Dev) (o n : Nat) : (d.openWindow o n).slices = d.slices ∧ (d.openWindow o n).spr = d.spr ∧
    (d.openWindow o n).regs = d.regs := by
  unfold Dev.openWindow
  split <;> exact ⟨rfl, rfl, rfl⟩

theorem activate_fillSlice (d : Dev) (n g : Nat) : ((d.modSlice n fun s => s.activate g).fillSlice n).slice n = (d.slice n).activate g :=
  (slice_of_slices (by rw [fillSlice_frame]) n).trans (Dev.slice_modSlice_same d n fun s => s.activate g)

/-- A claim that is written: the spare holds the port group, unfenced (R404, R412, R414). -/
theorem claimWritten_claims (d : Dev) (r : Rack) : ((d.claimWritten r).slice r.spare).st = .active ∧
    ((d.claimWritten r).slice r.spare).pg = some r.pg ∧ (d.claimWritten r).fenced r.spare r.pg = false ∧
    (d.claimWritten r).spr = { d.spr.claimBy r with fences := d.spr.fences.filter (· != (r.spare, r.pg)) } ∧
    bit ((d.claimWritten r).reg Reg.SPR_STATUS) 10 = true := by
  unfold Dev.claimWritten
  extract_lets d1 d2
  have hs : (d2.slice r.spare).st = .active ∧ (d2.slice r.spare).pg = some r.pg := by
    have h : d2.slice r.spare = ((d1.unfence r.spare r.pg).slice r.spare).activate r.pg := activate_fillSlice _ _ _
    rw [h]
    exact ⟨rfl, rfl⟩
  have hp : d2.spr = { d.spr.claimBy r with fences := d.spr.fences.filter (· != (r.spare, r.pg)) } :=
    (Dev.latchBit_spr _ _ _).trans (by rw [fillSlice_frame]; rfl)
  have hb : bit (d2.reg Reg.SPR_STATUS) 10 = true := latchBit_sets _ _ _ (by decide)
  have hw (e : Dev) (h1 : e.slices = d2.slices) (h2 : e.spr = d2.spr) (h3 : bit (e.reg Reg.SPR_STATUS) 10 = true) :
      (e.slice r.spare).st = .active ∧ (e.slice r.spare).pg = some r.pg ∧ e.fenced r.spare r.pg = false ∧
      e.spr = { d.spr.claimBy r with fences := d.spr.fences.filter (· != (r.spare, r.pg)) } ∧
      bit (e.reg Reg.SPR_STATUS) 10 = true := by
    rw [slice_of_slices h1, Dev.fenced, h2, hp]
    exact ⟨hs.1, hs.2, by simp, rfl, h3⟩
  clear_value d2
  split
  · exact hw _ (Dev.inc_slices _ _ _) (Dev.inc_spr _ _ _) (by rw [reg_inc, hb])
  · obtain ⟨o1, o2, o3⟩ := openWindow_other ((d2.inc bankSpr 0).latchBit Reg.SPR_STATUS 11) r.old r.spare
    refine hw _ (o1.trans (Dev.inc_slices d2 _ _)) (o2.trans (Dev.inc_spr d2 _ _)) ?_
    rw [reg_congr o3, latchBit_low _ _ _ _ (by decide) (by decide), reg_inc, hb]

/-- Racking that fails (R414): the spare is unfit, and cellar mode follows. -/
theorem rackFail_shows {d : Dev} (r : Rack) (h : d.spr.cellar = false) : (d.rackFail r).spr.rack = none ∧
    (d.rackFail r).spr.cellar = true ∧ (d.rackFail r).spr.cellarCause = 2 ∧ ((d.rackFail r).slice r.spare).st = .unfit ∧
    ((d.rackFail r).slice r.spare).cause = 5 ∧ bit ((d.rackFail r).reg Reg.SPR_STATUS) 13 = true := by
  unfold Dev.rackFail
  have hc : ((((d.setRack none).modSlice r.spare fun s => { s with st := .unfit, cause := 5, pg := none }).inc bankSpr 7).latchBit
      Reg.SPR_STATUS 13).spr.cellar = false := by
    rw [Dev.latchBit_spr, Dev.inc_spr]
    exact h
  obtain ⟨e1, e2, e3, e4, -, e6⟩ := enterCellar_enters 2 hc
  have hs : ((((d.setRack none).modSlice r.spare fun s => { s with st := .unfit, cause := 5, pg := none }).inc bankSpr 7).latchBit
      Reg.SPR_STATUS 13).slice r.spare = { (d.setRack none).slice r.spare with st := .unfit, cause := 5, pg := none } :=
    (slice_of_slices (Dev.inc_slices ((d.setRack none).modSlice r.spare _) _ _) _).trans (Dev.slice_modSlice_same _ _ _)
  obtain ⟨e4a, e4b⟩ := e4 r.spare
  rw [hs] at e4a e4b
  exact ⟨e3, e1, e2, e4a, e4b, (e6 13 (by decide) (by decide)).trans (latchBit_sets _ _ _ (by decide))⟩

/-! ## Tasting (R417 to R419) -/

theorem tasteEnds_fails {d : Dev} {n : Nat} {c : Nat × Nat × Nat × Nat} (hn : d.spareSlice = some n) (ht : d.spr.tasting = true)
    (hr : d.spr.rack = none) (hc : c.1 ≠ 1) : d.tasteEnds c = d.tasteFails n c := by
  simp only [Dev.tasteEnds, hn, ht, hr, Bool.not_true, Bool.false_eq_true, Option.isSome_none, or_self, if_false, if_neg hc]

theorem tasteEnds_passes {d : Dev} {n : Nat} {c : Nat × Nat × Nat × Nat} (hn : d.spareSlice = some n) (ht : d.spr.tasting = true)
    (hr : d.spr.rack = none) (hc : c.1 = 1) : d.tasteEnds c = Dev.inc { d with spr := { d.spr with
      tasting := false, last := 1, rounds := satN 20 (d.spr.rounds + 1) } } bankSpr 5 := by
  simp only [Dev.tasteEnds, hn, ht, hr, Bool.not_true, Bool.false_eq_true, Option.isSome_none, or_self, if_false, if_pos hc]

/-- A round of a spare that a takeover has chosen is not counted. -/
theorem tasteEnds_chosen {d : Dev} (c : Nat × Nat × Nat × Nat) (h : d.spr.rack.isSome = true) : d.tasteEnds c = d := by
  unfold Dev.tasteEnds
  split
  · rfl
  · exact if_pos (Or.inr h)

theorem tasteCode_fails {r : Taste} (h : r ≠ .pass) : (tasteCode r).1 ≠ 1 := by
  cases r with
  | pass => exact absurd rfl h
  | bist m => simp [tasteCode]
  | mismatch p b => simp [tasteCode]
  | miscompare p => simp [tasteCode]

/-- A spare that is unfit (R419). -/
theorem spareUnfit_shows (d : Dev) (n c : Nat) : ((d.spareUnfit n c).slice n).st = .unfit ∧
    (d.spareUnfit n c).spr = { d.spr with fit := false, tasting := false } ∧ bit ((d.spareUnfit n c).reg Reg.SPR_STATUS) 11 = true ∧
    (∀ b, b < 24 → b ≠ 11 → bit ((d.spareUnfit n c).reg Reg.SPR_STATUS) b = bit (d.reg Reg.SPR_STATUS) b) ∧
    ∀ k, k ≠ Reg.SPR_STATUS → (d.spareUnfit n c).reg k = d.reg k := by
  unfold Dev.spareUnfit
  refine ⟨?_, rfl, latchBit_sets _ _ _ (by decide), fun b h1 h2 => latchBit_low _ _ _ _ h1 h2, fun k hk => Dev.reg_latchBit_ne _ hk⟩
  exact congrArg Slice.st (Dev.slice_modSlice_same ({ d with spr := { d.spr with fit := false, tasting := false } } : Dev) n fun s =>
    { s with st := .unfit, cause := c, pg := none })

/-- What a failed round shows before the spare is unfit: its counters, SPR_TASTE_FAIL and the status bit. -/
def Dev.roundFailed (d : Dev) (c : Nat × Nat × Nat × Nat) : Dev :=
  (((Dev.inc { d with spr := { d.spr with last := c.1 } } bankSpr 5).inc bankSpr 6).setReg Reg.SPR_TASTE_FAIL
    (wd (c.1 * 2 ^ 28 + c.2.1 * 2 ^ 22 + c.2.2.1 * 2 ^ 16 + c.2.2.2))).latchBit Reg.SPR_STATUS 8

/-- A round that fails leaves no spare (R419). -/
theorem tasteFails_shows (d : Dev) (n : Nat) (c : Nat × Nat × Nat × Nat) : ((d.tasteFails n c).slice n).st = .unfit ∧
    (d.tasteFails n c).spr.fit = false ∧ (d.tasteFails n c).spr.tasting = false ∧ (d.tasteFails n c).spr.last = c.1 ∧
    bit ((d.tasteFails n c).reg Reg.SPR_STATUS) 8 = true ∧ bit ((d.tasteFails n c).reg Reg.SPR_STATUS) 11 = true ∧
    (d.tasteFails n c).reg Reg.SPR_TASTE_FAIL = wd (c.1 * 2 ^ 28 + c.2.1 * 2 ^ 22 + c.2.2.1 * 2 ^ 16 + c.2.2.2) := by
  have h : d.tasteFails n c = ((d.roundFailed c).spareUnfit n 4).logBit 0xC0 0 11 0 [] := rfl
  have hb : bit ((d.roundFailed c).reg Reg.SPR_STATUS) 8 = true := latchBit_sets _ _ _ (by decide)
  have hp : (d.roundFailed c).spr = { d.spr with last := c.1 } := by
    rw [Dev.roundFailed, Dev.latchBit_spr, Dev.setReg_spr, Dev.inc_spr, Dev.inc_spr]
  have hw : (d.roundFailed c).reg Reg.SPR_TASTE_FAIL = wd (c.1 * 2 ^ 28 + c.2.1 * 2 ^ 22 + c.2.2.1 * 2 ^ 16 + c.2.2.2) :=
    (Dev.reg_latchBit_ne _ (by decide)).trans (Dev.reg_setReg_same _ _ _)
  obtain ⟨u1, u2, u3, u4, u5⟩ := spareUnfit_shows (d.roundFailed c) n 4
  rw [h, slice_of_slices (Dev.logBit_slices _ _ _ _ _ _), Dev.logBit_spr, reg_logBit (h := by decide), reg_logBit (h := by decide), u2, hp]
  exact ⟨u1, rfl, rfl, rfl, (u4 8 (by decide) (by decide)).trans hb, u3, (u5 _ (by decide)).trans hw⟩

/-! ## Forced moves (R416, R429 to R431) -/

theorem forceFail_word (n : BitVec 4) : fld (wd (1 * 2 ^ 28 + n.toNat * 2 ^ 8)) 31 28 = 1 ∧
    fld (wd (1 * 2 ^ 28 + n.toNat * 2 ^ 8)) 11 8 = n.toNat := by
  revert n
  decide

theorem forceMove_word (g : Fin 8) : fld (wd (2 * 2 ^ 28 + g)) 31 28 = 2 ∧ fld (wd (2 * 2 ^ 28 + g)) 2 0 = g := by
  revert g
  decide

theorem forceWrite_fail {d : Dev} {v : Word} {n : Nat} (h : d.forceActs = false) (h1 : fld v 31 28 = 1) (h2 : fld v 11 8 = n)
    (hc : d.spr.cellar = false) (hn : n < 9) (ha : (d.slice n).st = .active) :
    d.forceWrite v = (d.declare n 3).forceResult v 0 := by
  simp only [Dev.forceWrite, h, Bool.false_eq_true, if_false, h1, h2, Dev.forceFail, hc, if_neg (Nat.not_le.mpr hn), ha]

theorem forceWrite_move {d : Dev} {v : Word} {g k x : Nat} (h : d.forceActs = false) (h1 : fld v 31 28 = 2) (h2 : fld v 2 0 = g)
    (hc : d.spr.cellar = false) (hk : d.fitSpare = some k) (hx : d.holder g = some x) (hn : d.spr.claims.getD g 0 < 0xFFF0) :
    d.forceWrite v = (d.beginMove k x g).forceResult v 0 := by
  simp only [Dev.forceWrite, h, Bool.false_eq_true, if_false, h1, h2, Dev.forceMove, hc, hk, hx, if_neg (Nat.not_le.mpr hn)]

theorem forceWrite_cellar {d : Dev} (h : d.forceActs = false) (hc : d.spr.cellar = false) :
    d.forceWrite 0x30000000#32 = (d.enterCellar 5).forceResult 0x30000000#32 0 := by
  have h3 : fld 0x30000000#32 31 28 = 3 := by decide
  simp only [Dev.forceWrite, h, Bool.false_eq_true, if_false, h3, Dev.forceCellar, hc]

theorem forceResult_status (d : Dev) (v : Word) (r : Nat) : (d.forceResult v r).reg Reg.SPR_STATUS = d.reg Reg.SPR_STATUS :=
  Dev.reg_setReg_ne _ _ (by decide)

theorem forceResult_reads (d : Dev) (v : Word) (r : Nat) :
    (d.forceResult v r).reg Reg.SPR_FORCE = setFld (v &&& 0xF0000F07#32) 27 24 r := Dev.reg_setReg_same _ _ _

theorem forceCellar_word : setFld (0x30000000#32 &&& 0xF0000F07#32) 27 24 0 = 0x30000000#32 := by decide

/-- The holder of the port group drains, fenced, and the spare is to rack for it (R416). -/
theorem beginMove_moves (d : Dev) (k h g : Nat) : ((d.beginMove k h g).slice h).st = .draining ∧ ((d.beginMove k h g).slice h).pg = none ∧
    (d.beginMove k h g).fenced h g = true ∧
    (d.beginMove k h g).spr.rack = some { spare := k, pg := g, old := h, move := true, begun := false, since := d.time.tsc } := by
  have hs : (d.beginMove k h g).slice h = { (d.fence h g).slice h with st := .draining, pg := none } :=
    Dev.slice_modSlice_same (d.fence h g) h fun x => { x with st := .draining, pg := none }
  rw [hs]
  exact ⟨rfl, rfl, fenced_fence d h g, rfl⟩

theorem rackEnds_ok {d : Dev} {r : Rack} (h : d.spr.rack = some r) (hb : r.begun = true) (ht : d.tableLost = false) :
    d.rackEnds true = d.claimWritten r := by
  simp only [Dev.rackEnds, h, hb, ht, Bool.not_true, Bool.not_false, Bool.false_eq_true, if_false, and_self, if_true]

theorem rackEnds_fails {d : Dev} {r : Rack} (h : d.spr.rack = some r) (hb : r.begun = true) : d.rackEnds false = d.rackFail r := by
  simp only [Dev.rackEnds, h, hb, Bool.not_true, Bool.false_eq_true, if_false, false_and]

theorem rackOverruns_fails {d : Dev} {r : Rack} (h : d.spr.rack = some r) (ht : r.since + 2 * 10 ^ 6 ≤ d.time.tsc) :
    d.rackOverruns = d.rackFail r := by
  simp only [Dev.rackOverruns, h, if_pos ht]

theorem rackOverruns_waits {d : Dev} (h : ∀ r ∈ d.spr.rack, d.time.tsc < r.since + 2 * 10 ^ 6) : d.rackOverruns = d := by
  unfold Dev.rackOverruns
  split
  · rfl
  · rename_i r hr
    exact if_neg (Nat.not_le.mpr (h r hr))

/-- Racking begins at the spare (R410). -/
theorem rackBegins_racks {d : Dev} {r : Rack} (h : d.spr.rack = some r) (hb : r.begun = false) :
    d.rackBegins = ({ d with spr := { d.spr with rack := some { r with begun := true }, tasting := false } } : Dev).modSlice r.spare
      fun x => { x with st := .racking, pg := some r.pg } := by
  simp only [Dev.rackBegins, h, hb, Bool.false_eq_true, if_false]

theorem claims_set {l : List Nat} {i : Nat} (v w : Nat) (h : i < l.length) : (l.set i v).getD i w = v := by simp [List.getD, h]

/-- Settles O51: each row by what it makes of the sequencer and the slices. -/
theorem spares : Obligations.Spares := by
  unfold Obligations.Spares
  refine ⟨fun s n hc hh => ?_, fun s n g k hc hh hce hv hg hk => ?_, fun s r hc hr hb => ?_, fun s r hc hr hb ht hg hl hl' => ?_,
    fun s r hc hr hb hce => ?_, fun s r hc hr ht hce => ?_, fun s hc h => ?_, fun s n g hc => ?_, fun s n hc hce hd => ?_,
    fun s n hc hd => ?_, fun s hc => ?_, fun s n hc hr hn ht => ?_, fun s n r hc hr hn ht hp => ?_, fun s n hc hr hn ht => ?_,
    fun s n hc hl hf hce hn ha => ?_, fun s g k h hc hl hf hce hk hx hn => ?_, fun s hc hl hf hce => ?_, fun s hc hl => ?_,
    fun s r hc hr => ⟨?_, ?_⟩⟩
  case refine_1 =>
    refine yields_of_actIn (fun d => if d.hung n then d.declare n 2 else d) rfl hc ?_
    rw [if_neg (by simp [hh])]
    rfl
  case refine_2 =>
    obtain ⟨f1, f2, f3, -, f4, f5, -, -, -, f6⟩ := fails_shows s.dev n 2 g
    exact ⟨_, yields_of_actIn (fun d => if d.hung n then d.declare n 2 else d) rfl hc
      (congrArg s.dev.keep ((if_pos hh).trans (declare_active hce hv (hung_active hh) hg hk))), f1, f2, f3, f4, f5, f6, rfl⟩
  case refine_3 =>
    refine ⟨_, yields_of_actIn Dev.rackBegins rfl hc (congrArg s.dev.keep (rackBegins_racks hr hb)), rfl, rfl, ?_, ?_, fun m hm => ?_⟩
    · exact congrArg Slice.st (Dev.slice_modSlice_same _ _ fun x => { x with st := .racking, pg := some r.pg })
    · exact congrArg Slice.pg (Dev.slice_modSlice_same _ _ fun x => { x with st := .racking, pg := some r.pg })
    · exact Dev.slice_modSlice_ne _ (fun x => { x with st := .racking, pg := some r.pg }) hm
  case refine_4 =>
    obtain ⟨c1, c2, c3, c4, c5⟩ := claimWritten_claims s.dev r
    refine ⟨_, yields_of_actIn (fun d => d.rackEnds true) rfl hc (congrArg s.dev.keep (rackEnds_ok hr hb ht)), c1, c2, ?_, ?_, ?_, c3, c5⟩
    · exact (congrArg (fun x : Spr => x.claims.getD r.pg 0) c4).trans (claims_set _ _ (by omega))
    · exact (congrArg (fun x : Spr => x.lastHolder.getD r.pg 0) c4).trans (claims_set _ _ (by omega))
    · exact congrArg Spr.rack c4
  case refine_5 => exact yields_of_actIn (fun d => d.rackEnds false) rfl hc (congrArg s.dev.keep (rackEnds_fails hr hb))
  case refine_6 =>
    exact ⟨_, yields_of_actIn Dev.rackOverruns rfl hc (congrArg s.dev.keep (rackOverruns_fails hr ht)), rackFail_shows r hce⟩
  case refine_7 => exact yields_of_actIn Dev.rackOverruns rfl hc (congrArg s.dev.keep (rackOverruns_waits h))
  case refine_8 =>
    refine yields_of_actIn (fun d => if d.claimEnabled n g then d else d.inc bankSpr 16) rfl hc ?_
    split
    · rfl
    · exact keep_inc _ _ rfl
  case refine_9 =>
    refine ⟨_, yields_of_actIn (fun d => d.drainDone n) rfl hc (congrArg s.dev.keep (if_neg (by simp [hce, hd]))), ?_, rfl, rfl, rfl,
      fun m hm => ?_, rfl⟩
    · exact Dev.slice_setSlice_same s.dev n { st := .spare, pg := none, srch := (s.dev.slice n).srch }
    · exact Dev.slice_setSlice_ne s.dev { st := .spare, pg := none, srch := (s.dev.slice n).srch } hm
  case refine_10 => exact yields_of_actIn (fun d => d.drainDone n) rfl hc (congrArg s.dev.keep (if_pos (Or.inr (by simp [hd]))))
  case refine_11 =>
    refine yields_of_actIn (fun d => if d.mayTaste then { d with spr := { d.spr with tasting := true } } else d) rfl hc ?_
    split <;> rfl
  case refine_12 =>
    refine yields_of_actIn (fun d => d.tasteEnds (tasteCode .pass)) rfl hc ?_
    rw [tasteEnds_passes hn ht hr rfl]
    exact keep_inc _ _ rfl
  case refine_13 =>
    exact yields_of_actIn (fun d => d.tasteEnds (tasteCode r)) rfl hc (congrArg s.dev.keep (tasteEnds_fails hn ht hr (tasteCode_fails hp)))
  case refine_14 =>
    exact ⟨_, yields_of_actIn (fun d => d.tasteEnds (5, 0, 0, 0)) rfl hc
      (congrArg s.dev.keep (tasteEnds_fails hn ht hr (by decide))), tasteFails_shows s.dev n (5, 0, 0, 0)⟩
  case refine_15 =>
    exact yields_of_actReg (fun d => if d.locked 2 then d.lockedWrite .bar0 Reg.SPR_FORCE
        else d.forceWrite (wd (1 * 2 ^ 28 + n.toNat * 2 ^ 8))) rfl hc
      (congrArg s.dev.keep ((if_neg (by simp [hl])).trans
        (forceWrite_fail hf (forceFail_word n).1 (forceFail_word n).2 hce hn ha)))
  case refine_16 =>
    exact ⟨_, yields_of_actReg (fun d => if d.locked 2 then d.lockedWrite .bar0 Reg.SPR_FORCE
        else d.forceWrite (wd (2 * 2 ^ 28 + g))) rfl hc
      (congrArg s.dev.keep ((if_neg (by simp [hl])).trans
        (forceWrite_move hf (forceMove_word g).1 (forceMove_word g).2 hce hk hx hn))), beginMove_moves s.dev k h g⟩
  case refine_17 =>
    obtain ⟨e1, e2, e3, -, e5, -⟩ := enterCellar_enters 5 hce
    refine ⟨_, yields_of_actReg (fun d => if d.locked 2 then d.lockedWrite .bar0 Reg.SPR_FORCE
        else d.forceWrite 0x30000000#32) rfl hc
      (congrArg s.dev.keep ((if_neg (by simp [hl])).trans (forceWrite_cellar hf hce))), e1, e2, e3, ?_, ?_⟩
    · rw [reg_keep, forceResult_status]
      exact e5
    · rw [reg_keep, forceResult_reads]
      exact forceCellar_word
  case refine_18 =>
    exact yields_of_actReg (fun d => if d.locked 2 then d.lockedWrite .bar0 Reg.SPR_FORCE
      else d.forceWrite 0x30000000#32) rfl hc (congrArg s.dev.keep (if_pos hl))
  case refine_19 => exact yields_of_actIn (fun d => d.tasteEnds (tasteCode r)) rfl hc (congrArg s.dev.keep (tasteEnds_chosen _ hr))
  case refine_20 => exact yields_of_actIn (fun d => d.tasteEnds (5, 0, 0, 0)) rfl hc (congrArg s.dev.keep (tasteEnds_chosen _ hr))

end Sys2Proof.Machine
end

section
/-! Requests of the mailbox (R436 to R456, R482). -/
namespace Sys2Proof.Machine

/-! ## The service of a request (R436, R445) -/

/-- A request that waits is served by its row with its payload. -/
theorem yields_of_request {c : Instr} {s : State} {src : MbxSrc} {req : Nat} {e : Dev} (given : Bytes) (f : Dev → Nat → Bytes → Dev)
    (hx : exec c s = actMgmt c src req given s f) (hw : Waits src req s)
    (he : s.dev.keep (f s.dev (srcCode src) (s.dev.mbxPayload (srcCode src) given)) = e) : Yields c s e :=
  yields_of_actIn (fun d => d.serve src req given f) hx hw.1.1 (by rw [serve_waits given f hw, he])

/-- So is one that may write the flash. -/
theorem yields_of_requestNvm {c : Instr} {s : State} {src : MbxSrc} {req : Nat} {e : Dev} (given : Bytes) (f : Dev → Nat → Bytes → Dev)
    (hx : exec c s = actMgmtNvm c src req given s f) (hw : Waits src req s)
    (he : s.dev.keepNvm (f s.dev (srcCode src) (s.dev.mbxPayload (srcCode src) given)) = e) : Yields c s e :=
  yields_of_actNvmIn (fun d => d.serve src req given f) hx hw.1.1 (by rw [serve_waits given f hw, he])

/-! ## What the end of a request leaves (R437, R438) -/

/-- The boot state and the nonce, which no end of a request touches. -/
def Dev.bootNonce (d : Dev) : Boot × Option (Bytes × Nat) := (d.boot, d.mgmt.nonce)

theorem bootNonce_inc (d : Dev) (b i : Nat) : (d.inc b i).bootNonce = d.bootNonce := by rw [Dev.inc, bump_eq]; rfl

theorem bootNonce_endEnt (d : Dev) (q : Nat) (e : SqEnt) (status len result : Nat) (more : Bool) :
    (d.endEnt q e status len result more).bootNonce = d.bootNonce := by
  unfold Dev.endEnt
  extract_lets u e1 d1 d2
  have h2 : d2.bootNonce = d.bootNonce := by
    unfold d2
    split
    · exact bootNonce_inc _ _ _
    · rfl
  split
  · exact h2
  · exact h2

theorem bootNonce_dmaOut (d : Dev) (a : Nat) (bs : Bytes) : (d.dmaOut a bs).bootNonce = d.bootNonce := by
  unfold Dev.dmaOut Dev.dmaWrites
  split
  · rw [dmaEmit_frame]; rfl
  · rfl

theorem bootNonce_ringEnds (d : Dev) (q result : Nat) (resp : Bytes) : (d.ringEnds q result resp).bootNonce = d.bootNonce := by
  unfold Dev.ringEnds
  split
  · rfl
  · rw [bootNonce_endEnt]
    split
    · rfl
    · exact bootNonce_dmaOut _ _ _

theorem bootNonce_regsEnd (d : Dev) (result : Nat) (resp : Bytes) : (d.regsEnd result resp).bootNonce = d.bootNonce := by
  have h : (d.setMbxData resp).bootNonce = d.bootNonce := by
    unfold Dev.setMbxData
    exact foldl_field Dev.bootNonce (fun d (p : Nat × Word) => d.setReg (Reg.MGMT_MBX_DATA p.1) p.2) (fun _ _ => rfl) _ _
  exact h

theorem bootNonce_mbxGive (d : Dev) (src result : Nat) (resp : Bytes) : (d.mbxGive src result resp).bootNonce = d.bootNonce := by
  unfold Dev.mbxGive
  split
  · exact bootNonce_regsEnd _ _ _
  · split
    · rfl
    · exact bootNonce_ringEnds _ _ _ _

theorem bootNonce_mbxEnd (d : Dev) (src result : Nat) (resp : Bytes) : (d.mbxEnd src result resp).bootNonce = d.bootNonce := by
  unfold Dev.mbxEnd
  extract_lets fits r d1 d2
  have h1 : d1.bootNonce = d.bootNonce := bootNonce_inc _ _ _
  have h2 : d2.bootNonce = d1.bootNonce := by
    unfold d2
    split
    · rfl
    · exact bootNonce_inc _ _ _
  rw [bootNonce_mbxGive, h2, h1]

/-! ## The event log and its clear (R451 to R454) -/

theorem evtRead_records {d : Dev} {p : Bytes} {a n : Nat} (c : Nat) (hp : 8 ≤ p.length) (ha : a = unle (Machine.slice p 0 4))
    (hn : n = unle (Machine.slice p 4 4)) (h0 : 0 < n) (h1 : n ≤ 1024) (h2 : a + n ≤ d.mgmt.nextSlot) :
    d.evtRead c p = d.mbxEnd c mOk ((List.range n).flatMap fun i => d.eventAt (a + i)) := by
  subst ha hn
  unfold Dev.evtRead
  extract_lets first count k
  have hk : k = count := Nat.min_eq_left (by omega)
  rw [if_neg (by omega), hk]

theorem evtRead_beyond {d : Dev} {p : Bytes} (c : Nat) (h : d.mgmt.nextSlot ≤ unle (Machine.slice p 0 4)) :
    d.evtRead c p = d.mbxEnd c mBadArg [] := if_pos (Or.inr (Or.inr (Or.inr h)))

theorem length_le (n x : Nat) : (le n x).length = n := by
  induction n generalizing x with
  | zero => rfl
  | succ n ih => rw [le, List.length_cons, ih]

/-- A nonce of 32 bytes is issued with its time (R452). -/
theorem evtNonce_issues (d : Dev) (c : Nat) : ∃ n : Bytes, n.length = 32 ∧ (d.evtNonce c).mgmt.nonce = some (n, d.time.tsc) :=
  ⟨le 32 d.takeFree.1, length_le _ _, congrArg Prod.snd (bootNonce_mbxEnd
    ({ d.takeFree.2 with mgmt := { d.takeFree.2.mgmt with nonce := some (le 32 d.takeFree.1, d.time.tsc) } } : Dev) c mOk
    (le 32 d.takeFree.1))⟩

theorem updating_idle {d : Dev} (h1 : d.mgmt.fw.state = 0) (h2 : d.mgmt.clearing = none) :
    ¬ (d.updating = true ∨ d.mgmt.clearing.isSome = true) := by simp [Dev.updating, h1, h2]

/-- A clear ends BUSY during an update or another clear (R463). -/
theorem evtClear_busy {d : Dev} (c : Nat) (p : Bytes) (h : d.mgmt.fw.state ≠ 0 ∨ d.mgmt.clearing ≠ none) :
    d.evtClear c p = d.mbxEnd c mBusy [] :=
  if_pos (h.imp (fun h => by simp [Dev.updating, h]) fun h => Option.isSome_iff_ne_none.mpr h)

/-- With neither, the checks go on with the lock. -/
theorem evtClear_locked {d : Dev} (c : Nat) (p : Bytes) (h : ¬ (d.updating = true ∨ d.mgmt.clearing.isSome = true))
    (hl : d.locked lockNvm = true) : d.evtClear c p = d.mbxEnd c mLocked [] := (if_neg h).trans (if_pos hl)

theorem evtClear_noOwner {d : Dev} (c : Nat) (p : Bytes) (h : ¬ (d.updating = true ∨ d.mgmt.clearing.isSome = true))
    (hl : d.locked lockNvm = false) (ho : d.mgmt.ownerHash = none) : d.evtClear c p = d.mbxEnd c mNoOwner [] := by
  simp only [Dev.evtClear, if_neg h, hl, Bool.false_eq_true, if_false, ho]

theorem evtClear_short {d : Dev} {p hash : Bytes} (c : Nat) (h : ¬ (d.updating = true ∨ d.mgmt.clearing.isSome = true))
    (hl : d.locked lockNvm = false) (ho : d.mgmt.ownerHash = some hash) (hp : p.length < 193) :
    d.evtClear c p = d.mbxEnd c mBadArg [] := by
  simp only [Dev.evtClear, if_neg h, hl, Bool.false_eq_true, if_false, ho, if_pos hp]

theorem evtClear_stale {d : Dev} {p hash : Bytes} (c : Nat) (h : ¬ (d.updating = true ∨ d.mgmt.clearing.isSome = true))
    (hl : d.locked lockNvm = false) (ho : d.mgmt.ownerHash = some hash) (hp : 193 ≤ p.length) (hn : d.liveNonce = none) :
    d.evtClear c p = d.authFail c := by
  simp only [Dev.evtClear, if_neg h, hl, Bool.false_eq_true, if_false, ho, if_neg (Nat.not_lt.mpr hp), hn]

/-- With a live nonce the owner's signature decides (R453). -/
theorem evtClear_signed {d : Dev} {p hash nonce : Bytes} (c : Nat) (h : ¬ (d.updating = true ∨ d.mgmt.clearing.isSome = true))
    (hl : d.locked lockNvm = false) (ho : d.mgmt.ownerHash = some hash) (hp : 193 ≤ p.length) (hn : d.liveNonce = some nonce) :
    d.evtClear c p = if clearAuthorised hash nonce p then d.clearStarts c hash nonce else d.authFail c := by
  simp only [Dev.evtClear, if_neg h, hl, Bool.false_eq_true, if_false, ho, if_neg (Nat.not_lt.mpr hp), hn]

theorem clearStarts_erases {d : Dev} (c : Nat) (hash nonce : Bytes) (h : d.mgmt.nextSlot ≠ 0) :
    (d.clearStarts c hash nonce).mgmt.nonce = none ∧
      (d.clearStarts c hash nonce).mgmt.clearing = some (c, d.mgmt.nextSlot - 1, hash.take 8, nonce.take 8) := by
  have hl : d.lastRecord = (d.mgmt.nextSlot - 1, d) := if_neg h
  rw [Dev.clearStarts, hl]
  exact ⟨rfl, rfl⟩

/-! ## Fuses and the flash (R456, R474, R482) -/

theorem ownerFuse_fuses {d : Dev} {p : Bytes} (c : Nat) (hl : d.locked lockFuse = false) (ho : d.mgmt.ownerHash = none)
    (hp : 48 ≤ p.length) : d.ownerFuse c p = Dev.mbxEnd { d with mgmt := { d.mgmt with ownerHash := some (p.take 48) } } c mOk [] :=
  (if_neg (by simp [hl])).trans (if_neg (by simp [ho, hp]))

theorem nvmRead_reads {d : Dev} {p : Bytes} {a n : Nat} (c : Nat) (hp : 8 ≤ p.length) (ha : a = unle (Machine.slice p 0 4))
    (hn : n = unle (Machine.slice p 4 4)) (h0 : 0 < n) (h1 : n ≤ 4096) (h2 : a + n ≤ nvEnd) :
    d.nvmRead c p = d.mbxEnd c mOk (d.nvRead a n) := by
  subst ha hn
  exact if_neg (by omega)

/-- A write whose region code is that of the row passes the checks of R463 and R482. -/
theorem nvmGate_passes {d : Dev} {p : Bytes} {codes : List Nat} (c : Nat) (f : Dev → Nat → Nat → Bytes → Dev) (h5 : 5 ≤ p.length)
    (hc : codes.contains (p.getD 0 0).toNat = true) (h3 : (p.getD 0 0).toNat ≤ 3)
    (h : ¬ (d.updating = true ∨ d.mgmt.clearing.isSome = true)) (hl : d.locked lockNvm = false) :
    d.nvmGate c p codes f = f d (p.getD 0 0).toNat (unle (Machine.slice p 1 4)) (p.drop 5) := by
  unfold Dev.nvmGate
  dsimp only
  rw [if_neg (fun hx => by rw [hc] at hx; exact absurd hx.2.2 (by decide)), if_neg h, if_neg (by simp [hl]), if_neg (by omega)]

/-- A half is selected by a boot header record. -/
theorem cfgSelect_selects {d : Dev} {c half : Nat} {data : Bytes} (hh : half ≤ 1) (hd : data = [] ∨ 3 ≤ c) :
    (d.cfgSelect c half data true).boot.selected = half := by
  have hx : d.cfgSelect c half data true = ({ d.hdrWrite (hdrSetCfg half) with
      boot := { (d.hdrWrite (hdrSetCfg half)).boot with selected := half } } : Dev).mbxEnd c mOk [] :=
    if_neg (by rcases hd with hd | hd <;> simp [hd] <;> omega)
  rw [hx]
  generalize d.hdrWrite (hdrSetCfg half) = e
  exact congrArg (fun x : Boot × Option (Bytes × Nat) => x.1.selected)
    (bootNonce_mbxEnd ({ e with boot := { e.boot with selected := half } } : Dev) c mOk [])

/-- Erased bytes read 0xFF, and the others as before. -/
theorem nvErase_get (d : Dev) (a n b : Nat) :
    Tbl.get 0xFF#8 (d.nvErase a n).nvm b = if b < a ∨ a + n ≤ b then Tbl.get 0xFF#8 d.nvm b else 0xFF#8 := by
  have h := Tbl.get_filter_key 0xFF#8 (fun k => decide (k < a) || decide (a + n ≤ k)) d.nvm b
  simp only [Bool.or_eq_true, decide_eq_true_eq] at h
  exact h

/-- A write without data erases its region. -/
theorem regionWrite_erases (d : Dev) (c base size : Nat) :
    d.regionWrite c base size 0 [] true = (d.nvErase base size).mbxEnd c mOk [] := by
  simp [Dev.regionWrite]

theorem regionWrite_erased (d : Dev) (c base size : Nat) :
    (∀ b, base ≤ b → b < base + size → Tbl.get 0xFF#8 (d.regionWrite c base size 0 [] true).nvm b = 0xFF#8) ∧
    ∀ b, b < base ∨ base + size ≤ b → Tbl.get 0xFF#8 (d.regionWrite c base size 0 [] true).nvm b = Tbl.get 0xFF#8 d.nvm b := by
  rw [regionWrite_erases, nvm_mbxEnd]
  exact ⟨fun b h1 h2 => (nvErase_get _ _ _ _).trans (if_neg (by omega)), fun b h => (nvErase_get _ _ _ _).trans (if_pos h)⟩

/-! ## Requests that are not served (R436, R438, R445) -/

theorem badReq_ends {d : Dev} {src r : Nat} (h : d.mbxReqOf src r = some r) (ha : mbxAllowed src r = false)
    (hf : d.mbxFirst src = true) : d.badReq src r = d.mbxEnd src mBadReq [] := by
  simp only [Dev.badReq, h, ha, hf, Bool.not_true, Bool.false_eq_true, or_self, if_false]

theorem waitEnds_busy {d : Dev} {src r : Nat} (h : d.mbxReqOf src 0 = some r) :
    d.waitEnds src = (d.inc bankMgmt 4).mbxGive src mBusy [] := if_pos (by rw [h]; rfl)

/-- A write that passes the checks of R463 and R482 acts. -/
theorem yields_of_nvmWrite {c : Instr} {s : State} {src : MbxSrc} {p data : Bytes} {e : Dev} {codes : List Nat} {code off : Nat}
    (f : Nat → Dev → Nat → Nat → Bytes → Dev)
    (hx : exec c s = actMgmtNvm c src 10 [] s fun d c p => d.nvmGate c p codes (f c)) (hw : Waits src 10 s)
    (hp : p = s.dev.mbxPayload (srcCode src) []) (h5 : 5 ≤ p.length) (hcode : code = (p.getD 0 0).toNat)
    (hc : codes.contains code = true) (h3 : code ≤ 3) (hu : s.dev.mgmt.fw.state = 0) (hclear : s.dev.mgmt.clearing = none)
    (hl : s.dev.locked lockNvm = false) (hoff : off = unle (Machine.slice p 1 4)) (hd : data = p.drop 5)
    (he : s.dev.keepNvm (f (srcCode src) s.dev code off data) = e) : Yields c s e := by
  subst hp hcode hoff hd
  exact yields_of_requestNvm [] (fun d c p => d.nvmGate c p codes (f c)) hx hw
    ((congrArg s.dev.keepNvm (nvmGate_passes _ _ h5 hc h3 (updating_idle hu hclear) hl)).trans he)

/-- The half that is not selected is written as a region. -/
theorem halfWrite_writes {d : Dev} {c code off : Nat} {data : Bytes} {ok : Bool} (h : hdrCfg d.hdr ≠ code - 1) :
    d.halfWrite c code off data ok = d.regionWrite c (nvHalf (code - 1)) 0x04000000 off data ok := if_neg h

theorem drop_five {p : Bytes} (h : p.length = 5) : [] = p.drop 5 := (List.drop_eq_nil_of_le h.le).symm

/-- The codes of the configuration halves are those of the row that writes them. -/
theorem halfCode_listed {code : Nat} (h : code = 1 ∨ code = 2) : [1, 2].contains code = true ∧ code ≤ 3 := by
  rcases h with rfl | rfl <;> decide

/-- Settles O52: each request that waits is served by its row, whose checks pass in their order. -/
theorem mailbox : Obligations.Mailbox := by
  unfold Obligations.Mailbox
  refine ⟨fun s src hw => ?info, fun s src hw => ?sensors, fun s src given p a n hw hp h8 ha hn h0 h1 h2 => ?records,
    fun s src given p hw hp h => ?beyond, fun s src hw => ?nonce, fun s src hw h => ?clearBusy,
    fun s src hw hu hc => ⟨fun hl => ?clearLocked, fun hl ho => ?clearNoOwner⟩,
    fun s src hash p hw hu hc hl ho hp => ⟨fun h => ?clearShort, fun h hn => ?clearStale, fun h nonce hn => ?clearSigned⟩,
    fun d c hash nonce h => clearStarts_erases c hash nonce h, fun s src p hw hp hl ho h48 => ?fuses, fun s src hw hl => ?fuseLocked,
    fun s src p a n hw hp h8 ha hn h0 h1 h2 => ?reads, fun s src p half hw hp h5 hlen hcode hhalf h1 hu hc hl => ?selects,
    fun s src p code hw hp h5 hcode h12 hu hc hl hsel nvm => ?selectedHalf,
    fun s src p code a hw hp h5 hcode h12 hoff hu hc hl hsel ha => ?otherHalf,
    fun s src p hw hp h5 hcode hoff hlen hu hc hl => ?calibration, fun s src req hs hr ha hf => ?badReq, fun s src r hs hr => ?timeout⟩
  case info => exact yields_of_request [] (fun d c _ => d.mbxEnd c mOk d.infoBytes) rfl hw rfl
  case sensors => exact yields_of_request [] (fun d c _ => d.mbxEnd c mOk d.sensorBytes) rfl hw rfl
  case records =>
    subst hp
    exact yields_of_request given (fun d c p => d.evtRead c p) rfl hw (congrArg s.dev.keep (evtRead_records _ h8 ha hn h0 h1 h2))
  case beyond =>
    subst hp
    exact yields_of_request given (fun d c p => d.evtRead c p) rfl hw (congrArg s.dev.keep (evtRead_beyond _ h))
  case nonce =>
    have hy : Yields (.evtNonce src) s (s.dev.keep (s.dev.evtNonce (srcCode src))) :=
      yields_of_request [] (fun d c _ => d.evtNonce c) rfl hw rfl
    exact ⟨hy, _, hy, evtNonce_issues s.dev (srcCode src)⟩
  case clearBusy => exact yields_of_request [] (fun d c p => d.evtClear c p) rfl hw (congrArg s.dev.keep (evtClear_busy _ _ h))
  case clearLocked =>
    exact yields_of_request [] (fun d c p => d.evtClear c p) rfl hw
      (congrArg s.dev.keep (evtClear_locked _ _ (updating_idle hu hc) hl))
  case clearNoOwner =>
    exact yields_of_request [] (fun d c p => d.evtClear c p) rfl hw
      (congrArg s.dev.keep (evtClear_noOwner _ _ (updating_idle hu hc) hl ho))
  case clearShort =>
    subst hp
    exact yields_of_request [] (fun d c p => d.evtClear c p) rfl hw
      (congrArg s.dev.keep (evtClear_short _ (updating_idle hu hc) hl ho h))
  case clearStale =>
    subst hp
    exact yields_of_request [] (fun d c p => d.evtClear c p) rfl hw
      (congrArg s.dev.keep (evtClear_stale _ (updating_idle hu hc) hl ho h hn))
  case clearSigned =>
    subst hp
    exact yields_of_request [] (fun d c p => d.evtClear c p) rfl hw
      (congrArg s.dev.keep (evtClear_signed _ (updating_idle hu hc) hl ho h hn))
  case fuses =>
    subst hp
    exact yields_of_request [] (fun d c p => d.ownerFuse c p) rfl hw (congrArg s.dev.keep (ownerFuse_fuses _ hl ho h48))
  case fuseLocked => exact yields_of_request [] (fun d c p => d.ownerFuse c p) rfl hw (congrArg s.dev.keep (if_pos hl))
  case reads =>
    subst hp
    exact yields_of_request [] (fun d c p => d.nvmRead c p) rfl hw (congrArg s.dev.keep (nvmRead_reads _ h8 ha hn h0 h1 h2))
  case selects =>
    have hd : p.drop 5 = [] ∨ 3 ≤ srcCode src := hlen.imp_left fun h => (drop_five h).symm
    exact ⟨_, yields_of_nvmWrite (fun c d _ off data => d.cfgSelect c off data true) rfl hw hp h5 hcode.symm rfl (Nat.zero_le 3)
      hu hc hl hhalf rfl rfl, cfgSelect_selects h1 hd⟩
  case selectedHalf =>
    obtain ⟨hin, h3⟩ := halfCode_listed h12
    exact yields_of_nvmWrite (fun c d code off data => d.halfWrite c code off data (nvm == .good)) rfl hw hp h5 hcode hin h3 hu hc hl
      rfl rfl (congrArg s.dev.keepNvm (if_pos hsel))
  case otherHalf =>
    obtain ⟨hin, h3⟩ := halfCode_listed h12
    subst ha
    exact ⟨_, yields_of_nvmWrite (fun c d code off data => d.halfWrite c code off data true) rfl hw hp h5.ge hcode hin h3 hu hc hl
      hoff.symm (drop_five h5) (congrArg s.dev.keepNvm (halfWrite_writes hsel)), regionWrite_erased _ _ _ _⟩
  case calibration =>
    exact ⟨_, yields_of_nvmWrite (fun c d _ off data => d.regionWrite c nvCal 0x00100000 off data true) rfl hw hp h5 hcode.symm rfl
      (Nat.le_refl 3) hu hc hl hoff.symm (drop_five hlen) rfl, regionWrite_erased _ _ _ _⟩
  case badReq =>
    exact yields_of_serving (fun d => d.badReq (srcCode src) req.toNat) rfl hs (congrArg s.dev.keep (badReq_ends hr ha hf))
  case timeout => exact yields_of_serving (fun d => d.waitEnds (srcCode src)) rfl hs (congrArg s.dev.keep (waitEnds_busy hr))

end Sys2Proof.Machine
end
